-- ==== Sys2Proof/Word.lean ====
section
/-! DEFINITION. The word types: a register or a signal is 32 bits, a memory cell is a byte. -/

namespace Sys2Proof

/-- A register, a signal or a bus word: 32 bits (R7, R16). -/
abbrev Word := BitVec 32

/-- A memory cell: 8 bits, little-endian within a word (R7). -/
abbrev Byte := BitVec 8

end Sys2Proof
end

