-- ==== Sys2Proof/Syntax.lean ====
section
/-! DEFINITION. The commands of the block, one constructor per row of the opcode table, and the kinds of their
operands. A command names the lane it reaches. -/

namespace Sys2Proof.Machine

/-- The lanes of a module (R5, R17). -/
inductive Lane where
  | a | b | c
deriving DecidableEq, Repr

/-- The two Rope links of a lane (chapter 9). -/
inductive Link where
  | l0 | l1
deriving DecidableEq, Repr

/-- The masters of R505. -/
inductive Master where
  | triad | tc1 | tc2 | svc | dbg | le0 | le1 | pipe | ropeRx | cdeRx | skim | nvmc | secEng | bist
deriving DecidableEq, Repr

/-- Who makes a register access: the master and the world of the request (R354, R505). -/
structure Req where
  m : Master
  secure : Bool
deriving DecidableEq, Repr

/-- An axis, X0 to X3 (R24). -/
abbrev Axis := Fin 4

/-- What ECC makes of the words that a step reads: no error, a corrected error, an uncorrectable one (R188, R512). -/
inductive Ecc where
  | ok | corrected | bad
deriving DecidableEq, Repr

/-- A core: the triad (TC_0 in split mode), TC_1 and TC_2 of split mode, the service core (R350, R380). -/
inductive Core where
  | tc0 | tc1 | tc2 | svc
deriving DecidableEq, Repr

/-- The category of a difference that one core shows (R326, R327). -/
inductive MisCat where
  | bus | rf | pc | cr | exc | par
deriving DecidableEq, Repr

/-- What the voter finds in the voting cycle of an item (R328 to R330): no difference, one odd core, no majority, or two
comparators whose verdicts differ, with the core that CMP_P names (3: none). `idx` is the index of R327's item. -/
inductive Verdict where
  | agree
  | odd (core : Fin 3) (cat : MisCat) (idx : BitVec 5)
  | noMajority (cat : MisCat) (idx : BitVec 5)
  | compare (named : Fin 4)
deriving DecidableEq, Repr

/-- The issue of an instruction by a core: the verdict on it, what ECC makes of its fetch and of its data, and the cycles
that its access waits for a grant, a wake or Lath (R325, R328, R369). -/
structure Issue where
  core : Core
  vote : Verdict
  fetchEcc : Ecc
  dataEcc : Ecc
  wait : BitVec 16
deriving DecidableEq, Repr

end Sys2Proof.Machine

namespace Sys2Proof

open Sys2Proof.Machine

/-- The commands; each docstring gives the mnemonic and the rule of the row. -/
inductive Instr where
  /-- POWER_ON_RESET (R355). -/
  | powerOnReset (l : Lane) (ball : Bool)
  /-- LANE_RESET (R273). -/
  | laneReset (l : Lane)
  /-- BROWN_OUT (R469). -/
  | brownOut (l : Lane)
  /-- REGISTER_WRITE (R8). -/
  | registerWrite (l : Lane) (q : Req) (a w : Word)
  /-- BLOCK_LOCK (R8). -/
  | blockLock (l : Lane) (q : Req) (a w : Word)
  /-- SYS_TICK_WRITE (R42). -/
  | sysTickWrite (l : Lane) (q : Req) (w : Word)
  /-- SYS_TIME_LO_READ (R29). -/
  | sysTimeLoRead (l : Lane) (q : Req)
  /-- SYS_TIME_HI_READ (R29). -/
  | sysTimeHiRead (l : Lane) (q : Req)
  /-- LATH_REQUEST (R19). -/
  | lathRequest (l : Lane) (q : Req) (write : Bool) (addr w : Word)
  /-- LATH_FRAME_RECEIVED (R19). -/
  | lathFrameReceived (l : Lane) (crcOk : Bool)
  /-- PERIOD_BOUNDARY (R43). -/
  | periodBoundary (l : Lane)
  /-- FIELD_TICK_BOUNDARY (R43). -/
  | fieldTickBoundary (l : Lane)
  /-- TIME_FRAME_SEND (R30). -/
  | timeFrameSend (l : Lane) (stamp0 stamp1 : BitVec 64)
  /-- TIME_FRAME_RECEIVED (R31). -/
  | timeFrameReceived (l : Lane) (k : Link) (stamp : BitVec 64) (crcOk : Bool)
  /-- TIME_REPORT_SEND (R30). -/
  | timeReportSend (l : Lane)
  /-- TIME_REPORT_RECEIVED (R31). -/
  | timeReportReceived (l : Lane) (k : Link) (crcOk : Bool)
  /-- ALIGN_CORRECTION (R33). -/
  | alignCorrection (l : Lane)
  /-- PAIR_OFFSET_LAPSE (R31). -/
  | pairOffsetLapse (l x y : Lane)
  /-- TIME_SUSPECT_RAISE (R36). -/
  | timeSuspectRaise (l y : Lane)
  /-- TIME_SUSPECT_CLEAR (R36). -/
  | timeSuspectClear (l y : Lane)
  /-- TICK_PARAM_RECEIVED (R44). -/
  | tickParamReceived (l : Lane) (k : Link) (crcOk : Bool)
  /-- CLOCK_LOSS (R47). -/
  | clockLoss (l : Lane) (island : Fin 14)
  /-- HANDSHAKE_TIMEOUT (R47). -/
  | handshakeTimeout (l : Lane) (island : Fin 14) (m : Master)
  /-- OSC_FAIL (R48). -/
  | oscFail (l : Lane)
  /-- ROPE_BLOCK_SEND (R601). -/
  | ropeBlockSend (l : Lane) (k : Link)
  /-- ROPE_BLOCK_RECEIVED (R51). -/
  | ropeBlockReceived (l : Lane) (k : Link) (crcOk : Bool)
  /-- IDLE_FRAME_SEND (R321). -/
  | idleFrameSend (l : Lane) (k : Link)
  /-- ROPE_LINK_DOWN (R322). -/
  | ropeLinkDown (l : Lane) (k : Link) (silent : Bool)
  /-- ROPE_LINK_UP (R322). -/
  | ropeLinkUp (l : Lane) (k : Link)
  /-- SKIM_JOB_DUE (R53). -/
  | skimJobDue (l : Lane) (j : Fin 16)
  /-- SKIM_STEP_PREEMPT (R55). -/
  | skimStepPreempt (l : Lane) (j : Fin 16)
  /-- DLCAL (R235). -/
  | dlcal (l : Lane) (j : Fin 16) (n16 : BitVec 12)
  /-- ADCZERO (R67). -/
  | adczero (l : Lane) (j : Fin 16) (code : BitVec 14)
  /-- SCRUB (R515). -/
  | scrub (l : Lane) (j : Fin 16) (cor : BitVec 8) (bad : Bool)
  /-- NVSCRUB (R518). -/
  | nvscrub (l : Lane) (j : Fin 16) (cor : BitVec 7) (line : BitVec 6) (bad : Bool)
  /-- REPAIR (R516). -/
  | repair (l : Lane) (j : Fin 16) (bad : Bool)
  /-- REFX (R571). -/
  | refx (l : Lane) (j : Fin 16) (uv : Word)
  /-- AVSMON (R477). -/
  | avsmon (l : Lane) (j : Fin 16) (count : BitVec 24)
  /-- SHUNTZ (R259). -/
  | shuntz (l : Lane) (j : Fin 16) (u v w : BitVec 8)
  /-- SKIM_ENABLE (R53). -/
  | skimEnable (l : Lane) (q : Req) (en : Bool)
  /-- SKIM_HOLD (R53). -/
  | skimHold (l : Lane) (q : Req) (hold : Bool)
  /-- SKIM_CLR_CNT (R12). -/
  | skimClrCnt (l : Lane) (q : Req)
  /-- ADC_CONVERSION_COMPLETE (R65). -/
  | adcConversionComplete (l : Lane) (n : Axis) (cu cv cw cs cc : BitVec 14) (onU onV onW : Bool)
  /-- HK_CONVERSION (R64). -/
  | hkConversion (l : Lane) (ch : Fin 32) (code : BitVec 12)
  /-- DECODE (R105). -/
  | decode (l : Lane) (n : Axis)
  /-- ESTIMATE (R138). -/
  | estimate (l : Lane) (n : Axis)
  /-- PROFILE (R164). -/
  | profile (l : Lane) (n : Axis)
  /-- SHARE_RECORD_QUEUE (R71). -/
  | shareRecordQueue (l : Lane) (n : Axis)
  /-- SHARE_RECORD_RECEIVED (R79). -/
  | shareRecordReceived (l : Lane) (k : Link) (crcOk : Bool) (at5ns : Nat)
  /-- MEDIAN (R80). -/
  | median (l : Lane) (n : Axis)
  /-- STATE_DEV_RAISE (R83). -/
  | stateDevRaise (l : Lane) (n : Axis) (y : Lane)
  /-- COMMIT_TICK (R74). -/
  | commitTick (l : Lane) (n : Axis)
  /-- PROMPT_COMMIT (R75). -/
  | promptCommit (l : Lane) (n : Axis)
  /-- FIELD (R152). -/
  | field (l : Lane) (n : Axis)
  /-- EDGE_LOAD (R223). -/
  | edgeLoad (l : Lane) (n : Axis) (done : BitVec 22)
  /-- MONITOR_CHECK_FIRE (R89). -/
  | monitorCheckFire (l : Lane) (n : Axis) (k : Fin 8)
  /-- VLIM_SET (R155). -/
  | vlimSet (l : Lane) (n : Axis)
  /-- VLIM_CLEAR (R155). -/
  | vlimClear (l : Lane) (n : Axis)
  /-- ARM (R93). -/
  | arm (l : Lane) (n : Axis) (q : Req) (at8 : BitVec 8)
  /-- DISARM (R93). -/
  | disarm (l : Lane) (n : Axis) (q : Req) (at8 : BitVec 8)
  /-- START (R158). -/
  | start (l : Lane) (n : Axis) (q : Req) (at8 : BitVec 8)
  /-- STOP (R93). -/
  | stop (l : Lane) (n : Axis) (q : Req) (at8 : BitVec 8)
  /-- HOLD (R93). -/
  | hold (l : Lane) (n : Axis) (q : Req) (at8 : BitVec 8)
  /-- RESUME (R93). -/
  | resume (l : Lane) (n : Axis) (q : Req) (at8 : BitVec 8)
  /-- FREE (R93). -/
  | free (l : Lane) (n : Axis) (q : Req) (at8 : BitVec 8)
  /-- ASC (R93). -/
  | asc (l : Lane) (n : Axis) (q : Req) (at8 : BitVec 8)
  /-- AXP_CMD_DUE (R94). -/
  | axpCmdDue (l : Lane) (n : Axis)
  /-- STOP_REACH_ASC (R93). -/
  | stopReachAsc (l : Lane) (n : Axis)
  /-- ESTOP_ACTIVE (R93). -/
  | estopActive (l : Lane) (n : Axis)
  /-- AXP_CNT_CLR (R12). -/
  | axpCntClr (l : Lane) (n : Axis) (q : Req)
  /-- QUAD_EDGE (R99). -/
  | quadEdge (l : Lane) (n : Axis) (a b : Bool) (stamp : BitVec 64)
  /-- FB_TICK_UPDATE (R104). -/
  | fbTickUpdate (l : Lane) (n : Axis)
  /-- SENS_LOST (R111). -/
  | sensLost (l : Lane) (n : Axis)
  /-- INDEX_EDGE (R116). -/
  | indexEdge (l : Lane) (n : Axis) (stamp : BitVec 64)
  /-- HALL_FILTER_ACCEPT (R119). -/
  | hallFilterAccept (l : Lane) (n : Axis) (h : BitVec 3)
  /-- SPEED_WINDOW_END (R123). -/
  | speedWindowEnd (l : Lane) (n : Axis)
  /-- FB_CMP_LO_WRITE (R130). -/
  | fbCmpLoWrite (l : Lane) (n : Axis) (q : Req) (w : Word)
  /-- FB_EOFS_WRITE (R115). -/
  | fbEofsWrite (l : Lane) (n : Axis) (q : Req) (w : Word)
  /-- FB_EQ_WRITE (R110). -/
  | fbEqWrite (l : Lane) (n : Axis) (q : Req) (r : Fin 3) (w : Word)
  /-- FB_POS_LO_READ (R106). -/
  | fbPosLoRead (l : Lane) (n : Axis) (q : Req)
  /-- FB_POS_HI_READ (R106). -/
  | fbPosHiRead (l : Lane) (n : Axis) (q : Req)
  /-- FB_CLR_IDX_CNT (R12). -/
  | fbClrIdxCnt (l : Lane) (n : Axis) (q : Req)
  /-- FB_CLR_MISS (R12). -/
  | fbClrMiss (l : Lane) (n : Axis) (q : Req)
  /-- EQ_RESET (R110). -/
  | eqReset (l : Lane) (n : Axis) (q : Req)
  /-- OBS_RESET (R115). -/
  | obsReset (l : Lane) (n : Axis) (q : Req)
  /-- QEO_STEP (R132). -/
  | qeoStep (l : Lane) (idxLevel : Bool)
  /-- START_OFF_TICK (R158). -/
  | startOffTick (l : Lane) (n : Axis)
  /-- START_DECISION (R158). -/
  | startDecision (l : Lane) (n : Axis)
  /-- START_RAMP_END (R158). -/
  | startRampEnd (l : Lane) (n : Axis)
  /-- FLD_CLR_CNT (R12). -/
  | fldClrCnt (l : Lane) (n : Axis) (q : Req)
  /-- RS_RESET (R141). -/
  | rsReset (l : Lane) (n : Axis) (q : Req)
  /-- FLD_RS_WRITE (R141). -/
  | fldRsWrite (l : Lane) (n : Axis) (q : Req) (w : Word)
  /-- FB_LOCK (R100). -/
  | fbLock (l : Lane) (n : Axis) (q : Req) (w : Word)
  /-- FLD_LOCK (R134). -/
  | fldLock (l : Lane) (n : Axis) (q : Req) (w : Word)
  /-- POS (R172). -/
  | pos (l : Lane) (n : Axis) (q : Req) (at8 : BitVec 8)
  /-- VEL (R172). -/
  | vel (l : Lane) (n : Axis) (q : Req) (at8 : BitVec 8)
  /-- TRACK (R179). -/
  | track (l : Lane) (n : Axis) (q : Req) (at8 : BitVec 8)
  /-- REPLAN (R173). -/
  | replan (l : Lane) (n : Axis) (q : Req) (at8 : BitVec 8)
  /-- PROF_CMD_DUE (R168). -/
  | profCmdDue (l : Lane) (n : Axis)
  /-- STREAM_LOST (R178). -/
  | streamLost (l : Lane) (n : Axis)
  /-- PROF_CHECK_FIRE (R182). -/
  | profCheckFire (l : Lane) (n : Axis) (k : Fin 3)
  /-- PROF_ACTION (R183). -/
  | profAction (l : Lane) (n : Axis)
  /-- LOOP_TRIGGER (R190). -/
  | loopTrigger (l : Lane) (e : Fin 2) (k : Fin 16)
  /-- LOOP_RUN_START (R191). -/
  | loopRunStart (l : Lane) (e : Fin 2)
  /-- LE_BUDGET_EXPIRE (R193). -/
  | leBudgetExpire (l : Lane) (e : Fin 2) (w : Fin 7)
  /-- LE_NOP (R210). -/
  | leNop (l : Lane) (e : Fin 2) (ecc : Ecc)
  /-- LE_END (R193). -/
  | leEnd (l : Lane) (e : Fin 2) (ecc : Ecc) (stamp : BitVec 64)
  /-- LE_LDI (R210). -/
  | leLdi (l : Lane) (e : Fin 2) (ecc : Ecc)
  /-- LE_LUI (R210). -/
  | leLui (l : Lane) (e : Fin 2) (ecc : Ecc)
  /-- LE_MOV (R210). -/
  | leMov (l : Lane) (e : Fin 2) (ecc : Ecc)
  /-- LE_LDD (R210). -/
  | leLdd (l : Lane) (e : Fin 2) (ecc : Ecc)
  /-- LE_STD (R210). -/
  | leStd (l : Lane) (e : Fin 2) (ecc : Ecc)
  /-- LE_LDS (R212). -/
  | leLds (l : Lane) (e : Fin 2) (ecc : Ecc) (w : Fin 4)
  /-- LE_STS (R212). -/
  | leSts (l : Lane) (e : Fin 2) (ecc : Ecc) (w : Fin 4)
  /-- LE_ADD (R210). -/
  | leAdd (l : Lane) (e : Fin 2) (ecc : Ecc)
  /-- LE_SUB (R210). -/
  | leSub (l : Lane) (e : Fin 2) (ecc : Ecc)
  /-- LE_ADDS (R210). -/
  | leAdds (l : Lane) (e : Fin 2) (ecc : Ecc)
  /-- LE_SUBS (R210). -/
  | leSubs (l : Lane) (e : Fin 2) (ecc : Ecc)
  /-- LE_MULQ (R210). -/
  | leMulq (l : Lane) (e : Fin 2) (ecc : Ecc)
  /-- LE_NEG (R210). -/
  | leNeg (l : Lane) (e : Fin 2) (ecc : Ecc)
  /-- LE_ABS (R210). -/
  | leAbs (l : Lane) (e : Fin 2) (ecc : Ecc)
  /-- LE_MIN (R210). -/
  | leMin (l : Lane) (e : Fin 2) (ecc : Ecc)
  /-- LE_MAX (R210). -/
  | leMax (l : Lane) (e : Fin 2) (ecc : Ecc)
  /-- LE_CLMP (R210). -/
  | leClmp (l : Lane) (e : Fin 2) (ecc : Ecc)
  /-- LE_SHL (R210). -/
  | leShl (l : Lane) (e : Fin 2) (ecc : Ecc)
  /-- LE_SAR (R210). -/
  | leSar (l : Lane) (e : Fin 2) (ecc : Ecc)
  /-- LE_CLRA (R210). -/
  | leClra (l : Lane) (e : Fin 2) (ecc : Ecc)
  /-- LE_WRA (R210). -/
  | leWra (l : Lane) (e : Fin 2) (ecc : Ecc)
  /-- LE_RDA (R196). -/
  | leRda (l : Lane) (e : Fin 2) (ecc : Ecc)
  /-- LE_CAS (R198). -/
  | leCas (l : Lane) (e : Fin 2) (ecc : Ecc)
  /-- LE_MACW (R210). -/
  | leMacw (l : Lane) (e : Fin 2) (ecc : Ecc)
  /-- LE_MACP (R210). -/
  | leMacp (l : Lane) (e : Fin 2) (ecc : Ecc)
  /-- LE_OUT (R200). -/
  | leOut (l : Lane) (e : Fin 2) (ecc : Ecc)
  /-- LE_LUT (R211). -/
  | leLut (l : Lane) (e : Fin 2) (ecc : Ecc)
  /-- LE_REG (R202). -/
  | leReg (l : Lane) (e : Fin 2) (ecc : Ecc) (w : Fin 7)
  /-- LE_CMP (R210). -/
  | leCmp (l : Lane) (e : Fin 2) (ecc : Ecc)
  /-- LE_SEL (R210). -/
  | leSel (l : Lane) (e : Fin 2) (ecc : Ecc)
  /-- LE_BF (R210). -/
  | leBf (l : Lane) (e : Fin 2) (ecc : Ecc)
  /-- LE_JMP (R210). -/
  | leJmp (l : Lane) (e : Fin 2) (ecc : Ecc)
  /-- LE_SHARE (R213). -/
  | leShare (l : Lane) (e : Fin 2) (ecc : Ecc) (stamp : BitVec 64)
  /-- LE_COMMIT (R213). -/
  | leCommit (l : Lane) (e : Fin 2) (ecc : Ecc) (stamp : BitVec 64)
  /-- LE_WAIT (R214). -/
  | leWait (l : Lane) (e : Fin 2) (ecc : Ecc) (stamp : BitVec 64)
  /-- LE_WAIT_RELEASE (R214). -/
  | leWaitRelease (l : Lane) (e : Fin 2) (stamp : BitVec 64) (waited : BitVec 16)
  /-- LE_PRE (R210). -/
  | lePre (l : Lane) (e : Fin 2) (ecc : Ecc)
  /-- LE_RDS (R210). -/
  | leRds (l : Lane) (e : Fin 2) (ecc : Ecc)
  /-- SEAL (R206). -/
  | seal (l : Lane) (e : Fin 2) (q : Req)
  /-- UNSEAL (R206). -/
  | unseal (l : Lane) (e : Fin 2) (q : Req)
  /-- SWAP (R207). -/
  | swap (l : Lane) (e : Fin 2) (q : Req) (at8 : BitVec 8)
  /-- BANK_CHECK_COMPLETE (R206). -/
  | bankCheckComplete (l : Lane) (e : Fin 2) (atLock : Bool)
  /-- SWAP_TAKE_EFFECT (R207). -/
  | swapTakeEffect (l : Lane) (e : Fin 2)
  /-- LE_LOCK (R209). -/
  | leLock (l : Lane) (e : Fin 2) (q : Req) (w : Word)
  /-- LE_CTL_RUN (R190). -/
  | leCtlRun (l : Lane) (e : Fin 2) (q : Req) (run : Bool)
  /-- LE_CLR_CNT (R12). -/
  | leClrCnt (l : Lane) (e : Fin 2) (q : Req)
  /-- EDGE_COMPARE_FIRE (R221). -/
  | edgeCompareFire (l : Lane) (u : Fin 16) (off : Bool)
  /-- TIMEBASE_BOUNDARY (R228). -/
  | timebaseBoundary (l : Lane) (tb : Fin 4) (late : BitVec 19)
  /-- EDGE_UPD_HOLD_WRITE (R229). -/
  | edgeUpdHoldWrite (l : Lane) (q : Req) (w : Word) (inReload : Option (Fin 4))
  /-- EDGE_MODE_WRITE (R217). -/
  | edgeModeWrite (l : Lane) (q : Req) (u : Fin 16) (w : Word)
  /-- EDGE_LVL_WRITE (R232). -/
  | edgeLvlWrite (l : Lane) (q : Req) (u : Fin 16) (w : Word)
  /-- PULSE_START (R231). -/
  | pulseStart (l : Lane) (u : Fin 16)
  /-- PULSE_END (R231). -/
  | pulseEnd (l : Lane) (u : Fin 16)
  /-- EDGE_HALT_ENTER (R238). -/
  | edgeHaltEnter (l : Lane)
  /-- EDGE_HALT_RELEASE (R238). -/
  | edgeHaltRelease (l : Lane)
  /-- EDGE_LOCK (R237). -/
  | edgeLock (l : Lane) (q : Req) (w : Word)
  /-- EDGE_CAL_COMPLETE (R237). -/
  | edgeCalComplete (l : Lane) (n0 n1 n2 n3 : BitVec 12)
  /-- DL_STALE (R236). -/
  | dlStale (l : Lane) (g : Fin 4)
  /-- EDGE_LOSS (R240). -/
  | edgeLoss (l : Lane)
  /-- GATE_WIRE_EDGE (R247). -/
  | gateWireEdge (l : Lane) (g : Fin 25) (together : Bool)
  /-- TURN_ON_START (R247). -/
  | turnOnStart (l : Lane) (g : Fin 25)
  /-- GATE_PRIME_END (R244). -/
  | gatePrimeEnd (l : Lane) (g : Fin 25)
  /-- GATE_FLOAT_END (R244). -/
  | gateFloatEnd (l : Lane) (g : Fin 25) (confirmed : Bool) (tPa : Option (BitVec 16))
  /-- GATE_WATCH_FAULT (R248). -/
  | gateWatchFault (l : Lane) (g : Fin 25)
  /-- OVERRIDE_ENABLE (R250). -/
  | overrideEnable (l : Lane) (q : Req) (w : Word)
  /-- SWITCH_NODE_CROSSING (R251). -/
  | switchNodeCrossing (l : Lane) (ph : Fin 12) (up byWire : Bool) (value : BitVec 22)
  /-- EDGE_INSTANT_REPORT (R251). -/
  | edgeInstantReport (l : Lane) (crcOk : Bool)
  /-- REFRESH_PULSE_START (R252). -/
  | refreshPulseStart (l : Lane) (ph : Fin 12)
  /-- REFRESH_PULSE_END (R252). -/
  | refreshPulseEnd (l : Lane) (ph : Fin 12)
  /-- BS_WARN_CHANGE (R253). -/
  | bsWarnChange (l : Lane) (ph : Fin 12) (low : Bool)
  /-- BS_LOW (R254). -/
  | bsLow (l : Lane) (ph : Fin 12)
  /-- BS_LOW_RELEASE (R254). -/
  | bsLowRelease (l : Lane) (ph : Fin 12)
  /-- SC_THRESHOLD_UPDATE (R256). -/
  | scThresholdUpdate (l : Lane) (ph : Fin 12) (m : BitVec 8)
  /-- SC_LS (R256). -/
  | scLs (l : Lane) (ph : Fin 12) (m : BitVec 8)
  /-- SC_DC (R257). -/
  | scDc (l : Lane) (p : Fin 4) (m : BitVec 8)
  /-- CHOPPER_REQUEST_CHANGE (R261). -/
  | chopperRequestChange (l : Lane) (v : BitVec 8)
  /-- CHOP_FAULT (R262). -/
  | chopFault (l : Lane) (v : BitVec 8)
  /-- HARD_OV (R263). -/
  | hardOv (l : Lane) (v : BitVec 8)
  /-- HARD_OV_CLEAR (R263). -/
  | hardOvClear (l : Lane) (v : BitVec 8)
  /-- VLINK_UV (R264). -/
  | vlinkUv (l : Lane) (v : BitVec 8)
  /-- VG_UV (R265). -/
  | vgUv (l : Lane)
  /-- OT (R265). -/
  | ot (l : Lane) (tj : BitVec 8)
  /-- EXT_TRIP (R265). -/
  | extTrip (l : Lane) (k : Fin 6)
  /-- LATH_LOSS (R265). -/
  | lathLoss (l : Lane)
  /-- TRIP_ACTION_RELEASE (R268). -/
  | tripActionRelease (l : Lane) (p : Fin 4)
  /-- TRIP_FLAG_CLEAR (R269). -/
  | tripFlagClear (l : Lane) (q : Req) (hi : Bool) (w : Word)
  /-- TRIP_FLAG_REPORT (R270). -/
  | tripFlagReport (l : Lane)
  /-- LANE_LATH_LOSS (R270). -/
  | laneLathLoss (l : Lane)
  /-- BRG_CLR_CNT (R12). -/
  | brgClrCnt (l : Lane) (q : Req)
  /-- PRIME_RESET (R245). -/
  | primeReset (l : Lane) (q : Req)
  /-- BRG_LOCK (R241). -/
  | brgLock (l : Lane) (q : Req) (w : Word)
  /-- BOOT_EXIT (R273). -/
  | bootExit (l : Lane)
  /-- IDENTITY_CHECK (R276). -/
  | identityCheck (l : Lane)
  /-- SYNC_EXIT (R40). -/
  | syncExit (l : Lane)
  /-- POWER_ON_ACTIVATE (R275). -/
  | powerOnActivate (l : Lane)
  /-- SOLO_START (R275). -/
  | soloStart (l : Lane)
  /-- SUSPECT_ENTER (R273). -/
  | suspectEnter (l : Lane) (code : BitVec 8)
  /-- SUSPECT_CLEAR (R273). -/
  | suspectClear (l : Lane)
  /-- SELF_EXCLUSION (R293). -/
  | selfExclusion (l : Lane) (code : BitVec 8)
  /-- EXCLUDED_ENTER (R293). -/
  | excludedEnter (l : Lane)
  /-- PEER_EXCLUSION (R273). -/
  | peerExclusion (l : Lane)
  /-- EXCLUSION_CAUSE_ACTION (R294). -/
  | exclusionCauseAction (l y : Lane) (code : BitVec 8)
  /-- DEV_MULTI (R290). -/
  | devMulti (l : Lane)
  /-- OWN_PLAUS (R299). -/
  | ownPlaus (l : Lane) (n : Axis)
  /-- DISAGREE_2 (R301). -/
  | disagree2 (l : Lane) (n : Axis)
  /-- REJOIN_HOLDOFF_EXPIRE (R273). -/
  | rejoinHoldoffExpire (l : Lane)
  /-- REJOIN_TRANSFER_SEND (R305). -/
  | rejoinTransferSend (l : Lane) (k : Link) (d : BitVec 8)
  /-- REJOIN_TRANSFER_RECEIVED (R305). -/
  | rejoinTransferReceived (l : Lane) (k : Link) (crcOk : Bool)
  /-- REJOIN_TRANSFER_TIMEOUT (R305). -/
  | rejoinTransferTimeout (l : Lane)
  /-- SHADOW_ENTER (R305). -/
  | shadowEnter (l : Lane)
  /-- ADMISSION (R306). -/
  | admission (l y : Lane)
  /-- SERVICE_ENTER (R309). -/
  | serviceEnter (l : Lane)
  /-- BELAY_RECORD_SEND (R277). -/
  | belayRecordSend (l : Lane)
  /-- BELAY_RECORD_RECEIVED (R277). -/
  | belayRecordReceived (l : Lane) (k : Link) (crcOk : Bool)
  /-- BELAY_KICK (R278). -/
  | belayKick (l : Lane) (q : Req) (w : Word)
  /-- WDG (R278). -/
  | wdg (l : Lane)
  /-- VOTE_OUTPUT_CHANGE (R284). -/
  | voteOutputChange (l : Lane)
  /-- VOTE_REFRESH_TIMEOUT (R285). -/
  | voteRefreshTimeout (l : Lane)
  /-- VOTE_CLASS_CHANGE (R281). -/
  | voteClassChange (l y : Lane) (runs : List (BitVec 16)) (still : BitVec 16)
  /-- LL_ARM_RECEIVED (R283). -/
  | llArmReceived (l : Lane)
  /-- LAST_LANE_LATCH (R283). -/
  | lastLaneLatch (l : Lane)
  /-- VOTE_REPORT (R286). -/
  | voteReport (l : Lane)
  /-- VOTE_LINE (R286). -/
  | voteLine (l y : Lane)
  /-- LIMP_ENTER (R316). -/
  | limpEnter (l : Lane)
  /-- STOP_REQUEST (R316). -/
  | stopRequest (l : Lane)
  /-- LIMP_TIMER_EXPIRE (R316). -/
  | limpTimerExpire (l : Lane)
  /-- ENTER_SERVICE (R309). -/
  | enterService (l : Lane) (q : Req)
  /-- LEAVE_SERVICE (R273). -/
  | leaveService (l : Lane) (q : Req)
  /-- SELF_EXCLUDE (R288). -/
  | selfExclude (l : Lane) (q : Req)
  /-- REVIVE (R308). -/
  | revive (l : Lane) (q : Req)
  /-- BELAY_CLR_CNT (R12). -/
  | belayClrCnt (l : Lane) (q : Req)
  /-- ROPE_CLR_CNT (R12). -/
  | ropeClrCnt (l : Lane) (q : Req)
  /-- RESYNC_RESET_END (R333). -/
  | resyncResetEnd (l : Lane)
  /-- RESYNC_SELFTEST_END (R333). -/
  | resyncSelftestEnd (l : Lane) (ok : Bool)
  /-- RESYNC_COPY_COMPLETE (R333). -/
  | resyncCopyComplete (l : Lane)
  /-- RESYNC_BOUNDARY (R333). -/
  | resyncBoundary (l : Lane)
  /-- RESYNC_COMPLETE (R333). -/
  | resyncComplete (l : Lane) (stall : Fin 97) (dur : BitVec 32)
  /-- COMPARATOR_TEST_DUE (R331). -/
  | comparatorTestDue (l : Lane) (ok : Bool)
  /-- COMPARATOR_TEST_FORCE (R331). -/
  | comparatorTestForce (l : Lane) (ok : Bool)
  /-- TRIAD_CLR_CNT (R12). -/
  | triadClrCnt (l : Lane) (q : Req)
  /-- TST_NOW (R332). -/
  | tstNow (l : Lane) (q : Req)
  /-- FORCE_ABSTAIN (R346). -/
  | forceAbstain (l : Lane) (q : Req)
  /-- BREAK_MODE_REQUEST (R345). -/
  | breakModeRequest (l : Lane) (q : Req)
  /-- DEBUG_HALT (R342). -/
  | debugHalt (l : Lane) (freeze : Bool)
  /-- BREAKPOINT_HIT (R342). -/
  | breakpointHit (l : Lane) (watch : Bool) (addr : Word)
  /-- DEBUG_RESUME (R342). -/
  | debugResume (l : Lane) (cycles : BitVec 64)
  /-- DEBUG_STEP (R342). -/
  | debugStep (l : Lane)
  /-- DEBUG_REG_READ (R342). -/
  | debugRegRead (l : Lane) (cr : Bool) (n : BitVec 11)
  /-- DEBUG_REG_WRITE (R342). -/
  | debugRegWrite (l : Lane) (cr : Bool) (n : BitVec 11) (w : Word) (v : Verdict)
  /-- DEBUG_MEM_ACCESS (R342). -/
  | debugMemAccess (l : Lane) (write : Bool) (a : Word) (size : Fin 3) (w : Word) (ecc : Ecc) (v : Verdict)
  /-- DEBUG_BREAKPOINT_SET (R342). -/
  | debugBreakpointSet (l : Lane) (set watch : Bool) (addr : Word)
  /-- ADD (R359). -/
  | add (l : Lane) (i : Issue)
  /-- SUB (R359). -/
  | sub (l : Lane) (i : Issue)
  /-- AND (R359). -/
  | and (l : Lane) (i : Issue)
  /-- OR (R359). -/
  | or (l : Lane) (i : Issue)
  /-- XOR (R359). -/
  | xor (l : Lane) (i : Issue)
  /-- ANDN (R359). -/
  | andn (l : Lane) (i : Issue)
  /-- SHL (R359). -/
  | shl (l : Lane) (i : Issue)
  /-- SHR (R359). -/
  | shr (l : Lane) (i : Issue)
  /-- SAR (R359). -/
  | sar (l : Lane) (i : Issue)
  /-- MIN (R359). -/
  | min (l : Lane) (i : Issue)
  /-- MAX (R359). -/
  | max (l : Lane) (i : Issue)
  /-- MINU (R359). -/
  | minu (l : Lane) (i : Issue)
  /-- MAXU (R359). -/
  | maxu (l : Lane) (i : Issue)
  /-- CLZ (R359). -/
  | clz (l : Lane) (i : Issue)
  /-- SEXTB (R359). -/
  | sextb (l : Lane) (i : Issue)
  /-- SEXTH (R359). -/
  | sexth (l : Lane) (i : Issue)
  /-- MUL (R359). -/
  | mul (l : Lane) (i : Issue)
  /-- MULH (R359). -/
  | mulh (l : Lane) (i : Issue)
  /-- MULHU (R359). -/
  | mulhu (l : Lane) (i : Issue)
  /-- DIV (R360). -/
  | div (l : Lane) (i : Issue)
  /-- DIVU (R360). -/
  | divu (l : Lane) (i : Issue)
  /-- REM (R360). -/
  | rem (l : Lane) (i : Issue)
  /-- REMU (R360). -/
  | remu (l : Lane) (i : Issue)
  /-- ADDS (R359). -/
  | adds (l : Lane) (i : Issue)
  /-- SUBS (R359). -/
  | subs (l : Lane) (i : Issue)
  /-- NEGS (R359). -/
  | negs (l : Lane) (i : Issue)
  /-- ABSS (R359). -/
  | abss (l : Lane) (i : Issue)
  /-- MULQ (R359). -/
  | mulq (l : Lane) (i : Issue)
  /-- SHLS (R359). -/
  | shls (l : Lane) (i : Issue)
  /-- CLMP (R359). -/
  | clmp (l : Lane) (i : Issue)
  /-- RNDH (R359). -/
  | rndh (l : Lane) (i : Issue)
  /-- CMP (R361). -/
  | cmp (l : Lane) (i : Issue)
  /-- CMPI (R361). -/
  | cmpi (l : Lane) (i : Issue)
  /-- PAND (R359). -/
  | pand (l : Lane) (i : Issue)
  /-- POR (R359). -/
  | por (l : Lane) (i : Issue)
  /-- PXOR (R359). -/
  | pxor (l : Lane) (i : Issue)
  /-- PANDN (R359). -/
  | pandn (l : Lane) (i : Issue)
  /-- ADDI (R358). -/
  | addi (l : Lane) (i : Issue)
  /-- ANDI (R358). -/
  | andi (l : Lane) (i : Issue)
  /-- ORI (R358). -/
  | ori (l : Lane) (i : Issue)
  /-- XORI (R358). -/
  | xori (l : Lane) (i : Issue)
  /-- SHI_SHL (R358). -/
  | shiShl (l : Lane) (i : Issue)
  /-- SHI_SHR (R358). -/
  | shiShr (l : Lane) (i : Issue)
  /-- SHI_SAR (R358). -/
  | shiSar (l : Lane) (i : Issue)
  /-- SHI_SHLS (R358). -/
  | shiShls (l : Lane) (i : Issue)
  /-- LUI (R362). -/
  | lui (l : Lane) (i : Issue)
  /-- MOVI (R362). -/
  | movi (l : Lane) (i : Issue)
  /-- LDW (R363). -/
  | ldw (l : Lane) (i : Issue)
  /-- LDH (R363). -/
  | ldh (l : Lane) (i : Issue)
  /-- LDHU (R363). -/
  | ldhu (l : Lane) (i : Issue)
  /-- LDB (R363). -/
  | ldb (l : Lane) (i : Issue)
  /-- LDBU (R363). -/
  | ldbu (l : Lane) (i : Issue)
  /-- STW (R363). -/
  | stw (l : Lane) (i : Issue)
  /-- STH (R363). -/
  | sth (l : Lane) (i : Issue)
  /-- STB (R363). -/
  | stb (l : Lane) (i : Issue)
  /-- SWP (R364). -/
  | swp (l : Lane) (i : Issue)
  /-- SLD (R365). -/
  | sld (l : Lane) (i : Issue)
  /-- SST (R366). -/
  | sst (l : Lane) (i : Issue)
  /-- SGET (R365). -/
  | sget (l : Lane) (i : Issue)
  /-- SPUB (R365). -/
  | spub (l : Lane) (i : Issue)
  /-- BR (R358). -/
  | br (l : Lane) (i : Issue)
  /-- CALL (R358). -/
  | call (l : Lane) (i : Issue)
  /-- JR (R358). -/
  | jr (l : Lane) (i : Issue)
  /-- JALR (R358). -/
  | jalr (l : Lane) (i : Issue)
  /-- CRR (R379). -/
  | crr (l : Lane) (i : Issue)
  /-- CRW (R379). -/
  | crw (l : Lane) (i : Issue)
  /-- CRS (R379). -/
  | crs (l : Lane) (i : Issue)
  /-- CRC (R379). -/
  | crc (l : Lane) (i : Issue)
  /-- TRAP (R372). -/
  | trap (l : Lane) (i : Issue)
  /-- SCALL (R372). -/
  | scall (l : Lane) (i : Issue)
  /-- ERET (R373). -/
  | eret (l : Lane) (i : Issue)
  /-- PARK (R377). -/
  | park (l : Lane) (i : Issue)
  /-- BKPT (R371). -/
  | bkpt (l : Lane) (i : Issue) (dbg : Bool)
  /-- INTERRUPT_ENTRY (R374). -/
  | interruptEntry (l : Lane) (c : Core) (v : Verdict)
  /-- PARK_WAKE (R377). -/
  | parkWake (l : Lane) (c : Core) (cycles : BitVec 64)
  /-- CORDEE_FRAME_RECEIVED (R388). -/
  | cordeeFrameReceived (l : Lane) (port : Fin 6) (bytes : List Byte) (fcsOk : Bool) (sfd arr : BitVec 64)
  /-- WINDOW_END_TRUNCATE (R408). -/
  | windowEndTruncate (l : Lane)
  /-- ARB_GAP_CLOSE (R395). -/
  | arbGapClose (l : Lane)
  /-- ARB_FORWARD (R395). -/
  | arbForward (l : Lane) (arr : BitVec 64)
  /-- TX_SAMPLE (R392). -/
  | txSample (l : Lane) (w : Fin 128) (start : BitVec 64)
  /-- FRAME_SEND (R392). -/
  | frameSend (l : Lane) (w : Fin 128) (start arr : BitVec 64)
  /-- BASIC_CYCLE_BOUNDARY (R399). -/
  | basicCycleBoundary (l : Lane) (now : BitVec 64)
  /-- LISTEN_TIMEOUT (R403). -/
  | listenTimeout (l : Lane)
  /-- COLDSTART_SEND (R404). -/
  | coldstartSend (l : Lane) (sfd : BitVec 64)
  /-- COLDSTART_WINDOW_END (R403). -/
  | coldstartWindowEnd (l : Lane)
  /-- ANCHOR_ENTER (R406). -/
  | anchorEnter (l : Lane)
  /-- STAR_STARTUP_TIMEOUT (R405). -/
  | starStartupTimeout (l : Lane)
  /-- RELAY_RECEIVED (R412). -/
  | relayReceived (l : Lane) (k : Link) (crcOk : Bool) (now : BitVec 64)
  /-- RX_DECISION (R416). -/
  | rxDecision (l : Lane) (e : Fin 512) (now : BitVec 64)
  /-- NETWORK_LOST (R417). -/
  | networkLost (l y : Lane)
  /-- NETWORK_RESTORED (R417). -/
  | networkRestored (l y : Lane)
  /-- TC10_WAKE (R419). -/
  | tc10Wake (l : Lane) (port : Fin 6)
  /-- CDE_CLR_CNT (R12). -/
  | cdeClrCnt (l : Lane) (q : Req)
  /-- CDE_LOCK (R391). -/
  | cdeLock (l : Lane) (q : Req) (w : Word)
  /-- MIRROR_RECORD_SEND (R424). -/
  | mirrorRecordSend (l : Lane)
  /-- MIRROR_RECORD_RECEIVED (R428). -/
  | mirrorRecordReceived (l : Lane) (bytes : List Byte) (stamp : BitVec 64) (crcOk : Bool)
  /-- INSTALLATION (R435). -/
  | installation (l : Lane)
  /-- VERDICT_READ (R437). -/
  | verdictRead (l : Lane) (now : BitVec 64)
  /-- VERDICT_EXPIRE (R439). -/
  | verdictExpire (l : Lane)
  /-- TETHER_LOCK (R432). -/
  | tetherLock (l : Lane) (q : Req) (w : Word)
  /-- TETHER_CLR_CNT (R12). -/
  | tetherClrCnt (l : Lane) (q : Req)
  /-- TEST_PULSE_START (R446). -/
  | testPulseStart (l : Lane) (j : Fin 4)
  /-- TEST_PULSE_END (R449). -/
  | testPulseEnd (l : Lane) (j : Fin 4) (low high opened : BitVec 16) (readback : Bool)
  /-- TP_READBACK_FAIL (R447). -/
  | tpReadbackFail (l : Lane) (j : Fin 4)
  /-- CHANNEL_FILTER_CHANGE (R448). -/
  | channelFilterChange (l : Lane) (c : Fin 16) (closed : Bool)
  /-- DISCREPANCY_FAULT (R451). -/
  | discrepancyFault (l : Lane) (f : Fin 8)
  /-- JOG_SIM_TIMEOUT (R453). -/
  | jogSimTimeout (l : Lane) (f : Fin 8)
  /-- SIU_MANUAL_RESET (R457). -/
  | siuManualReset (l : Lane) (q : Req) (f : BitVec 8)
  /-- SIU_RESET_EFFECT (R457). -/
  | siuResetEffect (l : Lane)
  /-- SIU_CLR_CNT (R12). -/
  | siuClrCnt (l : Lane) (q : Req)
  /-- SIU_FAULT_CLEAR (R456). -/
  | siuFaultClear (l : Lane) (q : Req) (f : Fin 8) (w : BitVec 6)
  /-- SIU_RECORD_RECEIVED (R460). -/
  | siuRecordReceived (l : Lane) (k : Link) (crcOk : Bool)
  /-- SIU_LOCK (R459). -/
  | siuLock (l : Lane) (q : Req) (w : Word)
  /-- SUPPLY_SWITCH_TO_BACKUP (R468). -/
  | supplySwitchToBackup (l : Lane) (vm vb : BitVec 17)
  /-- SUPPLY_RETURN_MAIN (R468). -/
  | supplyReturnMain (l : Lane) (vm vb : BitVec 17)
  /-- INPUT_OVERVOLTAGE (R468). -/
  | inputOvervoltage (l : Lane) (main : Bool)
  /-- INPUT_REVERSE (R468). -/
  | inputReverse (l : Lane)
  /-- BOTH_INPUTS_LOST (R469). -/
  | bothInputsLost (l : Lane)
  /-- HOLD_UP_TIMEOUT (R469). -/
  | holdUpTimeout (l : Lane)
  /-- PMIC_REQUEST (R473). -/
  | pmicRequest (l : Lane)
  /-- PMIC_POLL (R473). -/
  | pmicPoll (l : Lane)
  /-- PMIC_RESPONSE (R473). -/
  | pmicResponse (l : Lane) (frame : Word)
  /-- PMIC_RETRY_TIMEOUT (R473). -/
  | pmicRetryTimeout (l : Lane)
  /-- IIN_POLL (R475). -/
  | iinPoll (l : Lane)
  /-- PMIC_FW_REQUEST (R475). -/
  | pmicFwRequest (l : Lane) (q : Req) (w : Word)
  /-- PGOOD_DROP (R476). -/
  | pgoodDrop (l : Lane)
  /-- PGOOD_RISE (R480). -/
  | pgoodRise (l : Lane)
  /-- OSC_READY (R480). -/
  | oscReady (l : Lane)
  /-- AVS_RUN (R478). -/
  | avsRun (l : Lane)
  /-- GATE_REQUEST (R483). -/
  | gateRequest (l : Lane) (q : Req) (w : Word)
  /-- DOMAIN_GATE (R483). -/
  | domainGate (l : Lane) (d : Fin 12)
  /-- DOMAIN_WAKE_ON_ACCESS (R484). -/
  | domainWakeOnAccess (l : Lane) (d : Fin 12) (m : Master)
  /-- DOMAIN_READY (R484). -/
  | domainReady (l : Lane) (d : Fin 12)
  /-- DEADLINE_WAKE (R485). -/
  | deadlineWake (l : Lane) (k : Fin 2)
  /-- SLEEP_COMMAND (R487). -/
  | sleepCommand (l : Lane)
  /-- SLEEP_ARM_EXPIRE (R487). -/
  | sleepArmExpire (l : Lane)
  /-- SLEEP_STEP_COMPLETE (R488). -/
  | sleepStepComplete (l : Lane)
  /-- WAKE_SOURCE_FIRE (R492). -/
  | wakeSourceFire (l : Lane) (src : Fin 5) (cairn : BitVec 48)
  /-- WAKE_FAIL (R494). -/
  | wakeFail (l : Lane) (code : Fin 4)
  /-- WAKE_RETRY (R494). -/
  | wakeRetry (l : Lane)
  /-- WAKE_FAIL_SLEEP (R495). -/
  | wakeFailSleep (l : Lane)
  /-- RESTORE (R491). -/
  | restore (l : Lane) (q : Req)
  /-- SVC_IRQ (R502). -/
  | svcIrq (l : Lane) (q : Req)
  /-- PWR_CLR_CNT (R12). -/
  | pwrClrCnt (l : Lane) (q : Req)
  /-- PWR_LOCK (R486). -/
  | pwrLock (l : Lane) (q : Req) (w : Word)
  /-- BUDGET_EVAL (R497). -/
  | budgetEval (l : Lane) (vm vb : BitVec 17)
  /-- RIDGE_TASK_TRIGGER (R498). -/
  | ridgeTaskTrigger (l : Lane) (n : Fin 64)
  /-- RIDGE_POST (R498). -/
  | ridgePost (l : Lane) (q : Req) (task : BitVec 6)
  /-- RIDGE_NEXT (R500). -/
  | ridgeNext (l : Lane) (q : Req)
  /-- ECC_WRITEBACK (R512). -/
  | eccWriteback (l : Lane)
  /-- PROGRAM (R519). -/
  | program (l : Lane) (q : Req)
  /-- ERASE (R519). -/
  | erase (l : Lane) (q : Req)
  /-- BLANK (R519). -/
  | blank (l : Lane) (q : Req)
  /-- NVMC_OP_COMPLETE (R520). -/
  | nvmcOpComplete (l : Lane) (ok : Bool)
  /-- NVMC_CLR_CNT (R12). -/
  | nvmcClrCnt (l : Lane) (q : Req)
  /-- WAT_CNT_CLR (R12). -/
  | watCntClr (l : Lane) (q : Req)
  /-- MBOX_STAGE_WRITE (R525). -/
  | mboxStageWrite (l : Lane) (q : Req) (tag : BitVec 16)
  /-- MBOX_POST (R525). -/
  | mboxPost (l : Lane) (q : Req) (n : Fin 32) (ptr : Word)
  /-- MBOX_MSG_READ (R526). -/
  | mboxMsgRead (l : Lane) (q : Req) (n : Fin 32)
  /-- MBOX_PTR_READ (R526). -/
  | mboxPtrRead (l : Lane) (q : Req) (n : Fin 32)
  /-- SEMA_ACQUIRE (R530). -/
  | semaAcquire (l : Lane) (q : Req) (n : Fin 64)
  /-- SEMA_RELEASE (R531). -/
  | semaRelease (l : Lane) (q : Req) (n : Fin 64)
  /-- SEMA_FREE (R531). -/
  | semaFree (l : Lane) (q : Req) (idx : BitVec 6)
  /-- AUTH (R540). -/
  | auth (l : Lane) (q : Req) (role : BitVec 2)
  /-- CHALLENGE (R543). -/
  | challenge (l : Lane) (q : Req)
  /-- MAKER_AUTH (R543). -/
  | makerAuth (l : Lane) (q : Req)
  /-- CLOSE (R539). -/
  | close (l : Lane) (q : Req)
  /-- PW_SET (R541). -/
  | pwSet (l : Lane) (q : Req) (role : BitVec 2)
  /-- CAL_OPEN (R544). -/
  | calOpen (l : Lane) (q : Req)
  /-- CAL_CLOSE (R544). -/
  | calClose (l : Lane) (q : Req)
  /-- DBG_OPEN (R539). -/
  | dbgOpen (l : Lane) (q : Req)
  /-- LC_ADVANCE (R534). -/
  | lcAdvance (l : Lane) (q : Req)
  /-- LC_REENTER (R534). -/
  | lcReenter (l : Lane) (q : Req)
  /-- RETIRE (R537). -/
  | retire (l : Lane) (q : Req)
  /-- LOG_RESET (R550). -/
  | logReset (l : Lane) (q : Req)
  /-- LCS_LANE_RESET (R556). -/
  | lcsLaneReset (l : Lane) (q : Req)
  /-- LCS_OP_COMPLETE (R540). -/
  | lcsOpComplete (l : Lane)
  /-- LOCKOUT_EXPIRE (R542). -/
  | lockoutExpire (l : Lane) (role : Fin 4)
  /-- SESSION_IDLE_TIMEOUT (R539). -/
  | sessionIdleTimeout (l : Lane)
  /-- CHALLENGE_EXPIRE (R543). -/
  | challengeExpire (l : Lane)
  /-- LCS_LOG_SUB_WRITE (R549). -/
  | lcsLogSubWrite (l : Lane) (q : Req) (sub : BitVec 12)
  /-- LOG_APPEND (R549). -/
  | logAppend (l : Lane)
  /-- IMG_CHECK (R556). -/
  | imgCheck (l : Lane) (q : Req) (bank : Fin 2)
  /-- IMG_ACTIVATE (R556). -/
  | imgActivate (l : Lane) (q : Req) (bank : Fin 2)
  /-- IMG_CONFIRM (R558). -/
  | imgConfirm (l : Lane) (q : Req)
  /-- ATTEST (R563). -/
  | attest (l : Lane) (q : Req)
  /-- KEY_SET (R551). -/
  | keySet (l : Lane) (q : Req) (slot : BitVec 4)
  /-- KEY_REVOKE (R551). -/
  | keyRevoke (l : Lane) (q : Req) (slot : BitVec 4)
  /-- SEC_OP_COMPLETE (R556). -/
  | secOpComplete (l : Lane)
  /-- SECURE_BOOT (R553). -/
  | secureBoot (l : Lane)
  /-- WARM_CHECK (R554). -/
  | warmCheck (l : Lane)
  /-- BOOT_SELFTEST (R567). -/
  | bootSelftest (l : Lane)
  /-- BIST_RUN (R568). -/
  | bistRun (l : Lane) (q : Req) (mask : BitVec 11)
  /-- BIST_ABORT (R569). -/
  | bistAbort (l : Lane) (q : Req)
  /-- BIST_TEST_COMPLETE (R570). -/
  | bistTestComplete (l : Lane) (t : Fin 11) (pass : Bool) (cov : BitVec 10) (detail : BitVec 16) (dur : BitVec 19) (rows : List (Fin 8 × BitVec 12))
  /-- TETHER_LINK_DOWN (R423). -/
  | tetherLinkDown (l : Lane) (silent : Bool)
  /-- TETHER_LINK_UP (R423). -/
  | tetherLinkUp (l : Lane)
  /-- SUPPLY_INPUT_RETURN (R469). -/
  | supplyInputReturn (l : Lane) (main : Bool) (v : BitVec 17)
  /-- OT_CLEAR (R265). -/
  | otClear (l : Lane) (tj : BitVec 8)
  /-- VLINK_UV_CLEAR (R264). -/
  | vlinkUvClear (l : Lane) (v : BitVec 8)
  /-- EXT_TRIP_RELEASE (R265). -/
  | extTripRelease (l : Lane) (k : Fin 6)
  /-- VG_UV_CLEAR (R574). -/
  | vgUvClear (l : Lane)
deriving DecidableEq, Repr

end Sys2Proof
end

