-- ==== Sys2Proof/Config.lean ====
section
/-! DEFINITION. What the spec leaves to the silicon, the image or the outside, as constants without a body: nothing in
Lean can evaluate them, so a statement holds whatever they are. -/

namespace Sys2Proof.Config

/-- A free value: a value that the spec leaves open, numbered by the draw counter of the state. -/
opaque freeValue : Nat → Word

/-- Whether an inexact quotient `num / den` is rounded up: the direction the spec does not state. -/
opaque roundsUp : Int → Nat → Bool

/-- The temperature in Q12.4 degrees of a code of an NTC channel (its table is the image's). -/
opaque ntcTemp : Nat → BitVec 16

/-- The weight that R85 leaves without a value: clamped weights for which no λ exists. -/
opaque openWeight : List Nat → Nat → Word

/-- The fine angle of an equalised sine and cosine pair, within the tolerance of R107. -/
opaque finePhi : Int → Int → BitVec 12

/-- An instant whose computation the spec does not state to the last bit. -/
opaque openInstant : Int → Int → BitVec 64

/-- A number divided by the square root of three; its last bit is open. -/
opaque overSqrt3 : Int → Int

/-- A number times two pi; its last bit is open. -/
opaque timesTwoPi : Int → Int

/-- A number times the square root of three; its last bit is open. -/
opaque timesSqrt3 : Nat → Nat

/-- Cosine and sine of an electrical angle of 32 bits in Q2.30; the last bit is open. -/
opaque cosQ30 : Nat → Int
opaque sinQ30 : Nat → Int

/-- The length of a vector; its last bit is open. -/
opaque hypot : Int → Int → Nat

/-- The angle of a vector in turns of 32 bits; its last bit is open. -/
opaque angleOf : Int → Int → BitVec 32

/-- The voltage of the rotor's turning, of two flux components, a speed and an interval; its last bit is open. -/
opaque backEmf : Int → Int → Int → Int → Int × Int

/-- The margin of an oscillator group whose fused target is 0, by its count. -/
opaque avsMargin : Nat → Int

/-- Whether a signature is valid under a public key for a digest, ECDSA over brainpoolP384r1 (R543, R551): the spec does not
state how keys, r and s are laid out as bytes. -/
opaque ecdsaVerify : List Byte → List Byte → List Byte → Bool

/-- The signature of a digest with the identity key of a lane, and the digest of that key's public half (R562). -/
opaque identitySign : Nat → List Byte → List Byte
opaque identityKeyDigest : Nat → List Byte

/-- The Maker public key of the identity sector (R543). -/
opaque makerKey : List Byte

/-- Tag and sender bits of the header of a mailbox that has been emptied, by mailbox and message serial. -/
opaque emptyHeader : Nat → Nat → BitVec 22

/-- A byte of an eNVM page or sector whose operation a reset cuts short, by its address and the always-on time. -/
opaque cutByte : Nat → Nat → Byte

/-- What an erased byte of eNVM reads as. -/
opaque erasedByte : Byte

/-- The base cost of a core's access that the table of R369 does not give, by its address: a trace access, a Lath access,
an access outside every region, and of a squashed word that is no instruction. -/
opaque openCost : Nat → Nat

end Sys2Proof.Config
end

