-- ==== Sys2Proof/Machine/RegMap.lean ====
section
/-! DEFINITION. The registers of the spec as it tabulates them: every register's address (block base of chapter
16 plus the caption's offset), every field's bits and access code (R8), and the reset value of the caption.
`xxx` is a register's address, `xxx_f` its field f; `tableX` is block X as data, for the generic access rules.
A register of the spec that has several instances takes their indices: axis, engine, edge unit, job, mailbox. -/

namespace Sys2Proof.Machine

/-- A field of a register: the register's address and the field's highest and lowest bit. -/
structure RF where
  addr : Nat
  hi : Nat
  lo : Nat
deriving DecidableEq, Repr

/-- The access codes of R8. -/
inductive Acc where
  | rw | ro | wo | w1c | w1s | rwl | rws
deriving DecidableEq, Repr

/-- One field of a register row: highest bit, lowest bit, access code. -/
structure FieldRow where
  hi : Nat
  lo : Nat
  acc : Acc
deriving DecidableEq, Repr

/-- One register row of the spec: the address of its first instance, two strides with their counts (a block
instance and an index within it), the reset value, the LOCK register that freezes its RWL fields with that
register's stride per block instance, and its fields. -/
structure RegRow where
  base : Nat
  s1 : Nat
  c1 : Nat
  s2 : Nat
  c2 : Nat
  reset : Nat
  lock : Option (Nat × Nat)
  fields : List FieldRow
deriving DecidableEq, Repr

end Sys2Proof.Machine

namespace Sys2Proof.Machine.R


/-! ## SYS: block base 0x40000000 -/

/-- SYS_ID. -/
def sysId : Nat := 0x40000000
/-- SYS_ID.family [31:24], RO. -/
def sysId_family : RF := ⟨sysId, 31, 24⟩
/-- SYS_ID.part [23:16], RO. -/
def sysId_part : RF := ⟨sysId, 23, 16⟩
/-- SYS_ID.variant [15:12], RO. -/
def sysId_variant : RF := ⟨sysId, 15, 12⟩
/-- SYS_ID.lane [11:8], RO. -/
def sysId_lane : RF := ⟨sysId, 11, 8⟩
/-- SYS_ID.die_rev [7:0], RO. -/
def sysId_die_rev : RF := ⟨sysId, 7, 0⟩
/-- SYS_TICK. -/
def sysTick : Nat := 0x40000010
/-- SYS_TICK.tick [11:0], RWL. -/
def sysTick_tick : RF := ⟨sysTick, 11, 0⟩
/-- SYS_TICK.n [20:16], RWL. -/
def sysTick_n : RF := ⟨sysTick, 20, 16⟩
/-- SYS_LOCK. -/
def sysLock : Nat := 0x4000001C
/-- SYS_LOCK.key [15:0], WO. -/
def sysLock_key : RF := ⟨sysLock, 15, 0⟩
/-- SYS_TIME_LO. -/
def sysTimeLo : Nat := 0x40000020
/-- SYS_TIME_LO.time_lo [31:0], RO. -/
def sysTimeLo_time_lo : RF := ⟨sysTimeLo, 31, 0⟩
/-- SYS_TIME_HI. -/
def sysTimeHi : Nat := 0x40000024
/-- SYS_TIME_HI.time_hi [31:0], RO. -/
def sysTimeHi_time_hi : RF := ⟨sysTimeHi, 31, 0⟩
/-- SYS_ALIGN_STAT. -/
def sysAlignStat : Nat := 0x40000030
/-- SYS_ALIGN_STAT.aligned [0:0], RO. -/
def sysAlignStat_aligned : RF := ⟨sysAlignStat, 0, 0⟩
/-- SYS_ALIGN_STAT.holdover [1:1], RO. -/
def sysAlignStat_holdover : RF := ⟨sysAlignStat, 1, 1⟩
/-- SYS_ALIGN_STAT.rate_sat [2:2], RO. -/
def sysAlignStat_rate_sat : RF := ⟨sysAlignStat, 2, 2⟩
/-- SYS_ALIGN_STAT.suspect [6:4], RO. -/
def sysAlignStat_suspect : RF := ⟨sysAlignStat, 6, 4⟩
/-- SYS_ALIGN_STAT.exclude [10:8], RO. -/
def sysAlignStat_exclude : RF := ⟨sysAlignStat, 10, 8⟩
/-- SYS_ALIGN_STAT.stepped [16:16], W1C. -/
def sysAlignStat_stepped : RF := ⟨sysAlignStat, 16, 16⟩
/-- SYS_ALIGN_STAT.tick_mismatch [17:17], W1C. -/
def sysAlignStat_tick_mismatch : RF := ⟨sysAlignStat, 17, 17⟩
/-- SYS_ALIGN_STAT.tick_illegal [18:18], W1C. -/
def sysAlignStat_tick_illegal : RF := ⟨sysAlignStat, 18, 18⟩
/-- SYS_ALIGN_STAT.rate_sat_evt [19:19], W1C. -/
def sysAlignStat_rate_sat_evt : RF := ⟨sysAlignStat, 19, 19⟩
/-- SYS_ALIGN_STAT.frame_miss [20:20], W1C. -/
def sysAlignStat_frame_miss : RF := ⟨sysAlignStat, 20, 20⟩
/-- SYS_ALIGN_OFS_A. -/
def sysAlignOfsA : Nat := 0x40000040
/-- SYS_ALIGN_OFS_A.ofs [31:0], RO. -/
def sysAlignOfsA_ofs : RF := ⟨sysAlignOfsA, 31, 0⟩
/-- SYS_ALIGN_OFS_B. -/
def sysAlignOfsB : Nat := 0x40000044
/-- SYS_ALIGN_OFS_B.ofs [31:0], RO. -/
def sysAlignOfsB_ofs : RF := ⟨sysAlignOfsB, 31, 0⟩
/-- SYS_ALIGN_OFS_C. -/
def sysAlignOfsC : Nat := 0x40000048
/-- SYS_ALIGN_OFS_C.ofs [31:0], RO. -/
def sysAlignOfsC_ofs : RF := ⟨sysAlignOfsC, 31, 0⟩
/-- SYS_RATE. -/
def sysRate : Nat := 0x40000050
/-- SYS_RATE.corr [23:0], RO. -/
def sysRate_corr : RF := ⟨sysRate, 23, 0⟩
/-- SYS_ISL_STAT. -/
def sysIslStat : Nat := 0x40000060
/-- SYS_ISL_STAT.clk_loss [13:0], W1C. -/
def sysIslStat_clk_loss : RF := ⟨sysIslStat, 13, 0⟩
/-- SYS_ISL_STAT.hs_timeout [29:16], W1C. -/
def sysIslStat_hs_timeout : RF := ⟨sysIslStat, 29, 16⟩
/-- The register table of block SYS. -/
def tableSys : List RegRow := [
  ⟨0x40000000, 0x10000, 1, 0x4, 1, 0x00000000, some (0x4000001C, 0x0), [⟨31, 24, .ro⟩, ⟨23, 16, .ro⟩, ⟨15, 12, .ro⟩, ⟨11, 8, .ro⟩, ⟨7, 0, .ro⟩]⟩,
  ⟨0x40000010, 0x10000, 1, 0x4, 1, 0x000503E8, some (0x4000001C, 0x0), [⟨11, 0, .rwl⟩, ⟨20, 16, .rwl⟩]⟩,
  ⟨0x4000001C, 0x10000, 1, 0x4, 1, 0x00000000, some (0x4000001C, 0x0), [⟨15, 0, .wo⟩]⟩,
  ⟨0x40000020, 0x10000, 1, 0x4, 1, 0x00000000, some (0x4000001C, 0x0), [⟨31, 0, .ro⟩]⟩,
  ⟨0x40000024, 0x10000, 1, 0x4, 1, 0x00000000, some (0x4000001C, 0x0), [⟨31, 0, .ro⟩]⟩,
  ⟨0x40000030, 0x10000, 1, 0x4, 1, 0x00000000, some (0x4000001C, 0x0), [⟨0, 0, .ro⟩, ⟨1, 1, .ro⟩, ⟨2, 2, .ro⟩, ⟨6, 4, .ro⟩, ⟨10, 8, .ro⟩, ⟨16, 16, .w1c⟩, ⟨17, 17, .w1c⟩, ⟨18, 18, .w1c⟩, ⟨19, 19, .w1c⟩, ⟨20, 20, .w1c⟩]⟩,
  ⟨0x40000040, 0x10000, 1, 0x4, 1, 0x00000000, some (0x4000001C, 0x0), [⟨31, 0, .ro⟩]⟩,
  ⟨0x40000044, 0x10000, 1, 0x4, 1, 0x00000000, some (0x4000001C, 0x0), [⟨31, 0, .ro⟩]⟩,
  ⟨0x40000048, 0x10000, 1, 0x4, 1, 0x00000000, some (0x4000001C, 0x0), [⟨31, 0, .ro⟩]⟩,
  ⟨0x40000050, 0x10000, 1, 0x4, 1, 0x00000000, some (0x4000001C, 0x0), [⟨23, 0, .ro⟩]⟩,
  ⟨0x40000060, 0x10000, 1, 0x4, 1, 0x00000000, some (0x4000001C, 0x0), [⟨13, 0, .w1c⟩, ⟨29, 16, .w1c⟩]⟩]


/-! ## SKIM: block base 0x401B0000 -/

/-- SKIM_CTL. -/
def skimCtl : Nat := 0x401B0000
/-- SKIM_CTL.en [0:0], RW. -/
def skimCtl_en : RF := ⟨skimCtl, 0, 0⟩
/-- SKIM_CTL.hold [1:1], RW. -/
def skimCtl_hold : RF := ⟨skimCtl, 1, 1⟩
/-- SKIM_CTL.clr_cnt [8:8], WO. -/
def skimCtl_clr_cnt : RF := ⟨skimCtl, 8, 8⟩
/-- SKIM_STAT. -/
def skimStat : Nat := 0x401B0004
/-- SKIM_STAT.busy [0:0], RO. -/
def skimStat_busy : RF := ⟨skimStat, 0, 0⟩
/-- SKIM_STAT.job [7:4], RO. -/
def skimStat_job : RF := ⟨skimStat, 7, 4⟩
/-- SKIM_STAT.overrun [16:16], W1C. -/
def skimStat_overrun : RF := ⟨skimStat, 16, 16⟩
/-- SKIM_STAT.job_fail [17:17], W1C. -/
def skimStat_job_fail : RF := ⟨skimStat, 17, 17⟩
/-- SKIM_LOCK. -/
def skimLock : Nat := 0x401B000C
/-- SKIM_LOCK.key [15:0], WO. -/
def skimLock_key : RF := ⟨skimLock, 15, 0⟩
/-- SKIM_JOB_CFG. -/
def skimJobCfg (n : Nat) : Nat := 0x401B0100 + 0x10 * n
/-- SKIM_JOB_CFG.en [0:0], RWL. -/
def skimJobCfg_en (n : Nat) : RF := ⟨skimJobCfg n, 0, 0⟩
/-- SKIM_JOB_CFG.kind [7:4], RWL. -/
def skimJobCfg_kind (n : Nat) : RF := ⟨skimJobCfg n, 7, 4⟩
/-- SKIM_JOB_CFG.target [15:8], RWL. -/
def skimJobCfg_target (n : Nat) : RF := ⟨skimJobCfg n, 15, 8⟩
/-- SKIM_JOB_CFG.period [27:16], RWL. -/
def skimJobCfg_period (n : Nat) : RF := ⟨skimJobCfg n, 27, 16⟩
/-- SKIM_JOB_CNT. -/
def skimJobCnt (n : Nat) : Nat := 0x401B0104 + 0x10 * n
/-- SKIM_JOB_CNT.runs [15:0], RO. -/
def skimJobCnt_runs (n : Nat) : RF := ⟨skimJobCnt n, 15, 0⟩
/-- SKIM_JOB_CNT.preempt [31:16], RO. -/
def skimJobCnt_preempt (n : Nat) : RF := ⟨skimJobCnt n, 31, 16⟩
/-- SKIM_JOB_LAST. -/
def skimJobLast (n : Nat) : Nat := 0x401B0108 + 0x10 * n
/-- SKIM_JOB_LAST.status [7:0], RO. -/
def skimJobLast_status (n : Nat) : RF := ⟨skimJobLast n, 7, 0⟩
/-- SKIM_JOB_LAST.value [31:8], RO. -/
def skimJobLast_value (n : Nat) : RF := ⟨skimJobLast n, 31, 8⟩
/-- The register table of block SKIM. -/
def tableSkim : List RegRow := [
  ⟨0x401B0000, 0x10000, 1, 0x4, 1, 0x00000000, some (0x401B000C, 0x0), [⟨0, 0, .rw⟩, ⟨1, 1, .rw⟩, ⟨8, 8, .wo⟩]⟩,
  ⟨0x401B0004, 0x10000, 1, 0x4, 1, 0x00000000, some (0x401B000C, 0x0), [⟨0, 0, .ro⟩, ⟨7, 4, .ro⟩, ⟨16, 16, .w1c⟩, ⟨17, 17, .w1c⟩]⟩,
  ⟨0x401B000C, 0x10000, 1, 0x4, 1, 0x00000000, some (0x401B000C, 0x0), [⟨15, 0, .wo⟩]⟩,
  ⟨0x401B0100, 0x10, 16, 0x4, 1, 0x00000000, some (0x401B000C, 0x0), [⟨0, 0, .rwl⟩, ⟨7, 4, .rwl⟩, ⟨15, 8, .rwl⟩, ⟨27, 16, .rwl⟩]⟩,
  ⟨0x401B0104, 0x10, 16, 0x4, 1, 0x00000000, some (0x401B000C, 0x0), [⟨15, 0, .ro⟩, ⟨31, 16, .ro⟩]⟩,
  ⟨0x401B0108, 0x10, 16, 0x4, 1, 0x00000003, some (0x401B000C, 0x0), [⟨7, 0, .ro⟩, ⟨31, 8, .ro⟩]⟩]


/-! ## AXP: block base 0x40080000 -/

/-- AXP_CFG. -/
def axpCfg (n : Nat) : Nat := 0x40080000 + 0x1000 * n
/-- AXP_CFG.fitted [2:0], RWL. -/
def axpCfg_fitted (n : Nat) : RF := ⟨axpCfg n, 2, 0⟩
/-- AXP_CFG.safe [3:3], RWL. -/
def axpCfg_safe (n : Nat) : RF := ⟨axpCfg n, 3, 3⟩
/-- AXP_CFG.type [5:4], RWL. -/
def axpCfg_type (n : Nat) : RF := ⟨axpCfg n, 5, 4⟩
/-- AXP_CFG.estop_en [6:6], RWL. -/
def axpCfg_estop_en (n : Nat) : RF := ⟨axpCfg n, 6, 6⟩
/-- AXP_CFG.estop_fn [10:8], RWL. -/
def axpCfg_estop_fn (n : Nat) : RF := ⟨axpCfg n, 10, 8⟩
/-- AXP_CFG.prompt_ok [12:12], RWL. -/
def axpCfg_prompt_ok (n : Nat) : RF := ⟨axpCfg n, 12, 12⟩
/-- AXP_CFG.wupd [27:16], RWL. -/
def axpCfg_wupd (n : Nat) : RF := ⟨axpCfg n, 27, 16⟩
/-- AXP_LOOPSEL. -/
def axpLoopsel (n : Nat) : Nat := 0x40080004 + 0x1000 * n
/-- AXP_LOOPSEL.le [0:0], RWL. -/
def axpLoopsel_le (n : Nat) : RF := ⟨axpLoopsel n, 0, 0⟩
/-- AXP_LOOPSEL.loop [7:4], RWL. -/
def axpLoopsel_loop (n : Nat) : RF := ⟨axpLoopsel n, 7, 4⟩
/-- AXP_SCHED0. -/
def axpSched0 (n : Nat) : Nat := 0x40080010 + 0x1000 * n
/-- AXP_SCHED0.decode_end [15:0], RWL. -/
def axpSched0_decode_end (n : Nat) : RF := ⟨axpSched0 n, 15, 0⟩
/-- AXP_SCHED0.profile_end [31:16], RWL. -/
def axpSched0_profile_end (n : Nat) : RF := ⟨axpSched0 n, 31, 16⟩
/-- AXP_SCHED1. -/
def axpSched1 (n : Nat) : Nat := 0x40080014 + 0x1000 * n
/-- AXP_SCHED1.loop_end [15:0], RWL. -/
def axpSched1_loop_end (n : Nat) : RF := ⟨axpSched1 n, 15, 0⟩
/-- AXP_SCHED1.share_dl [31:16], RWL. -/
def axpSched1_share_dl (n : Nat) : RF := ⟨axpSched1 n, 31, 16⟩
/-- AXP_SCHED2. -/
def axpSched2 (n : Nat) : Nat := 0x40080018 + 0x1000 * n
/-- AXP_SCHED2.commit_tick [3:0], RWL. -/
def axpSched2_commit_tick (n : Nat) : RF := ⟨axpSched2 n, 3, 0⟩
/-- AXP_ISCALE. -/
def axpIscale (n : Nat) : Nat := 0x40080020 + 0x1000 * n
/-- AXP_ISCALE.k_i [31:0], RWL. -/
def axpIscale_k_i (n : Nat) : RF := ⟨axpIscale n, 31, 0⟩
/-- AXP_IOFS. -/
def axpIofs (n : Nat) : Nat := 0x40080024 + 0x1000 * n
/-- AXP_IOFS.ofs_u [9:0], RW. -/
def axpIofs_ofs_u (n : Nat) : RF := ⟨axpIofs n, 9, 0⟩
/-- AXP_IOFS.ofs_v [19:10], RW. -/
def axpIofs_ofs_v (n : Nat) : RF := ⟨axpIofs n, 19, 10⟩
/-- AXP_IOFS.ofs_w [29:20], RW. -/
def axpIofs_ofs_w (n : Nat) : RF := ⟨axpIofs n, 29, 20⟩
/-- AXP_DEV_TQ. -/
def axpDevTq (n : Nat) : Nat := 0x40080030 + 0x1000 * n
/-- AXP_DEV_TQ.win [15:0], RWL. -/
def axpDevTq_win (n : Nat) : RF := ⟨axpDevTq n, 15, 0⟩
/-- AXP_DEV_POS. -/
def axpDevPos (n : Nat) : Nat := 0x40080034 + 0x1000 * n
/-- AXP_DEV_POS.win [31:0], RWL. -/
def axpDevPos_win (n : Nat) : RF := ⟨axpDevPos n, 31, 0⟩
/-- AXP_DEV_SPD. -/
def axpDevSpd (n : Nat) : Nat := 0x40080038 + 0x1000 * n
/-- AXP_DEV_SPD.win [31:0], RWL. -/
def axpDevSpd_win (n : Nat) : RF := ⟨axpDevSpd n, 31, 0⟩
/-- AXP_THERM_SRC. -/
def axpThermSrc (n : Nat) : Nat := 0x40080040 + 0x1000 * n
/-- AXP_THERM_SRC.src0 [7:0], RWL. -/
def axpThermSrc_src0 (n : Nat) : RF := ⟨axpThermSrc n, 7, 0⟩
/-- AXP_THERM_SRC.src1 [15:8], RWL. -/
def axpThermSrc_src1 (n : Nat) : RF := ⟨axpThermSrc n, 15, 8⟩
/-- AXP_THERM_SRC.src2 [23:16], RWL. -/
def axpThermSrc_src2 (n : Nat) : RF := ⟨axpThermSrc n, 23, 16⟩
/-- AXP_THERM_SRC.src3 [31:24], RWL. -/
def axpThermSrc_src3 (n : Nat) : RF := ⟨axpThermSrc n, 31, 24⟩
/-- AXP_THERM_LIM0. -/
def axpThermLim0 (n : Nat) : Nat := 0x40080044 + 0x1000 * n
/-- AXP_THERM_LIM0.lim0 [15:0], RWL. -/
def axpThermLim0_lim0 (n : Nat) : RF := ⟨axpThermLim0 n, 15, 0⟩
/-- AXP_THERM_LIM0.lim1 [31:16], RWL. -/
def axpThermLim0_lim1 (n : Nat) : RF := ⟨axpThermLim0 n, 31, 16⟩
/-- AXP_THERM_LIM1. -/
def axpThermLim1 (n : Nat) : Nat := 0x40080048 + 0x1000 * n
/-- AXP_THERM_LIM1.lim2 [15:0], RWL. -/
def axpThermLim1_lim2 (n : Nat) : RF := ⟨axpThermLim1 n, 15, 0⟩
/-- AXP_THERM_LIM1.lim3 [31:16], RWL. -/
def axpThermLim1_lim3 (n : Nat) : RF := ⟨axpThermLim1 n, 31, 16⟩
/-- AXP_MON_THR. -/
def axpMonThr (n : Nat) (k : Nat) : Nat := 0x40080060 + 0x1000 * n + 0x4 * k
/-- AXP_MON_THR.thr [15:0], RWL. -/
def axpMonThr_thr (n : Nat) (k : Nat) : RF := ⟨axpMonThr n k, 15, 0⟩
/-- AXP_MON_THR.persist [23:16], RWL. -/
def axpMonThr_persist (n : Nat) (k : Nat) : RF := ⟨axpMonThr n k, 23, 16⟩
/-- AXP_MON_THR.act [25:24], RWL. -/
def axpMonThr_act (n : Nat) (k : Nat) : RF := ⟨axpMonThr n k, 25, 24⟩
/-- AXP_CMD. -/
def axpCmd (n : Nat) : Nat := 0x40080080 + 0x1000 * n
/-- AXP_CMD.op [3:0], WO. -/
def axpCmd_op (n : Nat) : RF := ⟨axpCmd n, 3, 0⟩
/-- AXP_CMD.at [15:8], WO. -/
def axpCmd_at (n : Nat) : RF := ⟨axpCmd n, 15, 8⟩
/-- AXP_STATE. -/
def axpState (n : Nat) : Nat := 0x40080084 + 0x1000 * n
/-- AXP_STATE.state [2:0], RO. -/
def axpState_state (n : Nat) : RF := ⟨axpState n, 2, 0⟩
/-- AXP_STATE.pend [3:3], RO. -/
def axpState_pend (n : Nat) : RF := ⟨axpState n, 3, 3⟩
/-- AXP_STATE.pend_op [7:4], RO. -/
def axpState_pend_op (n : Nat) : RF := ⟨axpState n, 7, 4⟩
/-- AXP_STATE.stopping [8:8], RO. -/
def axpState_stopping (n : Nat) : RF := ⟨axpState n, 8, 8⟩
/-- AXP_STATE.contrib [18:16], RO. -/
def axpState_contrib (n : Nat) : RF := ⟨axpState n, 18, 16⟩
/-- AXP_STAT. -/
def axpStat (n : Nat) : Nat := 0x40080088 + 0x1000 * n
/-- AXP_STAT.late [0:0], W1C. -/
def axpStat_late (n : Nat) : RF := ⟨axpStat n, 0, 0⟩
/-- AXP_STAT.miss [1:1], W1C. -/
def axpStat_miss (n : Nat) : RF := ⟨axpStat n, 1, 1⟩
/-- AXP_STAT.cmd_late [2:2], W1C. -/
def axpStat_cmd_late (n : Nat) : RF := ⟨axpStat n, 2, 2⟩
/-- AXP_STAT.cmd_overwrite [3:3], W1C. -/
def axpStat_cmd_overwrite (n : Nat) : RF := ⟨axpStat n, 3, 3⟩
/-- AXP_STAT.cmd_dropped [4:4], W1C. -/
def axpStat_cmd_dropped (n : Nat) : RF := ⟨axpStat n, 4, 4⟩
/-- AXP_STAT.cmd_refused [5:5], W1C. -/
def axpStat_cmd_refused (n : Nat) : RF := ⟨axpStat n, 5, 5⟩
/-- AXP_STAT.sched_illegal [6:6], W1C. -/
def axpStat_sched_illegal (n : Nat) : RF := ⟨axpStat n, 6, 6⟩
/-- AXP_STAT.tq_short [7:7], W1C. -/
def axpStat_tq_short (n : Nat) : RF := ⟨axpStat n, 7, 7⟩
/-- AXP_STAT.cur_stale [8:8], W1C. -/
def axpStat_cur_stale (n : Nat) : RF := ⟨axpStat n, 8, 8⟩
/-- AXP_STAT.tick_ovr [9:9], W1C. -/
def axpStat_tick_ovr (n : Nat) : RF := ⟨axpStat n, 9, 9⟩
/-- AXP_STAT.state_dev [10:10], W1C. -/
def axpStat_state_dev (n : Nat) : RF := ⟨axpStat n, 10, 10⟩
/-- AXP_STAT.dev_tq [11:11], W1C. -/
def axpStat_dev_tq (n : Nat) : RF := ⟨axpStat n, 11, 11⟩
/-- AXP_STAT.dev_pos [12:12], W1C. -/
def axpStat_dev_pos (n : Nat) : RF := ⟨axpStat n, 12, 12⟩
/-- AXP_STAT.dev_spd [13:13], W1C. -/
def axpStat_dev_spd (n : Nat) : RF := ⟨axpStat n, 13, 13⟩
/-- AXP_STAT.start_refused_vlim [14:14], W1C. -/
def axpStat_start_refused_vlim (n : Nat) : RF := ⟨axpStat n, 14, 14⟩
/-- AXP_STAT.tq_hold [15:15], W1C. -/
def axpStat_tq_hold (n : Nat) : RF := ⟨axpStat n, 15, 15⟩
/-- AXP_STAT.mon [23:16], W1C. -/
def axpStat_mon (n : Nat) : RF := ⟨axpStat n, 23, 16⟩
/-- AXP_PNUM. -/
def axpPnum (n : Nat) : Nat := 0x4008008C + 0x1000 * n
/-- AXP_PNUM.pnum [31:0], RO. -/
def axpPnum_pnum (n : Nat) : RF := ⟨axpPnum n, 31, 0⟩
/-- AXP_CNT. -/
def axpCnt (n : Nat) : Nat := 0x40080090 + 0x1000 * n
/-- AXP_CNT.late [15:0], RO. -/
def axpCnt_late (n : Nat) : RF := ⟨axpCnt n, 15, 0⟩
/-- AXP_CNT.miss [31:16], RO. -/
def axpCnt_miss (n : Nat) : RF := ⟨axpCnt n, 31, 16⟩
/-- AXP_CNT_CLR. -/
def axpCntClr (n : Nat) : Nat := 0x40080094 + 0x1000 * n
/-- AXP_CNT_CLR.clr [0:0], WO. -/
def axpCntClr_clr (n : Nat) : RF := ⟨axpCntClr n, 0, 0⟩
/-- AXP_WGT_A. -/
def axpWgtA (n : Nat) : Nat := 0x400800A0 + 0x1000 * n
/-- AXP_WGT_A.w [31:0], RO. -/
def axpWgtA_w (n : Nat) : RF := ⟨axpWgtA n, 31, 0⟩
/-- AXP_WGT_B. -/
def axpWgtB (n : Nat) : Nat := 0x400800A4 + 0x1000 * n
/-- AXP_WGT_B.w [31:0], RO. -/
def axpWgtB_w (n : Nat) : RF := ⟨axpWgtB n, 31, 0⟩
/-- AXP_WGT_C. -/
def axpWgtC (n : Nat) : Nat := 0x400800A8 + 0x1000 * n
/-- AXP_WGT_C.w [31:0], RO. -/
def axpWgtC_w (n : Nat) : RF := ⟨axpWgtC n, 31, 0⟩
/-- AXP_LOCK. -/
def axpLock (n : Nat) : Nat := 0x400800FC + 0x1000 * n
/-- AXP_LOCK.key [15:0], WO. -/
def axpLock_key (n : Nat) : RF := ⟨axpLock n, 15, 0⟩
/-- The register table of block AXP. -/
def tableAxp : List RegRow := [
  ⟨0x40080000, 0x1000, 4, 0x4, 1, 0x00280000, some (0x400800FC, 0x1000), [⟨2, 0, .rwl⟩, ⟨3, 3, .rwl⟩, ⟨5, 4, .rwl⟩, ⟨6, 6, .rwl⟩, ⟨10, 8, .rwl⟩, ⟨12, 12, .rwl⟩, ⟨27, 16, .rwl⟩]⟩,
  ⟨0x40080004, 0x1000, 4, 0x4, 1, 0x00000000, some (0x400800FC, 0x1000), [⟨0, 0, .rwl⟩, ⟨7, 4, .rwl⟩]⟩,
  ⟨0x40080010, 0x1000, 4, 0x4, 1, 0x019000C8, some (0x400800FC, 0x1000), [⟨15, 0, .rwl⟩, ⟨31, 16, .rwl⟩]⟩,
  ⟨0x40080014, 0x1000, 4, 0x4, 1, 0x064004B0, some (0x400800FC, 0x1000), [⟨15, 0, .rwl⟩, ⟨31, 16, .rwl⟩]⟩,
  ⟨0x40080018, 0x1000, 4, 0x4, 1, 0x00000002, some (0x400800FC, 0x1000), [⟨3, 0, .rwl⟩]⟩,
  ⟨0x40080020, 0x1000, 4, 0x4, 1, 0x00000000, some (0x400800FC, 0x1000), [⟨31, 0, .rwl⟩]⟩,
  ⟨0x40080024, 0x1000, 4, 0x4, 1, 0x00000000, some (0x400800FC, 0x1000), [⟨9, 0, .rw⟩, ⟨19, 10, .rw⟩, ⟨29, 20, .rw⟩]⟩,
  ⟨0x40080030, 0x1000, 4, 0x4, 1, 0x00000100, some (0x400800FC, 0x1000), [⟨15, 0, .rwl⟩]⟩,
  ⟨0x40080034, 0x1000, 4, 0x4, 1, 0x00000400, some (0x400800FC, 0x1000), [⟨31, 0, .rwl⟩]⟩,
  ⟨0x40080038, 0x1000, 4, 0x4, 1, 0x00001000, some (0x400800FC, 0x1000), [⟨31, 0, .rwl⟩]⟩,
  ⟨0x40080040, 0x1000, 4, 0x4, 1, 0x00000001, some (0x400800FC, 0x1000), [⟨7, 0, .rwl⟩, ⟨15, 8, .rwl⟩, ⟨23, 16, .rwl⟩, ⟨31, 24, .rwl⟩]⟩,
  ⟨0x40080044, 0x1000, 4, 0x4, 1, 0x00000960, some (0x400800FC, 0x1000), [⟨15, 0, .rwl⟩, ⟨31, 16, .rwl⟩]⟩,
  ⟨0x40080048, 0x1000, 4, 0x4, 1, 0x00000000, some (0x400800FC, 0x1000), [⟨15, 0, .rwl⟩, ⟨31, 16, .rwl⟩]⟩,
  ⟨0x40080060, 0x1000, 4, 0x4, 8, 0x00000000, some (0x400800FC, 0x1000), [⟨15, 0, .rwl⟩, ⟨23, 16, .rwl⟩, ⟨25, 24, .rwl⟩]⟩,
  ⟨0x40080080, 0x1000, 4, 0x4, 1, 0x00000000, some (0x400800FC, 0x1000), [⟨3, 0, .wo⟩, ⟨15, 8, .wo⟩]⟩,
  ⟨0x40080084, 0x1000, 4, 0x4, 1, 0x00000000, some (0x400800FC, 0x1000), [⟨2, 0, .ro⟩, ⟨3, 3, .ro⟩, ⟨7, 4, .ro⟩, ⟨8, 8, .ro⟩, ⟨18, 16, .ro⟩]⟩,
  ⟨0x40080088, 0x1000, 4, 0x4, 1, 0x00000000, some (0x400800FC, 0x1000), [⟨0, 0, .w1c⟩, ⟨1, 1, .w1c⟩, ⟨2, 2, .w1c⟩, ⟨3, 3, .w1c⟩, ⟨4, 4, .w1c⟩, ⟨5, 5, .w1c⟩, ⟨6, 6, .w1c⟩, ⟨7, 7, .w1c⟩, ⟨8, 8, .w1c⟩, ⟨9, 9, .w1c⟩, ⟨10, 10, .w1c⟩, ⟨11, 11, .w1c⟩, ⟨12, 12, .w1c⟩, ⟨13, 13, .w1c⟩, ⟨14, 14, .w1c⟩, ⟨15, 15, .w1c⟩, ⟨23, 16, .w1c⟩]⟩,
  ⟨0x4008008C, 0x1000, 4, 0x4, 1, 0x00000000, some (0x400800FC, 0x1000), [⟨31, 0, .ro⟩]⟩,
  ⟨0x40080090, 0x1000, 4, 0x4, 1, 0x00000000, some (0x400800FC, 0x1000), [⟨15, 0, .ro⟩, ⟨31, 16, .ro⟩]⟩,
  ⟨0x40080094, 0x1000, 4, 0x4, 1, 0x00000000, some (0x400800FC, 0x1000), [⟨0, 0, .wo⟩]⟩,
  ⟨0x400800A0, 0x1000, 4, 0x4, 1, 0x00000000, some (0x400800FC, 0x1000), [⟨31, 0, .ro⟩]⟩,
  ⟨0x400800A4, 0x1000, 4, 0x4, 1, 0x00000000, some (0x400800FC, 0x1000), [⟨31, 0, .ro⟩]⟩,
  ⟨0x400800A8, 0x1000, 4, 0x4, 1, 0x00000000, some (0x400800FC, 0x1000), [⟨31, 0, .ro⟩]⟩,
  ⟨0x400800FC, 0x1000, 4, 0x4, 1, 0x00000000, some (0x400800FC, 0x1000), [⟨15, 0, .wo⟩]⟩]


/-! ## ADC: block base 0x40100000 -/

/-- ADC_STAT. -/
def adcStat : Nat := 0x40100000
/-- ADC_STAT.ovr [21:0], W1C. -/
def adcStat_ovr : RF := ⟨adcStat, 21, 0⟩
/-- ADC_ZSTAT. -/
def adcZstat : Nat := 0x40100004
/-- ADC_ZSTAT.zfail [21:0], W1C. -/
def adcZstat_zfail : RF := ⟨adcZstat, 21, 0⟩
/-- ADC_ZLIM. -/
def adcZlim : Nat := 0x40100008
/-- ADC_ZLIM.lim [7:0], RW. -/
def adcZlim_lim : RF := ⟨adcZlim, 7, 0⟩
/-- The register table of block ADC. -/
def tableAdc : List RegRow := [
  ⟨0x40100000, 0x10000, 1, 0x4, 1, 0x00000000, none, [⟨21, 0, .w1c⟩]⟩,
  ⟨0x40100004, 0x10000, 1, 0x4, 1, 0x00000000, none, [⟨21, 0, .w1c⟩]⟩,
  ⟨0x40100008, 0x10000, 1, 0x4, 1, 0x00000008, none, [⟨7, 0, .rw⟩]⟩]


/-! ## FB: block base 0x40090000 -/

/-- FB_CFG. -/
def fbCfg (n : Nat) : Nat := 0x40090000 + 0x400 * n
/-- FB_CFG.periods [12:0], RWL. -/
def fbCfg_periods (n : Nat) : RF := ⟨fbCfg n, 12, 0⟩
/-- FB_CFG.pp [21:16], RWL. -/
def fbCfg_pp (n : Nat) : RF := ⟨fbCfg n, 21, 16⟩
/-- FB_CFG.gain [23:22], RWL. -/
def fbCfg_gain (n : Nat) : RF := ⟨fbCfg n, 23, 22⟩
/-- FB_CFG.hall_en [24:24], RWL. -/
def fbCfg_hall_en (n : Nat) : RF := ⟨fbCfg n, 24, 24⟩
/-- FB_CFG.idx_en [25:25], RWL. -/
def fbCfg_idx_en (n : Nat) : RF := ⟨fbCfg n, 25, 25⟩
/-- FB_CFG.idx_qual [26:26], RWL. -/
def fbCfg_idx_qual (n : Nat) : RF := ⟨fbCfg n, 26, 26⟩
/-- FB_CFG.dir_inv [27:27], RWL. -/
def fbCfg_dir_inv (n : Nat) : RF := ⟨fbCfg n, 27, 27⟩
/-- FB_AFE. -/
def fbAfe (n : Nat) : Nat := 0x40090004 + 0x400 * n
/-- FB_AFE.hyst [3:0], RWL. -/
def fbAfe_hyst (n : Nat) : RF := ⟨fbAfe n, 3, 0⟩
/-- FB_AFE.persist [15:8], RWL. -/
def fbAfe_persist (n : Nat) : RF := ⟨fbAfe n, 15, 8⟩
/-- FB_AFE.r_lo [23:16], RWL. -/
def fbAfe_r_lo (n : Nat) : RF := ⟨fbAfe n, 23, 16⟩
/-- FB_AFE.r_hi [31:24], RWL. -/
def fbAfe_r_hi (n : Nat) : RF := ⟨fbAfe n, 31, 24⟩
/-- FB_EOFS. -/
def fbEofs (n : Nat) : Nat := 0x40090008 + 0x400 * n
/-- FB_EOFS.eofs [31:0], RW. -/
def fbEofs_eofs (n : Nat) : RF := ⟨fbEofs n, 31, 0⟩
/-- FB_HALL_CFG. -/
def fbHallCfg (n : Nat) : Nat := 0x4009000C + 0x400 * n
/-- FB_HALL_CFG.filt [7:0], RWL. -/
def fbHallCfg_filt (n : Nat) : RF := ⟨fbHallCfg n, 7, 0⟩
/-- FB_HALL_CFG.ofs [31:16], RWL. -/
def fbHallCfg_ofs (n : Nat) : RF := ⟨fbHallCfg n, 31, 16⟩
/-- FB_HALL_MAP. -/
def fbHallMap (n : Nat) : Nat := 0x40090010 + 0x400 * n
/-- FB_HALL_MAP.map0 [2:0], RWL. -/
def fbHallMap_map0 (n : Nat) : RF := ⟨fbHallMap n, 2, 0⟩
/-- FB_HALL_MAP.map1 [5:3], RWL. -/
def fbHallMap_map1 (n : Nat) : RF := ⟨fbHallMap n, 5, 3⟩
/-- FB_HALL_MAP.map2 [8:6], RWL. -/
def fbHallMap_map2 (n : Nat) : RF := ⟨fbHallMap n, 8, 6⟩
/-- FB_HALL_MAP.map3 [11:9], RWL. -/
def fbHallMap_map3 (n : Nat) : RF := ⟨fbHallMap n, 11, 9⟩
/-- FB_HALL_MAP.map4 [14:12], RWL. -/
def fbHallMap_map4 (n : Nat) : RF := ⟨fbHallMap n, 14, 12⟩
/-- FB_HALL_MAP.map5 [17:15], RWL. -/
def fbHallMap_map5 (n : Nat) : RF := ⟨fbHallMap n, 17, 15⟩
/-- FB_HALL_MAP.map6 [20:18], RWL. -/
def fbHallMap_map6 (n : Nat) : RF := ⟨fbHallMap n, 20, 18⟩
/-- FB_HALL_MAP.map7 [23:21], RWL. -/
def fbHallMap_map7 (n : Nat) : RF := ⟨fbHallMap n, 23, 21⟩
/-- FB_SPD_CTL. -/
def fbSpdCtl (n : Nat) : Nat := 0x40090014 + 0x400 * n
/-- FB_SPD_CTL.win [11:0], RWL. -/
def fbSpdCtl_win (n : Nat) : RF := ⟨fbSpdCtl n, 11, 0⟩
/-- FB_EQ_CTL. -/
def fbEqCtl (n : Nat) : Nat := 0x40090020 + 0x400 * n
/-- FB_EQ_CTL.en [0:0], RWL. -/
def fbEqCtl_en (n : Nat) : RF := ⟨fbEqCtl n, 0, 0⟩
/-- FB_EQ_CTL.freeze [1:1], RW. -/
def fbEqCtl_freeze (n : Nat) : RF := ⟨fbEqCtl n, 1, 1⟩
/-- FB_EQ_CTL.mu_o [11:8], RWL. -/
def fbEqCtl_mu_o (n : Nat) : RF := ⟨fbEqCtl n, 11, 8⟩
/-- FB_EQ_CTL.mu_g [15:12], RWL. -/
def fbEqCtl_mu_g (n : Nat) : RF := ⟨fbEqCtl n, 15, 12⟩
/-- FB_EQ_CTL.mu_p [19:16], RWL. -/
def fbEqCtl_mu_p (n : Nat) : RF := ⟨fbEqCtl n, 19, 16⟩
/-- FB_EQ_OFS. -/
def fbEqOfs (n : Nat) : Nat := 0x40090024 + 0x400 * n
/-- FB_EQ_OFS.o_s [15:0], RW. -/
def fbEqOfs_o_s (n : Nat) : RF := ⟨fbEqOfs n, 15, 0⟩
/-- FB_EQ_OFS.o_c [31:16], RW. -/
def fbEqOfs_o_c (n : Nat) : RF := ⟨fbEqOfs n, 31, 16⟩
/-- FB_EQ_GAIN. -/
def fbEqGain (n : Nat) : Nat := 0x40090028 + 0x400 * n
/-- FB_EQ_GAIN.g_s [15:0], RW. -/
def fbEqGain_g_s (n : Nat) : RF := ⟨fbEqGain n, 15, 0⟩
/-- FB_EQ_GAIN.g_c [31:16], RW. -/
def fbEqGain_g_c (n : Nat) : RF := ⟨fbEqGain n, 31, 16⟩
/-- FB_EQ_PH. -/
def fbEqPh (n : Nat) : Nat := 0x4009002C + 0x400 * n
/-- FB_EQ_PH.k [15:0], RW. -/
def fbEqPh_k (n : Nat) : RF := ⟨fbEqPh n, 15, 0⟩
/-- FB_OBS_K1. -/
def fbObsK1 (n : Nat) : Nat := 0x40090030 + 0x400 * n
/-- FB_OBS_K1.m [15:0], RWL. -/
def fbObsK1_m (n : Nat) : RF := ⟨fbObsK1 n, 15, 0⟩
/-- FB_OBS_K1.sh [21:16], RWL. -/
def fbObsK1_sh (n : Nat) : RF := ⟨fbObsK1 n, 21, 16⟩
/-- FB_OBS_K2. -/
def fbObsK2 (n : Nat) : Nat := 0x40090034 + 0x400 * n
/-- FB_OBS_K2.m [15:0], RWL. -/
def fbObsK2_m (n : Nat) : RF := ⟨fbObsK2 n, 15, 0⟩
/-- FB_OBS_K2.sh [21:16], RWL. -/
def fbObsK2_sh (n : Nat) : RF := ⟨fbObsK2 n, 21, 16⟩
/-- FB_OBS_K3. -/
def fbObsK3 (n : Nat) : Nat := 0x40090038 + 0x400 * n
/-- FB_OBS_K3.m [15:0], RWL. -/
def fbObsK3_m (n : Nat) : RF := ⟨fbObsK3 n, 15, 0⟩
/-- FB_OBS_K3.sh [21:16], RWL. -/
def fbObsK3_sh (n : Nat) : RF := ⟨fbObsK3 n, 21, 16⟩
/-- FB_IDX_TOL. -/
def fbIdxTol (n : Nat) : Nat := 0x40090040 + 0x400 * n
/-- FB_IDX_TOL.tol [15:0], RWL. -/
def fbIdxTol_tol (n : Nat) : RF := ⟨fbIdxTol n, 15, 0⟩
/-- FB_IDX_LO. -/
def fbIdxLo (n : Nat) : Nat := 0x40090044 + 0x400 * n
/-- FB_IDX_LO.lat [31:0], RO. -/
def fbIdxLo_lat (n : Nat) : RF := ⟨fbIdxLo n, 31, 0⟩
/-- FB_IDX_HI. -/
def fbIdxHi (n : Nat) : Nat := 0x40090048 + 0x400 * n
/-- FB_IDX_HI.lat [31:0], RO. -/
def fbIdxHi_lat (n : Nat) : RF := ⟨fbIdxHi n, 31, 0⟩
/-- FB_IDX_DRIFT. -/
def fbIdxDrift (n : Nat) : Nat := 0x4009004C + 0x400 * n
/-- FB_IDX_DRIFT.drift [31:0], RO. -/
def fbIdxDrift_drift (n : Nat) : RF := ⟨fbIdxDrift n, 31, 0⟩
/-- FB_IDX_CNT. -/
def fbIdxCnt (n : Nat) : Nat := 0x40090050 + 0x400 * n
/-- FB_IDX_CNT.idx [15:0], RO. -/
def fbIdxCnt_idx (n : Nat) : RF := ⟨fbIdxCnt n, 15, 0⟩
/-- FB_IDX_CNT.drift [31:16], RO. -/
def fbIdxCnt_drift (n : Nat) : RF := ⟨fbIdxCnt n, 31, 16⟩
/-- FB_CMP_CTL. -/
def fbCmpCtl (n : Nat) : Nat := 0x40090060 + 0x400 * n
/-- FB_CMP_CTL.en [0:0], RW. -/
def fbCmpCtl_en (n : Nat) : RF := ⟨fbCmpCtl n, 0, 0⟩
/-- FB_CMP_CTL.mode [1:1], RW. -/
def fbCmpCtl_mode (n : Nat) : RF := ⟨fbCmpCtl n, 1, 1⟩
/-- FB_CMP_CTL.dir [3:2], RW. -/
def fbCmpCtl_dir (n : Nat) : RF := ⟨fbCmpCtl n, 3, 2⟩
/-- FB_CMP_CTL.out [6:4], RW. -/
def fbCmpCtl_out (n : Nat) : RF := ⟨fbCmpCtl n, 6, 4⟩
/-- FB_CMP_LO. -/
def fbCmpLo (n : Nat) : Nat := 0x40090064 + 0x400 * n
/-- FB_CMP_LO.p_lo [31:0], RW. -/
def fbCmpLo_p_lo (n : Nat) : RF := ⟨fbCmpLo n, 31, 0⟩
/-- FB_CMP_HI. -/
def fbCmpHi (n : Nat) : Nat := 0x40090068 + 0x400 * n
/-- FB_CMP_HI.p_hi [15:0], RW. -/
def fbCmpHi_p_hi (n : Nat) : RF := ⟨fbCmpHi n, 15, 0⟩
/-- FB_CMP_SPC. -/
def fbCmpSpc (n : Nat) : Nat := 0x4009006C + 0x400 * n
/-- FB_CMP_SPC.spc [31:0], RW. -/
def fbCmpSpc_spc (n : Nat) : RF := ⟨fbCmpSpc n, 31, 0⟩
/-- FB_CMP_MISS. -/
def fbCmpMiss (n : Nat) : Nat := 0x40090070 + 0x400 * n
/-- FB_CMP_MISS.miss [15:0], RO. -/
def fbCmpMiss_miss (n : Nat) : RF := ⟨fbCmpMiss n, 15, 0⟩
/-- FB_CMP_TLO. -/
def fbCmpTlo (n : Nat) : Nat := 0x40090074 + 0x400 * n
/-- FB_CMP_TLO.t [31:0], RO. -/
def fbCmpTlo_t (n : Nat) : RF := ⟨fbCmpTlo n, 31, 0⟩
/-- FB_CMP_THI. -/
def fbCmpThi (n : Nat) : Nat := 0x40090078 + 0x400 * n
/-- FB_CMP_THI.t [31:0], RO. -/
def fbCmpThi_t (n : Nat) : RF := ⟨fbCmpThi n, 31, 0⟩
/-- FB_POS_LO. -/
def fbPosLo (n : Nat) : Nat := 0x40090080 + 0x400 * n
/-- FB_POS_LO.pos_lo [31:0], RO. -/
def fbPosLo_pos_lo (n : Nat) : RF := ⟨fbPosLo n, 31, 0⟩
/-- FB_POS_HI. -/
def fbPosHi (n : Nat) : Nat := 0x40090084 + 0x400 * n
/-- FB_POS_HI.pos_hi [31:0], RO. -/
def fbPosHi_pos_hi (n : Nat) : RF := ⟨fbPosHi n, 31, 0⟩
/-- FB_EANG. -/
def fbEang (n : Nat) : Nat := 0x40090088 + 0x400 * n
/-- FB_EANG.theta [31:0], RO. -/
def fbEang_theta (n : Nat) : RF := ⟨fbEang n, 31, 0⟩
/-- FB_STAT. -/
def fbStat (n : Nat) : Nat := 0x400900F0 + 0x400 * n
/-- FB_STAT.hall_illegal [0:0], W1C. -/
def fbStat_hall_illegal (n : Nat) : RF := ⟨fbStat n, 0, 0⟩
/-- FB_STAT.amp_fault [1:1], W1C. -/
def fbStat_amp_fault (n : Nat) : RF := ⟨fbStat n, 1, 1⟩
/-- FB_STAT.quad_err [2:2], W1C. -/
def fbStat_quad_err (n : Nat) : RF := ⟨fbStat n, 2, 2⟩
/-- FB_STAT.idx_drift [3:3], W1C. -/
def fbStat_idx_drift (n : Nat) : RF := ⟨fbStat n, 3, 3⟩
/-- FB_STAT.idx_ovr [4:4], W1C. -/
def fbStat_idx_ovr (n : Nat) : RF := ⟨fbStat n, 4, 4⟩
/-- FB_STAT.eq_limit [5:5], W1C. -/
def fbStat_eq_limit (n : Nat) : RF := ⟨fbStat n, 5, 5⟩
/-- FB_STAT.cmp_behind [6:6], W1C. -/
def fbStat_cmp_behind (n : Nat) : RF := ⟨fbStat n, 6, 6⟩
/-- FB_STAT.cmp_hit [7:7], W1C. -/
def fbStat_cmp_hit (n : Nat) : RF := ⟨fbStat n, 7, 7⟩
/-- FB_STAT.pos_wrap [8:8], W1C. -/
def fbStat_pos_wrap (n : Nat) : RF := ⟨fbStat n, 8, 8⟩
/-- FB_STAT.wr_refused [9:9], W1C. -/
def fbStat_wr_refused (n : Nat) : RF := ⟨fbStat n, 9, 9⟩
/-- FB_STAT.sens_lost [10:10], W1C. -/
def fbStat_sens_lost (n : Nat) : RF := ⟨fbStat n, 10, 10⟩
/-- FB_CMD. -/
def fbCmd (n : Nat) : Nat := 0x400900F4 + 0x400 * n
/-- FB_CMD.clr_idx_cnt [0:0], WO. -/
def fbCmd_clr_idx_cnt (n : Nat) : RF := ⟨fbCmd n, 0, 0⟩
/-- FB_CMD.clr_miss [1:1], WO. -/
def fbCmd_clr_miss (n : Nat) : RF := ⟨fbCmd n, 1, 1⟩
/-- FB_CMD.eq_reset [2:2], WO. -/
def fbCmd_eq_reset (n : Nat) : RF := ⟨fbCmd n, 2, 2⟩
/-- FB_CMD.obs_reset [3:3], WO. -/
def fbCmd_obs_reset (n : Nat) : RF := ⟨fbCmd n, 3, 3⟩
/-- FB_LOCK. -/
def fbLock (n : Nat) : Nat := 0x400900FC + 0x400 * n
/-- FB_LOCK.key [15:0], WO. -/
def fbLock_key (n : Nat) : RF := ⟨fbLock n, 15, 0⟩
/-- The register table of block FB. -/
def tableFb : List RegRow := [
  ⟨0x40090000, 0x400, 4, 0x4, 1, 0x00000000, some (0x400900FC, 0x400), [⟨12, 0, .rwl⟩, ⟨21, 16, .rwl⟩, ⟨23, 22, .rwl⟩, ⟨24, 24, .rwl⟩, ⟨25, 25, .rwl⟩, ⟨26, 26, .rwl⟩, ⟨27, 27, .rwl⟩]⟩,
  ⟨0x40090004, 0x400, 4, 0x4, 1, 0xFB400405, some (0x400900FC, 0x400), [⟨3, 0, .rwl⟩, ⟨15, 8, .rwl⟩, ⟨23, 16, .rwl⟩, ⟨31, 24, .rwl⟩]⟩,
  ⟨0x40090008, 0x400, 4, 0x4, 1, 0x00000000, some (0x400900FC, 0x400), [⟨31, 0, .rw⟩]⟩,
  ⟨0x4009000C, 0x400, 4, 0x4, 1, 0x00000064, some (0x400900FC, 0x400), [⟨7, 0, .rwl⟩, ⟨31, 16, .rwl⟩]⟩,
  ⟨0x40090010, 0x400, 4, 0x4, 1, 0x00E818EF, some (0x400900FC, 0x400), [⟨2, 0, .rwl⟩, ⟨5, 3, .rwl⟩, ⟨8, 6, .rwl⟩, ⟨11, 9, .rwl⟩, ⟨14, 12, .rwl⟩, ⟨17, 15, .rwl⟩, ⟨20, 18, .rwl⟩, ⟨23, 21, .rwl⟩]⟩,
  ⟨0x40090014, 0x400, 4, 0x4, 1, 0x00000028, some (0x400900FC, 0x400), [⟨11, 0, .rwl⟩]⟩,
  ⟨0x40090020, 0x400, 4, 0x4, 1, 0x000AAA00, some (0x400900FC, 0x400), [⟨0, 0, .rwl⟩, ⟨1, 1, .rw⟩, ⟨11, 8, .rwl⟩, ⟨15, 12, .rwl⟩, ⟨19, 16, .rwl⟩]⟩,
  ⟨0x40090024, 0x400, 4, 0x4, 1, 0x00000000, some (0x400900FC, 0x400), [⟨15, 0, .rw⟩, ⟨31, 16, .rw⟩]⟩,
  ⟨0x40090028, 0x400, 4, 0x4, 1, 0x10001000, some (0x400900FC, 0x400), [⟨15, 0, .rw⟩, ⟨31, 16, .rw⟩]⟩,
  ⟨0x4009002C, 0x400, 4, 0x4, 1, 0x00000000, some (0x400900FC, 0x400), [⟨15, 0, .rw⟩]⟩,
  ⟨0x40090030, 0x400, 4, 0x4, 1, 0x0013C105, some (0x400900FC, 0x400), [⟨15, 0, .rwl⟩, ⟨21, 16, .rwl⟩]⟩,
  ⟨0x40090034, 0x400, 4, 0x4, 1, 0x0018C20C, some (0x400900FC, 0x400), [⟨15, 0, .rwl⟩, ⟨21, 16, .rwl⟩]⟩,
  ⟨0x40090038, 0x400, 4, 0x4, 1, 0x001E820D, some (0x400900FC, 0x400), [⟨15, 0, .rwl⟩, ⟨21, 16, .rwl⟩]⟩,
  ⟨0x40090040, 0x400, 4, 0x4, 1, 0x00000010, some (0x400900FC, 0x400), [⟨15, 0, .rwl⟩]⟩,
  ⟨0x40090044, 0x400, 4, 0x4, 1, 0x00000000, some (0x400900FC, 0x400), [⟨31, 0, .ro⟩]⟩,
  ⟨0x40090048, 0x400, 4, 0x4, 1, 0x00000000, some (0x400900FC, 0x400), [⟨31, 0, .ro⟩]⟩,
  ⟨0x4009004C, 0x400, 4, 0x4, 1, 0x00000000, some (0x400900FC, 0x400), [⟨31, 0, .ro⟩]⟩,
  ⟨0x40090050, 0x400, 4, 0x4, 1, 0x00000000, some (0x400900FC, 0x400), [⟨15, 0, .ro⟩, ⟨31, 16, .ro⟩]⟩,
  ⟨0x40090060, 0x400, 4, 0x4, 1, 0x00000000, some (0x400900FC, 0x400), [⟨0, 0, .rw⟩, ⟨1, 1, .rw⟩, ⟨3, 2, .rw⟩, ⟨6, 4, .rw⟩]⟩,
  ⟨0x40090064, 0x400, 4, 0x4, 1, 0x00000000, some (0x400900FC, 0x400), [⟨31, 0, .rw⟩]⟩,
  ⟨0x40090068, 0x400, 4, 0x4, 1, 0x00000000, some (0x400900FC, 0x400), [⟨15, 0, .rw⟩]⟩,
  ⟨0x4009006C, 0x400, 4, 0x4, 1, 0x00000000, some (0x400900FC, 0x400), [⟨31, 0, .rw⟩]⟩,
  ⟨0x40090070, 0x400, 4, 0x4, 1, 0x00000000, some (0x400900FC, 0x400), [⟨15, 0, .ro⟩]⟩,
  ⟨0x40090074, 0x400, 4, 0x4, 1, 0x00000000, some (0x400900FC, 0x400), [⟨31, 0, .ro⟩]⟩,
  ⟨0x40090078, 0x400, 4, 0x4, 1, 0x00000000, some (0x400900FC, 0x400), [⟨31, 0, .ro⟩]⟩,
  ⟨0x40090080, 0x400, 4, 0x4, 1, 0x00000000, some (0x400900FC, 0x400), [⟨31, 0, .ro⟩]⟩,
  ⟨0x40090084, 0x400, 4, 0x4, 1, 0x00000000, some (0x400900FC, 0x400), [⟨31, 0, .ro⟩]⟩,
  ⟨0x40090088, 0x400, 4, 0x4, 1, 0x00000000, some (0x400900FC, 0x400), [⟨31, 0, .ro⟩]⟩,
  ⟨0x400900F0, 0x400, 4, 0x4, 1, 0x00000000, some (0x400900FC, 0x400), [⟨0, 0, .w1c⟩, ⟨1, 1, .w1c⟩, ⟨2, 2, .w1c⟩, ⟨3, 3, .w1c⟩, ⟨4, 4, .w1c⟩, ⟨5, 5, .w1c⟩, ⟨6, 6, .w1c⟩, ⟨7, 7, .w1c⟩, ⟨8, 8, .w1c⟩, ⟨9, 9, .w1c⟩, ⟨10, 10, .w1c⟩]⟩,
  ⟨0x400900F4, 0x400, 4, 0x4, 1, 0x00000000, some (0x400900FC, 0x400), [⟨0, 0, .wo⟩, ⟨1, 1, .wo⟩, ⟨2, 2, .wo⟩, ⟨3, 3, .wo⟩]⟩,
  ⟨0x400900FC, 0x400, 4, 0x4, 1, 0x00000000, some (0x400900FC, 0x400), [⟨15, 0, .wo⟩]⟩]


/-! ## QEO: block base 0x40090000 -/

/-- QEO_CTL. -/
def qeoCtl : Nat := 0x40091000
/-- QEO_CTL.en [0:0], RW. -/
def qeoCtl_en : RF := ⟨qeoCtl, 0, 0⟩
/-- QEO_CTL.mode [1:1], RW. -/
def qeoCtl_mode : RF := ⟨qeoCtl, 1, 1⟩
/-- QEO_CTL.axis [5:4], RW. -/
def qeoCtl_axis : RF := ⟨qeoCtl, 5, 4⟩
/-- QEO_CTL.div [11:8], RW. -/
def qeoCtl_div : RF := ⟨qeoCtl, 11, 8⟩
/-- QEO_CTL.z_en [12:12], RW. -/
def qeoCtl_z_en : RF := ⟨qeoCtl, 12, 12⟩
/-- QEO_STAT. -/
def qeoStat : Nat := 0x40091004
/-- QEO_STAT.lag [0:0], W1C. -/
def qeoStat_lag : RF := ⟨qeoStat, 0, 0⟩
/-- The register table of block QEO. -/
def tableQeo : List RegRow := [
  ⟨0x40091000, 0x10000, 1, 0x4, 1, 0x00000000, none, [⟨0, 0, .rw⟩, ⟨1, 1, .rw⟩, ⟨5, 4, .rw⟩, ⟨11, 8, .rw⟩, ⟨12, 12, .rw⟩]⟩,
  ⟨0x40091004, 0x10000, 1, 0x4, 1, 0x00000000, none, [⟨0, 0, .w1c⟩]⟩]


/-! ## FLD: block base 0x400A0000 -/

/-- FLD_CFG. -/
def fldCfg (n : Nat) : Nat := 0x400A0000 + 0x400 * n
/-- FLD_CFG.sect12 [0:0], RWL. -/
def fldCfg_sect12 (n : Nat) : RF := ⟨fldCfg n, 0, 0⟩
/-- FLD_CFG.zmin [1:1], RWL. -/
def fldCfg_zmin (n : Nat) : RF := ⟨fldCfg n, 1, 1⟩
/-- FLD_CFG.rs_en [2:2], RWL. -/
def fldCfg_rs_en (n : Nat) : RF := ⟨fldCfg n, 2, 2⟩
/-- FLD_CFG.coup_en [3:3], RWL. -/
def fldCfg_coup_en (n : Nat) : RF := ⟨fldCfg n, 3, 3⟩
/-- FLD_CFG.fref_mode [4:4], RWL. -/
def fldCfg_fref_mode (n : Nat) : RF := ⟨fldCfg n, 4, 4⟩
/-- FLD_PSIB. -/
def fldPsib (n : Nat) : Nat := 0x400A0004 + 0x400 * n
/-- FLD_PSIB.psib [31:0], RWL. -/
def fldPsib_psib (n : Nat) : RF := ⟨fldPsib n, 31, 0⟩
/-- FLD_PM. -/
def fldPm (n : Nat) : Nat := 0x400A0008 + 0x400 * n
/-- FLD_PM.val [31:0], RWL. -/
def fldPm_val (n : Nat) : RF := ⟨fldPm n, 31, 0⟩
/-- FLD_LD. -/
def fldLd (n : Nat) : Nat := 0x400A000C + 0x400 * n
/-- FLD_LD.val [31:0], RWL. -/
def fldLd_val (n : Nat) : RF := ⟨fldLd n, 31, 0⟩
/-- FLD_LQ. -/
def fldLq (n : Nat) : Nat := 0x400A0010 + 0x400 * n
/-- FLD_LQ.val [31:0], RWL. -/
def fldLq_val (n : Nat) : RF := ⟨fldLq n, 31, 0⟩
/-- FLD_M. -/
def fldM (n : Nat) : Nat := 0x400A0014 + 0x400 * n
/-- FLD_M.val [31:0], RWL. -/
def fldM_val (n : Nat) : RF := ⟨fldM n, 31, 0⟩
/-- FLD_RS_NOM. -/
def fldRsNom (n : Nat) : Nat := 0x400A0018 + 0x400 * n
/-- FLD_RS_NOM.r_nom [31:0], RWL. -/
def fldRsNom_r_nom (n : Nat) : RF := ⟨fldRsNom n, 31, 0⟩
/-- FLD_RS. -/
def fldRs (n : Nat) : Nat := 0x400A001C + 0x400 * n
/-- FLD_RS.r [31:0], RW. -/
def fldRs_r (n : Nat) : RF := ⟨fldRs n, 31, 0⟩
/-- FLD_RS_ADP. -/
def fldRsAdp (n : Nat) : Nat := 0x400A0020 + 0x400 * n
/-- FLD_RS_ADP.mu_r [4:0], RWL. -/
def fldRsAdp_mu_r (n : Nat) : RF := ⟨fldRsAdp n, 4, 0⟩
/-- FLD_RS_ADP.lo [15:8], RWL. -/
def fldRsAdp_lo (n : Nat) : RF := ⟨fldRsAdp n, 15, 8⟩
/-- FLD_RS_ADP.hi [23:16], RWL. -/
def fldRsAdp_hi (n : Nat) : RF := ⟨fldRsAdp n, 23, 16⟩
/-- FLD_RS_ADP.i_min [31:24], RWL. -/
def fldRsAdp_i_min (n : Nat) : RF := ⟨fldRsAdp n, 31, 24⟩
/-- FLD_BLEND. -/
def fldBlend (n : Nat) : Nat := 0x400A0024 + 0x400 * n
/-- FLD_BLEND.g [31:0], RWL. -/
def fldBlend_g (n : Nat) : RF := ⟨fldBlend n, 31, 0⟩
/-- FLD_BAND. -/
def fldBand (n : Nat) : Nat := 0x400A0028 + 0x400 * n
/-- FLD_BAND.h_t [15:0], RW. -/
def fldBand_h_t (n : Nat) : RF := ⟨fldBand n, 15, 0⟩
/-- FLD_BAND.h_psi [31:16], RW. -/
def fldBand_h_psi (n : Nat) : RF := ⟨fldBand n, 31, 16⟩
/-- FLD_FREF. -/
def fldFref (n : Nat) : Nat := 0x400A002C + 0x400 * n
/-- FLD_FREF.psi_ref [31:0], RWL. -/
def fldFref_psi_ref (n : Nat) : RF := ⟨fldFref n, 31, 0⟩
/-- FLD_ILIM. -/
def fldIlim (n : Nat) : Nat := 0x400A0030 + 0x400 * n
/-- FLD_ILIM.i_lim [31:0], RWL. -/
def fldIlim_i_lim (n : Nat) : RF := ⟨fldIlim n, 31, 0⟩
/-- FLD_TLIM. -/
def fldTlim (n : Nat) : Nat := 0x400A0034 + 0x400 * n
/-- FLD_TLIM.tq_hall [15:0], RWL. -/
def fldTlim_tq_hall (n : Nat) : RF := ⟨fldTlim n, 15, 0⟩
/-- FLD_START. -/
def fldStart (n : Nat) : Nat := 0x400A0040 + 0x400 * n
/-- FLD_START.t_max [7:0], RWL. -/
def fldStart_t_max (n : Nat) : RF := ⟨fldStart n, 7, 0⟩
/-- FLD_START.ramp [17:8], RWL. -/
def fldStart_ramp (n : Nat) : RF := ⟨fldStart n, 17, 8⟩
/-- FLD_START.ang_tol [31:24], RWL. -/
def fldStart_ang_tol (n : Nat) : RF := ⟨fldStart n, 31, 24⟩
/-- FLD_START1. -/
def fldStart1 (n : Nat) : Nat := 0x400A0044 + 0x400 * n
/-- FLD_START1.e_min [15:0], RWL. -/
def fldStart1_e_min (n : Nat) : RF := ⟨fldStart1 n, 15, 0⟩
/-- FLD_EDLY. -/
def fldEdly (n : Nat) : Nat := 0x400A0048 + 0x400 * n
/-- FLD_EDLY.t_dly [15:0], RWL. -/
def fldEdly_t_dly (n : Nat) : RF := ⟨fldEdly n, 15, 0⟩
/-- FLD_STAT. -/
def fldStat (n : Nat) : Nat := 0x400A0080 + 0x400 * n
/-- FLD_STAT.vlim [0:0], RO. -/
def fldStat_vlim (n : Nat) : RF := ⟨fldStat n, 0, 0⟩
/-- FLD_STAT.ilim_act [1:1], RO. -/
def fldStat_ilim_act (n : Nat) : RF := ⟨fldStat n, 1, 1⟩
/-- FLD_STAT.starting [2:2], RO. -/
def fldStat_starting (n : Nat) : RF := ⟨fldStat n, 2, 2⟩
/-- FLD_STAT.ang_src [5:4], RO. -/
def fldStat_ang_src (n : Nat) : RF := ⟨fldStat n, 5, 4⟩
/-- FLD_STAT.vlim_evt [16:16], W1C. -/
def fldStat_vlim_evt (n : Nat) : RF := ⟨fldStat n, 16, 16⟩
/-- FLD_STAT.ilim_evt [17:17], W1C. -/
def fldStat_ilim_evt (n : Nat) : RF := ⟨fldStat n, 17, 17⟩
/-- FLD_STAT.rs_limit [18:18], W1C. -/
def fldStat_rs_limit (n : Nat) : RF := ⟨fldStat n, 18, 18⟩
/-- FLD_STAT.bemf_ang [19:19], W1C. -/
def fldStat_bemf_ang (n : Nat) : RF := ⟨fldStat n, 19, 19⟩
/-- FLD_STAT.est_cmd [20:20], W1C. -/
def fldStat_est_cmd (n : Nat) : RF := ⟨fldStat n, 20, 20⟩
/-- FLD_STAT.seq_cut [21:21], W1C. -/
def fldStat_seq_cut (n : Nat) : RF := ⟨fldStat n, 21, 21⟩
/-- FLD_STAT.no_angle [22:22], W1C. -/
def fldStat_no_angle (n : Nat) : RF := ⟨fldStat n, 22, 22⟩
/-- FLD_STAT.start_ext [23:23], W1C. -/
def fldStat_start_ext (n : Nat) : RF := ⟨fldStat n, 23, 23⟩
/-- FLD_BEMF. -/
def fldBemf (n : Nat) : Nat := 0x400A0084 + 0x400 * n
/-- FLD_BEMF.vll [15:0], RO. -/
def fldBemf_vll (n : Nat) : RF := ⟨fldBemf n, 15, 0⟩
/-- FLD_BEMF.ang [31:16], RO. -/
def fldBemf_ang (n : Nat) : RF := ⟨fldBemf n, 31, 16⟩
/-- FLD_CNT. -/
def fldCnt (n : Nat) : Nat := 0x400A0088 + 0x400 * n
/-- FLD_CNT.vlim [15:0], RO. -/
def fldCnt_vlim (n : Nat) : RF := ⟨fldCnt n, 15, 0⟩
/-- FLD_CNT.cut [31:16], RO. -/
def fldCnt_cut (n : Nat) : RF := ⟨fldCnt n, 31, 16⟩
/-- FLD_CMD. -/
def fldCmd (n : Nat) : Nat := 0x400A00F4 + 0x400 * n
/-- FLD_CMD.clr_cnt [0:0], WO. -/
def fldCmd_clr_cnt (n : Nat) : RF := ⟨fldCmd n, 0, 0⟩
/-- FLD_CMD.rs_reset [1:1], WO. -/
def fldCmd_rs_reset (n : Nat) : RF := ⟨fldCmd n, 1, 1⟩
/-- FLD_LOCK. -/
def fldLock (n : Nat) : Nat := 0x400A00FC + 0x400 * n
/-- FLD_LOCK.key [15:0], WO. -/
def fldLock_key (n : Nat) : RF := ⟨fldLock n, 15, 0⟩
/-- The register table of block FLD. -/
def tableFld : List RegRow := [
  ⟨0x400A0000, 0x400, 4, 0x4, 1, 0x00000000, some (0x400A00FC, 0x400), [⟨0, 0, .rwl⟩, ⟨1, 1, .rwl⟩, ⟨2, 2, .rwl⟩, ⟨3, 3, .rwl⟩, ⟨4, 4, .rwl⟩]⟩,
  ⟨0x400A0004, 0x400, 4, 0x4, 1, 0x00000000, some (0x400A00FC, 0x400), [⟨31, 0, .rwl⟩]⟩,
  ⟨0x400A0008, 0x400, 4, 0x4, 1, 0x00000000, some (0x400A00FC, 0x400), [⟨31, 0, .rwl⟩]⟩,
  ⟨0x400A000C, 0x400, 4, 0x4, 1, 0x00000000, some (0x400A00FC, 0x400), [⟨31, 0, .rwl⟩]⟩,
  ⟨0x400A0010, 0x400, 4, 0x4, 1, 0x00000000, some (0x400A00FC, 0x400), [⟨31, 0, .rwl⟩]⟩,
  ⟨0x400A0014, 0x400, 4, 0x4, 1, 0x00000000, some (0x400A00FC, 0x400), [⟨31, 0, .rwl⟩]⟩,
  ⟨0x400A0018, 0x400, 4, 0x4, 1, 0x00000000, some (0x400A00FC, 0x400), [⟨31, 0, .rwl⟩]⟩,
  ⟨0x400A001C, 0x400, 4, 0x4, 1, 0x00000000, some (0x400A00FC, 0x400), [⟨31, 0, .rw⟩]⟩,
  ⟨0x400A0020, 0x400, 4, 0x4, 1, 0x1A200814, some (0x400A00FC, 0x400), [⟨4, 0, .rwl⟩, ⟨15, 8, .rwl⟩, ⟨23, 16, .rwl⟩, ⟨31, 24, .rwl⟩]⟩,
  ⟨0x400A0024, 0x400, 4, 0x4, 1, 0x019BC65B, some (0x400A00FC, 0x400), [⟨31, 0, .rwl⟩]⟩,
  ⟨0x400A0028, 0x400, 4, 0x4, 1, 0x02000100, some (0x400A00FC, 0x400), [⟨15, 0, .rw⟩, ⟨31, 16, .rw⟩]⟩,
  ⟨0x400A002C, 0x400, 4, 0x4, 1, 0x00000000, some (0x400A00FC, 0x400), [⟨31, 0, .rwl⟩]⟩,
  ⟨0x400A0030, 0x400, 4, 0x4, 1, 0x00000000, some (0x400A00FC, 0x400), [⟨31, 0, .rwl⟩]⟩,
  ⟨0x400A0034, 0x400, 4, 0x4, 1, 0x00008000, some (0x400A00FC, 0x400), [⟨15, 0, .rwl⟩]⟩,
  ⟨0x400A0040, 0x400, 4, 0x4, 1, 0x10003228, some (0x400A00FC, 0x400), [⟨7, 0, .rwl⟩, ⟨17, 8, .rwl⟩, ⟨31, 24, .rwl⟩]⟩,
  ⟨0x400A0044, 0x400, 4, 0x4, 1, 0x00000100, some (0x400A00FC, 0x400), [⟨15, 0, .rwl⟩]⟩,
  ⟨0x400A0048, 0x400, 4, 0x4, 1, 0x00000500, some (0x400A00FC, 0x400), [⟨15, 0, .rwl⟩]⟩,
  ⟨0x400A0080, 0x400, 4, 0x4, 1, 0x00000000, some (0x400A00FC, 0x400), [⟨0, 0, .ro⟩, ⟨1, 1, .ro⟩, ⟨2, 2, .ro⟩, ⟨5, 4, .ro⟩, ⟨16, 16, .w1c⟩, ⟨17, 17, .w1c⟩, ⟨18, 18, .w1c⟩, ⟨19, 19, .w1c⟩, ⟨20, 20, .w1c⟩, ⟨21, 21, .w1c⟩, ⟨22, 22, .w1c⟩, ⟨23, 23, .w1c⟩]⟩,
  ⟨0x400A0084, 0x400, 4, 0x4, 1, 0x00000000, some (0x400A00FC, 0x400), [⟨15, 0, .ro⟩, ⟨31, 16, .ro⟩]⟩,
  ⟨0x400A0088, 0x400, 4, 0x4, 1, 0x00000000, some (0x400A00FC, 0x400), [⟨15, 0, .ro⟩, ⟨31, 16, .ro⟩]⟩,
  ⟨0x400A00F4, 0x400, 4, 0x4, 1, 0x00000000, some (0x400A00FC, 0x400), [⟨0, 0, .wo⟩, ⟨1, 1, .wo⟩]⟩,
  ⟨0x400A00FC, 0x400, 4, 0x4, 1, 0x00000000, some (0x400A00FC, 0x400), [⟨15, 0, .wo⟩]⟩]


/-! ## PROF: block base 0x400B0000 -/

/-- PROF_CFG. -/
def profCfg (n : Nat) : Nat := 0x400B0000 + 0x400 * n
/-- PROF_CFG.src [0:0], RWL. -/
def profCfg_src (n : Nat) : RF := ⟨profCfg n, 0, 0⟩
/-- PROF_CFG.vlim_en [1:1], RWL. -/
def profCfg_vlim_en (n : Nat) : RF := ⟨profCfg n, 1, 1⟩
/-- PROF_SRC. -/
def profSrc (n : Nat) : Nat := 0x400B0004 + 0x400 * n
/-- PROF_SRC.id [17:0], RWL. -/
def profSrc_id (n : Nat) : RF := ⟨profSrc n, 17, 0⟩
/-- PROF_VMAX. -/
def profVmax (n : Nat) : Nat := 0x400B0010 + 0x400 * n
/-- PROF_VMAX.lim [31:0], RW. -/
def profVmax_lim (n : Nat) : RF := ⟨profVmax n, 31, 0⟩
/-- PROF_AMAX. -/
def profAmax (n : Nat) : Nat := 0x400B0014 + 0x400 * n
/-- PROF_AMAX.lim [31:0], RW. -/
def profAmax_lim (n : Nat) : RF := ⟨profAmax n, 31, 0⟩
/-- PROF_JMAX. -/
def profJmax (n : Nat) : Nat := 0x400B0018 + 0x400 * n
/-- PROF_JMAX.lim [31:0], RW. -/
def profJmax_lim (n : Nat) : RF := ⟨profJmax n, 31, 0⟩
/-- PROF_STOP_A. -/
def profStopA (n : Nat) : Nat := 0x400B001C + 0x400 * n
/-- PROF_STOP_A.lim [31:0], RW. -/
def profStopA_lim (n : Nat) : RF := ⟨profStopA n, 31, 0⟩
/-- PROF_STOP_J. -/
def profStopJ (n : Nat) : Nat := 0x400B0020 + 0x400 * n
/-- PROF_STOP_J.lim [31:0], RW. -/
def profStopJ_lim (n : Nat) : RF := ⟨profStopJ n, 31, 0⟩
/-- PROF_TGT_LO. -/
def profTgtLo (n : Nat) : Nat := 0x400B0030 + 0x400 * n
/-- PROF_TGT_LO.tgt [31:0], RW. -/
def profTgtLo_tgt (n : Nat) : RF := ⟨profTgtLo n, 31, 0⟩
/-- PROF_TGT_HI. -/
def profTgtHi (n : Nat) : Nat := 0x400B0034 + 0x400 * n
/-- PROF_TGT_HI.tgt [31:0], RW. -/
def profTgtHi_tgt (n : Nat) : RF := ⟨profTgtHi n, 31, 0⟩
/-- PROF_VTGT. -/
def profVtgt (n : Nat) : Nat := 0x400B0038 + 0x400 * n
/-- PROF_VTGT.vtgt [31:0], RW. -/
def profVtgt_vtgt (n : Nat) : RF := ⟨profVtgt n, 31, 0⟩
/-- PROF_VMIN_LO. -/
def profVminLo (n : Nat) : Nat := 0x400B0040 + 0x400 * n
/-- PROF_VMIN_LO.lim [31:0], RWL. -/
def profVminLo_lim (n : Nat) : RF := ⟨profVminLo n, 31, 0⟩
/-- PROF_VMIN_HI. -/
def profVminHi (n : Nat) : Nat := 0x400B0044 + 0x400 * n
/-- PROF_VMIN_HI.lim [31:0], RWL. -/
def profVminHi_lim (n : Nat) : RF := ⟨profVminHi n, 31, 0⟩
/-- PROF_VMAX_POS_LO. -/
def profVmaxPosLo (n : Nat) : Nat := 0x400B0048 + 0x400 * n
/-- PROF_VMAX_POS_LO.lim [31:0], RWL. -/
def profVmaxPosLo_lim (n : Nat) : RF := ⟨profVmaxPosLo n, 31, 0⟩
/-- PROF_VMAX_POS_HI. -/
def profVmaxPosHi (n : Nat) : Nat := 0x400B004C + 0x400 * n
/-- PROF_VMAX_POS_HI.lim [31:0], RWL. -/
def profVmaxPosHi_lim (n : Nat) : RF := ⟨profVmaxPosHi n, 31, 0⟩
/-- PROF_STRM. -/
def profStrm (n : Nat) : Nat := 0x400B0050 + 0x400 * n
/-- PROF_STRM.starve [7:0], RWL. -/
def profStrm_starve (n : Nat) : RF := ⟨profStrm n, 7, 0⟩
/-- PROF_ENTRY. -/
def profEntry (n : Nat) : Nat := 0x400B0054 + 0x400 * n
/-- PROF_ENTRY.win [31:0], RWL. -/
def profEntry_win (n : Nat) : RF := ⟨profEntry n, 31, 0⟩
/-- PROF_FERR_WIN. -/
def profFerrWin (n : Nat) : Nat := 0x400B0060 + 0x400 * n
/-- PROF_FERR_WIN.win [31:0], RWL. -/
def profFerrWin_win (n : Nat) : RF := ⟨profFerrWin n, 31, 0⟩
/-- PROF_FERR_CTL. -/
def profFerrCtl (n : Nat) : Nat := 0x400B0064 + 0x400 * n
/-- PROF_FERR_CTL.persist [7:0], RWL. -/
def profFerrCtl_persist (n : Nat) : RF := ⟨profFerrCtl n, 7, 0⟩
/-- PROF_FERR_CTL.act_ferr [10:8], RWL. -/
def profFerrCtl_act_ferr (n : Nat) : RF := ⟨profFerrCtl n, 10, 8⟩
/-- PROF_FERR_CTL.act_stall [14:12], RWL. -/
def profFerrCtl_act_stall (n : Nat) : RF := ⟨profFerrCtl n, 14, 12⟩
/-- PROF_FERR_CTL.act_lost [18:16], RWL. -/
def profFerrCtl_act_lost (n : Nat) : RF := ⟨profFerrCtl n, 18, 16⟩
/-- PROF_FERR_CTL.act_strm [22:20], RWL. -/
def profFerrCtl_act_strm (n : Nat) : RF := ⟨profFerrCtl n, 22, 20⟩
/-- PROF_STALL. -/
def profStall (n : Nat) : Nat := 0x400B0068 + 0x400 * n
/-- PROF_STALL.spd [15:0], RWL. -/
def profStall_spd (n : Nat) : RF := ⟨profStall n, 15, 0⟩
/-- PROF_STALL.tq [31:16], RWL. -/
def profStall_tq (n : Nat) : RF := ⟨profStall n, 31, 16⟩
/-- PROF_CMD. -/
def profCmd (n : Nat) : Nat := 0x400B0080 + 0x400 * n
/-- PROF_CMD.op [3:0], WO. -/
def profCmd_op (n : Nat) : RF := ⟨profCmd n, 3, 0⟩
/-- PROF_CMD.at [15:8], WO. -/
def profCmd_at (n : Nat) : RF := ⟨profCmd n, 15, 8⟩
/-- PROF_STATE. -/
def profState (n : Nat) : Nat := 0x400B0084 + 0x400 * n
/-- PROF_STATE.mode [2:0], RO. -/
def profState_mode (n : Nat) : RF := ⟨profState n, 2, 0⟩
/-- PROF_STATE.plan [3:3], RO. -/
def profState_plan (n : Nat) : RF := ⟨profState n, 3, 3⟩
/-- PROF_STATE.at_target [4:4], RO. -/
def profState_at_target (n : Nat) : RF := ⟨profState n, 4, 4⟩
/-- PROF_STATE.pend [5:5], RO. -/
def profState_pend (n : Nat) : RF := ⟨profState n, 5, 5⟩
/-- PROF_STATE.pend_op [11:8], RO. -/
def profState_pend_op (n : Nat) : RF := ⟨profState n, 11, 8⟩
/-- PROF_STAT. -/
def profStat (n : Nat) : Nat := 0x400B0088 + 0x400 * n
/-- PROF_STAT.cmd_late [0:0], W1C. -/
def profStat_cmd_late (n : Nat) : RF := ⟨profStat n, 0, 0⟩
/-- PROF_STAT.cmd_overwrite [1:1], W1C. -/
def profStat_cmd_overwrite (n : Nat) : RF := ⟨profStat n, 1, 1⟩
/-- PROF_STAT.cmd_refused [2:2], W1C. -/
def profStat_cmd_refused (n : Nat) : RF := ⟨profStat n, 2, 2⟩
/-- PROF_STAT.cfg_err [3:3], W1C. -/
def profStat_cfg_err (n : Nat) : RF := ⟨profStat n, 3, 3⟩
/-- PROF_STAT.tgt_clamp [4:4], W1C. -/
def profStat_tgt_clamp (n : Nat) : RF := ⟨profStat n, 4, 4⟩
/-- PROF_STAT.lim_hit [5:5], W1C. -/
def profStat_lim_hit (n : Nat) : RF := ⟨profStat n, 5, 5⟩
/-- PROF_STAT.lim_over [6:6], W1C. -/
def profStat_lim_over (n : Nat) : RF := ⟨profStat n, 6, 6⟩
/-- PROF_STAT.strm_late [7:7], W1C. -/
def profStat_strm_late (n : Nat) : RF := ⟨profStat n, 7, 7⟩
/-- PROF_STAT.strm_err [8:8], W1C. -/
def profStat_strm_err (n : Nat) : RF := ⟨profStat n, 8, 8⟩
/-- PROF_STAT.strm_lost [9:9], W1C. -/
def profStat_strm_lost (n : Nat) : RF := ⟨profStat n, 9, 9⟩
/-- PROF_STAT.strm_lim [10:10], W1C. -/
def profStat_strm_lim (n : Nat) : RF := ⟨profStat n, 10, 10⟩
/-- PROF_STAT.ferr [11:11], W1C. -/
def profStat_ferr (n : Nat) : RF := ⟨profStat n, 11, 11⟩
/-- PROF_STAT.stall [12:12], W1C. -/
def profStat_stall (n : Nat) : RF := ⟨profStat n, 12, 12⟩
/-- PROF_STAT.lost [13:13], W1C. -/
def profStat_lost (n : Nat) : RF := ⟨profStat n, 13, 13⟩
/-- PROF_FE. -/
def profFe (n : Nat) : Nat := 0x400B008C + 0x400 * n
/-- PROF_FE.fe [31:0], RO. -/
def profFe_fe (n : Nat) : RF := ⟨profFe n, 31, 0⟩
/-- PROF_LOCK. -/
def profLock (n : Nat) : Nat := 0x400B00FC + 0x400 * n
/-- PROF_LOCK.key [15:0], WO. -/
def profLock_key (n : Nat) : RF := ⟨profLock n, 15, 0⟩
/-- The register table of block PROF. -/
def tableProf : List RegRow := [
  ⟨0x400B0000, 0x400, 4, 0x4, 1, 0x00000000, some (0x400B00FC, 0x400), [⟨0, 0, .rwl⟩, ⟨1, 1, .rwl⟩]⟩,
  ⟨0x400B0004, 0x400, 4, 0x4, 1, 0x00000000, some (0x400B00FC, 0x400), [⟨17, 0, .rwl⟩]⟩,
  ⟨0x400B0010, 0x400, 4, 0x4, 1, 0x00000000, some (0x400B00FC, 0x400), [⟨31, 0, .rw⟩]⟩,
  ⟨0x400B0014, 0x400, 4, 0x4, 1, 0x00000000, some (0x400B00FC, 0x400), [⟨31, 0, .rw⟩]⟩,
  ⟨0x400B0018, 0x400, 4, 0x4, 1, 0x00000000, some (0x400B00FC, 0x400), [⟨31, 0, .rw⟩]⟩,
  ⟨0x400B001C, 0x400, 4, 0x4, 1, 0x00000000, some (0x400B00FC, 0x400), [⟨31, 0, .rw⟩]⟩,
  ⟨0x400B0020, 0x400, 4, 0x4, 1, 0x00000000, some (0x400B00FC, 0x400), [⟨31, 0, .rw⟩]⟩,
  ⟨0x400B0030, 0x400, 4, 0x4, 1, 0x00000000, some (0x400B00FC, 0x400), [⟨31, 0, .rw⟩]⟩,
  ⟨0x400B0034, 0x400, 4, 0x4, 1, 0x00000000, some (0x400B00FC, 0x400), [⟨31, 0, .rw⟩]⟩,
  ⟨0x400B0038, 0x400, 4, 0x4, 1, 0x00000000, some (0x400B00FC, 0x400), [⟨31, 0, .rw⟩]⟩,
  ⟨0x400B0040, 0x400, 4, 0x4, 1, 0x00000000, some (0x400B00FC, 0x400), [⟨31, 0, .rwl⟩]⟩,
  ⟨0x400B0044, 0x400, 4, 0x4, 1, 0x00000000, some (0x400B00FC, 0x400), [⟨31, 0, .rwl⟩]⟩,
  ⟨0x400B0048, 0x400, 4, 0x4, 1, 0x00000000, some (0x400B00FC, 0x400), [⟨31, 0, .rwl⟩]⟩,
  ⟨0x400B004C, 0x400, 4, 0x4, 1, 0x00000000, some (0x400B00FC, 0x400), [⟨31, 0, .rwl⟩]⟩,
  ⟨0x400B0050, 0x400, 4, 0x4, 1, 0x00000014, some (0x400B00FC, 0x400), [⟨7, 0, .rwl⟩]⟩,
  ⟨0x400B0054, 0x400, 4, 0x4, 1, 0x00000040, some (0x400B00FC, 0x400), [⟨31, 0, .rwl⟩]⟩,
  ⟨0x400B0060, 0x400, 4, 0x4, 1, 0x00001000, some (0x400B00FC, 0x400), [⟨31, 0, .rwl⟩]⟩,
  ⟨0x400B0064, 0x400, 4, 0x4, 1, 0x00000003, some (0x400B00FC, 0x400), [⟨7, 0, .rwl⟩, ⟨10, 8, .rwl⟩, ⟨14, 12, .rwl⟩, ⟨18, 16, .rwl⟩, ⟨22, 20, .rwl⟩]⟩,
  ⟨0x400B0068, 0x400, 4, 0x4, 1, 0x04000100, some (0x400B00FC, 0x400), [⟨15, 0, .rwl⟩, ⟨31, 16, .rwl⟩]⟩,
  ⟨0x400B0080, 0x400, 4, 0x4, 1, 0x00000000, some (0x400B00FC, 0x400), [⟨3, 0, .wo⟩, ⟨15, 8, .wo⟩]⟩,
  ⟨0x400B0084, 0x400, 4, 0x4, 1, 0x00000000, some (0x400B00FC, 0x400), [⟨2, 0, .ro⟩, ⟨3, 3, .ro⟩, ⟨4, 4, .ro⟩, ⟨5, 5, .ro⟩, ⟨11, 8, .ro⟩]⟩,
  ⟨0x400B0088, 0x400, 4, 0x4, 1, 0x00000000, some (0x400B00FC, 0x400), [⟨0, 0, .w1c⟩, ⟨1, 1, .w1c⟩, ⟨2, 2, .w1c⟩, ⟨3, 3, .w1c⟩, ⟨4, 4, .w1c⟩, ⟨5, 5, .w1c⟩, ⟨6, 6, .w1c⟩, ⟨7, 7, .w1c⟩, ⟨8, 8, .w1c⟩, ⟨9, 9, .w1c⟩, ⟨10, 10, .w1c⟩, ⟨11, 11, .w1c⟩, ⟨12, 12, .w1c⟩, ⟨13, 13, .w1c⟩]⟩,
  ⟨0x400B008C, 0x400, 4, 0x4, 1, 0x00000000, some (0x400B00FC, 0x400), [⟨31, 0, .ro⟩]⟩,
  ⟨0x400B00FC, 0x400, 4, 0x4, 1, 0x00000000, some (0x400B00FC, 0x400), [⟨15, 0, .wo⟩]⟩]


/-! ## LE: block base 0x400C0000 -/

/-- LE_CTL. -/
def leCtl (n : Nat) : Nat := 0x400C0000 + 0x1000 * n
/-- LE_CTL.run [0:0], RW. -/
def leCtl_run (n : Nat) : RF := ⟨leCtl n, 0, 0⟩
/-- LE_LOOP_EN. -/
def leLoopEn (n : Nat) : Nat := 0x400C0004 + 0x1000 * n
/-- LE_LOOP_EN.en [15:0], RW. -/
def leLoopEn_en (n : Nat) : RF := ⟨leLoopEn n, 15, 0⟩
/-- LE_STAT. -/
def leStat (n : Nat) : Nat := 0x400C0008 + 0x1000 * n
/-- LE_STAT.fault [0:0], W1C. -/
def leStat_fault (n : Nat) : RF := ⟨leStat n, 0, 0⟩
/-- LE_STAT.skip [1:1], W1C. -/
def leStat_skip (n : Nat) : RF := ⟨leStat n, 1, 1⟩
/-- LE_STAT.dup [2:2], W1C. -/
def leStat_dup (n : Nat) : RF := ⟨leStat n, 2, 2⟩
/-- LE_STAT.wr_coll [3:3], W1C. -/
def leStat_wr_coll (n : Nat) : RF := ⟨leStat n, 3, 3⟩
/-- LE_STAT.wr_ro [4:4], W1C. -/
def leStat_wr_ro (n : Nat) : RF := ⟨leStat n, 4, 4⟩
/-- LE_STAT.crc_fail [5:5], W1C. -/
def leStat_crc_fail (n : Nat) : RF := ⟨leStat n, 5, 5⟩
/-- LE_STAT.swap_def [6:6], W1C. -/
def leStat_swap_def (n : Nat) : RF := ⟨leStat n, 6, 6⟩
/-- LE_STAT.sat [7:7], W1C. -/
def leStat_sat (n : Nat) : RF := ⟨leStat n, 7, 7⟩
/-- LE_STAT.ecc_cor [8:8], W1C. -/
def leStat_ecc_cor (n : Nat) : RF := ⟨leStat n, 8, 8⟩
/-- LE_STAT.bank_refused [9:9], W1C. -/
def leStat_bank_refused (n : Nat) : RF := ⟨leStat n, 9, 9⟩
/-- LE_FLT. -/
def leFlt (n : Nat) : Nat := 0x400C000C + 0x1000 * n
/-- LE_FLT.loop [3:0], RO. -/
def leFlt_loop (n : Nat) : RF := ⟨leFlt n, 3, 0⟩
/-- LE_FLT.cause [11:8], RO. -/
def leFlt_cause (n : Nat) : RF := ⟨leFlt n, 11, 8⟩
/-- LE_FLT.pc [27:16], RO. -/
def leFlt_pc (n : Nat) : RF := ⟨leFlt n, 27, 16⟩
/-- LE_BANK_STAT. -/
def leBankStat (n : Nat) : Nat := 0x400C0010 + 0x1000 * n
/-- LE_BANK_STAT.active [0:0], RO. -/
def leBankStat_active (n : Nat) : RF := ⟨leBankStat n, 0, 0⟩
/-- LE_BANK_STAT.ibs [2:1], RO. -/
def leBankStat_ibs (n : Nat) : RF := ⟨leBankStat n, 2, 1⟩
/-- LE_BANK_STAT.swap_pend [3:3], RO. -/
def leBankStat_swap_pend (n : Nat) : RF := ⟨leBankStat n, 3, 3⟩
/-- LE_BANK_STAT.blending [4:4], RO. -/
def leBankStat_blending (n : Nat) : RF := ⟨leBankStat n, 4, 4⟩
/-- LE_BANK_STAT.seq [31:16], RO. -/
def leBankStat_seq (n : Nat) : RF := ⟨leBankStat n, 31, 16⟩
/-- LE_BANK_CMD. -/
def leBankCmd (n : Nat) : Nat := 0x400C0014 + 0x1000 * n
/-- LE_BANK_CMD.op [3:0], WO. -/
def leBankCmd_op (n : Nat) : RF := ⟨leBankCmd n, 3, 0⟩
/-- LE_BANK_CMD.at [15:8], WO. -/
def leBankCmd_at (n : Nat) : RF := ⟨leBankCmd n, 15, 8⟩
/-- LE_SWAP_PNUM. -/
def leSwapPnum (n : Nat) : Nat := 0x400C0018 + 0x1000 * n
/-- LE_SWAP_PNUM.pnum [31:0], RO. -/
def leSwapPnum_pnum (n : Nat) : RF := ⟨leSwapPnum n, 31, 0⟩
/-- LE_CNT. -/
def leCnt (n : Nat) : Nat := 0x400C0020 + 0x1000 * n
/-- LE_CNT.skip [15:0], RO. -/
def leCnt_skip (n : Nat) : RF := ⟨leCnt n, 15, 0⟩
/-- LE_CNT.ecc [31:16], RO. -/
def leCnt_ecc (n : Nat) : RF := ⟨leCnt n, 31, 16⟩
/-- LE_CMD. -/
def leCmd (n : Nat) : Nat := 0x400C0024 + 0x1000 * n
/-- LE_CMD.clr_cnt [0:0], WO. -/
def leCmd_clr_cnt (n : Nat) : RF := ⟨leCmd n, 0, 0⟩
/-- LE_LOCK. -/
def leLock (n : Nat) : Nat := 0x400C00FC + 0x1000 * n
/-- LE_LOCK.key [15:0], WO. -/
def leLock_key (n : Nat) : RF := ⟨leLock n, 15, 0⟩
/-- LE_LOOP_STAT. -/
def leLoopStat (n : Nat) (k : Nat) : Nat := 0x400C0100 + 0x1000 * n + 0x4 * k
/-- LE_LOOP_STAT.r0 [3:0], RO. -/
def leLoopStat_r0 (n : Nat) (k : Nat) : RF := ⟨leLoopStat n k, 3, 0⟩
/-- LE_LOOP_STAT.r1 [7:4], RO. -/
def leLoopStat_r1 (n : Nat) (k : Nat) : RF := ⟨leLoopStat n k, 7, 4⟩
/-- LE_LOOP_STAT.set [15:8], RO. -/
def leLoopStat_set (n : Nat) (k : Nat) : RF := ⟨leLoopStat n k, 15, 8⟩
/-- LE_LOOP_STAT.m [22:16], RO. -/
def leLoopStat_m (n : Nat) (k : Nat) : RF := ⟨leLoopStat n k, 22, 16⟩
/-- LE_LOOP_STAT.blending [23:23], RO. -/
def leLoopStat_blending (n : Nat) (k : Nat) : RF := ⟨leLoopStat n k, 23, 23⟩
/-- LE_LOOP_STAT.clamped [24:24], RO. -/
def leLoopStat_clamped (n : Nat) (k : Nat) : RF := ⟨leLoopStat n k, 24, 24⟩
/-- LE_LOOP_TIME. -/
def leLoopTime (n : Nat) (k : Nat) : Nat := 0x400C0140 + 0x1000 * n + 0x4 * k
/-- LE_LOOP_TIME.last [15:0], RO. -/
def leLoopTime_last (n : Nat) (k : Nat) : RF := ⟨leLoopTime n k, 15, 0⟩
/-- LE_LOOP_TIME.max [31:16], RO. -/
def leLoopTime_max (n : Nat) (k : Nat) : RF := ⟨leLoopTime n k, 31, 16⟩
/-- The register table of block LE. -/
def tableLe : List RegRow := [
  ⟨0x400C0000, 0x1000, 2, 0x4, 1, 0x00000000, some (0x400C00FC, 0x1000), [⟨0, 0, .rw⟩]⟩,
  ⟨0x400C0004, 0x1000, 2, 0x4, 1, 0x00000000, some (0x400C00FC, 0x1000), [⟨15, 0, .rw⟩]⟩,
  ⟨0x400C0008, 0x1000, 2, 0x4, 1, 0x00000000, some (0x400C00FC, 0x1000), [⟨0, 0, .w1c⟩, ⟨1, 1, .w1c⟩, ⟨2, 2, .w1c⟩, ⟨3, 3, .w1c⟩, ⟨4, 4, .w1c⟩, ⟨5, 5, .w1c⟩, ⟨6, 6, .w1c⟩, ⟨7, 7, .w1c⟩, ⟨8, 8, .w1c⟩, ⟨9, 9, .w1c⟩]⟩,
  ⟨0x400C000C, 0x1000, 2, 0x4, 1, 0x00000000, some (0x400C00FC, 0x1000), [⟨3, 0, .ro⟩, ⟨11, 8, .ro⟩, ⟨27, 16, .ro⟩]⟩,
  ⟨0x400C0010, 0x1000, 2, 0x4, 1, 0x00000000, some (0x400C00FC, 0x1000), [⟨0, 0, .ro⟩, ⟨2, 1, .ro⟩, ⟨3, 3, .ro⟩, ⟨4, 4, .ro⟩, ⟨31, 16, .ro⟩]⟩,
  ⟨0x400C0014, 0x1000, 2, 0x4, 1, 0x00000000, some (0x400C00FC, 0x1000), [⟨3, 0, .wo⟩, ⟨15, 8, .wo⟩]⟩,
  ⟨0x400C0018, 0x1000, 2, 0x4, 1, 0x00000000, some (0x400C00FC, 0x1000), [⟨31, 0, .ro⟩]⟩,
  ⟨0x400C0020, 0x1000, 2, 0x4, 1, 0x00000000, some (0x400C00FC, 0x1000), [⟨15, 0, .ro⟩, ⟨31, 16, .ro⟩]⟩,
  ⟨0x400C0024, 0x1000, 2, 0x4, 1, 0x00000000, some (0x400C00FC, 0x1000), [⟨0, 0, .wo⟩]⟩,
  ⟨0x400C00FC, 0x1000, 2, 0x4, 1, 0x00000000, some (0x400C00FC, 0x1000), [⟨15, 0, .wo⟩]⟩,
  ⟨0x400C0100, 0x1000, 2, 0x4, 16, 0x00000000, some (0x400C00FC, 0x1000), [⟨3, 0, .ro⟩, ⟨7, 4, .ro⟩, ⟨15, 8, .ro⟩, ⟨22, 16, .ro⟩, ⟨23, 23, .ro⟩, ⟨24, 24, .ro⟩]⟩,
  ⟨0x400C0140, 0x1000, 2, 0x4, 16, 0x00000000, some (0x400C00FC, 0x1000), [⟨15, 0, .ro⟩, ⟨31, 16, .ro⟩]⟩]


/-! ## EDGE: block base 0x400D0000 -/

/-- EDGE_CTL. -/
def edgeCtl : Nat := 0x400D0000
/-- EDGE_CTL.halt_core [0:0], RWL. -/
def edgeCtl_halt_core : RF := ⟨edgeCtl, 0, 0⟩
/-- EDGE_STAT. -/
def edgeStat : Nat := 0x400D0004
/-- EDGE_STAT.cal_done [0:0], RO. -/
def edgeStat_cal_done : RF := ⟨edgeStat, 0, 0⟩
/-- EDGE_STAT.halt [1:1], RO. -/
def edgeStat_halt : RF := ⟨edgeStat, 1, 1⟩
/-- EDGE_STAT.late_write [16:16], W1C. -/
def edgeStat_late_write : RF := ⟨edgeStat, 16, 16⟩
/-- EDGE_STAT.late_edge [17:17], W1C. -/
def edgeStat_late_edge : RF := ⟨edgeStat, 17, 17⟩
/-- EDGE_STAT.pulse_ovr [18:18], W1C. -/
def edgeStat_pulse_ovr : RF := ⟨edgeStat, 18, 18⟩
/-- EDGE_STAT.mode_refused [19:19], W1C. -/
def edgeStat_mode_refused : RF := ⟨edgeStat, 19, 19⟩
/-- EDGE_STAT.dl_fail [20:20], W1C. -/
def edgeStat_dl_fail : RF := ⟨edgeStat, 20, 20⟩
/-- EDGE_STAT.dl_jump [21:21], W1C. -/
def edgeStat_dl_jump : RF := ⟨edgeStat, 21, 21⟩
/-- EDGE_STAT.dl_stale [22:22], W1C. -/
def edgeStat_dl_stale : RF := ⟨edgeStat, 22, 22⟩
/-- EDGE_LATE. -/
def edgeLate : Nat := 0x400D0008
/-- EDGE_LATE.unit [15:0], W1C. -/
def edgeLate_unit : RF := ⟨edgeLate, 15, 0⟩
/-- EDGE_LATE.tb [18:16], W1C. -/
def edgeLate_tb : RF := ⟨edgeLate, 18, 16⟩
/-- EDGE_UPD_HOLD. -/
def edgeUpdHold : Nat := 0x400D000C
/-- EDGE_UPD_HOLD.unit [15:0], RW. -/
def edgeUpdHold_unit : RF := ⟨edgeUpdHold, 15, 0⟩
/-- EDGE_UPD_HOLD.tb [18:16], RW. -/
def edgeUpdHold_tb : RF := ⟨edgeUpdHold, 18, 16⟩
/-- EDGE_TB0. -/
def edgeTb0 : Nat := 0x400D0010
/-- EDGE_TB0.period [15:0], RW. -/
def edgeTb0_period : RF := ⟨edgeTb0, 15, 0⟩
/-- EDGE_TB0.en [16:16], RW. -/
def edgeTb0_en : RF := ⟨edgeTb0, 16, 16⟩
/-- EDGE_TB1. -/
def edgeTb1 : Nat := 0x400D0014
/-- EDGE_TB1.period [15:0], RW. -/
def edgeTb1_period : RF := ⟨edgeTb1, 15, 0⟩
/-- EDGE_TB1.en [16:16], RW. -/
def edgeTb1_en : RF := ⟨edgeTb1, 16, 16⟩
/-- EDGE_TB2. -/
def edgeTb2 : Nat := 0x400D0018
/-- EDGE_TB2.period [15:0], RW. -/
def edgeTb2_period : RF := ⟨edgeTb2, 15, 0⟩
/-- EDGE_TB2.en [16:16], RW. -/
def edgeTb2_en : RF := ⟨edgeTb2, 16, 16⟩
/-- EDGE_DL_LIM. -/
def edgeDlLim : Nat := 0x400D0020
/-- EDGE_DL_LIM.lo [7:0], RWL. -/
def edgeDlLim_lo : RF := ⟨edgeDlLim, 7, 0⟩
/-- EDGE_DL_LIM.hi [15:8], RWL. -/
def edgeDlLim_hi : RF := ⟨edgeDlLim, 15, 8⟩
/-- EDGE_DL_LIM.step [23:16], RWL. -/
def edgeDlLim_step : RF := ⟨edgeDlLim, 23, 16⟩
/-- EDGE_DL_AGE. -/
def edgeDlAge : Nat := 0x400D0024
/-- EDGE_DL_AGE.age [15:0], RWL. -/
def edgeDlAge_age : RF := ⟨edgeDlAge, 15, 0⟩
/-- EDGE_DL_STAT. -/
def edgeDlStat (g : Nat) : Nat := 0x400D0030 + 0x4 * g
/-- EDGE_DL_STAT.n16 [11:0], RO. -/
def edgeDlStat_n16 (g : Nat) : RF := ⟨edgeDlStat g, 11, 0⟩
/-- EDGE_DL_STAT.table [12:12], RO. -/
def edgeDlStat_table (g : Nat) : RF := ⟨edgeDlStat g, 12, 12⟩
/-- EDGE_DL_STAT.age [31:16], RO. -/
def edgeDlStat_age (g : Nat) : RF := ⟨edgeDlStat g, 31, 16⟩
/-- EDGE_LOCK. -/
def edgeLock : Nat := 0x400D00FC
/-- EDGE_LOCK.key [15:0], WO. -/
def edgeLock_key : RF := ⟨edgeLock, 15, 0⟩
/-- EDGE_EU_CFG. -/
def edgeEuCfg (n : Nat) : Nat := 0x400D0100 + 0x10 * n
/-- EDGE_EU_CFG.mode [2:0], RWL. -/
def edgeEuCfg_mode (n : Nat) : RF := ⟨edgeEuCfg n, 2, 0⟩
/-- EDGE_EU_CFG.tb [5:4], RWL. -/
def edgeEuCfg_tb (n : Nat) : RF := ⟨edgeEuCfg n, 5, 4⟩
/-- EDGE_EU_CFG.inv [6:6], RWL. -/
def edgeEuCfg_inv (n : Nat) : RF := ⟨edgeEuCfg n, 6, 6⟩
/-- EDGE_EU_CFG.width [23:8], RWL. -/
def edgeEuCfg_width (n : Nat) : RF := ⟨edgeEuCfg n, 23, 8⟩
/-- EDGE_EU_ON. -/
def edgeEuOn (n : Nat) : Nat := 0x400D0104 + 0x10 * n
/-- EDGE_EU_ON.cmp [21:0], RW. -/
def edgeEuOn_cmp (n : Nat) : RF := ⟨edgeEuOn n, 21, 0⟩
/-- EDGE_EU_OFF. -/
def edgeEuOff (n : Nat) : Nat := 0x400D0108 + 0x10 * n
/-- EDGE_EU_OFF.cmp [21:0], RW. -/
def edgeEuOff_cmp (n : Nat) : RF := ⟨edgeEuOff n, 21, 0⟩
/-- EDGE_EU_LVL. -/
def edgeEuLvl (n : Nat) : Nat := 0x400D010C + 0x10 * n
/-- EDGE_EU_LVL.lvl [0:0], RW. -/
def edgeEuLvl_lvl (n : Nat) : RF := ⟨edgeEuLvl n, 0, 0⟩
/-- EDGE_EU_LVL.out [2:1], RO. -/
def edgeEuLvl_out (n : Nat) : RF := ⟨edgeEuLvl n, 2, 1⟩
/-- The register table of block EDGE. -/
def tableEdge : List RegRow := [
  ⟨0x400D0000, 0x10000, 1, 0x4, 1, 0x00000000, some (0x400D00FC, 0x0), [⟨0, 0, .rwl⟩]⟩,
  ⟨0x400D0004, 0x10000, 1, 0x4, 1, 0x00000000, some (0x400D00FC, 0x0), [⟨0, 0, .ro⟩, ⟨1, 1, .ro⟩, ⟨16, 16, .w1c⟩, ⟨17, 17, .w1c⟩, ⟨18, 18, .w1c⟩, ⟨19, 19, .w1c⟩, ⟨20, 20, .w1c⟩, ⟨21, 21, .w1c⟩, ⟨22, 22, .w1c⟩]⟩,
  ⟨0x400D0008, 0x10000, 1, 0x4, 1, 0x00000000, some (0x400D00FC, 0x0), [⟨15, 0, .w1c⟩, ⟨18, 16, .w1c⟩]⟩,
  ⟨0x400D000C, 0x10000, 1, 0x4, 1, 0x00000000, some (0x400D00FC, 0x0), [⟨15, 0, .rw⟩, ⟨18, 16, .rw⟩]⟩,
  ⟨0x400D0010, 0x10000, 1, 0x4, 1, 0x00000000, some (0x400D00FC, 0x0), [⟨15, 0, .rw⟩, ⟨16, 16, .rw⟩]⟩,
  ⟨0x400D0014, 0x10000, 1, 0x4, 1, 0x00000000, some (0x400D00FC, 0x0), [⟨15, 0, .rw⟩, ⟨16, 16, .rw⟩]⟩,
  ⟨0x400D0018, 0x10000, 1, 0x4, 1, 0x00000000, some (0x400D00FC, 0x0), [⟨15, 0, .rw⟩, ⟨16, 16, .rw⟩]⟩,
  ⟨0x400D0020, 0x10000, 1, 0x4, 1, 0x00407C50, some (0x400D00FC, 0x0), [⟨7, 0, .rwl⟩, ⟨15, 8, .rwl⟩, ⟨23, 16, .rwl⟩]⟩,
  ⟨0x400D0024, 0x10000, 1, 0x4, 1, 0x00000FA0, some (0x400D00FC, 0x0), [⟨15, 0, .rwl⟩]⟩,
  ⟨0x400D0030, 0x4, 4, 0x4, 1, 0x00000670, some (0x400D00FC, 0x0), [⟨11, 0, .ro⟩, ⟨12, 12, .ro⟩, ⟨31, 16, .ro⟩]⟩,
  ⟨0x400D00FC, 0x10000, 1, 0x4, 1, 0x00000000, some (0x400D00FC, 0x0), [⟨15, 0, .wo⟩]⟩,
  ⟨0x400D0100, 0x10, 16, 0x4, 1, 0x00000000, some (0x400D00FC, 0x0), [⟨2, 0, .rwl⟩, ⟨5, 4, .rwl⟩, ⟨6, 6, .rwl⟩, ⟨23, 8, .rwl⟩]⟩,
  ⟨0x400D0104, 0x10, 16, 0x4, 1, 0x003FFFFF, some (0x400D00FC, 0x0), [⟨21, 0, .rw⟩]⟩,
  ⟨0x400D0108, 0x10, 16, 0x4, 1, 0x003FFFFF, some (0x400D00FC, 0x0), [⟨21, 0, .rw⟩]⟩,
  ⟨0x400D010C, 0x10, 16, 0x4, 1, 0x00000000, some (0x400D00FC, 0x0), [⟨0, 0, .rw⟩, ⟨2, 1, .ro⟩]⟩]


/-! ## BRG: block base 0x400E0000 -/

/-- BRG_CFG. -/
def brgCfg : Nat := 0x400E0000
/-- BRG_CFG.vg [0:0], RWL. -/
def brgCfg_vg : RF := ⟨brgCfg, 0, 0⟩
/-- BRG_CFG.port_en [7:4], RWL. -/
def brgCfg_port_en : RF := ⟨brgCfg, 7, 4⟩
/-- BRG_CFG.chop_en [8:8], RWL. -/
def brgCfg_chop_en : RF := ⟨brgCfg, 8, 8⟩
/-- BRG_CFG.safe [15:12], RWL. -/
def brgCfg_safe : RF := ⟨brgCfg, 15, 12⟩
/-- BRG_TICK. -/
def brgTick : Nat := 0x400E0004
/-- BRG_TICK.tick [11:0], RWL. -/
def brgTick_tick : RF := ⟨brgTick, 11, 0⟩
/-- BRG_DEAD. -/
def brgDead : Nat := 0x400E0008
/-- BRG_DEAD.dead0 [7:0], RWL. -/
def brgDead_dead0 : RF := ⟨brgDead, 7, 0⟩
/-- BRG_DEAD.dead1 [15:8], RWL. -/
def brgDead_dead1 : RF := ⟨brgDead, 15, 8⟩
/-- BRG_DEAD.dead2 [23:16], RWL. -/
def brgDead_dead2 : RF := ⟨brgDead, 23, 16⟩
/-- BRG_DEAD.dead3 [31:24], RWL. -/
def brgDead_dead3 : RF := ⟨brgDead, 31, 24⟩
/-- BRG_GW. -/
def brgGw : Nat := 0x400E000C
/-- BRG_GW.vth_off [3:0], RWL. -/
def brgGw_vth_off : RF := ⟨brgGw, 3, 0⟩
/-- BRG_PON. -/
def brgPon (p : Nat) : Nat := 0x400E0020 + 0x8 * p
/-- BRG_PON.prime0 [6:0], RWL. -/
def brgPon_prime0 (p : Nat) : RF := ⟨brgPon p, 6, 0⟩
/-- BRG_PON.adapt [7:7], RWL. -/
def brgPon_adapt (p : Nat) : RF := ⟨brgPon p, 7, 7⟩
/-- BRG_PON.weak [11:8], RWL. -/
def brgPon_weak (p : Nat) : RF := ⟨brgPon p, 11, 8⟩
/-- BRG_PON.float [19:12], RWL. -/
def brgPon_float (p : Nat) : RF := ⟨brgPon p, 19, 12⟩
/-- BRG_PON.margin [23:20], RWL. -/
def brgPon_margin (p : Nat) : RF := ⟨brgPon p, 23, 20⟩
/-- BRG_PON.v_pl [27:24], RWL. -/
def brgPon_v_pl (p : Nat) : RF := ⟨brgPon p, 27, 24⟩
/-- BRG_POFF. -/
def brgPoff (p : Nat) : Nat := 0x400E0024 + 0x8 * p
/-- BRG_POFF.prime0 [6:0], RWL. -/
def brgPoff_prime0 (p : Nat) : RF := ⟨brgPoff p, 6, 0⟩
/-- BRG_POFF.adapt [7:7], RWL. -/
def brgPoff_adapt (p : Nat) : RF := ⟨brgPoff p, 7, 7⟩
/-- BRG_POFF.weak [11:8], RWL. -/
def brgPoff_weak (p : Nat) : RF := ⟨brgPoff p, 11, 8⟩
/-- BRG_POFF.float [19:12], RWL. -/
def brgPoff_float (p : Nat) : RF := ⟨brgPoff p, 19, 12⟩
/-- BRG_POFF.margin [23:20], RWL. -/
def brgPoff_margin (p : Nat) : RF := ⟨brgPoff p, 23, 20⟩
/-- BRG_POFF.v_pl [27:24], RWL. -/
def brgPoff_v_pl (p : Nat) : RF := ⟨brgPoff p, 27, 24⟩
/-- BRG_PCH. -/
def brgPch : Nat := 0x400E0040
/-- BRG_PCH.prime0 [6:0], RWL. -/
def brgPch_prime0 : RF := ⟨brgPch, 6, 0⟩
/-- BRG_PCH.adapt [7:7], RWL. -/
def brgPch_adapt : RF := ⟨brgPch, 7, 7⟩
/-- BRG_PCH.weak [11:8], RWL. -/
def brgPch_weak : RF := ⟨brgPch, 11, 8⟩
/-- BRG_PCH.float [19:12], RWL. -/
def brgPch_float : RF := ⟨brgPch, 19, 12⟩
/-- BRG_PCH.margin [23:20], RWL. -/
def brgPch_margin : RF := ⟨brgPch, 23, 20⟩
/-- BRG_PCH.v_pl [27:24], RWL. -/
def brgPch_v_pl : RF := ⟨brgPch, 27, 24⟩
/-- BRG_BS. -/
def brgBs : Nat := 0x400E0044
/-- BRG_BS.t_rmax [8:0], RWL. -/
def brgBs_t_rmax : RF := ⟨brgBs, 8, 0⟩
/-- BRG_BS.t_ref [15:10], RWL. -/
def brgBs_t_ref : RF := ⟨brgBs, 15, 10⟩
/-- BRG_BS.warn [18:16], RWL. -/
def brgBs_warn : RF := ⟨brgBs, 18, 16⟩
/-- BRG_SCA. -/
def brgSca (p : Nat) : Nat := 0x400E0050 + 0x4 * p
/-- BRG_SCA.th_min [7:0], RWL. -/
def brgSca_th_min (p : Nat) : RF := ⟨brgSca p, 7, 0⟩
/-- BRG_SCA.th_max [15:8], RWL. -/
def brgSca_th_max (p : Nat) : RF := ⟨brgSca p, 15, 8⟩
/-- BRG_SCA.margin [23:16], RWL. -/
def brgSca_margin (p : Nat) : RF := ⟨brgSca p, 23, 16⟩
/-- BRG_SCA.up [27:24], RWL. -/
def brgSca_up (p : Nat) : RF := ⟨brgSca p, 27, 24⟩
/-- BRG_SCA.adapt_en [28:28], RWL. -/
def brgSca_adapt_en (p : Nat) : RF := ⟨brgSca p, 28, 28⟩
/-- BRG_SCB. -/
def brgScb : Nat := 0x400E0060
/-- BRG_SCB.blank [5:0], RWL. -/
def brgScb_blank : RF := ⟨brgScb, 5, 0⟩
/-- BRG_SCB.sc_sink [11:8], RWL. -/
def brgScb_sc_sink : RF := ⟨brgScb, 11, 8⟩
/-- BRG_DCTH. -/
def brgDcth : Nat := 0x400E0064
/-- BRG_DCTH.th0 [7:0], RWL. -/
def brgDcth_th0 : RF := ⟨brgDcth, 7, 0⟩
/-- BRG_DCTH.th1 [15:8], RWL. -/
def brgDcth_th1 : RF := ⟨brgDcth, 15, 8⟩
/-- BRG_DCTH.th2 [23:16], RWL. -/
def brgDcth_th2 : RF := ⟨brgDcth, 23, 16⟩
/-- BRG_DCTH.th3 [31:24], RWL. -/
def brgDcth_th3 : RF := ⟨brgDcth, 31, 24⟩
/-- BRG_SHUNT. -/
def brgShunt : Nat := 0x400E0068
/-- BRG_SHUNT.gain0 [1:0], RWL. -/
def brgShunt_gain0 : RF := ⟨brgShunt, 1, 0⟩
/-- BRG_SHUNT.gain1 [3:2], RWL. -/
def brgShunt_gain1 : RF := ⟨brgShunt, 3, 2⟩
/-- BRG_SHUNT.gain2 [5:4], RWL. -/
def brgShunt_gain2 : RF := ⟨brgShunt, 5, 4⟩
/-- BRG_SHUNT.gain3 [7:6], RWL. -/
def brgShunt_gain3 : RF := ⟨brgShunt, 7, 6⟩
/-- BRG_SHUNT.zlim [15:8], RWL. -/
def brgShunt_zlim : RF := ⟨brgShunt, 15, 8⟩
/-- BRG_VL0. -/
def brgVl0 : Nat := 0x400E0070
/-- BRG_VL0.ch_on [7:0], RWL. -/
def brgVl0_ch_on : RF := ⟨brgVl0, 7, 0⟩
/-- BRG_VL0.ch_off [15:8], RWL. -/
def brgVl0_ch_off : RF := ⟨brgVl0, 15, 8⟩
/-- BRG_VL0.ch_flt [23:16], RWL. -/
def brgVl0_ch_flt : RF := ⟨brgVl0, 23, 16⟩
/-- BRG_VL0.hov [31:24], RWL. -/
def brgVl0_hov : RF := ⟨brgVl0, 31, 24⟩
/-- BRG_VL1. -/
def brgVl1 : Nat := 0x400E0074
/-- BRG_VL1.uv [7:0], RWL. -/
def brgVl1_uv : RF := ⟨brgVl1, 7, 0⟩
/-- BRG_VL1.flt_t [15:8], RWL. -/
def brgVl1_flt_t : RF := ⟨brgVl1, 15, 8⟩
/-- BRG_OVR_EN. -/
def brgOvrEn : Nat := 0x400E0080
/-- BRG_OVR_EN.en [0:0], RW. -/
def brgOvrEn_en : RF := ⟨brgOvrEn, 0, 0⟩
/-- BRG_OVR_GATE. -/
def brgOvrGate : Nat := 0x400E0084
/-- BRG_OVR_GATE.gate [24:0], RW. -/
def brgOvrGate_gate : RF := ⟨brgOvrGate, 24, 0⟩
/-- BRG_STAT. -/
def brgStat : Nat := 0x400E00C0
/-- BRG_STAT.bs_low [11:0], RO. -/
def brgStat_bs_low : RF := ⟨brgStat, 11, 0⟩
/-- BRG_STAT.chop_req [12:12], RO. -/
def brgStat_chop_req : RF := ⟨brgStat, 12, 12⟩
/-- BRG_STAT.vg_ok [13:13], RO. -/
def brgStat_vg_ok : RF := ⟨brgStat, 13, 13⟩
/-- BRG_STAT.ena [14:14], RO. -/
def brgStat_ena : RF := ⟨brgStat, 14, 14⟩
/-- BRG_STAT.locked [15:15], RO. -/
def brgStat_locked : RF := ⟨brgStat, 15, 15⟩
/-- BRG_STAT.ovr [16:16], RO. -/
def brgStat_ovr : RF := ⟨brgStat, 16, 16⟩
/-- BRG_BSWARN. -/
def brgBswarn : Nat := 0x400E00C4
/-- BRG_BSWARN.warn [11:0], RO. -/
def brgBswarn_warn : RF := ⟨brgBswarn, 11, 0⟩
/-- BRG_EVT. -/
def brgEvt : Nat := 0x400E00C8
/-- BRG_EVT.bs_low_evt [11:0], W1C. -/
def brgEvt_bs_low_evt : RF := ⟨brgEvt, 11, 0⟩
/-- BRG_EVT.interlock [12:12], W1C. -/
def brgEvt_interlock : RF := ⟨brgEvt, 12, 12⟩
/-- BRG_EVT.ovr_refused [13:13], W1C. -/
def brgEvt_ovr_refused : RF := ⟨brgEvt, 13, 13⟩
/-- BRG_EVT.cfg_err [14:14], W1C. -/
def brgEvt_cfg_err : RF := ⟨brgEvt, 14, 14⟩
/-- BRG_EVT.prime_lim [15:15], W1C. -/
def brgEvt_prime_lim : RF := ⟨brgEvt, 15, 15⟩
/-- BRG_EVT.gw_gate [20:16], RO. -/
def brgEvt_gw_gate : RF := ⟨brgEvt, 20, 16⟩
/-- BRG_ILK. -/
def brgIlk : Nat := 0x400E00CC
/-- BRG_ILK.leg [11:0], W1C. -/
def brgIlk_leg : RF := ⟨brgIlk, 11, 0⟩
/-- BRG_CNT. -/
def brgCnt : Nat := 0x400E00D0
/-- BRG_CNT.refresh [15:0], RO. -/
def brgCnt_refresh : RF := ⟨brgCnt, 15, 0⟩
/-- BRG_CNT.ilk [31:16], RO. -/
def brgCnt_ilk : RF := ⟨brgCnt, 31, 16⟩
/-- BRG_CMD. -/
def brgCmd : Nat := 0x400E00D4
/-- BRG_CMD.clr_cnt [0:0], WO. -/
def brgCmd_clr_cnt : RF := ⟨brgCmd, 0, 0⟩
/-- BRG_CMD.prime_reset [1:1], WO. -/
def brgCmd_prime_reset : RF := ⟨brgCmd, 1, 1⟩
/-- BRG_MEAS. -/
def brgMeas : Nat := 0x400E00D8
/-- BRG_MEAS.vlink [7:0], RO. -/
def brgMeas_vlink : RF := ⟨brgMeas, 7, 0⟩
/-- BRG_MEAS.tj [15:8], RO. -/
def brgMeas_tj : RF := ⟨brgMeas, 15, 8⟩
/-- BRG_LOCK. -/
def brgLock : Nat := 0x400E00FC
/-- BRG_LOCK.key [15:0], WO. -/
def brgLock_key : RF := ⟨brgLock, 15, 0⟩
/-- BRG_PRIME. -/
def brgPrime (g : Nat) : Nat := 0x400E0100 + 0x4 * g
/-- BRG_PRIME.on [6:0], RO. -/
def brgPrime_on (g : Nat) : RF := ⟨brgPrime g, 6, 0⟩
/-- BRG_PRIME.off [14:8], RO. -/
def brgPrime_off (g : Nat) : RF := ⟨brgPrime g, 14, 8⟩
/-- BRG_PRIME.t_pa [23:16], RO. -/
def brgPrime_t_pa (g : Nat) : RF := ⟨brgPrime g, 23, 16⟩
/-- The register table of block BRG. -/
def tableBrg : List RegRow := [
  ⟨0x400E0000, 0x10000, 1, 0x4, 1, 0x00000001, some (0x400E00FC, 0x0), [⟨0, 0, .rwl⟩, ⟨7, 4, .rwl⟩, ⟨8, 8, .rwl⟩, ⟨15, 12, .rwl⟩]⟩,
  ⟨0x400E0004, 0x10000, 1, 0x4, 1, 0x000003E8, some (0x400E00FC, 0x0), [⟨11, 0, .rwl⟩]⟩,
  ⟨0x400E0008, 0x10000, 1, 0x4, 1, 0x0A0A0A0A, some (0x400E00FC, 0x0), [⟨7, 0, .rwl⟩, ⟨15, 8, .rwl⟩, ⟨23, 16, .rwl⟩, ⟨31, 24, .rwl⟩]⟩,
  ⟨0x400E000C, 0x10000, 1, 0x4, 1, 0x00000006, some (0x400E00FC, 0x0), [⟨3, 0, .rwl⟩]⟩,
  ⟨0x400E0020, 0x8, 4, 0x4, 1, 0x08328782, some (0x400E00FC, 0x0), [⟨6, 0, .rwl⟩, ⟨7, 7, .rwl⟩, ⟨11, 8, .rwl⟩, ⟨19, 12, .rwl⟩, ⟨23, 20, .rwl⟩, ⟨27, 24, .rwl⟩]⟩,
  ⟨0x400E0024, 0x8, 4, 0x4, 1, 0x08328782, some (0x400E00FC, 0x0), [⟨6, 0, .rwl⟩, ⟨7, 7, .rwl⟩, ⟨11, 8, .rwl⟩, ⟨19, 12, .rwl⟩, ⟨23, 20, .rwl⟩, ⟨27, 24, .rwl⟩]⟩,
  ⟨0x400E0040, 0x10000, 1, 0x4, 1, 0x08328782, some (0x400E00FC, 0x0), [⟨6, 0, .rwl⟩, ⟨7, 7, .rwl⟩, ⟨11, 8, .rwl⟩, ⟨19, 12, .rwl⟩, ⟨23, 20, .rwl⟩, ⟨27, 24, .rwl⟩]⟩,
  ⟨0x400E0044, 0x10000, 1, 0x4, 1, 0x00031064, some (0x400E00FC, 0x0), [⟨8, 0, .rwl⟩, ⟨15, 10, .rwl⟩, ⟨18, 16, .rwl⟩]⟩,
  ⟨0x400E0050, 0x4, 4, 0x4, 1, 0x1328F040, some (0x400E00FC, 0x0), [⟨7, 0, .rwl⟩, ⟨15, 8, .rwl⟩, ⟨23, 16, .rwl⟩, ⟨27, 24, .rwl⟩, ⟨28, 28, .rwl⟩]⟩,
  ⟨0x400E0060, 0x10000, 1, 0x4, 1, 0x00000714, some (0x400E00FC, 0x0), [⟨5, 0, .rwl⟩, ⟨11, 8, .rwl⟩]⟩,
  ⟨0x400E0064, 0x10000, 1, 0x4, 1, 0xF0F0F0F0, some (0x400E00FC, 0x0), [⟨7, 0, .rwl⟩, ⟨15, 8, .rwl⟩, ⟨23, 16, .rwl⟩, ⟨31, 24, .rwl⟩]⟩,
  ⟨0x400E0068, 0x10000, 1, 0x4, 1, 0x00000855, some (0x400E00FC, 0x0), [⟨1, 0, .rwl⟩, ⟨3, 2, .rwl⟩, ⟨5, 4, .rwl⟩, ⟨7, 6, .rwl⟩, ⟨15, 8, .rwl⟩]⟩,
  ⟨0x400E0070, 0x10000, 1, 0x4, 1, 0xF8E8D8E0, some (0x400E00FC, 0x0), [⟨7, 0, .rwl⟩, ⟨15, 8, .rwl⟩, ⟨23, 16, .rwl⟩, ⟨31, 24, .rwl⟩]⟩,
  ⟨0x400E0074, 0x10000, 1, 0x4, 1, 0x00001478, some (0x400E00FC, 0x0), [⟨7, 0, .rwl⟩, ⟨15, 8, .rwl⟩]⟩,
  ⟨0x400E0080, 0x10000, 1, 0x4, 1, 0x00000000, some (0x400E00FC, 0x0), [⟨0, 0, .rw⟩]⟩,
  ⟨0x400E0084, 0x10000, 1, 0x4, 1, 0x00000000, some (0x400E00FC, 0x0), [⟨24, 0, .rw⟩]⟩,
  ⟨0x400E00C0, 0x10000, 1, 0x4, 1, 0x00000000, some (0x400E00FC, 0x0), [⟨11, 0, .ro⟩, ⟨12, 12, .ro⟩, ⟨13, 13, .ro⟩, ⟨14, 14, .ro⟩, ⟨15, 15, .ro⟩, ⟨16, 16, .ro⟩]⟩,
  ⟨0x400E00C4, 0x10000, 1, 0x4, 1, 0x00000000, some (0x400E00FC, 0x0), [⟨11, 0, .ro⟩]⟩,
  ⟨0x400E00C8, 0x10000, 1, 0x4, 1, 0x00000000, some (0x400E00FC, 0x0), [⟨11, 0, .w1c⟩, ⟨12, 12, .w1c⟩, ⟨13, 13, .w1c⟩, ⟨14, 14, .w1c⟩, ⟨15, 15, .w1c⟩, ⟨20, 16, .ro⟩]⟩,
  ⟨0x400E00CC, 0x10000, 1, 0x4, 1, 0x00000000, some (0x400E00FC, 0x0), [⟨11, 0, .w1c⟩]⟩,
  ⟨0x400E00D0, 0x10000, 1, 0x4, 1, 0x00000000, some (0x400E00FC, 0x0), [⟨15, 0, .ro⟩, ⟨31, 16, .ro⟩]⟩,
  ⟨0x400E00D4, 0x10000, 1, 0x4, 1, 0x00000000, some (0x400E00FC, 0x0), [⟨0, 0, .wo⟩, ⟨1, 1, .wo⟩]⟩,
  ⟨0x400E00D8, 0x10000, 1, 0x4, 1, 0x00000000, some (0x400E00FC, 0x0), [⟨7, 0, .ro⟩, ⟨15, 8, .ro⟩]⟩,
  ⟨0x400E00FC, 0x10000, 1, 0x4, 1, 0x00000000, some (0x400E00FC, 0x0), [⟨15, 0, .wo⟩]⟩,
  ⟨0x400E0100, 0x4, 25, 0x4, 1, 0x00000202, some (0x400E00FC, 0x0), [⟨6, 0, .ro⟩, ⟨14, 8, .ro⟩, ⟨23, 16, .ro⟩]⟩]


/-! ## TRIP: block base 0x400F0000 -/

/-- TRIP_FLAG0. -/
def tripFlag0 : Nat := 0x400F0000
/-- TRIP_FLAG0.flag [31:0], W1C. -/
def tripFlag0_flag : RF := ⟨tripFlag0, 31, 0⟩
/-- TRIP_FLAG1. -/
def tripFlag1 : Nat := 0x400F0004
/-- TRIP_FLAG1.flag [6:0], W1C. -/
def tripFlag1_flag : RF := ⟨tripFlag1, 6, 0⟩
/-- TRIP_SRC0. -/
def tripSrc0 : Nat := 0x400F0008
/-- TRIP_SRC0.active [31:0], RO. -/
def tripSrc0_active : RF := ⟨tripSrc0, 31, 0⟩
/-- TRIP_SRC1. -/
def tripSrc1 : Nat := 0x400F000C
/-- TRIP_SRC1.active [6:0], RO. -/
def tripSrc1_active : RF := ⟨tripSrc1, 6, 0⟩
/-- TRIP_STAT. -/
def tripStat : Nat := 0x400F0010
/-- TRIP_STAT.act_p [7:0], RO. -/
def tripStat_act_p : RF := ⟨tripStat, 7, 0⟩
/-- TRIP_STAT.act_ch [9:8], RO. -/
def tripStat_act_ch : RF := ⟨tripStat, 9, 8⟩
/-- TRIP_STAT.clr_refused [16:16], W1C. -/
def tripStat_clr_refused : RF := ⟨tripStat, 16, 16⟩
/-- TRIP_STAT.first_valid [17:17], RO. -/
def tripStat_first_valid : RF := ⟨tripStat, 17, 17⟩
/-- TRIP_STAT.first [23:18], RO. -/
def tripStat_first : RF := ⟨tripStat, 23, 18⟩
/-- TRIP_EXT. -/
def tripExt : Nat := 0x400F0014
/-- TRIP_EXT.pol [5:0], RWL. -/
def tripExt_pol : RF := ⟨tripExt, 5, 0⟩
/-- TRIP_EXT.filt [15:8], RWL. -/
def tripExt_filt : RF := ⟨tripExt, 15, 8⟩
/-- TRIP_LOCK. -/
def tripLock : Nat := 0x400F00FC
/-- TRIP_LOCK.key [15:0], WO. -/
def tripLock_key : RF := ⟨tripLock, 15, 0⟩
/-- TRIP_MAP. -/
def tripMap (s : Nat) : Nat := 0x400F0100 + 0x4 * s
/-- TRIP_MAP.a_p [7:0], RWL. -/
def tripMap_a_p (s : Nat) : RF := ⟨tripMap s, 7, 0⟩
/-- TRIP_MAP.a_ch [9:8], RWL. -/
def tripMap_a_ch (s : Nat) : RF := ⟨tripMap s, 9, 8⟩
/-- TRIP_MAP.latch [16:16], RWL. -/
def tripMap_latch (s : Nat) : RF := ⟨tripMap s, 16, 16⟩
/-- TRIP_MAP.en [17:17], RWL. -/
def tripMap_en (s : Nat) : RF := ⟨tripMap s, 17, 17⟩
/-- The register table of block TRIP. -/
def tableTrip : List RegRow := [
  ⟨0x400F0000, 0x10000, 1, 0x4, 1, 0x00000000, some (0x400F00FC, 0x0), [⟨31, 0, .w1c⟩]⟩,
  ⟨0x400F0004, 0x10000, 1, 0x4, 1, 0x00000000, some (0x400F00FC, 0x0), [⟨6, 0, .w1c⟩]⟩,
  ⟨0x400F0008, 0x10000, 1, 0x4, 1, 0x00000000, some (0x400F00FC, 0x0), [⟨31, 0, .ro⟩]⟩,
  ⟨0x400F000C, 0x10000, 1, 0x4, 1, 0x00000000, some (0x400F00FC, 0x0), [⟨6, 0, .ro⟩]⟩,
  ⟨0x400F0010, 0x10000, 1, 0x4, 1, 0x00000000, some (0x400F00FC, 0x0), [⟨7, 0, .ro⟩, ⟨9, 8, .ro⟩, ⟨16, 16, .w1c⟩, ⟨17, 17, .ro⟩, ⟨23, 18, .ro⟩]⟩,
  ⟨0x400F0014, 0x10000, 1, 0x4, 1, 0x00000A00, some (0x400F00FC, 0x0), [⟨5, 0, .rwl⟩, ⟨15, 8, .rwl⟩]⟩,
  ⟨0x400F00FC, 0x10000, 1, 0x4, 1, 0x00000000, some (0x400F00FC, 0x0), [⟨15, 0, .wo⟩]⟩,
  ⟨0x400F0100, 0x4, 39, 0x4, 1, 0x000303FF, some (0x400F00FC, 0x0), [⟨7, 0, .rwl⟩, ⟨9, 8, .rwl⟩, ⟨16, 16, .rwl⟩, ⟨17, 17, .rwl⟩]⟩]


/-! ## BELAY: block base 0x40010000 -/

/-- BELAY_CFG. -/
def belayCfg : Nat := 0x40010000
/-- BELAY_CFG.dev_n [3:0], RWL. -/
def belayCfg_dev_n : RF := ⟨belayCfg, 3, 0⟩
/-- BELAY_CFG.miss_n [7:4], RWL. -/
def belayCfg_miss_n : RF := ⟨belayCfg, 7, 4⟩
/-- BELAY_CFG.late_s [11:8], RWL. -/
def belayCfg_late_s : RF := ⟨belayCfg, 11, 8⟩
/-- BELAY_CFG.late_x [19:12], RWL. -/
def belayCfg_late_x : RF := ⟨belayCfg, 19, 12⟩
/-- BELAY_CFG.dis_t [27:20], RWL. -/
def belayCfg_dis_t : RF := ⟨belayCfg, 27, 20⟩
/-- BELAY_LIMP. -/
def belayLimp : Nat := 0x40010004
/-- BELAY_LIMP.t_req [7:0], RWL. -/
def belayLimp_t_req : RF := ⟨belayLimp, 7, 0⟩
/-- BELAY_LIMP.t_hold [15:8], RWL. -/
def belayLimp_t_hold : RF := ⟨belayLimp, 15, 8⟩
/-- BELAY_LIMP.vscale [23:16], RWL. -/
def belayLimp_vscale : RF := ⟨belayLimp, 23, 16⟩
/-- BELAY_REJ. -/
def belayRej : Nat := 0x40010008
/-- BELAY_REJ.limit [3:0], RWL. -/
def belayRej_limit : RF := ⟨belayRej, 3, 0⟩
/-- BELAY_REJ.window [15:4], RWL. -/
def belayRej_window : RF := ⟨belayRej, 15, 4⟩
/-- BELAY_REJ.hold [23:16], RWL. -/
def belayRej_hold : RF := ⟨belayRej, 23, 16⟩
/-- BELAY_START. -/
def belayStart : Nat := 0x4001000C
/-- BELAY_START.solo_en [0:0], RWL. -/
def belayStart_solo_en : RF := ⟨belayStart, 0, 0⟩
/-- BELAY_START.solo_t [15:8], RWL. -/
def belayStart_solo_t : RF := ⟨belayStart, 15, 8⟩
/-- BELAY_ACT. -/
def belayAct : Nat := 0x40010010
/-- BELAY_ACT.act_mon [1:0], RWL. -/
def belayAct_act_mon : RF := ⟨belayAct, 1, 0⟩
/-- BELAY_ACT.act_le [3:2], RWL. -/
def belayAct_act_le : RF := ⟨belayAct, 3, 2⟩
/-- BELAY_ACT.act_lath [5:4], RWL. -/
def belayAct_act_lath : RF := ⟨belayAct, 5, 4⟩
/-- BELAY_ACT.act_t1 [7:6], RWL. -/
def belayAct_act_t1 : RF := ⟨belayAct, 7, 6⟩
/-- BELAY_WDG. -/
def belayWdg : Nat := 0x40010014
/-- BELAY_WDG.period [11:0], RWL. -/
def belayWdg_period : RF := ⟨belayWdg, 11, 0⟩
/-- BELAY_KICK. -/
def belayKick : Nat := 0x40010018
/-- BELAY_KICK.key [15:0], WO. -/
def belayKick_key : RF := ⟨belayKick, 15, 0⟩
/-- BELAY_STATE. -/
def belayState : Nat := 0x40010020
/-- BELAY_STATE.state [3:0], RO. -/
def belayState_state : RF := ⟨belayState, 3, 0⟩
/-- BELAY_STATE.view_a [11:8], RO. -/
def belayState_view_a : RF := ⟨belayState, 11, 8⟩
/-- BELAY_STATE.view_b [15:12], RO. -/
def belayState_view_b : RF := ⟨belayState, 15, 12⟩
/-- BELAY_STATE.view_c [19:16], RO. -/
def belayState_view_c : RF := ⟨belayState, 19, 16⟩
/-- BELAY_STATE.two_lane [20:20], RO. -/
def belayState_two_lane : RF := ⟨belayState, 20, 20⟩
/-- BELAY_STATE.ll_armed [21:21], RO. -/
def belayState_ll_armed : RF := ⟨belayState, 21, 21⟩
/-- BELAY_STATE.blind [22:22], RO. -/
def belayState_blind : RF := ⟨belayState, 22, 22⟩
/-- BELAY_STATE.limp_axes [27:24], RO. -/
def belayState_limp_axes : RF := ⟨belayState, 27, 24⟩
/-- BELAY_VOTE. -/
def belayVote : Nat := 0x40010024
/-- BELAY_VOTE.out [5:0], RO. -/
def belayVote_out : RF := ⟨belayVote, 5, 0⟩
/-- BELAY_VOTE.in [13:8], RO. -/
def belayVote_in : RF := ⟨belayVote, 13, 8⟩
/-- BELAY_VOTE.ena [16:16], RO. -/
def belayVote_ena : RF := ⟨belayVote, 16, 16⟩
/-- BELAY_VOTE.ll_latched [17:17], RO. -/
def belayVote_ll_latched : RF := ⟨belayVote, 17, 17⟩
/-- BELAY_STAT. -/
def belayStat : Nat := 0x40010030
/-- BELAY_STAT.excl_evt [0:0], W1C. -/
def belayStat_excl_evt : RF := ⟨belayStat, 0, 0⟩
/-- BELAY_STAT.self_excl [1:1], W1C. -/
def belayStat_self_excl : RF := ⟨belayStat, 1, 1⟩
/-- BELAY_STAT.disagree_2 [2:2], W1C. -/
def belayStat_disagree_2 : RF := ⟨belayStat, 2, 2⟩
/-- BELAY_STAT.dev_multi [3:3], W1C. -/
def belayStat_dev_multi : RF := ⟨belayStat, 3, 3⟩
/-- BELAY_STAT.vote_mismatch [4:4], W1C. -/
def belayStat_vote_mismatch : RF := ⟨belayStat, 4, 4⟩
/-- BELAY_STAT.blind_evt [5:5], W1C. -/
def belayStat_blind_evt : RF := ⟨belayStat, 5, 5⟩
/-- BELAY_STAT.ll_latch_evt [6:6], W1C. -/
def belayStat_ll_latch_evt : RF := ⟨belayStat, 6, 6⟩
/-- BELAY_STAT.limp_evt [7:7], W1C. -/
def belayStat_limp_evt : RF := ⟨belayStat, 7, 7⟩
/-- BELAY_STAT.stop_req_evt [8:8], W1C. -/
def belayStat_stop_req_evt : RF := ⟨belayStat, 8, 8⟩
/-- BELAY_STAT.rej_fail [9:9], W1C. -/
def belayStat_rej_fail : RF := ⟨belayStat, 9, 9⟩
/-- BELAY_STAT.wdg [10:10], W1C. -/
def belayStat_wdg : RF := ⟨belayStat, 10, 10⟩
/-- BELAY_STAT.id_mismatch [11:11], W1C. -/
def belayStat_id_mismatch : RF := ⟨belayStat, 11, 11⟩
/-- BELAY_STAT.compat [12:12], W1C. -/
def belayStat_compat : RF := ⟨belayStat, 12, 12⟩
/-- BELAY_STAT.cmd_refused [13:13], W1C. -/
def belayStat_cmd_refused : RF := ⟨belayStat, 13, 13⟩
/-- BELAY_STAT.flag_evt [14:14], W1C. -/
def belayStat_flag_evt : RF := ⟨belayStat, 14, 14⟩
/-- BELAY_CAUSE. -/
def belayCause : Nat := 0x40010034
/-- BELAY_CAUSE.cause_a [7:0], RO. -/
def belayCause_cause_a : RF := ⟨belayCause, 7, 0⟩
/-- BELAY_CAUSE.cause_b [15:8], RO. -/
def belayCause_cause_b : RF := ⟨belayCause, 15, 8⟩
/-- BELAY_CAUSE.cause_c [23:16], RO. -/
def belayCause_cause_c : RF := ⟨belayCause, 23, 16⟩
/-- BELAY_CAUSE.own [31:24], RO. -/
def belayCause_own : RF := ⟨belayCause, 31, 24⟩
/-- BELAY_REQ. -/
def belayReq : Nat := 0x40010038
/-- BELAY_REQ.speed_lim [0:0], RO. -/
def belayReq_speed_lim : RF := ⟨belayReq, 0, 0⟩
/-- BELAY_REQ.stop [1:1], RO. -/
def belayReq_stop : RF := ⟨belayReq, 1, 1⟩
/-- BELAY_REQ.hold [2:2], RO. -/
def belayReq_hold : RF := ⟨belayReq, 2, 2⟩
/-- BELAY_REQ.t_left [31:16], RO. -/
def belayReq_t_left : RF := ⟨belayReq, 31, 16⟩
/-- BELAY_CNT. -/
def belayCnt : Nat := 0x40010040
/-- BELAY_CNT.attempts [3:0], RO. -/
def belayCnt_attempts : RF := ⟨belayCnt, 3, 0⟩
/-- BELAY_CNT.excl [31:16], RO. -/
def belayCnt_excl : RF := ⟨belayCnt, 31, 16⟩
/-- BELAY_CMD. -/
def belayCmd : Nat := 0x40010044
/-- BELAY_CMD.op [3:0], WO. -/
def belayCmd_op : RF := ⟨belayCmd, 3, 0⟩
/-- BELAY_CMD.clr_cnt [8:8], WO. -/
def belayCmd_clr_cnt : RF := ⟨belayCmd, 8, 8⟩
/-- BELAY_LOCK. -/
def belayLock : Nat := 0x400100FC
/-- BELAY_LOCK.key [15:0], WO. -/
def belayLock_key : RF := ⟨belayLock, 15, 0⟩
/-- The register table of block BELAY. -/
def tableBelay : List RegRow := [
  ⟨0x40010000, 0x10000, 1, 0x4, 1, 0x01410423, some (0x400100FC, 0x0), [⟨3, 0, .rwl⟩, ⟨7, 4, .rwl⟩, ⟨11, 8, .rwl⟩, ⟨19, 12, .rwl⟩, ⟨27, 20, .rwl⟩]⟩,
  ⟨0x40010004, 0x10000, 1, 0x4, 1, 0x00801E3C, some (0x400100FC, 0x0), [⟨7, 0, .rwl⟩, ⟨15, 8, .rwl⟩, ⟨23, 16, .rwl⟩]⟩,
  ⟨0x40010008, 0x10000, 1, 0x4, 1, 0x000103C3, some (0x400100FC, 0x0), [⟨3, 0, .rwl⟩, ⟨15, 4, .rwl⟩, ⟨23, 16, .rwl⟩]⟩,
  ⟨0x4001000C, 0x10000, 1, 0x4, 1, 0x00003200, some (0x400100FC, 0x0), [⟨0, 0, .rwl⟩, ⟨15, 8, .rwl⟩]⟩,
  ⟨0x40010010, 0x10000, 1, 0x4, 1, 0x00000019, some (0x400100FC, 0x0), [⟨1, 0, .rwl⟩, ⟨3, 2, .rwl⟩, ⟨5, 4, .rwl⟩, ⟨7, 6, .rwl⟩]⟩,
  ⟨0x40010014, 0x10000, 1, 0x4, 1, 0x00000028, some (0x400100FC, 0x0), [⟨11, 0, .rwl⟩]⟩,
  ⟨0x40010018, 0x10000, 1, 0x4, 1, 0x00000000, some (0x400100FC, 0x0), [⟨15, 0, .wo⟩]⟩,
  ⟨0x40010020, 0x10000, 1, 0x4, 1, 0x00000000, some (0x400100FC, 0x0), [⟨3, 0, .ro⟩, ⟨11, 8, .ro⟩, ⟨15, 12, .ro⟩, ⟨19, 16, .ro⟩, ⟨20, 20, .ro⟩, ⟨21, 21, .ro⟩, ⟨22, 22, .ro⟩, ⟨27, 24, .ro⟩]⟩,
  ⟨0x40010024, 0x10000, 1, 0x4, 1, 0x00000000, some (0x400100FC, 0x0), [⟨5, 0, .ro⟩, ⟨13, 8, .ro⟩, ⟨16, 16, .ro⟩, ⟨17, 17, .ro⟩]⟩,
  ⟨0x40010030, 0x10000, 1, 0x4, 1, 0x00000000, some (0x400100FC, 0x0), [⟨0, 0, .w1c⟩, ⟨1, 1, .w1c⟩, ⟨2, 2, .w1c⟩, ⟨3, 3, .w1c⟩, ⟨4, 4, .w1c⟩, ⟨5, 5, .w1c⟩, ⟨6, 6, .w1c⟩, ⟨7, 7, .w1c⟩, ⟨8, 8, .w1c⟩, ⟨9, 9, .w1c⟩, ⟨10, 10, .w1c⟩, ⟨11, 11, .w1c⟩, ⟨12, 12, .w1c⟩, ⟨13, 13, .w1c⟩, ⟨14, 14, .w1c⟩]⟩,
  ⟨0x40010034, 0x10000, 1, 0x4, 1, 0x00000000, some (0x400100FC, 0x0), [⟨7, 0, .ro⟩, ⟨15, 8, .ro⟩, ⟨23, 16, .ro⟩, ⟨31, 24, .ro⟩]⟩,
  ⟨0x40010038, 0x10000, 1, 0x4, 1, 0x00000000, some (0x400100FC, 0x0), [⟨0, 0, .ro⟩, ⟨1, 1, .ro⟩, ⟨2, 2, .ro⟩, ⟨31, 16, .ro⟩]⟩,
  ⟨0x40010040, 0x10000, 1, 0x4, 1, 0x00000000, some (0x400100FC, 0x0), [⟨3, 0, .ro⟩, ⟨31, 16, .ro⟩]⟩,
  ⟨0x40010044, 0x10000, 1, 0x4, 1, 0x00000000, some (0x400100FC, 0x0), [⟨3, 0, .wo⟩, ⟨8, 8, .wo⟩]⟩,
  ⟨0x400100FC, 0x10000, 1, 0x4, 1, 0x00000000, some (0x400100FC, 0x0), [⟨15, 0, .wo⟩]⟩]


/-! ## ROPE: block base 0x40020000 -/

/-- ROPE_CFG. -/
def ropeCfg : Nat := 0x40020000
/-- ROPE_CFG.err_lim [7:0], RWL. -/
def ropeCfg_err_lim : RF := ⟨ropeCfg, 7, 0⟩
/-- ROPE_CFG.up_n [15:8], RWL. -/
def ropeCfg_up_n : RF := ⟨ropeCfg, 15, 8⟩
/-- ROPE_STAT_0. -/
def ropeStat0 : Nat := 0x40020010
/-- ROPE_STAT_0.up [0:0], RO. -/
def ropeStat0_up : RF := ⟨ropeStat0, 0, 0⟩
/-- ROPE_STAT_0.peer_alive [1:1], RO. -/
def ropeStat0_peer_alive : RF := ⟨ropeStat0, 1, 1⟩
/-- ROPE_STAT_0.down_evt [16:16], W1C. -/
def ropeStat0_down_evt : RF := ⟨ropeStat0, 16, 16⟩
/-- ROPE_STAT_0.crc_evt [17:17], W1C. -/
def ropeStat0_crc_evt : RF := ⟨ropeStat0, 17, 17⟩
/-- ROPE_STAT_0.flink_evt [18:18], W1C. -/
def ropeStat0_flink_evt : RF := ⟨ropeStat0, 18, 18⟩
/-- ROPE_STAT_1. -/
def ropeStat1 : Nat := 0x40020014
/-- ROPE_STAT_1.up [0:0], RO. -/
def ropeStat1_up : RF := ⟨ropeStat1, 0, 0⟩
/-- ROPE_STAT_1.peer_alive [1:1], RO. -/
def ropeStat1_peer_alive : RF := ⟨ropeStat1, 1, 1⟩
/-- ROPE_STAT_1.down_evt [16:16], W1C. -/
def ropeStat1_down_evt : RF := ⟨ropeStat1, 16, 16⟩
/-- ROPE_STAT_1.crc_evt [17:17], W1C. -/
def ropeStat1_crc_evt : RF := ⟨ropeStat1, 17, 17⟩
/-- ROPE_STAT_1.flink_evt [18:18], W1C. -/
def ropeStat1_flink_evt : RF := ⟨ropeStat1, 18, 18⟩
/-- ROPE_CNT_0. -/
def ropeCnt0 : Nat := 0x40020020
/-- ROPE_CNT_0.crc [15:0], RO. -/
def ropeCnt0_crc : RF := ⟨ropeCnt0, 15, 0⟩
/-- ROPE_CNT_0.down [31:16], RO. -/
def ropeCnt0_down : RF := ⟨ropeCnt0, 31, 16⟩
/-- ROPE_CNT_1. -/
def ropeCnt1 : Nat := 0x40020024
/-- ROPE_CNT_1.crc [15:0], RO. -/
def ropeCnt1_crc : RF := ⟨ropeCnt1, 15, 0⟩
/-- ROPE_CNT_1.down [31:16], RO. -/
def ropeCnt1_down : RF := ⟨ropeCnt1, 31, 16⟩
/-- ROPE_CMD. -/
def ropeCmd : Nat := 0x40020030
/-- ROPE_CMD.clr_cnt [0:0], WO. -/
def ropeCmd_clr_cnt : RF := ⟨ropeCmd, 0, 0⟩
/-- ROPE_LOCK. -/
def ropeLock : Nat := 0x400200FC
/-- ROPE_LOCK.key [15:0], WO. -/
def ropeLock_key : RF := ⟨ropeLock, 15, 0⟩
/-- The register table of block ROPE. -/
def tableRope : List RegRow := [
  ⟨0x40020000, 0x10000, 1, 0x4, 1, 0x00004008, some (0x400200FC, 0x0), [⟨7, 0, .rwl⟩, ⟨15, 8, .rwl⟩]⟩,
  ⟨0x40020010, 0x10000, 1, 0x4, 1, 0x00000000, some (0x400200FC, 0x0), [⟨0, 0, .ro⟩, ⟨1, 1, .ro⟩, ⟨16, 16, .w1c⟩, ⟨17, 17, .w1c⟩, ⟨18, 18, .w1c⟩]⟩,
  ⟨0x40020014, 0x10000, 1, 0x4, 1, 0x00000000, some (0x400200FC, 0x0), [⟨0, 0, .ro⟩, ⟨1, 1, .ro⟩, ⟨16, 16, .w1c⟩, ⟨17, 17, .w1c⟩, ⟨18, 18, .w1c⟩]⟩,
  ⟨0x40020020, 0x10000, 1, 0x4, 1, 0x00000000, some (0x400200FC, 0x0), [⟨15, 0, .ro⟩, ⟨31, 16, .ro⟩]⟩,
  ⟨0x40020024, 0x10000, 1, 0x4, 1, 0x00000000, some (0x400200FC, 0x0), [⟨15, 0, .ro⟩, ⟨31, 16, .ro⟩]⟩,
  ⟨0x40020030, 0x10000, 1, 0x4, 1, 0x00000000, some (0x400200FC, 0x0), [⟨0, 0, .wo⟩]⟩,
  ⟨0x400200FC, 0x10000, 1, 0x4, 1, 0x00000000, some (0x400200FC, 0x0), [⟨15, 0, .wo⟩]⟩]


/-! ## TRIAD: block base 0x40030000 -/

/-- TRIAD_CFG. -/
def triadCfg : Nat := 0x40030000
/-- TRIAD_CFG.tst_per [11:0], RWL. -/
def triadCfg_tst_per : RF := ⟨triadCfg, 11, 0⟩
/-- TRIAD_CFG.rs_limit [15:12], RWL. -/
def triadCfg_rs_limit : RF := ⟨triadCfg, 15, 12⟩
/-- TRIAD_CFG.rs_window [27:16], RWL. -/
def triadCfg_rs_window : RF := ⟨triadCfg, 27, 16⟩
/-- TRIAD_STAT. -/
def triadStat : Nat := 0x40030004
/-- TRIAD_STAT.split [0:0], RO. -/
def triadStat_split : RF := ⟨triadStat, 0, 0⟩
/-- TRIAD_STAT.resync [1:1], RO. -/
def triadStat_resync : RF := ⟨triadStat, 1, 1⟩
/-- TRIAD_STAT.odd [3:2], RO. -/
def triadStat_odd : RF := ⟨triadStat, 3, 2⟩
/-- TRIAD_STAT.break [4:4], RO. -/
def triadStat_break : RF := ⟨triadStat, 4, 4⟩
/-- TRIAD_STAT.dbg_halt [5:5], RO. -/
def triadStat_dbg_halt : RF := ⟨triadStat, 5, 5⟩
/-- TRIAD_STAT.mis_evt [16:16], W1C. -/
def triadStat_mis_evt : RF := ⟨triadStat, 16, 16⟩
/-- TRIAD_STAT.triad3 [17:17], W1C. -/
def triadStat_triad3 : RF := ⟨triadStat, 17, 17⟩
/-- TRIAD_STAT.tst_fail [18:18], W1C. -/
def triadStat_tst_fail : RF := ⟨triadStat, 18, 18⟩
/-- TRIAD_STAT.par [19:19], W1C. -/
def triadStat_par : RF := ⟨triadStat, 19, 19⟩
/-- TRIAD_STAT.lockstep_broken [20:20], W1C. -/
def triadStat_lockstep_broken : RF := ⟨triadStat, 20, 20⟩
/-- TRIAD_STAT.brk_refused [21:21], W1C. -/
def triadStat_brk_refused : RF := ⟨triadStat, 21, 21⟩
/-- TRIAD_STAT.split_refused [22:22], W1C. -/
def triadStat_split_refused : RF := ⟨triadStat, 22, 22⟩
/-- TRIAD_MIS. -/
def triadMis : Nat := 0x40030008
/-- TRIAD_MIS.cat [3:0], RO. -/
def triadMis_cat : RF := ⟨triadMis, 3, 0⟩
/-- TRIAD_MIS.odd [5:4], RO. -/
def triadMis_odd : RF := ⟨triadMis, 5, 4⟩
/-- TRIAD_MIS.rs [6:6], RO. -/
def triadMis_rs : RF := ⟨triadMis, 6, 6⟩
/-- TRIAD_MIS.idx [12:8], RO. -/
def triadMis_idx : RF := ⟨triadMis, 12, 8⟩
/-- TRIAD_MIS_PC. -/
def triadMisPc : Nat := 0x4003000C
/-- TRIAD_MIS_PC.pc [31:0], RO. -/
def triadMisPc_pc : RF := ⟨triadMisPc, 31, 0⟩
/-- TRIAD_MIS_TIME. -/
def triadMisTime : Nat := 0x40030010
/-- TRIAD_MIS_TIME.t [31:0], RO. -/
def triadMisTime_t : RF := ⟨triadMisTime, 31, 0⟩
/-- TRIAD_CNT. -/
def triadCnt : Nat := 0x40030014
/-- TRIAD_CNT.rs0 [7:0], RO. -/
def triadCnt_rs0 : RF := ⟨triadCnt, 7, 0⟩
/-- TRIAD_CNT.rs1 [15:8], RO. -/
def triadCnt_rs1 : RF := ⟨triadCnt, 15, 8⟩
/-- TRIAD_CNT.rs2 [23:16], RO. -/
def triadCnt_rs2 : RF := ⟨triadCnt, 23, 16⟩
/-- TRIAD_CNT.ovw [31:24], RO. -/
def triadCnt_ovw : RF := ⟨triadCnt, 31, 24⟩
/-- TRIAD_CMD. -/
def triadCmd : Nat := 0x40030018
/-- TRIAD_CMD.clr_cnt [0:0], WO. -/
def triadCmd_clr_cnt : RF := ⟨triadCmd, 0, 0⟩
/-- TRIAD_CMD.tst_now [1:1], WO. -/
def triadCmd_tst_now : RF := ⟨triadCmd, 1, 1⟩
/-- TRIAD_RS_TIME. -/
def triadRsTime : Nat := 0x4003001C
/-- TRIAD_RS_TIME.dur [15:0], RO. -/
def triadRsTime_dur : RF := ⟨triadRsTime, 15, 0⟩
/-- TRIAD_RS_TIME.stall [22:16], RO. -/
def triadRsTime_stall : RF := ⟨triadRsTime, 22, 16⟩
/-- TRIAD_DBG. -/
def triadDbg : Nat := 0x40030020
/-- TRIAD_DBG.force_abstain [0:0], RW. -/
def triadDbg_force_abstain : RF := ⟨triadDbg, 0, 0⟩
/-- TRIAD_DBG.brk_req [1:1], WO. -/
def triadDbg_brk_req : RF := ⟨triadDbg, 1, 1⟩
/-- TRIAD_LAST_MIS. -/
def triadLastMis : Nat := 0x40030030
/-- TRIAD_LAST_MIS.rec [31:0], RO. -/
def triadLastMis_rec : RF := ⟨triadLastMis, 31, 0⟩
/-- TRIAD_LAST_PC. -/
def triadLastPc : Nat := 0x40030034
/-- TRIAD_LAST_PC.rec [31:0], RO. -/
def triadLastPc_rec : RF := ⟨triadLastPc, 31, 0⟩
/-- TRIAD_LAST_TIME. -/
def triadLastTime : Nat := 0x40030038
/-- TRIAD_LAST_TIME.rec [31:0], RO. -/
def triadLastTime_rec : RF := ⟨triadLastTime, 31, 0⟩
/-- TRIAD_LOCK. -/
def triadLock : Nat := 0x400300FC
/-- TRIAD_LOCK.key [15:0], WO. -/
def triadLock_key : RF := ⟨triadLock, 15, 0⟩
/-- The register table of block TRIAD. -/
def tableTriad : List RegRow := [
  ⟨0x40030000, 0x10000, 1, 0x4, 1, 0x03E843E8, some (0x400300FC, 0x0), [⟨11, 0, .rwl⟩, ⟨15, 12, .rwl⟩, ⟨27, 16, .rwl⟩]⟩,
  ⟨0x40030004, 0x10000, 1, 0x4, 1, 0x0000000C, some (0x400300FC, 0x0), [⟨0, 0, .ro⟩, ⟨1, 1, .ro⟩, ⟨3, 2, .ro⟩, ⟨4, 4, .ro⟩, ⟨5, 5, .ro⟩, ⟨16, 16, .w1c⟩, ⟨17, 17, .w1c⟩, ⟨18, 18, .w1c⟩, ⟨19, 19, .w1c⟩, ⟨20, 20, .w1c⟩, ⟨21, 21, .w1c⟩, ⟨22, 22, .w1c⟩]⟩,
  ⟨0x40030008, 0x10000, 1, 0x4, 1, 0x00000030, some (0x400300FC, 0x0), [⟨3, 0, .ro⟩, ⟨5, 4, .ro⟩, ⟨6, 6, .ro⟩, ⟨12, 8, .ro⟩]⟩,
  ⟨0x4003000C, 0x10000, 1, 0x4, 1, 0x00000000, some (0x400300FC, 0x0), [⟨31, 0, .ro⟩]⟩,
  ⟨0x40030010, 0x10000, 1, 0x4, 1, 0x00000000, some (0x400300FC, 0x0), [⟨31, 0, .ro⟩]⟩,
  ⟨0x40030014, 0x10000, 1, 0x4, 1, 0x00000000, some (0x400300FC, 0x0), [⟨7, 0, .ro⟩, ⟨15, 8, .ro⟩, ⟨23, 16, .ro⟩, ⟨31, 24, .ro⟩]⟩,
  ⟨0x40030018, 0x10000, 1, 0x4, 1, 0x00000000, some (0x400300FC, 0x0), [⟨0, 0, .wo⟩, ⟨1, 1, .wo⟩]⟩,
  ⟨0x4003001C, 0x10000, 1, 0x4, 1, 0x00000000, some (0x400300FC, 0x0), [⟨15, 0, .ro⟩, ⟨22, 16, .ro⟩]⟩,
  ⟨0x40030020, 0x10000, 1, 0x4, 1, 0x00000000, some (0x400300FC, 0x0), [⟨0, 0, .rw⟩, ⟨1, 1, .wo⟩]⟩,
  ⟨0x40030030, 0x10000, 1, 0x4, 1, 0x00000030, some (0x400300FC, 0x0), [⟨31, 0, .ro⟩]⟩,
  ⟨0x40030034, 0x10000, 1, 0x4, 1, 0x00000000, some (0x400300FC, 0x0), [⟨31, 0, .ro⟩]⟩,
  ⟨0x40030038, 0x10000, 1, 0x4, 1, 0x00000000, some (0x400300FC, 0x0), [⟨31, 0, .ro⟩]⟩,
  ⟨0x400300FC, 0x10000, 1, 0x4, 1, 0x00000000, some (0x400300FC, 0x0), [⟨15, 0, .wo⟩]⟩]


/-! ## CDE: block base 0x40110000 -/

/-- CDE_CFG. -/
def cdeCfg : Nat := 0x40110000
/-- CDE_CFG.node_id [5:0], RWL. -/
def cdeCfg_node_id : RF := ⟨cdeCfg, 5, 0⟩
/-- CDE_CFG.net [7:6], RWL. -/
def cdeCfg_net : RF := ⟨cdeCfg, 7, 6⟩
/-- CDE_CFG.star_en [8:8], RWL. -/
def cdeCfg_star_en : RF := ⟨cdeCfg, 8, 8⟩
/-- CDE_CFG.anchor [9:9], RWL. -/
def cdeCfg_anchor : RF := ⟨cdeCfg, 9, 9⟩
/-- CDE_CFG.cs_en [10:10], RWL. -/
def cdeCfg_cs_en : RF := ⟨cdeCfg, 10, 10⟩
/-- CDE_CFG.relay_en [11:11], RWL. -/
def cdeCfg_relay_en : RF := ⟨cdeCfg, 11, 11⟩
/-- CDE_CFG.uplink [14:12], RWL. -/
def cdeCfg_uplink : RF := ⟨cdeCfg, 14, 12⟩
/-- CDE_ETYPE. -/
def cdeEtype : Nat := 0x40110004
/-- CDE_ETYPE.etype [15:0], RWL. -/
def cdeEtype_etype : RF := ⟨cdeEtype, 15, 0⟩
/-- CDE_CYCLE. -/
def cdeCycle : Nat := 0x40110008
/-- CDE_CYCLE.bc [15:0], RWL. -/
def cdeCycle_bc : RF := ⟨cdeCycle, 15, 0⟩
/-- CDE_CYCLE.m [22:16], RWL. -/
def cdeCycle_m : RF := ⟨cdeCycle, 22, 16⟩
/-- CDE_GUARD. -/
def cdeGuard : Nat := 0x4011000C
/-- CDE_GUARD.guard [7:0], RWL. -/
def cdeGuard_guard : RF := ⟨cdeGuard, 7, 0⟩
/-- CDE_SYNC. -/
def cdeSync : Nat := 0x40110010
/-- CDE_SYNC.hold [3:0], RWL. -/
def cdeSync_hold : RF := ⟨cdeSync, 3, 0⟩
/-- CDE_SYNC.slew [15:8], RWL. -/
def cdeSync_slew : RF := ⟨cdeSync, 15, 8⟩
/-- CDE_COLD. -/
def cdeCold : Nat := 0x40110014
/-- CDE_COLD.id0 [5:0], RWL. -/
def cdeCold_id0 : RF := ⟨cdeCold, 5, 0⟩
/-- CDE_COLD.id1 [13:8], RWL. -/
def cdeCold_id1 : RF := ⟨cdeCold, 13, 8⟩
/-- CDE_COLD.id2 [21:16], RWL. -/
def cdeCold_id2 : RF := ⟨cdeCold, 21, 16⟩
/-- CDE_COLD.id3 [29:24], RWL. -/
def cdeCold_id3 : RF := ⟨cdeCold, 29, 24⟩
/-- CDE_SYNCN. -/
def cdeSyncn : Nat := 0x40110018
/-- CDE_SYNCN.id0 [5:0], RWL. -/
def cdeSyncn_id0 : RF := ⟨cdeSyncn, 5, 0⟩
/-- CDE_SYNCN.id1 [13:8], RWL. -/
def cdeSyncn_id1 : RF := ⟨cdeSyncn, 13, 8⟩
/-- CDE_SYNCN.id2 [21:16], RWL. -/
def cdeSyncn_id2 : RF := ⟨cdeSyncn, 21, 16⟩
/-- CDE_SYNCN.id3 [29:24], RWL. -/
def cdeSyncn_id3 : RF := ⟨cdeSyncn, 29, 24⟩
/-- CDE_PORTMAP0. -/
def cdePortmap0 : Nat := 0x40110020
/-- CDE_PORTMAP0.node0 [5:0], RWL. -/
def cdePortmap0_node0 : RF := ⟨cdePortmap0, 5, 0⟩
/-- CDE_PORTMAP0.node1 [13:8], RWL. -/
def cdePortmap0_node1 : RF := ⟨cdePortmap0, 13, 8⟩
/-- CDE_PORTMAP0.node2 [21:16], RWL. -/
def cdePortmap0_node2 : RF := ⟨cdePortmap0, 21, 16⟩
/-- CDE_PORTMAP0.node3 [29:24], RWL. -/
def cdePortmap0_node3 : RF := ⟨cdePortmap0, 29, 24⟩
/-- CDE_PORTMAP1. -/
def cdePortmap1 : Nat := 0x40110024
/-- CDE_PORTMAP1.node0 [5:0], RWL. -/
def cdePortmap1_node0 : RF := ⟨cdePortmap1, 5, 0⟩
/-- CDE_PORTMAP1.node1 [13:8], RWL. -/
def cdePortmap1_node1 : RF := ⟨cdePortmap1, 13, 8⟩
/-- CDE_PDLY0. -/
def cdePdly0 : Nat := 0x40110030
/-- CDE_PDLY0.dly_lo [15:0], RWL. -/
def cdePdly0_dly_lo : RF := ⟨cdePdly0, 15, 0⟩
/-- CDE_PDLY0.dly_hi [31:16], RWL. -/
def cdePdly0_dly_hi : RF := ⟨cdePdly0, 31, 16⟩
/-- CDE_PDLY1. -/
def cdePdly1 : Nat := 0x40110034
/-- CDE_PDLY1.dly_lo [15:0], RWL. -/
def cdePdly1_dly_lo : RF := ⟨cdePdly1, 15, 0⟩
/-- CDE_PDLY1.dly_hi [31:16], RWL. -/
def cdePdly1_dly_hi : RF := ⟨cdePdly1, 31, 16⟩
/-- CDE_PDLY2. -/
def cdePdly2 : Nat := 0x40110038
/-- CDE_PDLY2.dly_lo [15:0], RWL. -/
def cdePdly2_dly_lo : RF := ⟨cdePdly2, 15, 0⟩
/-- CDE_PDLY2.dly_hi [31:16], RWL. -/
def cdePdly2_dly_hi : RF := ⟨cdePdly2, 31, 16⟩
/-- CDE_TXLEAD. -/
def cdeTxlead : Nat := 0x4011003C
/-- CDE_TXLEAD.lead [7:0], RWL. -/
def cdeTxlead_lead : RF := ⟨cdeTxlead, 7, 0⟩
/-- CDE_STATE. -/
def cdeState : Nat := 0x40110040
/-- CDE_STATE.node [2:0], RO. -/
def cdeState_node : RF := ⟨cdeState, 2, 0⟩
/-- CDE_STATE.star [5:4], RO. -/
def cdeState_star : RF := ⟨cdeState, 5, 4⟩
/-- CDE_STATE.net_ok [10:8], RO. -/
def cdeState_net_ok : RF := ⟨cdeState, 10, 8⟩
/-- CDE_STATE.iso [22:16], RO. -/
def cdeState_iso : RF := ⟨cdeState, 22, 16⟩
/-- CDE_STAT. -/
def cdeStat : Nat := 0x40110044
/-- CDE_STAT.cfg_err [0:0], W1C. -/
def cdeStat_cfg_err : RF := ⟨cdeStat, 0, 0⟩
/-- CDE_STAT.node_out_of_sync [1:1], W1C. -/
def cdeStat_node_out_of_sync : RF := ⟨cdeStat, 1, 1⟩
/-- CDE_STAT.cs_won [2:2], W1C. -/
def cdeStat_cs_won : RF := ⟨cdeStat, 2, 2⟩
/-- CDE_STAT.cs_lost [3:3], W1C. -/
def cdeStat_cs_lost : RF := ⟨cdeStat, 3, 3⟩
/-- CDE_STAT.reanchor [4:4], W1C. -/
def cdeStat_reanchor : RF := ⟨cdeStat, 4, 4⟩
/-- CDE_STAT.isolate [5:5], W1C. -/
def cdeStat_isolate : RF := ⟨cdeStat, 5, 5⟩
/-- CDE_STAT.arb_lost [6:6], W1C. -/
def cdeStat_arb_lost : RF := ⟨cdeStat, 6, 6⟩
/-- CDE_STAT.arb_repl [7:7], W1C. -/
def cdeStat_arb_repl : RF := ⟨cdeStat, 7, 7⟩
/-- CDE_STAT.arb_drop [8:8], W1C. -/
def cdeStat_arb_drop : RF := ⟨cdeStat, 8, 8⟩
/-- CDE_STAT.rx_mismatch [9:9], W1C. -/
def cdeStat_rx_mismatch : RF := ⟨cdeStat, 9, 9⟩
/-- CDE_STAT.relay_drop [10:10], W1C. -/
def cdeStat_relay_drop : RF := ⟨cdeStat, 10, 10⟩
/-- CDE_STAT.net_lost [11:11], W1C. -/
def cdeStat_net_lost : RF := ⟨cdeStat, 11, 11⟩
/-- CDE_STAT.wake [12:12], W1C. -/
def cdeStat_wake : RF := ⟨cdeStat, 12, 12⟩
/-- CDE_NTOFS_LO. -/
def cdeNtofsLo : Nat := 0x40110048
/-- CDE_NTOFS_LO.ofs [31:0], RO. -/
def cdeNtofsLo_ofs : RF := ⟨cdeNtofsLo, 31, 0⟩
/-- CDE_NTOFS_HI. -/
def cdeNtofsHi : Nat := 0x4011004C
/-- CDE_NTOFS_HI.ofs [31:0], RO. -/
def cdeNtofsHi_ofs : RF := ⟨cdeNtofsHi, 31, 0⟩
/-- CDE_DEV. -/
def cdeDev : Nat := 0x40110050
/-- CDE_DEV.d [31:0], RO. -/
def cdeDev_d : RF := ⟨cdeDev, 31, 0⟩
/-- CDE_CNT. -/
def cdeCnt : Nat := 0x40110054
/-- CDE_CNT.rx_inv [15:0], RO. -/
def cdeCnt_rx_inv : RF := ⟨cdeCnt, 15, 0⟩
/-- CDE_CNT.relay [31:16], RO. -/
def cdeCnt_relay : RF := ⟨cdeCnt, 31, 16⟩
/-- CDE_PCNT. -/
def cdePcnt (k : Nat) : Nat := 0x40110080 + 0x4 * k
/-- CDE_PCNT.early [7:0], RO. -/
def cdePcnt_early (k : Nat) : RF := ⟨cdePcnt k, 7, 0⟩
/-- CDE_PCNT.late [15:8], RO. -/
def cdePcnt_late (k : Nat) : RF := ⟨cdePcnt k, 15, 8⟩
/-- CDE_PCNT.babble [23:16], RO. -/
def cdePcnt_babble (k : Nat) : RF := ⟨cdePcnt k, 23, 16⟩
/-- CDE_PCNT.arb_late [31:24], RO. -/
def cdePcnt_arb_late (k : Nat) : RF := ⟨cdePcnt k, 31, 24⟩
/-- CDE_CMD. -/
def cdeCmd : Nat := 0x401100F4
/-- CDE_CMD.clr_cnt [0:0], WO. -/
def cdeCmd_clr_cnt : RF := ⟨cdeCmd, 0, 0⟩
/-- CDE_LOCK. -/
def cdeLock : Nat := 0x401100FC
/-- CDE_LOCK.key [15:0], WO. -/
def cdeLock_key : RF := ⟨cdeLock, 15, 0⟩
/-- The register table of block CDE. -/
def tableCde : List RegRow := [
  ⟨0x40110000, 0x10000, 1, 0x4, 1, 0x00000100, some (0x401100FC, 0x0), [⟨5, 0, .rwl⟩, ⟨7, 6, .rwl⟩, ⟨8, 8, .rwl⟩, ⟨9, 9, .rwl⟩, ⟨10, 10, .rwl⟩, ⟨11, 11, .rwl⟩, ⟨14, 12, .rwl⟩]⟩,
  ⟨0x40110004, 0x10000, 1, 0x4, 1, 0x000088B5, some (0x401100FC, 0x0), [⟨15, 0, .rwl⟩]⟩,
  ⟨0x40110008, 0x10000, 1, 0x4, 1, 0x000130D4, some (0x401100FC, 0x0), [⟨15, 0, .rwl⟩, ⟨22, 16, .rwl⟩]⟩,
  ⟨0x4011000C, 0x10000, 1, 0x4, 1, 0x00000032, some (0x401100FC, 0x0), [⟨7, 0, .rwl⟩]⟩,
  ⟨0x40110010, 0x10000, 1, 0x4, 1, 0x00000808, some (0x401100FC, 0x0), [⟨3, 0, .rwl⟩, ⟨15, 8, .rwl⟩]⟩,
  ⟨0x40110014, 0x10000, 1, 0x4, 1, 0x00000000, some (0x401100FC, 0x0), [⟨5, 0, .rwl⟩, ⟨13, 8, .rwl⟩, ⟨21, 16, .rwl⟩, ⟨29, 24, .rwl⟩]⟩,
  ⟨0x40110018, 0x10000, 1, 0x4, 1, 0x00000000, some (0x401100FC, 0x0), [⟨5, 0, .rwl⟩, ⟨13, 8, .rwl⟩, ⟨21, 16, .rwl⟩, ⟨29, 24, .rwl⟩]⟩,
  ⟨0x40110020, 0x10000, 1, 0x4, 1, 0x00000000, some (0x401100FC, 0x0), [⟨5, 0, .rwl⟩, ⟨13, 8, .rwl⟩, ⟨21, 16, .rwl⟩, ⟨29, 24, .rwl⟩]⟩,
  ⟨0x40110024, 0x10000, 1, 0x4, 1, 0x00000000, some (0x401100FC, 0x0), [⟨5, 0, .rwl⟩, ⟨13, 8, .rwl⟩]⟩,
  ⟨0x40110030, 0x10000, 1, 0x4, 1, 0x00000000, some (0x401100FC, 0x0), [⟨15, 0, .rwl⟩, ⟨31, 16, .rwl⟩]⟩,
  ⟨0x40110034, 0x10000, 1, 0x4, 1, 0x00000000, some (0x401100FC, 0x0), [⟨15, 0, .rwl⟩, ⟨31, 16, .rwl⟩]⟩,
  ⟨0x40110038, 0x10000, 1, 0x4, 1, 0x00000000, some (0x401100FC, 0x0), [⟨15, 0, .rwl⟩, ⟨31, 16, .rwl⟩]⟩,
  ⟨0x4011003C, 0x10000, 1, 0x4, 1, 0x00000064, some (0x401100FC, 0x0), [⟨7, 0, .rwl⟩]⟩,
  ⟨0x40110040, 0x10000, 1, 0x4, 1, 0x00000700, some (0x401100FC, 0x0), [⟨2, 0, .ro⟩, ⟨5, 4, .ro⟩, ⟨10, 8, .ro⟩, ⟨22, 16, .ro⟩]⟩,
  ⟨0x40110044, 0x10000, 1, 0x4, 1, 0x00000000, some (0x401100FC, 0x0), [⟨0, 0, .w1c⟩, ⟨1, 1, .w1c⟩, ⟨2, 2, .w1c⟩, ⟨3, 3, .w1c⟩, ⟨4, 4, .w1c⟩, ⟨5, 5, .w1c⟩, ⟨6, 6, .w1c⟩, ⟨7, 7, .w1c⟩, ⟨8, 8, .w1c⟩, ⟨9, 9, .w1c⟩, ⟨10, 10, .w1c⟩, ⟨11, 11, .w1c⟩, ⟨12, 12, .w1c⟩]⟩,
  ⟨0x40110048, 0x10000, 1, 0x4, 1, 0x00000000, some (0x401100FC, 0x0), [⟨31, 0, .ro⟩]⟩,
  ⟨0x4011004C, 0x10000, 1, 0x4, 1, 0x00000000, some (0x401100FC, 0x0), [⟨31, 0, .ro⟩]⟩,
  ⟨0x40110050, 0x10000, 1, 0x4, 1, 0x00000000, some (0x401100FC, 0x0), [⟨31, 0, .ro⟩]⟩,
  ⟨0x40110054, 0x10000, 1, 0x4, 1, 0x00000000, some (0x401100FC, 0x0), [⟨15, 0, .ro⟩, ⟨31, 16, .ro⟩]⟩,
  ⟨0x40110080, 0x4, 7, 0x4, 1, 0x00000000, some (0x401100FC, 0x0), [⟨7, 0, .ro⟩, ⟨15, 8, .ro⟩, ⟨23, 16, .ro⟩, ⟨31, 24, .ro⟩]⟩,
  ⟨0x401100F4, 0x10000, 1, 0x4, 1, 0x00000000, some (0x401100FC, 0x0), [⟨0, 0, .wo⟩]⟩,
  ⟨0x401100FC, 0x10000, 1, 0x4, 1, 0x00000000, some (0x401100FC, 0x0), [⟨15, 0, .wo⟩]⟩]


/-! ## TETHER: block base 0x40120000 -/

/-- TETHER_CFG. -/
def tetherCfg : Nat := 0x40120000
/-- TETHER_CFG.pair_en [0:0], RWL. -/
def tetherCfg_pair_en : RF := ⟨tetherCfg, 0, 0⟩
/-- TETHER_CFG.mod [2:1], RWL. -/
def tetherCfg_mod : RF := ⟨tetherCfg, 2, 1⟩
/-- TETHER_CFG.failback_en [3:3], RWL. -/
def tetherCfg_failback_en : RF := ⟨tetherCfg, 3, 3⟩
/-- TETHER_CFG.axes [7:4], RWL. -/
def tetherCfg_axes : RF := ⟨tetherCfg, 7, 4⟩
/-- TETHER_CFG.yield_lanes [10:8], RWL. -/
def tetherCfg_yield_lanes : RF := ⟨tetherCfg, 10, 8⟩
/-- TETHER_CFG.exp [13:11], RWL. -/
def tetherCfg_exp : RF := ⟨tetherCfg, 13, 11⟩
/-- TETHER_HSRC. -/
def tetherHsrc : Nat := 0x40120004
/-- TETHER_HSRC.id [17:0], RWL. -/
def tetherHsrc_id : RF := ⟨tetherHsrc, 17, 0⟩
/-- TETHER_VSRC. -/
def tetherVsrc : Nat := 0x40120008
/-- TETHER_VSRC.id [17:0], RWL. -/
def tetherVsrc_id : RF := ⟨tetherVsrc, 17, 0⟩
/-- TETHER_VSRC.entry [28:20], RWL. -/
def tetherVsrc_entry : RF := ⟨tetherVsrc, 28, 20⟩
/-- TETHER_QUIET0. -/
def tetherQuiet0 : Nat := 0x4012000C
/-- TETHER_QUIET0.coh [15:0], RWL. -/
def tetherQuiet0_coh : RF := ⟨tetherQuiet0, 15, 0⟩
/-- TETHER_QUIET0.win [23:16], RWL. -/
def tetherQuiet0_win : RF := ⟨tetherQuiet0, 23, 16⟩
/-- TETHER_QUIET1. -/
def tetherQuiet1 : Nat := 0x40120010
/-- TETHER_QUIET1.acc [31:0], RWL. -/
def tetherQuiet1_acc : RF := ⟨tetherQuiet1, 31, 0⟩
/-- TETHER_LINK. -/
def tetherLink : Nat := 0x40120014
/-- TETHER_LINK.err_lim [7:0], RWL. -/
def tetherLink_err_lim : RF := ⟨tetherLink, 7, 0⟩
/-- TETHER_LINK.up_n [15:8], RWL. -/
def tetherLink_up_n : RF := ⟨tetherLink, 15, 8⟩
/-- TETHER_STATE. -/
def tetherState : Nat := 0x40120040
/-- TETHER_STATE.pstate [2:0], RO. -/
def tetherState_pstate : RF := ⟨tetherState, 2, 0⟩
/-- TETHER_STATE.vvalid [3:3], RO. -/
def tetherState_vvalid : RF := ⟨tetherState, 3, 3⟩
/-- TETHER_STATE.v_active [7:4], RO. -/
def tetherState_v_active : RF := ⟨tetherState, 7, 4⟩
/-- TETHER_STATE.v_incoming [11:8], RO. -/
def tetherState_v_incoming : RF := ⟨tetherState, 11, 8⟩
/-- TETHER_STATE.v_inhibit [12:12], RO. -/
def tetherState_v_inhibit : RF := ⟨tetherState, 12, 12⟩
/-- TETHER_STATE.link_up [13:13], RO. -/
def tetherState_link_up : RF := ⟨tetherState, 13, 13⟩
/-- TETHER_STATE.own_auth [14:14], RO. -/
def tetherState_own_auth : RF := ⟨tetherState, 14, 14⟩
/-- TETHER_STATE.partner [18:16], RO. -/
def tetherState_partner : RF := ⟨tetherState, 18, 16⟩
/-- TETHER_STATE.k [24:20], RO. -/
def tetherState_k : RF := ⟨tetherState, 24, 20⟩
/-- TETHER_STATE.exp_left [30:28], RO. -/
def tetherState_exp_left : RF := ⟨tetherState, 30, 28⟩
/-- TETHER_STAT. -/
def tetherStat : Nat := 0x40120044
/-- TETHER_STAT.link_down [0:0], W1C. -/
def tetherStat_link_down : RF := ⟨tetherStat, 0, 0⟩
/-- TETHER_STAT.crc_evt [1:1], W1C. -/
def tetherStat_crc_evt : RF := ⟨tetherStat, 1, 1⟩
/-- TETHER_STAT.rec_miss [2:2], W1C. -/
def tetherStat_rec_miss : RF := ⟨tetherStat, 2, 2⟩
/-- TETHER_STAT.coh_lost [3:3], W1C. -/
def tetherStat_coh_lost : RF := ⟨tetherStat, 3, 3⟩
/-- TETHER_STAT.takeover [4:4], W1C. -/
def tetherStat_takeover : RF := ⟨tetherStat, 4, 4⟩
/-- TETHER_STAT.handover_done [5:5], W1C. -/
def tetherStat_handover_done : RF := ⟨tetherStat, 5, 5⟩
/-- TETHER_STAT.handover_abort [6:6], W1C. -/
def tetherStat_handover_abort : RF := ⟨tetherStat, 6, 6⟩
/-- TETHER_STAT.yield_evt [7:7], W1C. -/
def tetherStat_yield_evt : RF := ⟨tetherStat, 7, 7⟩
/-- TETHER_STAT.conflict_stop [8:8], W1C. -/
def tetherStat_conflict_stop : RF := ⟨tetherStat, 8, 8⟩
/-- TETHER_STAT.expired [9:9], W1C. -/
def tetherStat_expired : RF := ⟨tetherStat, 9, 9⟩
/-- TETHER_STAT.cfg_mismatch [10:10], W1C. -/
def tetherStat_cfg_mismatch : RF := ⟨tetherStat, 10, 10⟩
/-- TETHER_STAT.seq_stale [11:11], W1C. -/
def tetherStat_seq_stale : RF := ⟨tetherStat, 11, 11⟩
/-- TETHER_STAT.takeback_evt [12:12], W1C. -/
def tetherStat_takeback_evt : RF := ⟨tetherStat, 12, 12⟩
/-- TETHER_COH. -/
def tetherCoh : Nat := 0x40120048
/-- TETHER_COH.count [15:0], RO. -/
def tetherCoh_count : RF := ⟨tetherCoh, 15, 0⟩
/-- TETHER_SHARE. -/
def tetherShare : Nat := 0x4012004C
/-- TETHER_SHARE.s [31:0], RO. -/
def tetherShare_s : RF := ⟨tetherShare, 31, 0⟩
/-- TETHER_POFS_LO. -/
def tetherPofsLo : Nat := 0x40120050
/-- TETHER_POFS_LO.d [31:0], RO. -/
def tetherPofsLo_d : RF := ⟨tetherPofsLo, 31, 0⟩
/-- TETHER_POFS_HI. -/
def tetherPofsHi : Nat := 0x40120054
/-- TETHER_POFS_HI.d [31:0], RO. -/
def tetherPofsHi_d : RF := ⟨tetherPofsHi, 31, 0⟩
/-- TETHER_CNT. -/
def tetherCnt : Nat := 0x40120060
/-- TETHER_CNT.crc [15:0], RO. -/
def tetherCnt_crc : RF := ⟨tetherCnt, 15, 0⟩
/-- TETHER_CNT.xfer [31:16], RO. -/
def tetherCnt_xfer : RF := ⟨tetherCnt, 31, 16⟩
/-- TETHER_CMD. -/
def tetherCmd : Nat := 0x40120064
/-- TETHER_CMD.clr_cnt [0:0], WO. -/
def tetherCmd_clr_cnt : RF := ⟨tetherCmd, 0, 0⟩
/-- TETHER_LOCK. -/
def tetherLock : Nat := 0x401200FC
/-- TETHER_LOCK.key [15:0], WO. -/
def tetherLock_key : RF := ⟨tetherLock, 15, 0⟩
/-- The register table of block TETHER. -/
def tableTether : List RegRow := [
  ⟨0x40120000, 0x10000, 1, 0x4, 1, 0x000019FA, some (0x401200FC, 0x0), [⟨0, 0, .rwl⟩, ⟨2, 1, .rwl⟩, ⟨3, 3, .rwl⟩, ⟨7, 4, .rwl⟩, ⟨10, 8, .rwl⟩, ⟨13, 11, .rwl⟩]⟩,
  ⟨0x40120004, 0x10000, 1, 0x4, 1, 0x00000000, some (0x401200FC, 0x0), [⟨17, 0, .rwl⟩]⟩,
  ⟨0x40120008, 0x10000, 1, 0x4, 1, 0x00000000, some (0x401200FC, 0x0), [⟨17, 0, .rwl⟩, ⟨28, 20, .rwl⟩]⟩,
  ⟨0x4012000C, 0x10000, 1, 0x4, 1, 0x00280190, some (0x401200FC, 0x0), [⟨15, 0, .rwl⟩, ⟨23, 16, .rwl⟩]⟩,
  ⟨0x40120010, 0x10000, 1, 0x4, 1, 0x00000100, some (0x401200FC, 0x0), [⟨31, 0, .rwl⟩]⟩,
  ⟨0x40120014, 0x10000, 1, 0x4, 1, 0x00004008, some (0x401200FC, 0x0), [⟨7, 0, .rwl⟩, ⟨15, 8, .rwl⟩]⟩,
  ⟨0x40120040, 0x10000, 1, 0x4, 1, 0x00070000, some (0x401200FC, 0x0), [⟨2, 0, .ro⟩, ⟨3, 3, .ro⟩, ⟨7, 4, .ro⟩, ⟨11, 8, .ro⟩, ⟨12, 12, .ro⟩, ⟨13, 13, .ro⟩, ⟨14, 14, .ro⟩, ⟨18, 16, .ro⟩, ⟨24, 20, .ro⟩, ⟨30, 28, .ro⟩]⟩,
  ⟨0x40120044, 0x10000, 1, 0x4, 1, 0x00000000, some (0x401200FC, 0x0), [⟨0, 0, .w1c⟩, ⟨1, 1, .w1c⟩, ⟨2, 2, .w1c⟩, ⟨3, 3, .w1c⟩, ⟨4, 4, .w1c⟩, ⟨5, 5, .w1c⟩, ⟨6, 6, .w1c⟩, ⟨7, 7, .w1c⟩, ⟨8, 8, .w1c⟩, ⟨9, 9, .w1c⟩, ⟨10, 10, .w1c⟩, ⟨11, 11, .w1c⟩, ⟨12, 12, .w1c⟩]⟩,
  ⟨0x40120048, 0x10000, 1, 0x4, 1, 0x00000000, some (0x401200FC, 0x0), [⟨15, 0, .ro⟩]⟩,
  ⟨0x4012004C, 0x10000, 1, 0x4, 1, 0x40000000, some (0x401200FC, 0x0), [⟨31, 0, .ro⟩]⟩,
  ⟨0x40120050, 0x10000, 1, 0x4, 1, 0x00000000, some (0x401200FC, 0x0), [⟨31, 0, .ro⟩]⟩,
  ⟨0x40120054, 0x10000, 1, 0x4, 1, 0x00000000, some (0x401200FC, 0x0), [⟨31, 0, .ro⟩]⟩,
  ⟨0x40120060, 0x10000, 1, 0x4, 1, 0x00000000, some (0x401200FC, 0x0), [⟨15, 0, .ro⟩, ⟨31, 16, .ro⟩]⟩,
  ⟨0x40120064, 0x10000, 1, 0x4, 1, 0x00000000, some (0x401200FC, 0x0), [⟨0, 0, .wo⟩]⟩,
  ⟨0x401200FC, 0x10000, 1, 0x4, 1, 0x00000000, some (0x401200FC, 0x0), [⟨15, 0, .wo⟩]⟩]


/-! ## SIU: block base 0x40130000 -/

/-- SIU_TP. -/
def siuTp : Nat := 0x40130000
/-- SIU_TP.period [6:0], RWL. -/
def siuTp_period : RF := ⟨siuTp, 6, 0⟩
/-- SIU_TP.width [12:8], RWL. -/
def siuTp_width : RF := ⟨siuTp, 12, 8⟩
/-- SIU_TP.en [19:16], RWL. -/
def siuTp_en : RF := ⟨siuTp, 19, 16⟩
/-- SIU_FILT. -/
def siuFilt : Nat := 0x40130004
/-- SIU_FILT.t_filt [4:0], RWL. -/
def siuFilt_t_filt : RF := ⟨siuFilt, 4, 0⟩
/-- SIU_FILT.ossd_tol [12:8], RWL. -/
def siuFilt_ossd_tol : RF := ⟨siuFilt, 12, 8⟩
/-- SIU_FILT.t_sim [21:16], RWL. -/
def siuFilt_t_sim : RF := ⟨siuFilt, 21, 16⟩
/-- SIU_PAIR. -/
def siuPair (k : Nat) : Nat := 0x40130010 + 0x4 * k
/-- SIU_PAIR.src_a [2:0], RWL. -/
def siuPair_src_a (k : Nat) : RF := ⟨siuPair k, 2, 0⟩
/-- SIU_PAIR.src_b [6:4], RWL. -/
def siuPair_src_b (k : Nat) : RF := ⟨siuPair k, 6, 4⟩
/-- SIU_FN. -/
def siuFn (f : Nat) : Nat := 0x40130040 + 0x4 * f
/-- SIU_FN.type [2:0], RWL. -/
def siuFn_type (f : Nat) : RF := ⟨siuFn f, 2, 0⟩
/-- SIU_FN.owner [5:4], RWL. -/
def siuFn_owner (f : Nat) : RF := ⟨siuFn f, 5, 4⟩
/-- SIU_FN.pair [10:8], RWL. -/
def siuFn_pair (f : Nat) : RF := ⟨siuFn f, 10, 8⟩
/-- SIU_FN.rst [12:12], RWL. -/
def siuFn_rst (f : Nat) : RF := ⟨siuFn f, 12, 12⟩
/-- SIU_FN.disc [21:16], RWL. -/
def siuFn_disc (f : Nat) : RF := ⟨siuFn f, 21, 16⟩
/-- SIU_FN.wake [24:24], RWL. -/
def siuFn_wake (f : Nat) : RF := ⟨siuFn f, 24, 24⟩
/-- SIU_CFG_CRC. -/
def siuCfgCrc : Nat := 0x40130080
/-- SIU_CFG_CRC.crc [31:0], RO. -/
def siuCfgCrc_crc : RF := ⟨siuCfgCrc, 31, 0⟩
/-- SIU_STATE. -/
def siuState : Nat := 0x40130084
/-- SIU_STATE.ch [15:0], RO. -/
def siuState_ch : RF := ⟨siuState, 15, 0⟩
/-- SIU_STATE.owned [23:16], RO. -/
def siuState_owned : RF := ⟨siuState, 23, 16⟩
/-- SIU_STATE.locked [24:24], RO. -/
def siuState_locked : RF := ⟨siuState, 24, 24⟩
/-- SIU_RES. -/
def siuRes : Nat := 0x40130088
/-- SIU_RES.permit [7:0], RO. -/
def siuRes_permit : RF := ⟨siuRes, 7, 0⟩
/-- SIU_RES.safe_forced [15:8], RO. -/
def siuRes_safe_forced : RF := ⟨siuRes, 15, 8⟩
/-- SIU_STAT. -/
def siuStat : Nat := 0x4013008C
/-- SIU_STAT.cfg_err [16:16], W1C. -/
def siuStat_cfg_err : RF := ⟨siuStat, 16, 16⟩
/-- SIU_STAT.clr_refused [17:17], W1C. -/
def siuStat_clr_refused : RF := ⟨siuStat, 17, 17⟩
/-- SIU_STAT.cmd_refused [18:18], W1C. -/
def siuStat_cmd_refused : RF := ⟨siuStat, 18, 18⟩
/-- SIU_STAT.rec_miss [19:19], W1C. -/
def siuStat_rec_miss : RF := ⟨siuStat, 19, 19⟩
/-- SIU_STAT.cfg_mismatch [20:20], W1C. -/
def siuStat_cfg_mismatch : RF := ⟨siuStat, 20, 20⟩
/-- SIU_STAT.tp_fail [27:24], W1C. -/
def siuStat_tp_fail : RF := ⟨siuStat, 27, 24⟩
/-- SIU_CMD. -/
def siuCmd : Nat := 0x40130090
/-- SIU_CMD.reset [7:0], WO. -/
def siuCmd_reset : RF := ⟨siuCmd, 7, 0⟩
/-- SIU_CMD.clr_cnt [8:8], WO. -/
def siuCmd_clr_cnt : RF := ⟨siuCmd, 8, 8⟩
/-- SIU_CNT. -/
def siuCnt : Nat := 0x40130094
/-- SIU_CNT.demand [15:0], RO. -/
def siuCnt_demand : RF := ⟨siuCnt, 15, 0⟩
/-- SIU_CNT.fault [31:16], RO. -/
def siuCnt_fault : RF := ⟨siuCnt, 31, 16⟩
/-- SIU_FST. -/
def siuFst (f : Nat) : Nat := 0x401300C0 + 0x4 * f
/-- SIU_FST.own_miss [0:0], W1C. -/
def siuFst_own_miss (f : Nat) : RF := ⟨siuFst f, 0, 0⟩
/-- SIU_FST.foreign_seen [1:1], W1C. -/
def siuFst_foreign_seen (f : Nat) : RF := ⟨siuFst f, 1, 1⟩
/-- SIU_FST.disc [2:2], W1C. -/
def siuFst_disc (f : Nat) : RF := ⟨siuFst f, 2, 2⟩
/-- SIU_FST.tp_fail [3:3], W1C. -/
def siuFst_tp_fail (f : Nat) : RF := ⟨siuFst f, 3, 3⟩
/-- SIU_FST.sim_late [4:4], W1C. -/
def siuFst_sim_late (f : Nat) : RF := ⟨siuFst f, 4, 4⟩
/-- SIU_FST.reset_refused [5:5], W1C. -/
def siuFst_reset_refused (f : Nat) : RF := ⟨siuFst f, 5, 5⟩
/-- SIU_LOCK. -/
def siuLock : Nat := 0x401300FC
/-- SIU_LOCK.key [15:0], WO. -/
def siuLock_key : RF := ⟨siuLock, 15, 0⟩
/-- The register table of block SIU. -/
def tableSiu : List RegRow := [
  ⟨0x40130000, 0x10000, 1, 0x4, 1, 0x00000214, some (0x401300FC, 0x0), [⟨6, 0, .rwl⟩, ⟨12, 8, .rwl⟩, ⟨19, 16, .rwl⟩]⟩,
  ⟨0x40130004, 0x10000, 1, 0x4, 1, 0x00320A0A, some (0x401300FC, 0x0), [⟨4, 0, .rwl⟩, ⟨12, 8, .rwl⟩, ⟨21, 16, .rwl⟩]⟩,
  ⟨0x40130010, 0x4, 8, 0x4, 1, 0x00000077, some (0x401300FC, 0x0), [⟨2, 0, .rwl⟩, ⟨6, 4, .rwl⟩]⟩,
  ⟨0x40130040, 0x4, 8, 0x4, 1, 0x00000000, some (0x401300FC, 0x0), [⟨2, 0, .rwl⟩, ⟨5, 4, .rwl⟩, ⟨10, 8, .rwl⟩, ⟨12, 12, .rwl⟩, ⟨21, 16, .rwl⟩, ⟨24, 24, .rwl⟩]⟩,
  ⟨0x40130080, 0x10000, 1, 0x4, 1, 0x00000000, some (0x401300FC, 0x0), [⟨31, 0, .ro⟩]⟩,
  ⟨0x40130084, 0x10000, 1, 0x4, 1, 0x00000000, some (0x401300FC, 0x0), [⟨15, 0, .ro⟩, ⟨23, 16, .ro⟩, ⟨24, 24, .ro⟩]⟩,
  ⟨0x40130088, 0x10000, 1, 0x4, 1, 0x0000FF00, some (0x401300FC, 0x0), [⟨7, 0, .ro⟩, ⟨15, 8, .ro⟩]⟩,
  ⟨0x4013008C, 0x10000, 1, 0x4, 1, 0x00000000, some (0x401300FC, 0x0), [⟨16, 16, .w1c⟩, ⟨17, 17, .w1c⟩, ⟨18, 18, .w1c⟩, ⟨19, 19, .w1c⟩, ⟨20, 20, .w1c⟩, ⟨27, 24, .w1c⟩]⟩,
  ⟨0x40130090, 0x10000, 1, 0x4, 1, 0x00000000, some (0x401300FC, 0x0), [⟨7, 0, .wo⟩, ⟨8, 8, .wo⟩]⟩,
  ⟨0x40130094, 0x10000, 1, 0x4, 1, 0x00000000, some (0x401300FC, 0x0), [⟨15, 0, .ro⟩, ⟨31, 16, .ro⟩]⟩,
  ⟨0x401300C0, 0x4, 8, 0x4, 1, 0x00000000, some (0x401300FC, 0x0), [⟨0, 0, .w1c⟩, ⟨1, 1, .w1c⟩, ⟨2, 2, .w1c⟩, ⟨3, 3, .w1c⟩, ⟨4, 4, .w1c⟩, ⟨5, 5, .w1c⟩]⟩,
  ⟨0x401300FC, 0x10000, 1, 0x4, 1, 0x00000000, some (0x401300FC, 0x0), [⟨15, 0, .wo⟩]⟩]


/-! ## PWR: block base 0x40140000 -/

/-- PWR_SUP. -/
def pwrSup : Nat := 0x40140000
/-- PWR_SUP.uv [7:0], RWL. -/
def pwrSup_uv : RF := ⟨pwrSup, 7, 0⟩
/-- PWR_SUP.ov [15:8], RWL. -/
def pwrSup_ov : RF := ⟨pwrSup, 15, 8⟩
/-- PWR_SUP.ret [23:16], RWL. -/
def pwrSup_ret : RF := ⟨pwrSup, 23, 16⟩
/-- PWR_SUP_STAT. -/
def pwrSupStat : Nat := 0x40140004
/-- PWR_SUP_STAT.sel [1:0], RO. -/
def pwrSupStat_sel : RF := ⟨pwrSupStat, 1, 0⟩
/-- PWR_SUP_STAT.main_ok [2:2], RO. -/
def pwrSupStat_main_ok : RF := ⟨pwrSupStat, 2, 2⟩
/-- PWR_SUP_STAT.back_ok [3:3], RO. -/
def pwrSupStat_back_ok : RF := ⟨pwrSupStat, 3, 3⟩
/-- PWR_SUP_STAT.pgood [4:4], RO. -/
def pwrSupStat_pgood : RF := ⟨pwrSupStat, 4, 4⟩
/-- PWR_PMIC. -/
def pwrPmic : Nat := 0x40140010
/-- PWR_PMIC.clk [1:0], RWL. -/
def pwrPmic_clk : RF := ⟨pwrPmic, 1, 0⟩
/-- PWR_PMIC.poll [15:8], RWL. -/
def pwrPmic_poll : RF := ⟨pwrPmic, 15, 8⟩
/-- PWR_PMIC_REQ. -/
def pwrPmicReq : Nat := 0x40140014
/-- PWR_PMIC_REQ.reg [3:0], WO. -/
def pwrPmicReq_reg : RF := ⟨pwrPmicReq, 3, 0⟩
/-- PWR_PMIC_REQ.type [5:4], WO. -/
def pwrPmicReq_type : RF := ⟨pwrPmicReq, 5, 4⟩
/-- PWR_PMIC_REQ.data [31:16], WO. -/
def pwrPmicReq_data : RF := ⟨pwrPmicReq, 31, 16⟩
/-- PWR_PMIC_RSP. -/
def pwrPmicRsp : Nat := 0x40140018
/-- PWR_PMIC_RSP.data [15:0], RO. -/
def pwrPmicRsp_data : RF := ⟨pwrPmicRsp, 15, 0⟩
/-- PWR_PMIC_RSP.status [17:16], RO. -/
def pwrPmicRsp_status : RF := ⟨pwrPmicRsp, 17, 16⟩
/-- PWR_PMIC_RSP.retries [19:18], RO. -/
def pwrPmicRsp_retries : RF := ⟨pwrPmicRsp, 19, 18⟩
/-- PWR_AVS. -/
def pwrAvs : Nat := 0x40140020
/-- PWR_AVS.en [0:0], RWL. -/
def pwrAvs_en : RF := ⟨pwrAvs, 0, 0⟩
/-- PWR_AVS.per [7:4], RWL. -/
def pwrAvs_per : RF := ⟨pwrAvs, 7, 4⟩
/-- PWR_AVS.lo [15:8], RWL. -/
def pwrAvs_lo : RF := ⟨pwrAvs, 15, 8⟩
/-- PWR_AVS.hi [23:16], RWL. -/
def pwrAvs_hi : RF := ⟨pwrAvs, 23, 16⟩
/-- PWR_AVS.emg [31:24], RWL. -/
def pwrAvs_emg : RF := ⟨pwrAvs, 31, 24⟩
/-- PWR_AVS_STAT. -/
def pwrAvsStat : Nat := 0x40140024
/-- PWR_AVS_STAT.code [5:0], RO. -/
def pwrAvsStat_code : RF := ⟨pwrAvsStat, 5, 0⟩
/-- PWR_AVS_STAT.grp [10:8], RO. -/
def pwrAvsStat_grp : RF := ⟨pwrAvsStat, 10, 8⟩
/-- PWR_AVS_STAT.m [31:16], RO. -/
def pwrAvsStat_m : RF := ⟨pwrAvsStat, 31, 16⟩
/-- PWR_STATE. -/
def pwrState : Nat := 0x40140030
/-- PWR_STATE.state [1:0], RO. -/
def pwrState_state : RF := ⟨pwrState, 1, 0⟩
/-- PWR_STATE.pwr [27:16], RO. -/
def pwrState_pwr : RF := ⟨pwrState, 27, 16⟩
/-- PWR_GATE. -/
def pwrGate : Nat := 0x40140034
/-- PWR_GATE.req [11:0], RW. -/
def pwrGate_req : RF := ⟨pwrGate, 11, 0⟩
/-- PWR_DL_0. -/
def pwrDl0 : Nat := 0x40140038
/-- PWR_DL_0.dom [3:0], RW. -/
def pwrDl0_dom : RF := ⟨pwrDl0, 3, 0⟩
/-- PWR_DL_0.en [4:4], RW. -/
def pwrDl0_en : RF := ⟨pwrDl0, 4, 4⟩
/-- PWR_DL_0.at [15:8], RW. -/
def pwrDl0_at : RF := ⟨pwrDl0, 15, 8⟩
/-- PWR_DL_1. -/
def pwrDl1 : Nat := 0x4014003C
/-- PWR_DL_1.dom [3:0], RW. -/
def pwrDl1_dom : RF := ⟨pwrDl1, 3, 0⟩
/-- PWR_DL_1.en [4:4], RW. -/
def pwrDl1_en : RF := ⟨pwrDl1, 4, 4⟩
/-- PWR_DL_1.at [15:8], RW. -/
def pwrDl1_at : RF := ⟨pwrDl1, 15, 8⟩
/-- PWR_AVS_TGT. -/
def pwrAvsTgt (g : Nat) : Nat := 0x40140040 + 0x4 * g
/-- PWR_AVS_TGT.tgt [23:0], RO. -/
def pwrAvsTgt_tgt (g : Nat) : RF := ⟨pwrAvsTgt g, 23, 0⟩
/-- PWR_WAKE_EN. -/
def pwrWakeEn : Nat := 0x40140060
/-- PWR_WAKE_EN.en [4:0], RW. -/
def pwrWakeEn_en : RF := ⟨pwrWakeEn, 4, 0⟩
/-- PWR_WAKE_SRC. -/
def pwrWakeSrc : Nat := 0x40140064
/-- PWR_WAKE_SRC.src [4:0], W1C. -/
def pwrWakeSrc_src : RF := ⟨pwrWakeSrc, 4, 0⟩
/-- PWR_SLEEP. -/
def pwrSleep : Nat := 0x40140068
/-- PWR_SLEEP.armed [0:0], RO. -/
def pwrSleep_armed : RF := ⟨pwrSleep, 0, 0⟩
/-- PWR_SLEEP.code [3:1], RO. -/
def pwrSleep_code : RF := ⟨pwrSleep, 3, 1⟩
/-- PWR_SLEEP.cnt [31:16], RO. -/
def pwrSleep_cnt : RF := ⟨pwrSleep, 31, 16⟩
/-- PWR_SLEEP_SRC. -/
def pwrSleepSrc : Nat := 0x4014006C
/-- PWR_SLEEP_SRC.id [17:0], RWL. -/
def pwrSleepSrc_id : RF := ⟨pwrSleepSrc, 17, 0⟩
/-- PWR_SLEEP_SRC.entry [28:20], RWL. -/
def pwrSleepSrc_entry : RF := ⟨pwrSleepSrc, 28, 20⟩
/-- PWR_BUD0. -/
def pwrBud0 : Nat := 0x40140070
/-- PWR_BUD0.v_min [7:0], RWL. -/
def pwrBud0_v_min : RF := ⟨pwrBud0, 7, 0⟩
/-- PWR_BUD0.v_surv [15:8], RWL. -/
def pwrBud0_v_surv : RF := ⟨pwrBud0, 15, 8⟩
/-- PWR_BUD0.hold [23:16], RWL. -/
def pwrBud0_hold : RF := ⟨pwrBud0, 23, 16⟩
/-- PWR_BUD1. -/
def pwrBud1 : Nat := 0x40140074
/-- PWR_BUD1.i_red [7:0], RWL. -/
def pwrBud1_i_red : RF := ⟨pwrBud1, 7, 0⟩
/-- PWR_BUD1.i_min [15:8], RWL. -/
def pwrBud1_i_min : RF := ⟨pwrBud1, 15, 8⟩
/-- PWR_BUD1.i_surv [23:16], RWL. -/
def pwrBud1_i_surv : RF := ⟨pwrBud1, 23, 16⟩
/-- PWR_BUD2. -/
def pwrBud2 : Nat := 0x40140078
/-- PWR_BUD2.t_red [7:0], RWL. -/
def pwrBud2_t_red : RF := ⟨pwrBud2, 7, 0⟩
/-- PWR_BUD2.t_min [15:8], RWL. -/
def pwrBud2_t_min : RF := ⟨pwrBud2, 15, 8⟩
/-- PWR_BUD2.t_surv [23:16], RWL. -/
def pwrBud2_t_surv : RF := ⟨pwrBud2, 23, 16⟩
/-- PWR_BUD2.ntc [31:24], RWL. -/
def pwrBud2_ntc : RF := ⟨pwrBud2, 31, 24⟩
/-- PWR_BUD_STAT. -/
def pwrBudStat : Nat := 0x4014007C
/-- PWR_BUD_STAT.level [1:0], RO. -/
def pwrBudStat_level : RF := ⟨pwrBudStat, 1, 0⟩
/-- PWR_BUD_STAT.sup [3:2], RO. -/
def pwrBudStat_sup : RF := ⟨pwrBudStat, 3, 2⟩
/-- PWR_BUD_STAT.cur [5:4], RO. -/
def pwrBudStat_cur : RF := ⟨pwrBudStat, 5, 4⟩
/-- PWR_BUD_STAT.temp [7:6], RO. -/
def pwrBudStat_temp : RF := ⟨pwrBudStat, 7, 6⟩
/-- PWR_BUD_STAT.iin [15:8], RO. -/
def pwrBudStat_iin : RF := ⟨pwrBudStat, 15, 8⟩
/-- PWR_BUD_STAT.tmax [23:16], RO. -/
def pwrBudStat_tmax : RF := ⟨pwrBudStat, 23, 16⟩
/-- PWR_STAT. -/
def pwrStat : Nat := 0x40140080
/-- PWR_STAT.sleep_aborted [0:0], W1C. -/
def pwrStat_sleep_aborted : RF := ⟨pwrStat, 0, 0⟩
/-- PWR_STAT.wake_fail [1:1], W1C. -/
def pwrStat_wake_fail : RF := ⟨pwrStat, 1, 1⟩
/-- PWR_STAT.pmic_fail [2:2], W1C. -/
def pwrStat_pmic_fail : RF := ⟨pwrStat, 2, 2⟩
/-- PWR_STAT.pmic_retry [3:3], W1C. -/
def pwrStat_pmic_retry : RF := ⟨pwrStat, 3, 3⟩
/-- PWR_STAT.pgood_drop [4:4], W1C. -/
def pwrStat_pgood_drop : RF := ⟨pwrStat, 4, 4⟩
/-- PWR_STAT.sw_over [5:5], W1C. -/
def pwrStat_sw_over : RF := ⟨pwrStat, 5, 5⟩
/-- PWR_STAT.hold_up [6:6], W1C. -/
def pwrStat_hold_up : RF := ⟨pwrStat, 6, 6⟩
/-- PWR_STAT.gate_refused [7:7], W1C. -/
def pwrStat_gate_refused : RF := ⟨pwrStat, 7, 7⟩
/-- PWR_STAT.avs_stale [8:8], W1C. -/
def pwrStat_avs_stale : RF := ⟨pwrStat, 8, 8⟩
/-- PWR_STAT.avs_lim [9:9], W1C. -/
def pwrStat_avs_lim : RF := ⟨pwrStat, 9, 9⟩
/-- PWR_STAT.ret_crc [10:10], W1C. -/
def pwrStat_ret_crc : RF := ⟨pwrStat, 10, 10⟩
/-- PWR_STAT.pmic_busy [11:11], W1C. -/
def pwrStat_pmic_busy : RF := ⟨pwrStat, 11, 11⟩
/-- PWR_STAT.sleep_refused [12:12], W1C. -/
def pwrStat_sleep_refused : RF := ⟨pwrStat, 12, 12⟩
/-- PWR_STAT.dl_late [13:13], W1C. -/
def pwrStat_dl_late : RF := ⟨pwrStat, 13, 13⟩
/-- PWR_STAT.cfg_err [14:14], W1C. -/
def pwrStat_cfg_err : RF := ⟨pwrStat, 14, 14⟩
/-- PWR_CNT. -/
def pwrCnt : Nat := 0x40140084
/-- PWR_CNT.swo [15:0], RO. -/
def pwrCnt_swo : RF := ⟨pwrCnt, 15, 0⟩
/-- PWR_CNT.retry [31:16], RO. -/
def pwrCnt_retry : RF := ⟨pwrCnt, 31, 16⟩
/-- PWR_CMD. -/
def pwrCmd : Nat := 0x40140088
/-- PWR_CMD.restore [0:0], WO. -/
def pwrCmd_restore : RF := ⟨pwrCmd, 0, 0⟩
/-- PWR_CMD.clr_cnt [1:1], WO. -/
def pwrCmd_clr_cnt : RF := ⟨pwrCmd, 1, 1⟩
/-- PWR_CMD.svc_irq [2:2], WO. -/
def pwrCmd_svc_irq : RF := ⟨pwrCmd, 2, 2⟩
/-- PWR_LOCK. -/
def pwrLock : Nat := 0x401400FC
/-- PWR_LOCK.key [15:0], WO. -/
def pwrLock_key : RF := ⟨pwrLock, 15, 0⟩
/-- The register table of block PWR. -/
def tablePwr : List RegRow := [
  ⟨0x40140000, 0x10000, 1, 0x4, 1, 0x000A803A, some (0x401400FC, 0x0), [⟨7, 0, .rwl⟩, ⟨15, 8, .rwl⟩, ⟨23, 16, .rwl⟩]⟩,
  ⟨0x40140004, 0x10000, 1, 0x4, 1, 0x00000000, some (0x401400FC, 0x0), [⟨1, 0, .ro⟩, ⟨2, 2, .ro⟩, ⟨3, 3, .ro⟩, ⟨4, 4, .ro⟩]⟩,
  ⟨0x40140010, 0x10000, 1, 0x4, 1, 0x00000101, some (0x401400FC, 0x0), [⟨1, 0, .rwl⟩, ⟨15, 8, .rwl⟩]⟩,
  ⟨0x40140014, 0x10000, 1, 0x4, 1, 0x00000000, some (0x401400FC, 0x0), [⟨3, 0, .wo⟩, ⟨5, 4, .wo⟩, ⟨31, 16, .wo⟩]⟩,
  ⟨0x40140018, 0x10000, 1, 0x4, 1, 0x00000000, some (0x401400FC, 0x0), [⟨15, 0, .ro⟩, ⟨17, 16, .ro⟩, ⟨19, 18, .ro⟩]⟩,
  ⟨0x40140020, 0x10000, 1, 0x4, 1, 0x003C1411, some (0x401400FC, 0x0), [⟨0, 0, .rwl⟩, ⟨7, 4, .rwl⟩, ⟨15, 8, .rwl⟩, ⟨23, 16, .rwl⟩, ⟨31, 24, .rwl⟩]⟩,
  ⟨0x40140024, 0x10000, 1, 0x4, 1, 0x00000028, some (0x401400FC, 0x0), [⟨5, 0, .ro⟩, ⟨10, 8, .ro⟩, ⟨31, 16, .ro⟩]⟩,
  ⟨0x40140030, 0x10000, 1, 0x4, 1, 0x0FFF0000, some (0x401400FC, 0x0), [⟨1, 0, .ro⟩, ⟨27, 16, .ro⟩]⟩,
  ⟨0x40140034, 0x10000, 1, 0x4, 1, 0x00000000, some (0x401400FC, 0x0), [⟨11, 0, .rw⟩]⟩,
  ⟨0x40140038, 0x10000, 1, 0x4, 1, 0x00000000, some (0x401400FC, 0x0), [⟨3, 0, .rw⟩, ⟨4, 4, .rw⟩, ⟨15, 8, .rw⟩]⟩,
  ⟨0x4014003C, 0x10000, 1, 0x4, 1, 0x00000000, some (0x401400FC, 0x0), [⟨3, 0, .rw⟩, ⟨4, 4, .rw⟩, ⟨15, 8, .rw⟩]⟩,
  ⟨0x40140040, 0x4, 8, 0x4, 1, 0x00000000, some (0x401400FC, 0x0), [⟨23, 0, .ro⟩]⟩,
  ⟨0x40140060, 0x10000, 1, 0x4, 1, 0x0000001F, some (0x401400FC, 0x0), [⟨4, 0, .rw⟩]⟩,
  ⟨0x40140064, 0x10000, 1, 0x4, 1, 0x00000000, some (0x401400FC, 0x0), [⟨4, 0, .w1c⟩]⟩,
  ⟨0x40140068, 0x10000, 1, 0x4, 1, 0x00000000, some (0x401400FC, 0x0), [⟨0, 0, .ro⟩, ⟨3, 1, .ro⟩, ⟨31, 16, .ro⟩]⟩,
  ⟨0x4014006C, 0x10000, 1, 0x4, 1, 0x00000000, some (0x401400FC, 0x0), [⟨17, 0, .rwl⟩, ⟨28, 20, .rwl⟩]⟩,
  ⟨0x40140070, 0x10000, 1, 0x4, 1, 0x000A465A, some (0x401400FC, 0x0), [⟨7, 0, .rwl⟩, ⟨15, 8, .rwl⟩, ⟨23, 16, .rwl⟩]⟩,
  ⟨0x40140074, 0x10000, 1, 0x4, 1, 0x00372D23, some (0x401400FC, 0x0), [⟨7, 0, .rwl⟩, ⟨15, 8, .rwl⟩, ⟨23, 16, .rwl⟩]⟩,
  ⟨0x40140078, 0x10000, 1, 0x4, 1, 0x00D1C7BD, some (0x401400FC, 0x0), [⟨7, 0, .rwl⟩, ⟨15, 8, .rwl⟩, ⟨23, 16, .rwl⟩, ⟨31, 24, .rwl⟩]⟩,
  ⟨0x4014007C, 0x10000, 1, 0x4, 1, 0x00000000, some (0x401400FC, 0x0), [⟨1, 0, .ro⟩, ⟨3, 2, .ro⟩, ⟨5, 4, .ro⟩, ⟨7, 6, .ro⟩, ⟨15, 8, .ro⟩, ⟨23, 16, .ro⟩]⟩,
  ⟨0x40140080, 0x10000, 1, 0x4, 1, 0x00000000, some (0x401400FC, 0x0), [⟨0, 0, .w1c⟩, ⟨1, 1, .w1c⟩, ⟨2, 2, .w1c⟩, ⟨3, 3, .w1c⟩, ⟨4, 4, .w1c⟩, ⟨5, 5, .w1c⟩, ⟨6, 6, .w1c⟩, ⟨7, 7, .w1c⟩, ⟨8, 8, .w1c⟩, ⟨9, 9, .w1c⟩, ⟨10, 10, .w1c⟩, ⟨11, 11, .w1c⟩, ⟨12, 12, .w1c⟩, ⟨13, 13, .w1c⟩, ⟨14, 14, .w1c⟩]⟩,
  ⟨0x40140084, 0x10000, 1, 0x4, 1, 0x00000000, some (0x401400FC, 0x0), [⟨15, 0, .ro⟩, ⟨31, 16, .ro⟩]⟩,
  ⟨0x40140088, 0x10000, 1, 0x4, 1, 0x00000000, some (0x401400FC, 0x0), [⟨0, 0, .wo⟩, ⟨1, 1, .wo⟩, ⟨2, 2, .wo⟩]⟩,
  ⟨0x401400FC, 0x10000, 1, 0x4, 1, 0x00000000, some (0x401400FC, 0x0), [⟨15, 0, .wo⟩]⟩]


/-! ## CAIRN: block base 0x40150000 -/

/-- CAIRN_TIME_LO. -/
def cairnTimeLo : Nat := 0x40150000
/-- CAIRN_TIME_LO.t [31:0], RO. -/
def cairnTimeLo_t : RF := ⟨cairnTimeLo, 31, 0⟩
/-- CAIRN_TIME_HI. -/
def cairnTimeHi : Nat := 0x40150004
/-- CAIRN_TIME_HI.t [15:0], RO. -/
def cairnTimeHi_t : RF := ⟨cairnTimeHi, 15, 0⟩
/-- CAIRN_WAKE_LO. -/
def cairnWakeLo : Nat := 0x40150008
/-- CAIRN_WAKE_LO.t [31:0], RW. -/
def cairnWakeLo_t : RF := ⟨cairnWakeLo, 31, 0⟩
/-- CAIRN_WAKE_HI. -/
def cairnWakeHi : Nat := 0x4015000C
/-- CAIRN_WAKE_HI.t [15:0], RW. -/
def cairnWakeHi_t : RF := ⟨cairnWakeHi, 15, 0⟩
/-- CAIRN_WAKE_HI.arm [16:16], RW. -/
def cairnWakeHi_arm : RF := ⟨cairnWakeHi, 16, 16⟩
/-- CAIRN_RET. -/
def cairnRet : Nat := 0x40150010
/-- CAIRN_RET.valid [0:0], RO. -/
def cairnRet_valid : RF := ⟨cairnRet, 0, 0⟩
/-- CAIRN_RET.restored [1:1], RO. -/
def cairnRet_restored : RF := ⟨cairnRet, 1, 1⟩
/-- CAIRN_FAIL. -/
def cairnFail : Nat := 0x40150014
/-- CAIRN_FAIL.code [3:0], RO. -/
def cairnFail_code : RF := ⟨cairnFail, 3, 0⟩
/-- CAIRN_FAIL.n [15:8], RO. -/
def cairnFail_n : RF := ⟨cairnFail, 15, 8⟩
/-- CAIRN_WOUT. -/
def cairnWout : Nat := 0x40150018
/-- CAIRN_WOUT.lvl [0:0], RW. -/
def cairnWout_lvl : RF := ⟨cairnWout, 0, 0⟩
/-- CAIRN_WOUT.code_on [1:1], RO. -/
def cairnWout_code_on : RF := ⟨cairnWout, 1, 1⟩
/-- The register table of block CAIRN. -/
def tableCairn : List RegRow := [
  ⟨0x40150000, 0x10000, 1, 0x4, 1, 0x00000000, none, [⟨31, 0, .ro⟩]⟩,
  ⟨0x40150004, 0x10000, 1, 0x4, 1, 0x00000000, none, [⟨15, 0, .ro⟩]⟩,
  ⟨0x40150008, 0x10000, 1, 0x4, 1, 0x00000000, none, [⟨31, 0, .rw⟩]⟩,
  ⟨0x4015000C, 0x10000, 1, 0x4, 1, 0x00000000, none, [⟨15, 0, .rw⟩, ⟨16, 16, .rw⟩]⟩,
  ⟨0x40150010, 0x10000, 1, 0x4, 1, 0x00000000, none, [⟨0, 0, .ro⟩, ⟨1, 1, .ro⟩]⟩,
  ⟨0x40150014, 0x10000, 1, 0x4, 1, 0x00000000, none, [⟨3, 0, .ro⟩, ⟨15, 8, .ro⟩]⟩,
  ⟨0x40150018, 0x10000, 1, 0x4, 1, 0x00000000, none, [⟨0, 0, .rw⟩, ⟨1, 1, .ro⟩]⟩]


/-! ## RIDGE: block base 0x40040000 -/

/-- RIDGE_CTL. -/
def ridgeCtl : Nat := 0x40040000
/-- RIDGE_CTL.en [0:0], RW. -/
def ridgeCtl_en : RF := ⟨ridgeCtl, 0, 0⟩
/-- RIDGE_STAT. -/
def ridgeStat : Nat := 0x40040004
/-- RIDGE_STAT.level [1:0], RO. -/
def ridgeStat_level : RF := ⟨ridgeStat, 1, 0⟩
/-- RIDGE_STAT.running [2:2], RO. -/
def ridgeStat_running : RF := ⟨ridgeStat, 2, 2⟩
/-- RIDGE_STAT.task [13:8], RO. -/
def ridgeStat_task : RF := ⟨ridgeStat, 13, 8⟩
/-- RIDGE_STAT.overrun [16:16], W1C. -/
def ridgeStat_overrun : RF := ⟨ridgeStat, 16, 16⟩
/-- RIDGE_STAT.surv_block [17:17], W1C. -/
def ridgeStat_surv_block : RF := ⟨ridgeStat, 17, 17⟩
/-- RIDGE_STAT.ready_evt [18:18], W1C. -/
def ridgeStat_ready_evt : RF := ⟨ridgeStat, 18, 18⟩
/-- RIDGE_NEXT. -/
def ridgeNext : Nat := 0x40040008
/-- RIDGE_NEXT.task [5:0], RO. -/
def ridgeNext_task : RF := ⟨ridgeNext, 5, 0⟩
/-- RIDGE_NEXT.urgent [6:6], RO. -/
def ridgeNext_urgent : RF := ⟨ridgeNext, 6, 6⟩
/-- RIDGE_NEXT.none [31:31], RO. -/
def ridgeNext_none : RF := ⟨ridgeNext, 31, 31⟩
/-- RIDGE_POST. -/
def ridgePost : Nat := 0x4004000C
/-- RIDGE_POST.task [5:0], WO. -/
def ridgePost_task : RF := ⟨ridgePost, 5, 0⟩
/-- RIDGE_RDY0. -/
def ridgeRdy0 : Nat := 0x40040010
/-- RIDGE_RDY0.rdy [31:0], RO. -/
def ridgeRdy0_rdy : RF := ⟨ridgeRdy0, 31, 0⟩
/-- RIDGE_RDY1. -/
def ridgeRdy1 : Nat := 0x40040014
/-- RIDGE_RDY1.rdy [31:0], RO. -/
def ridgeRdy1_rdy : RF := ⟨ridgeRdy1, 31, 0⟩
/-- RIDGE_LOCK. -/
def ridgeLock : Nat := 0x400400FC
/-- RIDGE_LOCK.key [15:0], WO. -/
def ridgeLock_key : RF := ⟨ridgeLock, 15, 0⟩
/-- RIDGE_TASK_CFG. -/
def ridgeTaskCfg (n : Nat) : Nat := 0x40040100 + 0x8 * n
/-- RIDGE_TASK_CFG.en [0:0], RWL. -/
def ridgeTaskCfg_en (n : Nat) : RF := ⟨ridgeTaskCfg n, 0, 0⟩
/-- RIDGE_TASK_CFG.trig [2:1], RWL. -/
def ridgeTaskCfg_trig (n : Nat) : RF := ⟨ridgeTaskCfg n, 2, 1⟩
/-- RIDGE_TASK_CFG.pri [6:4], RWL. -/
def ridgeTaskCfg_pri (n : Nat) : RF := ⟨ridgeTaskCfg n, 6, 4⟩
/-- RIDGE_TASK_CFG.e [9:8], RWL. -/
def ridgeTaskCfg_e (n : Nat) : RF := ⟨ridgeTaskCfg n, 9, 8⟩
/-- RIDGE_TASK_CFG.h [11:10], RWL. -/
def ridgeTaskCfg_h (n : Nat) : RF := ⟨ridgeTaskCfg n, 11, 10⟩
/-- RIDGE_TASK_CFG.urg [19:12], RWL. -/
def ridgeTaskCfg_urg (n : Nat) : RF := ⟨ridgeTaskCfg n, 19, 12⟩
/-- RIDGE_TASK_CFG.period [31:20], RWL. -/
def ridgeTaskCfg_period (n : Nat) : RF := ⟨ridgeTaskCfg n, 31, 20⟩
/-- RIDGE_TASK_STAT. -/
def ridgeTaskStat (n : Nat) : Nat := 0x40040104 + 0x8 * n
/-- RIDGE_TASK_STAT.age [7:0], RO. -/
def ridgeTaskStat_age (n : Nat) : RF := ⟨ridgeTaskStat n, 7, 0⟩
/-- RIDGE_TASK_STAT.ready [8:8], RO. -/
def ridgeTaskStat_ready (n : Nat) : RF := ⟨ridgeTaskStat n, 8, 8⟩
/-- RIDGE_TASK_STAT.urgent [9:9], RO. -/
def ridgeTaskStat_urgent (n : Nat) : RF := ⟨ridgeTaskStat n, 9, 9⟩
/-- RIDGE_TASK_STAT.runs [31:16], RO. -/
def ridgeTaskStat_runs (n : Nat) : RF := ⟨ridgeTaskStat n, 31, 16⟩
/-- The register table of block RIDGE. -/
def tableRidge : List RegRow := [
  ⟨0x40040000, 0x10000, 1, 0x4, 1, 0x00000000, some (0x400400FC, 0x0), [⟨0, 0, .rw⟩]⟩,
  ⟨0x40040004, 0x10000, 1, 0x4, 1, 0x00000000, some (0x400400FC, 0x0), [⟨1, 0, .ro⟩, ⟨2, 2, .ro⟩, ⟨13, 8, .ro⟩, ⟨16, 16, .w1c⟩, ⟨17, 17, .w1c⟩, ⟨18, 18, .w1c⟩]⟩,
  ⟨0x40040008, 0x10000, 1, 0x4, 1, 0x80000000, some (0x400400FC, 0x0), [⟨5, 0, .ro⟩, ⟨6, 6, .ro⟩, ⟨31, 31, .ro⟩]⟩,
  ⟨0x4004000C, 0x10000, 1, 0x4, 1, 0x00000000, some (0x400400FC, 0x0), [⟨5, 0, .wo⟩]⟩,
  ⟨0x40040010, 0x10000, 1, 0x4, 1, 0x00000000, some (0x400400FC, 0x0), [⟨31, 0, .ro⟩]⟩,
  ⟨0x40040014, 0x10000, 1, 0x4, 1, 0x00000000, some (0x400400FC, 0x0), [⟨31, 0, .ro⟩]⟩,
  ⟨0x400400FC, 0x10000, 1, 0x4, 1, 0x00000000, some (0x400400FC, 0x0), [⟨15, 0, .wo⟩]⟩,
  ⟨0x40040100, 0x8, 64, 0x4, 1, 0x00000000, some (0x400400FC, 0x0), [⟨0, 0, .rwl⟩, ⟨2, 1, .rwl⟩, ⟨6, 4, .rwl⟩, ⟨9, 8, .rwl⟩, ⟨11, 10, .rwl⟩, ⟨19, 12, .rwl⟩, ⟨31, 20, .rwl⟩]⟩,
  ⟨0x40040104, 0x8, 64, 0x4, 1, 0x00000000, some (0x400400FC, 0x0), [⟨7, 0, .ro⟩, ⟨8, 8, .ro⟩, ⟨9, 9, .ro⟩, ⟨31, 16, .ro⟩]⟩]


/-! ## NVMC: block base 0x40190000 -/

/-- NVMC_STAT. -/
def nvmcStat : Nat := 0x40190000
/-- NVMC_STAT.busy [0:0], RO. -/
def nvmcStat_busy : RF := ⟨nvmcStat, 0, 0⟩
/-- NVMC_STAT.boot_bank [1:1], RO. -/
def nvmcStat_boot_bank : RF := ⟨nvmcStat, 1, 1⟩
/-- NVMC_STAT.done [16:16], W1C. -/
def nvmcStat_done : RF := ⟨nvmcStat, 16, 16⟩
/-- NVMC_STAT.err [17:17], W1C. -/
def nvmcStat_err : RF := ⟨nvmcStat, 17, 17⟩
/-- NVMC_STAT.refused [18:18], W1C. -/
def nvmcStat_refused : RF := ⟨nvmcStat, 18, 18⟩
/-- NVMC_STAT.weak [19:19], W1C. -/
def nvmcStat_weak : RF := ⟨nvmcStat, 19, 19⟩
/-- NVMC_STAT.ecc_u [20:20], W1C. -/
def nvmcStat_ecc_u : RF := ⟨nvmcStat, 20, 20⟩
/-- NVMC_STAT.busy_rd [21:21], W1C. -/
def nvmcStat_busy_rd : RF := ⟨nvmcStat, 21, 21⟩
/-- NVMC_ADDR. -/
def nvmcAddr : Nat := 0x40190004
/-- NVMC_ADDR.addr [22:0], RW. -/
def nvmcAddr_addr : RF := ⟨nvmcAddr, 22, 0⟩
/-- NVMC_ADDR.tgt [25:24], RW. -/
def nvmcAddr_tgt : RF := ⟨nvmcAddr, 25, 24⟩
/-- NVMC_CMD. -/
def nvmcCmd : Nat := 0x40190008
/-- NVMC_CMD.op [3:0], WO. -/
def nvmcCmd_op : RF := ⟨nvmcCmd, 3, 0⟩
/-- NVMC_WEAK. -/
def nvmcWeak : Nat := 0x4019000C
/-- NVMC_WEAK.addr [25:0], RO. -/
def nvmcWeak_addr : RF := ⟨nvmcWeak, 25, 0⟩
/-- NVMC_CNT. -/
def nvmcCnt : Nat := 0x40190010
/-- NVMC_CNT.cor [15:0], RO. -/
def nvmcCnt_cor : RF := ⟨nvmcCnt, 15, 0⟩
/-- NVMC_CNT.pass [31:16], RO. -/
def nvmcCnt_pass : RF := ⟨nvmcCnt, 31, 16⟩
/-- NVMC_CLR. -/
def nvmcClr : Nat := 0x40190014
/-- NVMC_CLR.clr_cnt [0:0], WO. -/
def nvmcClr_clr_cnt : RF := ⟨nvmcClr, 0, 0⟩
/-- NVMC_SR_CNT. -/
def nvmcSrCnt (r : Nat) : Nat := 0x40190040 + 0x4 * r
/-- NVMC_SR_CNT.cor [15:0], RO. -/
def nvmcSrCnt_cor (r : Nat) : RF := ⟨nvmcSrCnt r, 15, 0⟩
/-- NVMC_SR_CNT.used [23:16], RO. -/
def nvmcSrCnt_used (r : Nat) : RF := ⟨nvmcSrCnt r, 23, 16⟩
/-- NVMC_SR_CNT.total [31:24], RO. -/
def nvmcSrCnt_total (r : Nat) : RF := ⟨nvmcSrCnt r, 31, 24⟩
/-- NVMC_SR_STAT. -/
def nvmcSrStat : Nat := 0x40190060
/-- NVMC_SR_STAT.ecc_u [7:0], W1C. -/
def nvmcSrStat_ecc_u : RF := ⟨nvmcSrStat, 7, 0⟩
/-- NVMC_SR_STAT.spare_out [15:8], W1C. -/
def nvmcSrStat_spare_out : RF := ⟨nvmcSrStat, 15, 8⟩
/-- NVMC_SR_STAT.rep_fail [23:16], W1C. -/
def nvmcSrStat_rep_fail : RF := ⟨nvmcSrStat, 23, 16⟩
/-- NVMC_SR_STAT.q_full [31:24], W1C. -/
def nvmcSrStat_q_full : RF := ⟨nvmcSrStat, 31, 24⟩
/-- NVMC_SR_LIM. -/
def nvmcSrLim : Nat := 0x40190064
/-- NVMC_SR_LIM.thr [7:0], RWL. -/
def nvmcSrLim_thr : RF := ⟨nvmcSrLim, 7, 0⟩
/-- NVMC_SR_LAST. -/
def nvmcSrLast : Nat := 0x40190068
/-- NVMC_SR_LAST.region [2:0], RO. -/
def nvmcSrLast_region : RF := ⟨nvmcSrLast, 2, 0⟩
/-- NVMC_SR_LAST.row [27:16], RO. -/
def nvmcSrLast_row : RF := ⟨nvmcSrLast, 27, 16⟩
/-- NVMC_BUF. -/
def nvmcBuf (k : Nat) : Nat := 0x40190100 + 0x4 * k
/-- NVMC_BUF.data [31:0], RW. -/
def nvmcBuf_data (k : Nat) : RF := ⟨nvmcBuf k, 31, 0⟩
/-- NVMC_LOCK. -/
def nvmcLock : Nat := 0x401900FC
/-- NVMC_LOCK.key [15:0], WO. -/
def nvmcLock_key : RF := ⟨nvmcLock, 15, 0⟩
/-- The register table of block NVMC. -/
def tableNvmc : List RegRow := [
  ⟨0x40190000, 0x10000, 1, 0x4, 1, 0x00000000, some (0x401900FC, 0x0), [⟨0, 0, .ro⟩, ⟨1, 1, .ro⟩, ⟨16, 16, .w1c⟩, ⟨17, 17, .w1c⟩, ⟨18, 18, .w1c⟩, ⟨19, 19, .w1c⟩, ⟨20, 20, .w1c⟩, ⟨21, 21, .w1c⟩]⟩,
  ⟨0x40190004, 0x10000, 1, 0x4, 1, 0x00000000, some (0x401900FC, 0x0), [⟨22, 0, .rw⟩, ⟨25, 24, .rw⟩]⟩,
  ⟨0x40190008, 0x10000, 1, 0x4, 1, 0x00000000, some (0x401900FC, 0x0), [⟨3, 0, .wo⟩]⟩,
  ⟨0x4019000C, 0x10000, 1, 0x4, 1, 0x00000000, some (0x401900FC, 0x0), [⟨25, 0, .ro⟩]⟩,
  ⟨0x40190010, 0x10000, 1, 0x4, 1, 0x00000000, some (0x401900FC, 0x0), [⟨15, 0, .ro⟩, ⟨31, 16, .ro⟩]⟩,
  ⟨0x40190014, 0x10000, 1, 0x4, 1, 0x00000000, some (0x401900FC, 0x0), [⟨0, 0, .wo⟩]⟩,
  ⟨0x40190040, 0x4, 8, 0x4, 1, 0x00000000, some (0x401900FC, 0x0), [⟨15, 0, .ro⟩, ⟨23, 16, .ro⟩, ⟨31, 24, .ro⟩]⟩,
  ⟨0x40190060, 0x10000, 1, 0x4, 1, 0x00000000, some (0x401900FC, 0x0), [⟨7, 0, .w1c⟩, ⟨15, 8, .w1c⟩, ⟨23, 16, .w1c⟩, ⟨31, 24, .w1c⟩]⟩,
  ⟨0x40190064, 0x10000, 1, 0x4, 1, 0x00000002, some (0x401900FC, 0x0), [⟨7, 0, .rwl⟩]⟩,
  ⟨0x40190068, 0x10000, 1, 0x4, 1, 0x00000000, some (0x401900FC, 0x0), [⟨2, 0, .ro⟩, ⟨27, 16, .ro⟩]⟩,
  ⟨0x40190100, 0x4, 64, 0x4, 1, 0x00000000, some (0x401900FC, 0x0), [⟨31, 0, .rw⟩]⟩,
  ⟨0x401900FC, 0x10000, 1, 0x4, 1, 0x00000000, some (0x401900FC, 0x0), [⟨15, 0, .wo⟩]⟩]


/-! ## WAT: block base 0x40070000 -/

/-- WAT_STAT. -/
def watStat : Nat := 0x40070000
/-- WAT_STAT.viol [0:0], W1C. -/
def watStat_viol : RF := ⟨watStat, 0, 0⟩
/-- WAT_STAT.ovf [1:1], W1C. -/
def watStat_ovf : RF := ⟨watStat, 1, 1⟩
/-- WAT_STAT.locked [2:2], RO. -/
def watStat_locked : RF := ⟨watStat, 2, 2⟩
/-- WAT_VIOL. -/
def watViol : Nat := 0x40070004
/-- WAT_VIOL.master [5:0], RO. -/
def watViol_master : RF := ⟨watViol, 5, 0⟩
/-- WAT_VIOL.world [6:6], RO. -/
def watViol_world : RF := ⟨watViol, 6, 6⟩
/-- WAT_VIOL.write [7:7], RO. -/
def watViol_write : RF := ⟨watViol, 7, 7⟩
/-- WAT_VIOL.kind [11:8], RO. -/
def watViol_kind : RF := ⟨watViol, 11, 8⟩
/-- WAT_VADDR. -/
def watVaddr : Nat := 0x40070008
/-- WAT_VADDR.addr [31:0], RO. -/
def watVaddr_addr : RF := ⟨watVaddr, 31, 0⟩
/-- WAT_CNT. -/
def watCnt : Nat := 0x4007000C
/-- WAT_CNT.n [15:0], RO. -/
def watCnt_n : RF := ⟨watCnt, 15, 0⟩
/-- WAT_CNT.clr [16:16], WO. -/
def watCnt_clr : RF := ⟨watCnt, 16, 16⟩
/-- WAT_BLK. -/
def watBlk : Nat := 0x40070010
/-- WAT_BLK.ns [27:0], RWS. -/
def watBlk_ns : RF := ⟨watBlk, 27, 0⟩
/-- WAT_RGN. -/
def watRgn (n : Nat) : Nat := 0x40070100 + 0x8 * n
/-- WAT_RGN.en [0:0], RWS. -/
def watRgn_en (n : Nat) : RF := ⟨watRgn n, 0, 0⟩
/-- WAT_RGN.ns [1:1], RWS. -/
def watRgn_ns (n : Nat) : RF := ⟨watRgn n, 1, 1⟩
/-- WAT_RGN.ro [2:2], RWS. -/
def watRgn_ro (n : Nat) : RF := ⟨watRgn n, 2, 2⟩
/-- WAT_RGN.nx [3:3], RWS. -/
def watRgn_nx (n : Nat) : RF := ⟨watRgn n, 3, 3⟩
/-- WAT_RGN.base [31:12], RWS. -/
def watRgn_base (n : Nat) : RF := ⟨watRgn n, 31, 12⟩
/-- WAT_LIM. -/
def watLim (n : Nat) : Nat := 0x40070104 + 0x8 * n
/-- WAT_LIM.last [31:12], RWS. -/
def watLim_last (n : Nat) : RF := ⟨watLim n, 31, 12⟩
/-- WAT_LOCK. -/
def watLock : Nat := 0x400700FC
/-- WAT_LOCK.key [15:0], WO. -/
def watLock_key : RF := ⟨watLock, 15, 0⟩
/-- The register table of block WAT. -/
def tableWat : List RegRow := [
  ⟨0x40070000, 0x10000, 1, 0x4, 1, 0x00000000, some (0x400700FC, 0x0), [⟨0, 0, .w1c⟩, ⟨1, 1, .w1c⟩, ⟨2, 2, .ro⟩]⟩,
  ⟨0x40070004, 0x10000, 1, 0x4, 1, 0x00000000, some (0x400700FC, 0x0), [⟨5, 0, .ro⟩, ⟨6, 6, .ro⟩, ⟨7, 7, .ro⟩, ⟨11, 8, .ro⟩]⟩,
  ⟨0x40070008, 0x10000, 1, 0x4, 1, 0x00000000, some (0x400700FC, 0x0), [⟨31, 0, .ro⟩]⟩,
  ⟨0x4007000C, 0x10000, 1, 0x4, 1, 0x00000000, some (0x400700FC, 0x0), [⟨15, 0, .ro⟩, ⟨16, 16, .wo⟩]⟩,
  ⟨0x40070010, 0x10000, 1, 0x4, 1, 0x00000000, some (0x400700FC, 0x0), [⟨27, 0, .rws⟩]⟩,
  ⟨0x40070100, 0x8, 16, 0x4, 1, 0x00000000, some (0x400700FC, 0x0), [⟨0, 0, .rws⟩, ⟨1, 1, .rws⟩, ⟨2, 2, .rws⟩, ⟨3, 3, .rws⟩, ⟨31, 12, .rws⟩]⟩,
  ⟨0x40070104, 0x8, 16, 0x4, 1, 0x00000000, some (0x400700FC, 0x0), [⟨31, 12, .rws⟩]⟩,
  ⟨0x400700FC, 0x10000, 1, 0x4, 1, 0x00000000, some (0x400700FC, 0x0), [⟨15, 0, .wo⟩]⟩]


/-! ## MBOX: block base 0x40050000 -/

/-- MBOX_FULL. -/
def mboxFull : Nat := 0x40050000
/-- MBOX_FULL.full [31:0], RO. -/
def mboxFull_full : RF := ⟨mboxFull, 31, 0⟩
/-- MBOX_NEW. -/
def mboxNew : Nat := 0x40050004
/-- MBOX_NEW.new [31:0], W1C. -/
def mboxNew_new : RF := ⟨mboxNew, 31, 0⟩
/-- MBOX_COLL. -/
def mboxColl : Nat := 0x40050008
/-- MBOX_COLL.coll [31:0], W1C. -/
def mboxColl_coll : RF := ⟨mboxColl, 31, 0⟩
/-- MBOX_STAGE. -/
def mboxStage : Nat := 0x4005000C
/-- MBOX_STAGE.tag [15:0], WO. -/
def mboxStage_tag : RF := ⟨mboxStage, 15, 0⟩
/-- MBOX_EPOCH0. -/
def mboxEpoch0 : Nat := 0x40050010
/-- MBOX_EPOCH0.lo [15:0], RO. -/
def mboxEpoch0_lo : RF := ⟨mboxEpoch0, 15, 0⟩
/-- MBOX_EPOCH0.hi [31:16], RO. -/
def mboxEpoch0_hi : RF := ⟨mboxEpoch0, 31, 16⟩
/-- MBOX_EPOCH1. -/
def mboxEpoch1 : Nat := 0x40050014
/-- MBOX_EPOCH1.lo [15:0], RO. -/
def mboxEpoch1_lo : RF := ⟨mboxEpoch1, 15, 0⟩
/-- MBOX_EPOCH1.hi [31:16], RO. -/
def mboxEpoch1_hi : RF := ⟨mboxEpoch1, 31, 16⟩
/-- MBOX_CFG. -/
def mboxCfg (n : Nat) : Nat := 0x40050100 + 0x10 * n
/-- MBOX_CFG.rcv [5:0], RWL. -/
def mboxCfg_rcv (n : Nat) : RF := ⟨mboxCfg n, 5, 0⟩
/-- MBOX_CFG.irq_en [8:8], RW. -/
def mboxCfg_irq_en (n : Nat) : RF := ⟨mboxCfg n, 8, 8⟩
/-- MBOX_CFG.sec [9:9], RWS. -/
def mboxCfg_sec (n : Nat) : RF := ⟨mboxCfg n, 9, 9⟩
/-- MBOX_MSG. -/
def mboxMsg (n : Nat) : Nat := 0x40050104 + 0x10 * n
/-- MBOX_MSG.tag [15:0], RO. -/
def mboxMsg_tag (n : Nat) : RF := ⟨mboxMsg n, 15, 0⟩
/-- MBOX_MSG.full [16:16], RO. -/
def mboxMsg_full (n : Nat) : RF := ⟨mboxMsg n, 16, 16⟩
/-- MBOX_MSG.stale [17:17], RO. -/
def mboxMsg_stale (n : Nat) : RF := ⟨mboxMsg n, 17, 17⟩
/-- MBOX_MSG.sender_reset [18:18], RO. -/
def mboxMsg_sender_reset (n : Nat) : RF := ⟨mboxMsg n, 18, 18⟩
/-- MBOX_MSG.sender [29:24], RO. -/
def mboxMsg_sender (n : Nat) : RF := ⟨mboxMsg n, 29, 24⟩
/-- MBOX_PTR. -/
def mboxPtr (n : Nat) : Nat := 0x40050108 + 0x10 * n
/-- MBOX_PTR.ptr [31:0], RO. -/
def mboxPtr_ptr (n : Nat) : RF := ⟨mboxPtr n, 31, 0⟩
/-- MBOX_POST. -/
def mboxPost (n : Nat) : Nat := 0x4005010C + 0x10 * n
/-- MBOX_POST.ptr [31:0], WO. -/
def mboxPost_ptr (n : Nat) : RF := ⟨mboxPost n, 31, 0⟩
/-- MBOX_LOCK. -/
def mboxLock : Nat := 0x400500FC
/-- MBOX_LOCK.key [15:0], WO. -/
def mboxLock_key : RF := ⟨mboxLock, 15, 0⟩
/-- The register table of block MBOX. -/
def tableMbox : List RegRow := [
  ⟨0x40050000, 0x10000, 1, 0x4, 1, 0x00000000, some (0x400500FC, 0x0), [⟨31, 0, .ro⟩]⟩,
  ⟨0x40050004, 0x10000, 1, 0x4, 1, 0x00000000, some (0x400500FC, 0x0), [⟨31, 0, .w1c⟩]⟩,
  ⟨0x40050008, 0x10000, 1, 0x4, 1, 0x00000000, some (0x400500FC, 0x0), [⟨31, 0, .w1c⟩]⟩,
  ⟨0x4005000C, 0x10000, 1, 0x4, 1, 0x00000000, some (0x400500FC, 0x0), [⟨15, 0, .wo⟩]⟩,
  ⟨0x40050010, 0x10000, 1, 0x4, 1, 0x00000000, some (0x400500FC, 0x0), [⟨15, 0, .ro⟩, ⟨31, 16, .ro⟩]⟩,
  ⟨0x40050014, 0x10000, 1, 0x4, 1, 0x00000000, some (0x400500FC, 0x0), [⟨15, 0, .ro⟩, ⟨31, 16, .ro⟩]⟩,
  ⟨0x40050100, 0x10, 32, 0x4, 1, 0x00000001, some (0x400500FC, 0x0), [⟨5, 0, .rwl⟩, ⟨8, 8, .rw⟩, ⟨9, 9, .rws⟩]⟩,
  ⟨0x40050104, 0x10, 32, 0x4, 1, 0x00000000, some (0x400500FC, 0x0), [⟨15, 0, .ro⟩, ⟨16, 16, .ro⟩, ⟨17, 17, .ro⟩, ⟨18, 18, .ro⟩, ⟨29, 24, .ro⟩]⟩,
  ⟨0x40050108, 0x10, 32, 0x4, 1, 0x00000000, some (0x400500FC, 0x0), [⟨31, 0, .ro⟩]⟩,
  ⟨0x4005010C, 0x10, 32, 0x4, 1, 0x00000000, some (0x400500FC, 0x0), [⟨31, 0, .wo⟩]⟩,
  ⟨0x400500FC, 0x10000, 1, 0x4, 1, 0x00000000, some (0x400500FC, 0x0), [⟨15, 0, .wo⟩]⟩]


/-! ## SEMA: block base 0x40060000 -/

/-- SEMA. -/
def sema (n : Nat) : Nat := 0x40060000 + 0x4 * n
/-- SEMA.owner [5:0], RW. -/
def sema_owner (n : Nat) : RF := ⟨sema n, 5, 0⟩
/-- SEMA_PEEK. -/
def semaPeek (n : Nat) : Nat := 0x40060100 + 0x4 * n
/-- SEMA_PEEK.owner [5:0], RO. -/
def semaPeek_owner (n : Nat) : RF := ⟨semaPeek n, 5, 0⟩
/-- SEMA_SEC0. -/
def semaSec0 : Nat := 0x40060200
/-- SEMA_SEC0.sec [31:0], RWS. -/
def semaSec0_sec : RF := ⟨semaSec0, 31, 0⟩
/-- SEMA_SEC1. -/
def semaSec1 : Nat := 0x40060204
/-- SEMA_SEC1.sec [31:0], RWS. -/
def semaSec1_sec : RF := ⟨semaSec1, 31, 0⟩
/-- SEMA_STAT. -/
def semaStat : Nat := 0x40060208
/-- SEMA_STAT.bad_rel [0:0], W1C. -/
def semaStat_bad_rel : RF := ⟨semaStat, 0, 0⟩
/-- SEMA_STAT.denied [1:1], W1C. -/
def semaStat_denied : RF := ⟨semaStat, 1, 1⟩
/-- SEMA_FREE. -/
def semaFree : Nat := 0x4006020C
/-- SEMA_FREE.idx [5:0], WO. -/
def semaFree_idx : RF := ⟨semaFree, 5, 0⟩
/-- The register table of block SEMA. -/
def tableSema : List RegRow := [
  ⟨0x40060000, 0x4, 64, 0x4, 1, 0x00000000, none, [⟨5, 0, .rw⟩]⟩,
  ⟨0x40060100, 0x4, 64, 0x4, 1, 0x00000000, none, [⟨5, 0, .ro⟩]⟩,
  ⟨0x40060200, 0x10000, 1, 0x4, 1, 0x00000000, none, [⟨31, 0, .rws⟩]⟩,
  ⟨0x40060204, 0x10000, 1, 0x4, 1, 0x00000000, none, [⟨31, 0, .rws⟩]⟩,
  ⟨0x40060208, 0x10000, 1, 0x4, 1, 0x00000000, none, [⟨0, 0, .w1c⟩, ⟨1, 1, .w1c⟩]⟩,
  ⟨0x4006020C, 0x10000, 1, 0x4, 1, 0x00000000, none, [⟨5, 0, .wo⟩]⟩]


/-! ## LCS: block base 0x40170000 -/

/-- LCS_STATE. -/
def lcsState : Nat := 0x40170000
/-- LCS_STATE.lc [2:0], RO. -/
def lcsState_lc : RF := ⟨lcsState, 2, 0⟩
/-- LCS_STATE.pend [3:3], RO. -/
def lcsState_pend : RF := ⟨lcsState, 3, 3⟩
/-- LCS_STATE.role [5:4], RO. -/
def lcsState_role : RF := ⟨lcsState, 5, 4⟩
/-- LCS_STATE.cal_grant [7:6], RO. -/
def lcsState_cal_grant : RF := ⟨lcsState, 7, 6⟩
/-- LCS_STATE.dbg_open [8:8], RO. -/
def lcsState_dbg_open : RF := ⟨lcsState, 8, 8⟩
/-- LCS_STATE.log_full [9:9], RO. -/
def lcsState_log_full : RF := ⟨lcsState, 9, 9⟩
/-- LCS_STATE.reentry [14:12], RO. -/
def lcsState_reentry : RF := ⟨lcsState, 14, 12⟩
/-- LCS_CMD. -/
def lcsCmd : Nat := 0x40170004
/-- LCS_CMD.op [3:0], WO. -/
def lcsCmd_op : RF := ⟨lcsCmd, 3, 0⟩
/-- LCS_CMD.role [5:4], WO. -/
def lcsCmd_role : RF := ⟨lcsCmd, 5, 4⟩
/-- LCS_STAT. -/
def lcsStat : Nat := 0x40170008
/-- LCS_STAT.busy [0:0], RO. -/
def lcsStat_busy : RF := ⟨lcsStat, 0, 0⟩
/-- LCS_STAT.log_warn [1:1], RO. -/
def lcsStat_log_warn : RF := ⟨lcsStat, 1, 1⟩
/-- LCS_STAT.done [16:16], W1C. -/
def lcsStat_done : RF := ⟨lcsStat, 16, 16⟩
/-- LCS_STAT.auth_fail [17:17], W1C. -/
def lcsStat_auth_fail : RF := ⟨lcsStat, 17, 17⟩
/-- LCS_STAT.refused [18:18], W1C. -/
def lcsStat_refused : RF := ⟨lcsStat, 18, 18⟩
/-- LCS_STAT.locked_out [19:19], W1C. -/
def lcsStat_locked_out : RF := ⟨lcsStat, 19, 19⟩
/-- LCS_STAT.log_err [20:20], W1C. -/
def lcsStat_log_err : RF := ⟨lcsStat, 20, 20⟩
/-- LCS_STAT.rec_err [21:21], W1C. -/
def lcsStat_rec_err : RF := ⟨lcsStat, 21, 21⟩
/-- LCS_CFG. -/
def lcsCfg : Nat := 0x4017000C
/-- LCS_CFG.idle [7:0], RWL. -/
def lcsCfg_idle : RF := ⟨lcsCfg, 7, 0⟩
/-- LCS_FAIL. -/
def lcsFail : Nat := 0x40170010
/-- LCS_FAIL.f_op [7:0], RO. -/
def lcsFail_f_op : RF := ⟨lcsFail, 7, 0⟩
/-- LCS_FAIL.f_inst [15:8], RO. -/
def lcsFail_f_inst : RF := ⟨lcsFail, 15, 8⟩
/-- LCS_FAIL.f_mkr [23:16], RO. -/
def lcsFail_f_mkr : RF := ⟨lcsFail, 23, 16⟩
/-- LCS_LOCKLEFT0. -/
def lcsLockleft0 : Nat := 0x40170014
/-- LCS_LOCKLEFT0.lo [15:0], RO. -/
def lcsLockleft0_lo : RF := ⟨lcsLockleft0, 15, 0⟩
/-- LCS_LOCKLEFT0.hi [31:16], RO. -/
def lcsLockleft0_hi : RF := ⟨lcsLockleft0, 31, 16⟩
/-- LCS_LOCKLEFT1. -/
def lcsLockleft1 : Nat := 0x40170018
/-- LCS_LOCKLEFT1.lo [15:0], RO. -/
def lcsLockleft1_lo : RF := ⟨lcsLockleft1, 15, 0⟩
/-- LCS_LOCKLEFT1.hi [31:16], RO. -/
def lcsLockleft1_hi : RF := ⟨lcsLockleft1, 31, 16⟩
/-- LCS_LOG. -/
def lcsLog : Nat := 0x4017001C
/-- LCS_LOG.n [12:0], RO. -/
def lcsLog_n : RF := ⟨lcsLog, 12, 0⟩
/-- LCS_LOG_ARG0. -/
def lcsLogArg0 : Nat := 0x40170020
/-- LCS_LOG_ARG0.arg [31:0], RW. -/
def lcsLogArg0_arg : RF := ⟨lcsLogArg0, 31, 0⟩
/-- LCS_LOG_ARG1. -/
def lcsLogArg1 : Nat := 0x40170024
/-- LCS_LOG_ARG1.arg [31:0], RW. -/
def lcsLogArg1_arg : RF := ⟨lcsLogArg1, 31, 0⟩
/-- LCS_LOG_SUB. -/
def lcsLogSub : Nat := 0x40170028
/-- LCS_LOG_SUB.sub [11:0], RW. -/
def lcsLogSub_sub : RF := ⟨lcsLogSub, 11, 0⟩
/-- LCS_LOG_SUB.staged [12:12], RO. -/
def lcsLogSub_staged : RF := ⟨lcsLogSub, 12, 12⟩
/-- LCS_HEAD. -/
def lcsHead (k : Nat) : Nat := 0x40170040 + 0x4 * k
/-- LCS_HEAD.h [31:0], RO. -/
def lcsHead_h (k : Nat) : RF := ⟨lcsHead k, 31, 0⟩
/-- LCS_LOCK. -/
def lcsLock : Nat := 0x401700FC
/-- LCS_LOCK.key [15:0], WO. -/
def lcsLock_key : RF := ⟨lcsLock, 15, 0⟩
/-- The register table of block LCS. -/
def tableLcs : List RegRow := [
  ⟨0x40170000, 0x10000, 1, 0x4, 1, 0x00000000, some (0x401700FC, 0x0), [⟨2, 0, .ro⟩, ⟨3, 3, .ro⟩, ⟨5, 4, .ro⟩, ⟨7, 6, .ro⟩, ⟨8, 8, .ro⟩, ⟨9, 9, .ro⟩, ⟨14, 12, .ro⟩]⟩,
  ⟨0x40170004, 0x10000, 1, 0x4, 1, 0x00000000, some (0x401700FC, 0x0), [⟨3, 0, .wo⟩, ⟨5, 4, .wo⟩]⟩,
  ⟨0x40170008, 0x10000, 1, 0x4, 1, 0x00000000, some (0x401700FC, 0x0), [⟨0, 0, .ro⟩, ⟨1, 1, .ro⟩, ⟨16, 16, .w1c⟩, ⟨17, 17, .w1c⟩, ⟨18, 18, .w1c⟩, ⟨19, 19, .w1c⟩, ⟨20, 20, .w1c⟩, ⟨21, 21, .w1c⟩]⟩,
  ⟨0x4017000C, 0x10000, 1, 0x4, 1, 0x0000000A, some (0x401700FC, 0x0), [⟨7, 0, .rwl⟩]⟩,
  ⟨0x40170010, 0x10000, 1, 0x4, 1, 0x00000000, some (0x401700FC, 0x0), [⟨7, 0, .ro⟩, ⟨15, 8, .ro⟩, ⟨23, 16, .ro⟩]⟩,
  ⟨0x40170014, 0x10000, 1, 0x4, 1, 0x00000000, some (0x401700FC, 0x0), [⟨15, 0, .ro⟩, ⟨31, 16, .ro⟩]⟩,
  ⟨0x40170018, 0x10000, 1, 0x4, 1, 0x00000000, some (0x401700FC, 0x0), [⟨15, 0, .ro⟩, ⟨31, 16, .ro⟩]⟩,
  ⟨0x4017001C, 0x10000, 1, 0x4, 1, 0x00000000, some (0x401700FC, 0x0), [⟨12, 0, .ro⟩]⟩,
  ⟨0x40170020, 0x10000, 1, 0x4, 1, 0x00000000, some (0x401700FC, 0x0), [⟨31, 0, .rw⟩]⟩,
  ⟨0x40170024, 0x10000, 1, 0x4, 1, 0x00000000, some (0x401700FC, 0x0), [⟨31, 0, .rw⟩]⟩,
  ⟨0x40170028, 0x10000, 1, 0x4, 1, 0x00000000, some (0x401700FC, 0x0), [⟨11, 0, .rw⟩, ⟨12, 12, .ro⟩]⟩,
  ⟨0x40170040, 0x4, 12, 0x4, 1, 0x00000000, some (0x401700FC, 0x0), [⟨31, 0, .ro⟩]⟩,
  ⟨0x401700FC, 0x10000, 1, 0x4, 1, 0x00000000, some (0x401700FC, 0x0), [⟨15, 0, .wo⟩]⟩]


/-! ## SEC: block base 0x40160000 -/

/-- SEC_CMD. -/
def secCmd : Nat := 0x40160000
/-- SEC_CMD.op [3:0], WO. -/
def secCmd_op : RF := ⟨secCmd, 3, 0⟩
/-- SEC_CMD.bank [4:4], WO. -/
def secCmd_bank : RF := ⟨secCmd, 4, 4⟩
/-- SEC_CMD.slot [11:8], WO. -/
def secCmd_slot : RF := ⟨secCmd, 11, 8⟩
/-- SEC_STAT. -/
def secStat : Nat := 0x40160004
/-- SEC_STAT.busy [0:0], RO. -/
def secStat_busy : RF := ⟨secStat, 0, 0⟩
/-- SEC_STAT.boot_bank [1:1], RO. -/
def secStat_boot_bank : RF := ⟨secStat, 1, 1⟩
/-- SEC_STAT.fallback [2:2], RO. -/
def secStat_fallback : RF := ⟨secStat, 2, 2⟩
/-- SEC_STAT.trial [3:3], RO. -/
def secStat_trial : RF := ⟨secStat, 3, 3⟩
/-- SEC_STAT.done [16:16], W1C. -/
def secStat_done : RF := ⟨secStat, 16, 16⟩
/-- SEC_STAT.fail [17:17], W1C. -/
def secStat_fail : RF := ⟨secStat, 17, 17⟩
/-- SEC_STAT.refused [18:18], W1C. -/
def secStat_refused : RF := ⟨secStat, 18, 18⟩
/-- SEC_STAT.img_fail [19:19], W1C. -/
def secStat_img_fail : RF := ⟨secStat, 19, 19⟩
/-- SEC_IMG. -/
def secImg : Nat := 0x40160008
/-- SEC_IMG.sig_ok [0:0], RO. -/
def secImg_sig_ok : RF := ⟨secImg, 0, 0⟩
/-- SEC_IMG.key_ok [1:1], RO. -/
def secImg_key_ok : RF := ⟨secImg, 1, 1⟩
/-- SEC_IMG.sver_ok [2:2], RO. -/
def secImg_sver_ok : RF := ⟨secImg, 2, 2⟩
/-- SEC_IMG.class_eq [3:3], RO. -/
def secImg_class_eq : RF := ⟨secImg, 3, 3⟩
/-- SEC_IMG.valid [4:4], RO. -/
def secImg_valid : RF := ⟨secImg, 4, 4⟩
/-- SEC_IMG.sver [15:8], RO. -/
def secImg_sver : RF := ⟨secImg, 15, 8⟩
/-- SEC_IMG.class [31:16], RO. -/
def secImg_class : RF := ⟨secImg, 31, 16⟩
/-- SEC_IMG_VER. -/
def secImgVer : Nat := 0x4016000C
/-- SEC_IMG_VER.v [31:0], RO. -/
def secImgVer_v : RF := ⟨secImgVer, 31, 0⟩
/-- SEC_RUN. -/
def secRun : Nat := 0x40160010
/-- SEC_RUN.v [31:0], RO. -/
def secRun_v : RF := ⟨secRun, 31, 0⟩
/-- SEC_REVOKE. -/
def secRevoke : Nat := 0x40160014
/-- SEC_REVOKE.rev [3:0], RO. -/
def secRevoke_rev : RF := ⟨secRevoke, 3, 0⟩
/-- SEC_REVOKE.fill [7:4], RO. -/
def secRevoke_fill : RF := ⟨secRevoke, 7, 4⟩
/-- SEC_REVOKE.sleep [8:8], RO. -/
def secRevoke_sleep : RF := ⟨secRevoke, 8, 8⟩
/-- SEC_SERIAL_LO. -/
def secSerialLo : Nat := 0x40160018
/-- SEC_SERIAL_LO.s [31:0], RO. -/
def secSerialLo_s : RF := ⟨secSerialLo, 31, 0⟩
/-- SEC_SERIAL_HI. -/
def secSerialHi : Nat := 0x4016001C
/-- SEC_SERIAL_HI.s [31:0], RO. -/
def secSerialHi_s : RF := ⟨secSerialHi, 31, 0⟩
/-- SEC_PW. -/
def secPw (k : Nat) : Nat := 0x40160040 + 0x4 * k
/-- SEC_PW.w [31:0], WO. -/
def secPw_w (k : Nat) : RF := ⟨secPw k, 31, 0⟩
/-- SEC_CHAL. -/
def secChal (k : Nat) : Nat := 0x40160080 + 0x4 * k
/-- SEC_CHAL.w [31:0], RO. -/
def secChal_w (k : Nat) : RF := ⟨secChal k, 31, 0⟩
/-- SEC_SIG. -/
def secSig (k : Nat) : Nat := 0x40160100 + 0x4 * k
/-- SEC_SIG.w [31:0], WO. -/
def secSig_w (k : Nat) : RF := ⟨secSig k, 31, 0⟩
/-- SEC_NONCE. -/
def secNonce (k : Nat) : Nat := 0x40160180 + 0x4 * k
/-- SEC_NONCE.w [31:0], WO. -/
def secNonce_w (k : Nat) : RF := ⟨secNonce k, 31, 0⟩
/-- SEC_KEYIN. -/
def secKeyin (k : Nat) : Nat := 0x401601A0 + 0x4 * k
/-- SEC_KEYIN.w [31:0], WO. -/
def secKeyin_w (k : Nat) : RF := ⟨secKeyin k, 31, 0⟩
/-- SEC_RPT. -/
def secRpt (k : Nat) : Nat := 0x40160400 + 0x4 * k
/-- SEC_RPT.w [31:0], RO. -/
def secRpt_w (k : Nat) : RF := ⟨secRpt k, 31, 0⟩
/-- SEC_PW_LEN. -/
def secPwLen : Nat := 0x40160060
/-- SEC_PW_LEN.len [5:0], WO. -/
def secPwLen_len : RF := ⟨secPwLen, 5, 0⟩
/-- The register table of block SEC. -/
def tableSec : List RegRow := [
  ⟨0x40160000, 0x10000, 1, 0x4, 1, 0x00000000, none, [⟨3, 0, .wo⟩, ⟨4, 4, .wo⟩, ⟨11, 8, .wo⟩]⟩,
  ⟨0x40160004, 0x10000, 1, 0x4, 1, 0x00000000, none, [⟨0, 0, .ro⟩, ⟨1, 1, .ro⟩, ⟨2, 2, .ro⟩, ⟨3, 3, .ro⟩, ⟨16, 16, .w1c⟩, ⟨17, 17, .w1c⟩, ⟨18, 18, .w1c⟩, ⟨19, 19, .w1c⟩]⟩,
  ⟨0x40160008, 0x10000, 1, 0x4, 1, 0x00000000, none, [⟨0, 0, .ro⟩, ⟨1, 1, .ro⟩, ⟨2, 2, .ro⟩, ⟨3, 3, .ro⟩, ⟨4, 4, .ro⟩, ⟨15, 8, .ro⟩, ⟨31, 16, .ro⟩]⟩,
  ⟨0x4016000C, 0x10000, 1, 0x4, 1, 0x00000000, none, [⟨31, 0, .ro⟩]⟩,
  ⟨0x40160010, 0x10000, 1, 0x4, 1, 0x00000000, none, [⟨31, 0, .ro⟩]⟩,
  ⟨0x40160014, 0x10000, 1, 0x4, 1, 0x00000000, none, [⟨3, 0, .ro⟩, ⟨7, 4, .ro⟩, ⟨8, 8, .ro⟩]⟩,
  ⟨0x40160018, 0x10000, 1, 0x4, 1, 0x00000000, none, [⟨31, 0, .ro⟩]⟩,
  ⟨0x4016001C, 0x10000, 1, 0x4, 1, 0x00000000, none, [⟨31, 0, .ro⟩]⟩,
  ⟨0x40160040, 0x4, 8, 0x4, 1, 0x00000000, none, [⟨31, 0, .wo⟩]⟩,
  ⟨0x40160080, 0x4, 11, 0x4, 1, 0x00000000, none, [⟨31, 0, .ro⟩]⟩,
  ⟨0x40160100, 0x4, 24, 0x4, 1, 0x00000000, none, [⟨31, 0, .wo⟩]⟩,
  ⟨0x40160180, 0x4, 8, 0x4, 1, 0x00000000, none, [⟨31, 0, .wo⟩]⟩,
  ⟨0x401601A0, 0x4, 12, 0x4, 1, 0x00000000, none, [⟨31, 0, .wo⟩]⟩,
  ⟨0x40160400, 0x4, 128, 0x4, 1, 0x00000000, none, [⟨31, 0, .ro⟩]⟩,
  ⟨0x40160060, 0x10000, 1, 0x4, 1, 0x00000000, none, [⟨5, 0, .wo⟩]⟩]


/-! ## BIST: block base 0x40180000 -/

/-- BIST_CMD. -/
def bistCmd : Nat := 0x40180000
/-- BIST_CMD.mask [10:0], WO. -/
def bistCmd_mask : RF := ⟨bistCmd, 10, 0⟩
/-- BIST_CMD.run [16:16], WO. -/
def bistCmd_run : RF := ⟨bistCmd, 16, 16⟩
/-- BIST_CMD.abort [17:17], WO. -/
def bistCmd_abort : RF := ⟨bistCmd, 17, 17⟩
/-- BIST_STAT. -/
def bistStat : Nat := 0x40180004
/-- BIST_STAT.busy [0:0], RO. -/
def bistStat_busy : RF := ⟨bistStat, 0, 0⟩
/-- BIST_STAT.test [7:4], RO. -/
def bistStat_test : RF := ⟨bistStat, 7, 4⟩
/-- BIST_STAT.done [16:16], W1C. -/
def bistStat_done : RF := ⟨bistStat, 16, 16⟩
/-- BIST_STAT.fail [17:17], W1C. -/
def bistStat_fail : RF := ⟨bistStat, 17, 17⟩
/-- BIST_STAT.refused [18:18], W1C. -/
def bistStat_refused : RF := ⟨bistStat, 18, 18⟩
/-- BIST_STAT.aborted [19:19], W1C. -/
def bistStat_aborted : RF := ⟨bistStat, 19, 19⟩
/-- BIST_STAT.refx_fail [20:20], W1C. -/
def bistStat_refx_fail : RF := ⟨bistStat, 20, 20⟩
/-- BIST_REFX_LIM. -/
def bistRefxLim : Nat := 0x40180010
/-- BIST_REFX_LIM.lim [15:0], RWL. -/
def bistRefxLim_lim : RF := ⟨bistRefxLim, 15, 0⟩
/-- BIST_RES. -/
def bistRes (t : Nat) : Nat := 0x40180100 + 0x8 * t
/-- BIST_RES.cov [9:0], RO. -/
def bistRes_cov (t : Nat) : RF := ⟨bistRes t, 9, 0⟩
/-- BIST_RES.run [10:10], RO. -/
def bistRes_run (t : Nat) : RF := ⟨bistRes t, 10, 10⟩
/-- BIST_RES.pass [11:11], RO. -/
def bistRes_pass (t : Nat) : RF := ⟨bistRes t, 11, 11⟩
/-- BIST_RES.abort [12:12], RO. -/
def bistRes_abort (t : Nat) : RF := ⟨bistRes t, 12, 12⟩
/-- BIST_RES.dur [31:13], RO. -/
def bistRes_dur (t : Nat) : RF := ⟨bistRes t, 31, 13⟩
/-- BIST_DET. -/
def bistDet (t : Nat) : Nat := 0x40180104 + 0x8 * t
/-- BIST_DET.detail [15:0], RO. -/
def bistDet_detail (t : Nat) : RF := ⟨bistDet t, 15, 0⟩
/-- BIST_DET.runs [31:16], RO. -/
def bistDet_runs (t : Nat) : RF := ⟨bistDet t, 31, 16⟩
/-- BIST_LOCK. -/
def bistLock : Nat := 0x401800FC
/-- BIST_LOCK.key [15:0], WO. -/
def bistLock_key : RF := ⟨bistLock, 15, 0⟩
/-- The register table of block BIST. -/
def tableBist : List RegRow := [
  ⟨0x40180000, 0x10000, 1, 0x4, 1, 0x00000000, some (0x401800FC, 0x0), [⟨10, 0, .wo⟩, ⟨16, 16, .wo⟩, ⟨17, 17, .wo⟩]⟩,
  ⟨0x40180004, 0x10000, 1, 0x4, 1, 0x00000000, some (0x401800FC, 0x0), [⟨0, 0, .ro⟩, ⟨7, 4, .ro⟩, ⟨16, 16, .w1c⟩, ⟨17, 17, .w1c⟩, ⟨18, 18, .w1c⟩, ⟨19, 19, .w1c⟩, ⟨20, 20, .w1c⟩]⟩,
  ⟨0x40180010, 0x10000, 1, 0x4, 1, 0x0000003C, some (0x401800FC, 0x0), [⟨15, 0, .rwl⟩]⟩,
  ⟨0x40180100, 0x8, 11, 0x4, 1, 0x00000000, some (0x401800FC, 0x0), [⟨9, 0, .ro⟩, ⟨10, 10, .ro⟩, ⟨11, 11, .ro⟩, ⟨12, 12, .ro⟩, ⟨31, 13, .ro⟩]⟩,
  ⟨0x40180104, 0x8, 11, 0x4, 1, 0x00000000, some (0x401800FC, 0x0), [⟨15, 0, .ro⟩, ⟨31, 16, .ro⟩]⟩,
  ⟨0x401800FC, 0x10000, 1, 0x4, 1, 0x00000000, some (0x401800FC, 0x0), [⟨15, 0, .wo⟩]⟩]

end Sys2Proof.Machine.R
end

