-- ==== Sys2Proof/Machine/Sparse.lean ====
section
/-! DEFINITION. Sparse maps: lists of key and value pairs in one canonical form (keys strictly rising, no entry equal
to what an unlisted key reads as), so that equal maps are equal data. -/

namespace Sys2Proof.Machine

/-- The value at a key; `d` is what an unlisted key reads as. -/
def Sparse.get {β : Type} (d : β) : List (Nat × β) → Nat → β
  | [], _ => d
  | (a, b) :: m, k => if a = k then b else Sparse.get d m k

/-- Puts an entry before the first greater key. -/
def Sparse.insert {β : Type} (k : Nat) (v : β) : List (Nat × β) → List (Nat × β)
  | [] => [(k, v)]
  | (a, b) :: m => if k < a then (k, v) :: (a, b) :: m else (a, b) :: Sparse.insert k v m

/-- A map without the entries of a key. -/
def Sparse.erase {β : Type} (k : Nat) : List (Nat × β) → List (Nat × β)
  | [] => []
  | (a, b) :: m => if a = k then Sparse.erase k m else (a, b) :: Sparse.erase k m

/-- Sets the value at a key; a value equal to what the unlisted key reads as removes the entry. -/
def Sparse.set {β : Type} [DecidableEq β] (d : Nat → β) (m : List (Nat × β)) (k : Nat) (v : β) : List (Nat × β) :=
  if v = d k then Sparse.erase k m else Sparse.insert k v (Sparse.erase k m)

/-- The canonical form of a sparse map, every key from `lo` on. -/
def Sparse.wfFrom {β : Type} [DecidableEq β] (d : Nat → β) : Nat → List (Nat × β) → Bool
  | _, [] => true
  | lo, (a, b) :: m => decide (lo ≤ a) && decide (b ≠ d a) && Sparse.wfFrom d (a + 1) m

/-- The canonical form of a sparse map. -/
def Sparse.wf {β : Type} [DecidableEq β] (d : Nat → β) (m : List (Nat × β)) : Bool := Sparse.wfFrom d 0 m

end Sys2Proof.Machine
end

