-- ==== Sys2Proof/Machine/RegTable.lean ====
section
/-! DEFINITION. Which register an address holds, what a register reads after reset, and what a byte of memory that
nothing has written reads as. -/

namespace Sys2Proof.Machine

/-- Whether a row covers a register address. -/
def RegRow.covers (r : RegRow) (a : Nat) : Bool :=
  let d := a - r.base
  decide (r.base ≤ a) && decide (d / r.s1 < r.c1) && decide (d % r.s1 % r.s2 = 0) && decide (d % r.s1 / r.s2 < r.c2)

/-- The register rows of a block, by bits [31:16] of its addresses (chapter 16). -/
def R.blockTable (a : Nat) : List RegRow :=
  match a / 0x10000 with
  | 0x4000 => R.tableSys
  | 0x4001 => R.tableBelay
  | 0x4002 => R.tableRope
  | 0x4003 => R.tableTriad
  | 0x4004 => R.tableRidge
  | 0x4005 => R.tableMbox
  | 0x4006 => R.tableSema
  | 0x4007 => R.tableWat
  | 0x4008 => R.tableAxp
  | 0x4009 => R.tableFb ++ R.tableQeo
  | 0x400A => R.tableFld
  | 0x400B => R.tableProf
  | 0x400C => R.tableLe
  | 0x400D => R.tableEdge
  | 0x400E => R.tableBrg
  | 0x400F => R.tableTrip
  | 0x4010 => R.tableAdc
  | 0x4011 => R.tableCde
  | 0x4012 => R.tableTether
  | 0x4013 => R.tableSiu
  | 0x4014 => R.tablePwr
  | 0x4015 => R.tableCairn
  | 0x4016 => R.tableSec
  | 0x4017 => R.tableLcs
  | 0x4018 => R.tableBist
  | 0x4019 => R.tableNvmc
  | 0x401B => R.tableSkim
  | _ => []

/-- The row of a register address; none for an unassigned offset (R10). -/
def R.findRow (a : Nat) : Option RegRow := (R.blockTable a).find? (fun r => r.covers a)

/-- The fields of which one register of a row has its own reset value: the checks of AXP_MON_THR (R89), the sources of
TRIP_MAP (R261, R603), the spare rows of a region (R514), SYS_ID of lane A with variant 1 and revision 1, both supply inputs
present, and the INSTALL state in which modules ship (R602) (assumption 61). -/
def R.resetSpecial (a : Nat) : Option Word :=
  if a = 0x40000000 then some 0x7A481001
  else if a = 0x40140004 then some 0x0000000C
  else if a = 0x40170000 then some 0x00000002
  else if 0x40190040 ≤ a && a < 0x40190060 && a % 4 == 0 then
    ([82, 41, 6, 6, 16, 11, 3, 3][(a - 0x40190040) / 4]?).map (fun n => BitVec.ofNat 32 (n * 2 ^ 24))
  else if 0x400F0100 ≤ a && a < 0x400F0200 && a % 4 == 0 then
    let k := (a - 0x400F0100) / 4
    if k ≤ 23 || k == 35 then some 0x000303FF
    else if k == 24 then some 0x00030300
    else if k == 31 then some 0x000300AA
    else if k ≤ 30 || k == 33 then some 0x00020000
    else none
  else if 0x40080000 ≤ a && a < 0x40084000 && 0x60 ≤ a % 0x1000 && a % 0x1000 < 0x80 && a % 4 == 0 then
    [0x01030666, 0x02030040, 0x02020001, 0x0108019A, 0x01081000, 0x02010000, 0x01040500, 0x01027000][(a % 0x1000 - 0x60) / 4]?
  else none

/-- What a register reads after reset, as its caption says. -/
def R.regReset (a : Nat) : Word :=
  match R.resetSpecial a with
  | some w => w
  | none =>
    match R.findRow a with
    | some r => BitVec.ofNat 32 r.reset
    | none => 0

/-- What a byte of memory that nothing has written reads as: an erased byte in the eNVM (assumption 63), 0 elsewhere
(R604). -/
def memReset (a : Nat) : Byte := if a < 0x00810000 then Config.erasedByte else 0

end Sys2Proof.Machine
end

