-- ==== Sys2Proof/Machine/State.lean ====
section
/-! DEFINITION. The state of a module: three lanes (lane die and bridge die), the Rope links between them, and the
queue of the commands that wait. Registers, signals and memories are sparse maps in one canonical form: keys strictly
rising, and no entry equal to what an unlisted key reads as. What a register holds is held there and nowhere else;
the structures below hold only what the spec gives the machine outside its registers. -/

namespace Sys2Proof.Machine

/-- A sparse map of counts; an unlisted key reads 0. -/
abbrev NMap := List (Nat × Nat)

/-- A sparse map of words (registers by bus address, signals by ID). -/
abbrev WMap := List (Nat × Word)

/-- Why a run stops. No command of this spec has a behaviour that the spec itself calls undefined and leaves without
an effect, so no meaning raises a fault; the constructor names the one case that the state's own form excludes. -/
inductive Fault where
  /-- No meaning raises it. Safe: a run that stops claims nothing. -/
  | none
deriving DecidableEq, Repr

/-- Why a command has no meaning. -/
inductive Refusal where
  /-- Raised by an arm of `exec` whose command has not been modelled; safe, a refused command claims nothing. -/
  | notModelled (mnemonic : String)
deriving DecidableEq, Repr

/-- A plan of PROFILE (R172): its kind (mode code), the period of its start, the start state, the segments of constant
jerk with their durations, and the end position and velocity. Positions are in units of 2^−72/6 counts, velocities of
2^−73 counts and accelerations of 2^−72 counts per 1/65,536 period; durations in 1/65,536 period. -/
structure Plan where
  start : Nat
  p : Int
  v : Int
  a : Int
  segs : List (Int × Nat)
  pEnd : Int
  vEnd : Int
deriving DecidableEq, Repr

/-- A sample of the network stream: due period, whether it carries a velocity, position, velocity (R175, R176). -/
structure Sample where
  due : Int
  velValid : Bool
  pos : Int
  vel : Int
deriving DecidableEq, Repr

/-- PROFILE of one axis beside its registers and signals (chapter 5). -/
structure ProfSt where
  plan : Option Plan := none
  /-- Present target: position in counts or velocity in Q24.8, by mode; mode held before HOLD with its target. -/
  target : Int := 0
  beforeHold : Nat := 0
  /-- A PROF command that awaits its boundary: op and bits [7:0] of its period (R168). -/
  pend : Option (Nat × Nat) := none
  /-- A command stored for START or RESUME (R170). -/
  stored : Option Nat := none
  /-- The up to 4 newest stream samples, newest first, and the slope of the last interpolation in Q24.8 (R178). -/
  samples : List Sample := []
  slope : Int := 0
  /-- Runs of FERR, STALL and LOST, and the checks that have fired in their run (R182). -/
  runs : NMap := []
  fired : List Nat := []
deriving DecidableEq, Repr

/-- What a rejoin transfer carries of an axis: AXP_STATE with the target of its pending command, PROF_STATE with what
PROFILE keeps beside it, the applied weights, and the observer speed and acceleration (R305). -/
structure AxisTransfer where
  axpState : Word
  pendAt : Nat
  profState : Word
  prof : ProfSt
  weights : List Word
  vHat : Int
  aHat : Int
deriving DecidableEq, Repr

/-- What a rejoin transfer carries of a described loop: its data-memory state areas, LE_LOOPSTAT with region, set and
blend, and the set and bank from which it blends (R305). -/
structure LoopTransfer where
  engine : Nat
  loop : Nat
  area : List Byte
  stat : Word
  inited : Bool
  fromSet : Nat
  fromBank : Nat
deriving DecidableEq, Repr

/-- A rejoin transfer: the sender, the period number of P_t, and k (R305). -/
structure Transfer where
  sender : Lane
  period : Nat
  k : Nat
  axes : List AxisTransfer
  loops : List LoopTransfer
deriving DecidableEq, Repr

/-- A frame or block in flight on a Rope link (R30, R44, R51, R321, R601). -/
inductive RopeMsg where
  /-- An idle frame (R321). -/
  | idle
  /-- A TIME frame, with bits [15:0] of the sender's period number (R31). -/
  | time (pnum : Nat)
  /-- A TIME_REPORT: the sender's period number, the period numbers of the two TIME frames it reports, the sender's
  transmit and receive stamps in its own time, and its latest offset to its third lane (R30, R31). -/
  | timeReport (pnum txPnum rxPnum tx rx : Nat) (third : Option Int)
  /-- A signal block: first signal ID and the words of consecutive signals (R51). -/
  | block (start : Nat) (words : List Word)
  /-- SYS_TICK and the Cordee basic cycle, sent in SYNC (R44), with the SYS_ID without its lane field and the life-cycle
  state (R276, R536) and split mode (R352). -/
  | tickParam (tick cycle sysId : Word) (lc : Nat) (split : Bool)
  /-- A relay block: network, frame ID, basic-cycle index and payload of a received frame (R412). -/
  | relay (net fid cycle : Nat) (payload : List Byte)
  /-- The rejoin transfer (R305). -/
  | transfer (t : Transfer)
deriving DecidableEq, Repr

/-- A signal block that waits on a link: its rank (lower goes first), first ID and words (R601, R71). -/
structure TxBlock where
  rank : Nat
  msg : RopeMsg
deriving DecidableEq, Repr

/-- What a lane keeps of one Rope link (R31, R44, R322). -/
structure LinkSt where
  /-- Blocks that wait to be sent, in the order in which they were queued. -/
  waiting : List TxBlock := []
  /-- The own TIME frame of this period: its stamp and period number. -/
  ownTx : Option (Nat × Nat) := none
  /-- The peer's TIME frame of this period: its arrival stamp, the period number it carries, its CRC result. -/
  ownRx : Option (Nat × Nat × Bool) := none
  /-- The offset measured in this period, if it was valid. -/
  meas : Option Int := none
  /-- SYS_TICK and basic cycle of the peer, SYS_ID and life-cycle state, once received in SYNC. -/
  peerTick : Option (Word × Word) := none
  peerIdent : Option (Word × Nat) := none
  /-- The peer reports split mode (R352). -/
  peerSplit : Bool := false
  /-- CRC errors of this period, and consecutive periods without one. -/
  errs : Nat := 0
  cleanRun : Nat := 0
deriving DecidableEq, Repr

/-- Lane time and its alignment (R15, R29, R31, R33, R36, R38, R40, R48). -/
structure TimeSt where
  /-- Lane time: bits [63:6] coarse ticks, bits [5:0] fine steps. -/
  now : BitVec 64 := 0
  /-- Upper half captured by a read of SYS_TIME_LO, per master (by master ID). -/
  latch : WMap := []
  /-- Same for CAIRN_TIME, and for FB_POS (key: axis × 64 + master ID). -/
  cairnLatch : WMap := []
  posLatch : WMap := []
  /-- Correction in force in this period and correction for the next, in fine steps. -/
  slew : Int := 0
  nextSlew : Int := 0
  /-- Held pair offsets A to B, B to C, C to A (second minus first) with periods since the last valid one. -/
  heldAB : Option (Int × Nat) := none
  heldBC : Option (Int × Nat) := none
  heldCA : Option (Int × Nat) := none
  /-- Consecutive periods beyond and within 250 ns, by lane index. -/
  beyond : NMap := []
  within : NMap := []
  /-- Lanes that are measured in this period, by lane index. -/
  measured : List Nat := []
  /-- Consecutive periods with the own offset within 50 ns (R40). -/
  syncRun : Nat := 0
  /-- A step was taken in this stay in SYNC (R38). -/
  stepped : Bool := false
  /-- OSC_x ready; PLLs on the internal RC reference (R48). -/
  oscOk : Bool := false
  onRc : Bool := false
  /-- The last period boundary and the last tick boundary that have been taken, in coarse ticks. -/
  lastPeriod : Option Nat := none
  lastTick : Option Nat := none
deriving DecidableEq, Repr

/-- Skim: what the job table does not show (R53 to R56). -/
structure SkimSt where
  /-- Jobs that are due, and jobs that have run once with period 0. -/
  due : List Nat := []
  ranOnce : List Nat := []
  /-- Servo periods since a job was last due. -/
  since : NMap := []
  /-- The job whose step is in progress. -/
  running : Option Nat := none
deriving DecidableEq, Repr

/-- An access sent over Lath that waits for its reply (R19). -/
structure LathSt where
  /-- Master ID, write?, address, data of the access in progress. -/
  pending : Option (Nat × Bool × Nat × Word) := none
  /-- Frames of this access that have failed their CRC. -/
  fails : Nat := 0
  /-- Accesses that have ended, by master ID: data of a read, replies that wait to be taken, bus errors. -/
  reply : WMap := []
  done : List Nat := []
  busErr : List Nat := []
deriving DecidableEq, Repr

/-- What an axis pipeline instance keeps beside its registers and signals (chapter 2). -/
structure AxisSt where
  /-- The own LOOP result of this period was complete (R77, R213). -/
  ownDone : Bool := false
  /-- The median stage of this period has completed (R214). -/
  medDone : Bool := false
  /-- A PROMPT result waits for its tick boundary: value and the coarse tick from which it may be used (R75). -/
  prompt : Option (Word × Nat) := none
  /-- Peers whose record of this period took part (R79), by lane index. -/
  took : List Nat := []
  /-- Lanes that have posted a headroom since this lane's reset, and their last posted headroom (R86, R87). -/
  posted : List Nat := []
  headroom : NMap := []
  /-- T_avail last posted by a lane (R302). -/
  lastAvail : NMap := []
  /-- Weights before and after the ramp in progress, its step k and length; length 0: no ramp (R86). -/
  wOld : NMap := []
  wNew : NMap := []
  rampK : Nat := 0
  rampLen : Nat := 0
  /-- Admission ramp: admitted lane and step k of 16 (R307). -/
  admitRamp : Option (Nat × Nat) := none
  /-- The driving lanes at the last commit tick (R87). -/
  drove : List Nat := []
  /-- Set torques of the driving lanes of the last commit (R88). -/
  setTorque : List (Nat × Int) := []
  /-- Consecutive periods in which a peer's axis state differed (R83), by lane index. -/
  stateDiff : NMap := []
  /-- MONITOR: run of each check, and the checks that have fired in their present run (R89). -/
  monRun : NMap := []
  monFired : List Nat := []
  /-- Target of the pending AXP command: bits [7:0] of its period number (R94). -/
  pendAt : Nat := 0
  /-- Period at whose boundary a transition of higher precedence fell (R95). -/
  higherAt : Option Nat := none
  /-- Actions of fired profile checks that await the next boundary (R183). -/
  profActs : List Nat := []
  /-- Legs whose low side was measured on at the hold instant of this tick (R66). -/
  lowOn : List Nat := []
deriving DecidableEq, Repr

/-- The converters of a lane (R62, R64): latest codes by ADC index and by housekeeping channel, and the latest
bridge-die port temperatures in Q12.4 degrees by port (R84). -/
structure AdcSt where
  code : NMap := []
  hk : NMap := []
  portTemp : List (Nat × Int) := []
deriving DecidableEq, Repr

/-- The feedback of one axis beside its registers and signals (chapter 3). -/
structure FbSt where
  /-- Feedback runs (R100); the quadrature counter has been set from the first valid sample. -/
  started : Bool := false
  primed : Bool := false
  /-- Quadrature counter, its sample at the tick boundary, the comparator levels (R99, R100). -/
  c : BitVec 38 := 0
  cSample : BitVec 38 := 0
  levelA : Bool := false
  levelB : Bool := false
  /-- QUAD_ERR raised for the tick in progress. -/
  quadErr : Bool := false
  /-- Equalised pair of the tick in Q1.15, and the fine angle (R102, R107). -/
  s : Int := 0
  co : Int := 0
  phi : Nat := 0
  /-- Position of this tick and of the tick before, 48-bit signed; validity of this tick's position. -/
  pos : Int := 0
  prevPos : Int := 0
  posValid : Bool := false
  invalidRun : Nat := 0
  /-- Equalisation accumulators with 16 more fraction bits than the fields (R108). -/
  accOs : Int := 0
  accOc : Int := 0
  accGs : Int := 0
  accGc : Int := 0
  accK : Int := 0
  /-- Position of the index reference, Hall correction, ang_abs, last latched position (R113, R114, R118). -/
  refL : Int := 0
  hallCorr : Nat := 0
  angAbs : Bool := false
  lastLatch : Option Int := none
  /-- Stamps of accepted index edges that await their tick (R116). -/
  idxStamps : List Nat := []
  /-- Filtered Hall state, last legal sector (R119, R120). -/
  hall : Nat := 0
  lastLegal : Option Nat := none
  /-- A transition to a legal sector has been seen since start (R142). -/
  hallSeen : Bool := false
  /-- Edge-count speed: anchor and last edge as counter value and stamp, directions seen and net count of the window,
  windows without an edge, the speed in Q24.8, and the STILL, PARTIAL and REV conditions (R123, R124). -/
  anchor : Option (Int × Nat) := none
  lastEdge : Option (Int × Nat) := none
  upSeen : Bool := false
  downSeen : Bool := false
  net : Int := 0
  quiet : Nat := 0
  ecSpeed : Int := 0
  still : Bool := false
  isPartial : Bool := false
  rev : Bool := false
  /-- Observer: 24, 32 and 40 fraction bits (R125). -/
  pHat : Int := 0
  vHat : Int := 0
  aHat : Int := 0
  /-- Flags of the period raised since the last DECODE, as bit numbers of R133. -/
  raised : List Nat := []
  /-- Upper compare word written ahead of its commit; a committed P awaits its first evaluation (R130, R131). -/
  cmpHi : Nat := 0
  cmpFresh : Bool := false
  /-- Consecutive periods with a valid position (R297). -/
  validRun : Nat := 0
deriving DecidableEq, Repr

/-- The quadrature emulation output of a lane: counter and pins (R132). -/
structure QeoSt where
  counter : Int := 0
  pinA : Bool := false
  pinB : Bool := false
  pinZ : Bool := false
deriving DecidableEq, Repr

/-- An edge of a leg: leg 0 to 2, rising or falling, lane time in fine steps. -/
structure LegEdge where
  leg : Nat
  up : Bool
  stamp : Nat
deriving DecidableEq, Repr

/-- Field control of one set beside its registers and signals (chapter 4). Fluxes are Q2.30, currents Q1.31. -/
structure FldSt where
  psiA : Int := 0
  psiB : Int := 0
  /-- The current vector of the tick before and of this tick. -/
  iPrevA : Int := 0
  iPrevB : Int := 0
  iA : Int := 0
  iB : Int := 0
  stale : Bool := false
  /-- r with 16 more fraction bits than FLD_RS shows (R141). -/
  accR : Int := 0
  /-- Comparator states (R145). -/
  dT : Int := 0
  f : Bool := false
  /-- Vector code in force, and the sequence of the tick once FIELD is ready: instants in fine steps from the tick
  boundary, each with the vector that follows it (R152). -/
  vec : Nat := 0
  seq : Option (List (Nat × Nat)) := none
  /-- Leg levels at the last tick boundary, commanded and measured edges not yet consumed, legs whose report failed
  (R136, R137, R251). -/
  level : List Bool := []
  cmd : List LegEdge := []
  meas : List LegEdge := []
  failed : List Nat := []
  /-- Angle in force, its source and the references it was formed with; own flux in the rotor frame; angle of the own
  flux (R142, R143). -/
  theta : Nat := 0
  src : Nat := 0
  refL : Int := 0
  hallCorr : Nat := 0
  psiD : Int := 0
  psiQ : Int := 0
  /-- Voltage-limited and other consecutive ticks (R155); the latest torque estimates, newest first (R157). -/
  limRun : Nat := 0
  freeRun : Nat := 0
  tEst : List Int := []
  /-- The start sequence: off interval, its ticks, diode conduction, tick j of the torque ramp (R158). -/
  offInterval : Bool := false
  offTicks : Nat := 0
  conducting : Bool := false
  ramp : Option Nat := none
  /-- The start has no torque ramp: the pair share gives it (R435). -/
  skipRamp : Bool := false
deriving DecidableEq, Repr



/-- What a run of a loop reads as its coefficients: the bank, the set, and while a blend is in progress the set and
bank it comes from and the number m of this run (R204, R208). -/
structure SetView where
  bank : Nat
  set : Nat
  fromBank : Nat
  fromSet : Nat
  m : Nat
deriving DecidableEq, Repr

/-- A run in progress on a loop engine (R191): registers, accumulators and flag, the sections a CAS has updated
(R200), whether SHARE or COMMIT has taken effect (R213), a WAIT that holds as its m and t (R214), the period in which it
started, and its coefficients. -/
structure LeRun where
  loop : Nat
  pc : Nat
  q : WMap := []
  acc : List (Nat × Int) := []
  f : Bool
  cycles : Nat
  upd : List Nat := []
  shared : Bool := false
  wait : Option (Nat × Nat) := none
  period : Nat
  view : SetView
deriving DecidableEq, Repr

/-- What a loop engine keeps beside its registers and its memory (chapter 6). -/
structure LeSt where
  run : Option LeRun := none
  /-- Loops that are ready and wait: when each became ready, in fine steps of lane time, and its index. -/
  ready : List (Nat × Nat) := []
  /-- Loops whose next run has F = 0 (R191), loops whose region has been initialised (R202). -/
  ran : List Nat := []
  inited : List Nat := []
  /-- Trigger-2 loops that have become ready in this period (R190). -/
  chained : List Nat := []
  /-- The set and bank from which a loop blends (R204, R208). -/
  fromSet : NMap := []
  fromBank : NMap := []
  /-- The check of bank A at LE_LOCK: 0 none, 1 in progress, 2 passed, 3 failed (R209). -/
  check : Nat := 0
  /-- The period that the pending SWAP names (R207). -/
  swapAt : Int := 0
deriving DecidableEq, Repr

/-- What the edge generator keeps beside its registers (chapter 7). -/
structure EdgeSt where
  /-- Active compares of PWM units in fine steps, unlisted: none (0x3F_FFFF); active periods of the timebases (R228). -/
  actOn : NMap := []
  actOff : NMap := []
  tbPeriod : NMap := []
  /-- Timebases that have had their first boundary since they were enabled (R219). -/
  tbRun : List Nat := []
  /-- Compares that have fired in the present timebase period, 2 × unit + 1 for OFF (R220). -/
  fired : List Nat := []
  /-- Axes whose legs were loaded in this tick, and the fine step at which each load completed (R223, R224). -/
  loaded : List Nat := []
  loadDone : NMap := []
  /-- Pulses asked for by position-compare hits: unit and start in fine steps of lane time; the end of each unit's last
  pulse (R231). -/
  pulseReq : List (Nat × Nat) := []
  pulseEnd : NMap := []
  /-- Units that the halt state holds; a release awaits the next field tick (R238). -/
  held : List Nat := []
  releasing : Bool := false
  /-- Every gate wire and auxiliary output is forced low until reset (R239). -/
  forcedLow : Bool := false
  /-- N16 of tap table A (key 2g) and B (key 2g + 1), unlisted: 1,648; groups whose new table awaits a tick boundary
  with its N16; the lock-time calibration runs (R233, R235, R237). -/
  tabN16 : NMap := []
  newTab : List (Nat × Nat) := []
  calRunning : Bool := false
deriving DecidableEq, Repr

/-- What the triad keeps beside its registers (chapter 10). Cores are numbered 0 to 2; times are lane time in coarse
ticks. -/
structure TriadSt where
  /-- The pipeline is frozen by the debug unit; cores that are halted by it; one instruction is let through (R342). -/
  frozen : Bool := false
  halted : List Nat := []
  stepping : Bool := false
  /-- The cores are frozen by TRIAD_3 until the lane reset (R338). -/
  stuck : Bool := false
  /-- The resynchronisation in progress: 0 none, 1 reset, 2 self-test, 3 copy, 4 waits for a boundary, 5 pair stall; when
  it began (R333). Past resynchronisations: core and time (R337). -/
  rsStep : Nat := 0
  rsAt : Nat := 0
  history : List (Nat × Nat) := []
  /-- A comparator test is due, since when (R331, R332). -/
  testDue : Option Nat := none
  /-- Since when force_abstain is 1 (R345). -/
  abstainAt : Option Nat := none
  /-- Breakpoints and watchpoints: whether a watchpoint, and the address (R342). -/
  breaks : List (Bool × Nat) := []
deriving DecidableEq, Repr

/-- A report of a switch-node crossing on its way over Lath (R251): phase, direction, whether a wire edge of the leg
caused it, and the delay after the wire edge or the offset from the field-tick boundary in fine steps. -/
structure EdgeReport where
  phase : Nat
  up : Bool
  byWire : Bool
  value : Nat
deriving DecidableEq, Repr

/-- What the bridge die keeps beside its registers (chapter 8). Gates are indexed 0 to 24, phases and legs 0 to 11. -/
structure BridgeSt where
  /-- Gate wires that are high at the bridge die. -/
  wire : List Nat := []
  /-- Gates whose last started transition is a turn-on; the phase of the transition in progress, 1 prime, 2 float, 0 set
  (R244); gates whose transition is not yet confirmed (R246); turn-ons that wait (R247); gates that turn off through
  the weak sink (R258). -/
  on : List Nat := []
  phase : NMap := []
  unconf : List Nat := []
  waiting : List Nat := []
  soft : List Nat := []
  /-- Phases in a refresh pulse (R252), legs held by an interlock (R249), ports that wait for a tick marker (R268). -/
  refresh : List Nat := []
  ilkHold : List Nat := []
  marker : List Nat := []
  /-- The check of R241 has failed. -/
  cfgFailed : Bool := false
  /-- The current envelope of each phase in units of R255 (R256). -/
  env : NMap := []
  /-- Crossing reports, and trip flags, that are on their way to the lane die (R251, R270). -/
  reports : List EdgeReport := []
  flagsOut : List Nat := []
  /-- Trip flags that the lane die has received (R270). -/
  known : List Nat := []
  /-- The lane die has declared the Lath link lost (R270). -/
  lathDown : Bool := false
deriving DecidableEq, Repr

/-- The class of a fault, in the order of R311. -/
inductive FaultClass where
  | lane | sup | clk | link | net | sens | wind | bridge | temp
deriving DecidableEq, Repr

/-- A fault as the two-fault rule holds it: the lane, its class and the axes it touches (R311, R312). -/
structure FaultEntry where
  lane : Nat
  cls : FaultClass
  axes : List Nat
deriving DecidableEq, Repr

/-- What the Belay keeps beside its registers (chapter 9). Lanes are named by their index. -/
structure BelaySt where
  /-- Causes raised in this period, with the lane they are about (R288). -/
  raised : List (Nat × Lane) := []
  /-- The lane excludes itself (R293); a request to leave SERVICE stands; the lane is ready (R275). -/
  selfExcluding : Bool := false
  leaving : Bool := false
  ready : Bool := false
  /-- The period in which two ready lanes were first seen; lane time since which this lane is ready alone (R275). -/
  twoReady : Option Nat := none
  aloneSince : Option Nat := none
  /-- Axes whose bit of the feedback mask is clear; peers whose Belay record has been received (R297). -/
  fbLost : List Nat := []
  recSeen : List Nat := []
  /-- The Belay record of this period has been queued (R277). -/
  recSent : Bool := false
  /-- Counts of DEV (key (axis × 4 + quantity) × 3 + lane), STATE_DEV and MISS (axis × 3 + lane), LATE by axis (R289). -/
  dev : NMap := []
  stateDev : NMap := []
  miss : NMap := []
  late : NMap := []
  /-- Several lanes exceed one window in this period, and consecutive periods of it (R290). -/
  multiNow : Bool := false
  multiRun : Nat := 0
  /-- Two lanes: periods of torque disagreement by axis, axes that disagree in this period, periods of disagreement in
  which the own check fails, by axis (R299, R301). -/
  disRun : NMap := []
  apartNow : List Nat := []
  plausRun : NMap := []
  /-- The class of the MON cause of this period (R606). -/
  monClass : Option FaultClass := none
  /-- Periods without a cause of action SUSPECT or higher (R273); clean SHADOW periods by lane (R306). -/
  cleanRun : Nat := 0
  shadowRun : NMap := []
  /-- Exclusion requests of the own record with their cause; peers decided against, until admission (R294); the lane
  excluded in this period (R295). -/
  requests : List Nat := []
  requestCause : Nat := 0
  against : List Nat := []
  exclNow : Option Nat := none
  /-- Lane time of the entry into EXCLUDED and into REJOIN; period in which ENTER_SERVICE was accepted. -/
  exclAt : Nat := 0
  rejoinAt : Nat := 0
  serviceAt : Option Nat := none
  /-- The rejoin transfer that awaits its boundary; peers to which one has been sent in their present REJOIN (R305). -/
  transfer : Option Transfer := none
  sent : List Nat := []
  /-- Periods since the last kick (R278); periods since the last refresh of the votes (R285). -/
  wdg : Nat := 0
  /-- Periods in which a peer's driven vote about this lane differs from its class, by lane (R286). -/
  voteDiff : NMap := []
  /-- Classification of a down link by its peer: 1 F-LINK, 2 F-LANE of the peer (R292). -/
  linkClass : NMap := []
  /-- Faults in force, in the order in which they came (R312). -/
  faults : List FaultEntry := []
  /-- Axes that pass to LIMP, and from LIMP to HOLD, at the next boundary; lane time of the limp entry and of the
  controlled-stop request that follows it; the limp rule lasts as long as F-TEMP (R313, R316). -/
  limpPend : List Nat := []
  holdPend : List Nat := []
  limpAt : Option Nat := none
  stopAt : Option Nat := none
  limpTemp : Bool := false
deriving DecidableEq, Repr

/-- The majority gate of the bridge die: the class of the vote of each lane (0 ABSTAIN, 1 FOR, 2 AGAINST, 3 INVALID),
last-lane mode, and a held LL_ARM (R281 to R283). -/
structure GateSt where
  cls : NMap := []
  latched : Bool := false
  armHeld : Bool := false
deriving DecidableEq, Repr

/-- What a lane keeps in its always-on domain and the hardware's part of Cairn memory, outside the CAIRN registers:
the time since power-on in coarse ticks, the rejoin attempts with their times, the two-fault record (R283, R308), and
a reboot out of SERVICE whose REJOIN is not counted (R558). -/
structure AonSt where
  now : Nat := 0
  attempts : List Nat := []
  twoFault : Bool := false
  uncounted : Bool := false
  /-- Last accepted counter of a sleep command (R487). -/
  sleepCnt : Nat := 0
  /-- The warm record of the boot ROM: bank and image digest (R553, R554). -/
  warm : Option (Nat × List Byte) := none
  /-- Ends of running lockouts by role, plus one (R542). -/
  lockEnd : NMap := []
  /-- CAIRN_TIME bits [31:0] at the end of the last in-service set (R563). -/
  setEnd : Word := 0
deriving DecidableEq, Repr

/-- A core: registers g0 to g31, pc, control registers by number (an unlisted one holds its reset value), parked, stopped
by a double fault, its 64-bit cycle count with the captured upper half (chapters 10 and 11). The triad in lock-step is
one core; its predicates are control register 0x00B. -/
structure CoreSt where
  g : WMap := []
  pc : Word := 0
  cr : WMap := []
  parked : Bool := false
  stopped : Bool := false
  cycles : Nat := 0
  cycHi : Word := 0
deriving DecidableEq, Repr

/-- A frame at the star (chapter 12): its port, its bytes from the destination address to the end of the payload, whether
its FCS is correct, the SFD at the star's input, and the window that accepted it. -/
structure StarFrame where
  port : Nat
  bytes : List Byte
  fcsOk : Bool
  sfd : Nat
  window : Nat
deriving DecidableEq, Repr

/-- A receive-map entry in its basic cycle: its copies by network, whether it has been written, whether copies differ,
whether it was written from a single copy, and whether its decision has been made (R415, R416). -/
structure RxSt where
  entry : Nat
  copies : List (Nat × List Word) := []
  written : Bool := false
  mismatch : Bool := false
  degraded : Bool := false
  decided : Bool := false
deriving DecidableEq, Repr

/-- What the Cordee controller keeps beside its registers (chapter 12). Times are lane time in coarse ticks. -/
structure CdeSt where
  /-- The check at CDE_LOCK has passed (R391). -/
  started : Bool := false
  /-- Frames held in the arbitration gap; the window of the gap; whether it is still open (R395). -/
  held : List StarFrame := []
  gap : Option (Nat × Bool) := none
  /-- A forwarded frame that runs past its window's end (R408). -/
  running : Option StarFrame := none
  /-- The node's pending frames of arbitrating windows, by frame ID (R396); the frame sampled for an exclusive window;
  the frame ID that the node offers. -/
  queue : List (Nat × List Byte) := []
  sampled : Option (Nat × List Byte) := none
  offered : Option Nat := none
  /-- Rate of the network time in units of 2^−32 (R399); D that is stepped at the next boundary; SYNC frames of this
  cycle, whether an anchor sent them and their d. -/
  rate : Int := 0
  stepBy : Option Int := none
  syncs : List (Bool × Int) := []
  /-- Cycles without a valid SYNC, and consecutive cycles with |D| within guard / 2. -/
  hold : Nat := 0
  okRun : Nat := 0
  /-- Consecutive violations and clean cycles by port; windows in which a port was accepted, and ports with a violation,
  in this cycle (R409). -/
  viol : NMap := []
  clean : NMap := []
  sent : List (Nat × Nat) := []
  bad : List Nat := []
  /-- Last COLDSTART of each port; ports that have sent in this cycle of STARTUP; the stamp in 10 ns of the COLDSTART that
  left QUIET (R405). -/
  lastCold : NMap := []
  startupSeen : List Nat := []
  coldStamp : Option Nat := none
  /-- Time since which the node listens without a valid frame; whether its COLDSTART has been sent; entry into STARTUP. -/
  listenAt : Nat := 0
  coldSent : Bool := false
  startupAt : Nat := 0
  /-- Networks of which a valid frame came in this cycle; consecutive cycles without and with one, by network (R417). -/
  seen : List Nat := []
  lostRun : NMap := []
  seenRun : NMap := []
  /-- Receive-map entries with copies in this cycle, and the age of each entry. -/
  rx : List RxSt := []
  age : NMap := []
  /-- Upper half captured by a read of CDE_NTOFS_LO, per master. -/
  latch : WMap := []
deriving DecidableEq, Repr

/-- What a lane keeps of pair operation beside its registers and the two record areas (chapter 13). -/
structure TetherSt where
  /-- A valid partner record is held at 0x2039_F000; its send time in the partner's lane time, its arrival. -/
  recValid : Bool := false
  partnerSend : Nat := 0
  partnerArrive : Nat := 0
  /-- Sequence of the latest valid verdict, and the dec at which it was read, in coarse ticks (R432, R437). -/
  vseq : Option Nat := none
  decAt : Nat := 0
  /-- Period in which the pair word was last posted; period number plus one of each lane's pair word at the last
  evaluation; the last period was coherent (R429). -/
  lastStep : Option Nat := none
  lastNums : NMap := []
  coherent : Bool := false
  /-- OUT: periods in which no pair word shows the partner in IN; DRIVING follows at the next commit tick (R432). -/
  notIn : Nat := 0
  toDriving : Bool := false
  /-- An installation is due: true on entry to IN (R435). -/
  install : Option Bool := none
  /-- Consecutive received records without a transient (R441). -/
  quietRun : Nat := 0
  /-- Upper half captured by a read of TETHER_POFS_LO, per master. -/
  latch : WMap := []
  /-- CRC errors of this period, and consecutive periods without one (R423). -/
  errs : Nat := 0
  cleanRun : Nat := 0
deriving DecidableEq, Repr

/-- What the safety input unit keeps beside its registers (chapter 14). Channel 2k is SIA_k, channel 2k + 1 SIB_k. -/
structure SiuSt where
  /-- Outputs in their low pulse (R446), outputs whose read-back differs (R447). -/
  pulsing : List Nat := []
  tpBad : List Nat := []
  /-- Checks of R449 that failed and have not passed since: channel and the TP whose window it was. -/
  dirty : List (Nat × Nat) := []
  /-- Channels that have passed their own-window check while closed, and channels that have been closed (R455). -/
  passed : List Nat := []
  closedOnce : List Nat := []
  /-- Owned functions: with permit 1; with wait_reset; with a manual reset that awaits its boundary (R457); that need the
  demand state after a fault (R456). -/
  permit : List Nat := []
  waitReset : List Nat := []
  resetPend : List Nat := []
  needDemand : List Nat := []
  /-- JOG functions that are armed; first sample in which a hand was actuated since, plus one (key 2f + hand), in coarse
  ticks (R453). -/
  jogArmed : List Nat := []
  jogAt : NMap := []
  /-- Start of a discrepancy, plus one, in coarse ticks (key 2f + hand) (R451 to R453). -/
  discAt : NMap := []
  /-- Words of the owned functions latched at the last boundary, and missed records by function (R460, R461). -/
  latched : WMap := []
  misses : NMap := []
deriving DecidableEq, Repr

/-- A request to the PMIC: its place in the order of R475 (0 rails and SLEEP, 1 VCORE, 2 firmware, 3 IIN poll), write or
read, PMIC register, data. -/
structure PmicReq where
  cls : Nat
  write : Bool
  reg : Nat
  data : Nat
deriving DecidableEq, Repr

/-- What the power controller keeps beside its registers (chapter 15). Voltages are in mV, instants in coarse ticks. -/
structure PwrSt where
  /-- Latest input voltages, inputs that count as absent after an overvoltage: main, backup (R468). -/
  vMain : Nat := 0
  vBack : Nat := 0
  ovMain : Bool := false
  ovBack : Bool := false
  /-- Requests that wait, the request outstanding with its seq and retries, the last seq, the last frame clocked out
  (R472, R473, R475). -/
  queue : List PmicReq := []
  cur : Option (PmicReq × Nat × Nat) := none
  seq : Nat := 3
  frame : Word := 0
  /-- The core voltage is frozen after a failed VCORE or IIN request (R476); last IIN in mA. -/
  frozen : Bool := false
  iin : Nat := 0
  /-- AVSMON counts by group, and when each was taken, plus one; runs with m below lo at code 40; runs since the last up
  step (R477 to R479). -/
  avs : NMap := []
  avsAt : NMap := []
  lowRuns : Nat := 0
  upAge : Nat := 10
  /-- Domains that power up, and the masters that stall on a domain (R484). -/
  waking : List Nat := []
  stalled : List (Nat × Nat) := []
  /-- The power-on or wake sequence: 1 RAILS requested, 2 waits for PGOOD_x, 3 for OSC_x, 4 complete, 0 failed (R480,
  R493, R494). -/
  bootStep : Nat := 1
  /-- The sleep path has been started by PWR_LOCK (R486); when sleep was armed; step of the entry: 0 none, 1 PARK issued,
  2 first domain down, 3 TC10 requests sent, 4 PHYs down (R488); sources held until the rails are off (R489). -/
  sleepOk : Bool := false
  armedAt : Nat := 0
  sleepStep : Nat := 0
  heldSrc : List Nat := []
  /-- SVC lines that have been raised and not taken (R502). -/
  svcLines : List Nat := []
  /-- Since when the budget level could improve (R497). -/
  betterAt : Option Nat := none
  /-- Ready times of the tasks, plus one (R500). -/
  readyAt : NMap := []
deriving DecidableEq, Repr

/-- A message in a mailbox: pointer, tag, sender, the epochs of receiver and sender at the post, and a serial number by
which a capture knows it (R525, R526). -/
structure MboxMsg where
  box : Nat
  ptr : Word
  tag : Nat
  sender : Nat
  rcvEpoch : Nat
  sndEpoch : Nat
  serial : Nat
deriving DecidableEq, Repr

/-- A pointer that a read of MBOX_MSG_n has captured for a master (R526). -/
structure MboxCap where
  master : Nat
  box : Nat
  ptr : Word
  serial : Nat
deriving DecidableEq, Repr

/-- What memories, NVMC and mailboxes keep beside their registers (chapter 16). -/
structure MemSt where
  /-- Corrected words that wait for their write-back (R512). -/
  writeBack : List Nat := []
  /-- SCRUB by region: next row, corrected words of the pass; regions whose pass has met an uncorrectable word (R515). -/
  scrubRow : NMap := []
  scrubCor : NMap := []
  scrubBad : List Nat := []
  /-- Rows queued for repair, and rows remapped to spares, as region and row (R516). -/
  queue : List (Nat × Nat) := []
  remap : List (Nat × Nat) := []
  /-- NVSCRUB by target: next group, corrected lines of the pass; targets whose pass has met an uncorrectable line. -/
  nvPos : NMap := []
  nvCor : NMap := []
  nvBad : List Nat := []
  /-- The NVMC operation in progress: op and bus address (R519). -/
  nvOp : Option (Nat × Nat) := none
  /-- Tags staged by master; messages, captures, the next serial (R525, R526). -/
  stage : NMap := []
  box : List MboxMsg := []
  cap : List MboxCap := []
  serial : Nat := 0
deriving DecidableEq, Repr

/-- What the security engine holds through every reset: fuses and sector 0 of configuration eNVM (R533, R540, R546,
R551, R562). Keys, salts and digests are bytes. -/
structure NvSt where
  /-- The fused life-cycle state that the next reset reads, passwords as role, salt and digest, image key slots. -/
  lc : Nat := 2
  passwords : List (Nat × List Byte × List Byte) := []
  imageKeys : List (Nat × List Byte) := []
  /-- The sleep key, the fused minimum sver, the log base H_0. -/
  sleepKey : Option (List Byte) := none
  minSver : Nat := 0
  logBase : List Byte := []
deriving DecidableEq, Repr

/-- An operation in progress in LCS: op, role, the verdict of its check, and the password that it read (R540, R545). -/
structure LcsOp where
  op : Nat
  role : Nat
  ok : Bool
  pw : List Byte
deriving DecidableEq, Repr

/-- What life cycle, security and self-test keep beside their registers (chapter 17). -/
structure LcsSt where
  /-- The boot ROM has verified and started an image (R553). -/
  imageOk : Bool := false
  op : Option LcsOp := none
  /-- Cairn time of the last role-gated action and of the challenge, in coarse ticks; challenges issued (R539, R543). -/
  actAt : Nat := 0
  chalAt : Option Nat := none
  chalCount : Nat := 0
  /-- Calibration writes of the present grant (R544). -/
  calWrites : Nat := 0
  /-- Banks that have passed IMG_CHECK in this session (R556); the SEC operation in progress: op, bank, slot. -/
  checked : List Nat := []
  /-- The bank of which SEC_IMG shows the check. -/
  imgBank : Nat := 0
  secOp : Option (Nat × Nat × Nat) := none
  /-- Record entries that wait to be appended: kind, sub, payload (R549). -/
  logDue : List (Nat × Nat × Word × Word) := []
  /-- Tests queued, the test running, whether the boot set runs and has passed (R567, R568). -/
  bistQueue : List Nat := []
  bistRun : Option Nat := none
  bootSet : Bool := false
  bootFail : Bool := false
  /-- The boot set has ended; the boot ROM has ended (R553, R567). -/
  bootDone : Bool := false
  booted : Bool := false
  /-- Break mode, and normal debug opened until reset (R345, R539). -/
  debugOpen : Bool := false
  /-- REFX values by lane with the period in which each came, plus one (R571). -/
  refx : NMap := []
  refxAt : NMap := []
deriving DecidableEq, Repr

/-- The answers of the lane's bus by master ID: the data of the last read, and masters whose last access ended in a bus
error that they have not taken (R19, R47, R507). -/
structure BusSt where
  reply : WMap := []
  errors : List Nat := []
deriving DecidableEq, Repr

/-- The state of one lane: its lane die and its bridge die. -/
structure LaneState where
  /-- Which lane this is (SYS_ID.lane). -/
  id : Lane
  /-- The registers of the lane, by bus address. -/
  regs : WMap := []
  /-- The signals, by ID. -/
  sigs : WMap := []
  /-- The memories of the lane, by bus address. -/
  mem : List Host.Cell := []
  /-- The LOCK registers whose key has been written (R8). -/
  locks : List Nat := []
  time : TimeSt := {}
  link0 : LinkSt := {}
  link1 : LinkSt := {}
  skim : SkimSt := {}
  lath : LathSt := {}
  bus : BusSt := {}
  belaySt : BelaySt := {}
  gate : GateSt := {}
  aon : AonSt := {}
  adc : AdcSt := {}
  qeo : QeoSt := {}
  edge : EdgeSt := {}
  bridge : BridgeSt := {}
  cde : CdeSt := {}
  tether : TetherSt := {}
  siu : SiuSt := {}
  pwr : PwrSt := {}
  triadCore : CoreSt := {}
  core1 : CoreSt := {}
  core2 : CoreSt := {}
  svc : CoreSt := {}
  memSt : MemSt := {}
  lcs : LcsSt := {}
  nv : NvSt := {}
  triad : TriadSt := {}
  ax0 : AxisSt := {}
  ax1 : AxisSt := {}
  ax2 : AxisSt := {}
  ax3 : AxisSt := {}
  fb0 : FbSt := {}
  fb1 : FbSt := {}
  fb2 : FbSt := {}
  fb3 : FbSt := {}
  fld0 : FldSt := {}
  fld1 : FldSt := {}
  fld2 : FldSt := {}
  fld3 : FldSt := {}
  prof0 : ProfSt := {}
  prof1 : ProfSt := {}
  prof2 : ProfSt := {}
  prof3 : ProfSt := {}
  le0 : LeSt := {}
  le1 : LeSt := {}
deriving DecidableEq, Repr

/-- The messages in flight on the Rope links, by sender and receiver, oldest first. -/
structure RopeWire where
  ab : List RopeMsg := []
  ac : List RopeMsg := []
  ba : List RopeMsg := []
  bc : List RopeMsg := []
  ca : List RopeMsg := []
  cb : List RopeMsg := []
deriving DecidableEq, Repr

/-- The state of a module. -/
structure State where
  laneA : LaneState
  laneB : LaneState
  laneC : LaneState
  rope : RopeWire := {}
  /-- The commands that wait, first in first out. -/
  pending : List Instr := []
  /-- How many free values have been drawn (the model's own, assumption 2). -/
  draws : Nat := 0
deriving DecidableEq, Repr

/-- A lane right after a power-on reset in lock-step: the cores stand at the boot ROM, the always-on domain has requested
the core rails (R355, R480), and the registers that differ from lane to lane show their lane (R5, chapter 12). -/
def LaneState.fresh (l : Lane) : LaneState :=
  { id := l
    regs := match l with
      | .a => []
      | .b => [(0x40000000, 0x7A481101), (0x40110000, 0x140)]
      | .c => [(0x40000000, 0x7A481201), (0x40110000, 0x180)]
    pwr := { queue := [{ cls := 0, write := true, reg := 2, data := 7 }] }
    triadCore := { pc := 0x10000000 }
    core1 := { pc := 0x10000000 }
    core2 := { pc := 0x10000000 }
    svc := { pc := 0x10000000 } }

/-- A module right after power-on (assumption 61). -/
def State.reset : State := { laneA := .fresh .a, laneB := .fresh .b, laneC := .fresh .c }

end Sys2Proof.Machine
end

