-- ==== Sys2Proof/Machine/Ops.lean ====
section
/-! DEFINITION. The named operations over registers, signals and memory, and the number helpers of the spec. -/

namespace Sys2Proof.Machine

/-! ## Numbers -/

/-- Bits [hi:lo] of a number. -/
def bits (v hi lo : Nat) : Nat := v / 2 ^ lo % 2 ^ (hi + 1 - lo)

/-- Bit `i` of a number. -/
def bit (v i : Nat) : Bool := v / 2 ^ i % 2 == 1

/-- The number of a flag. -/
def b2n (b : Bool) : Nat := if b then 1 else 0

/-- `v` with bits [hi:lo] replaced by the low bits of `x`. -/
def setBits (v hi lo x : Nat) : Nat :=
  v - bits v hi lo * 2 ^ lo + x % 2 ^ (hi + 1 - lo) * 2 ^ lo

/-- The signed value of the low `w` bits of `v` (two's complement). -/
def sext (w v : Nat) : Int :=
  if v % 2 ^ w < 2 ^ (w - 1) then (v % 2 ^ w : Nat) else ((v % 2 ^ w : Nat) : Int) - 2 ^ w

/-- An integer as `w` bits, wrapped. -/
def wrapTo (w : Nat) (i : Int) : Nat := (i % (2 ^ w : Nat)).toNat

/-- `x` clamped between `lo` and `hi`. -/
def clampI (lo hi x : Int) : Int := if x < lo then lo else if hi < x then hi else x

/-- `x` saturated to a signed number of `w` bits. -/
def satS (w : Nat) (x : Int) : Int := clampI (-(2 ^ (w - 1) : Nat)) ((2 ^ (w - 1) : Nat) - 1) x

/-- `x` saturated to an unsigned number of `w` bits (R12 for a counter). -/
def satU (w : Nat) (x : Nat) : Nat := min x (2 ^ w - 1)

/-- A quotient where the spec does not say how an inexact one is rounded: exact where it is exact, else one of the
two neighbours, which one is free (assumption 3). -/
def divOpen (num : Int) (den : Nat) : Int :=
  if den = 0 then 0
  else if num % den = 0 then num / den
  else num / den + (if Config.roundsUp num den then 1 else 0)

/-- A quotient rounded to nearest; which neighbour a tie takes is open (assumption 3). -/
def roundNearest (num : Int) (den : Nat) : Int :=
  if den = 0 then 0
  else
    let q := num / den
    let r := 2 * (num % den)
    if r < den then q
    else if (den : Int) < r then q + 1
    else q + (if Config.roundsUp num den then 1 else 0)

/-- Shift right by `k` with rounding to nearest, ties toward +infinity. -/
def rshRound (k : Nat) (x : Int) : Int := if k = 0 then x else (x + (2 ^ (k - 1) : Nat)) / (2 ^ k : Nat)

/-- A 48-bit signed difference of positions (R103). -/
def wrap48i (i : Int) : Int := sext 48 (wrapTo 48 i)

/-- Median of three. -/
def median3 (a b c : Int) : Int := max (min a b) (min (max a b) c)

/-- A field value of 0 that acts as 1. -/
def atLeast1 (n : Nat) : Nat := if n = 0 then 1 else n

/-- A word of an integer, wrapped to 32 bits. -/
def wordI (i : Int) : Word := BitVec.ofInt 32 i

/-- A word of a natural number, wrapped to 32 bits. -/
def wordN (n : Nat) : Word := BitVec.ofNat 32 n

/-! ## Counts by index -/

/-- The count at a key. -/
def NMap.get (m : NMap) (k : Nat) : Nat := Sparse.get 0 m k

/-- Sets the count at a key. -/
def NMap.set (m : NMap) (k v : Nat) : NMap := Sparse.set (fun _ => 0) m k v

/-- Adds one to the count at a key. -/
def NMap.inc (m : NMap) (k : Nat) : NMap := m.set k (m.get k + 1)

/-- Adds an element to a collection without repeats. -/
def addTo {α : Type} [DecidableEq α] (x : α) (l : List α) : List α := if x ∈ l then l else l ++ [x]

/-- Inserts an element before the first one that it does not follow, and sorts so; elements of one rank keep their
order. -/
def insertBy {α : Type} (le : α → α → Bool) (a : α) : List α → List α
  | [] => [a]
  | b :: l => if le a b then a :: b :: l else b :: insertBy le a l
def sortBy {α : Type} (le : α → α → Bool) : List α → List α
  | [] => []
  | a :: l => insertBy le a (sortBy le l)

/-- Takes an element out of a collection. -/
def dropFrom {α : Type} [DecidableEq α] (x : α) (l : List α) : List α := l.filter (fun y => y ≠ x)

/-! ## Registers as hardware reads and writes them -/

/-- The register at a bus address. -/
def LaneState.reg (L : LaneState) (a : Nat) : Word := Sparse.get (R.regReset a) L.regs a

/-- Writes a register as hardware does, whatever its access codes. -/
def LaneState.setReg (L : LaneState) (a : Nat) (w : Word) : LaneState :=
  { L with regs := Sparse.set R.regReset L.regs a w }

/-- A field as a number. -/
def LaneState.get (L : LaneState) (f : RF) : Nat := bits (L.reg f.addr).toNat f.hi f.lo

/-- A field as a two's-complement number. -/
def LaneState.getS (L : LaneState) (f : RF) : Int := sext (f.hi + 1 - f.lo) (L.get f)

/-- A field as a flag. -/
def LaneState.is (L : LaneState) (f : RF) : Bool := L.get f != 0

/-- Writes a field as hardware does. -/
def LaneState.put (L : LaneState) (f : RF) (v : Nat) : LaneState :=
  L.setReg f.addr (wordN (setBits (L.reg f.addr).toNat f.hi f.lo v))

/-- Writes a field with a signed number, wrapped to its width. -/
def LaneState.putS (L : LaneState) (f : RF) (v : Int) : LaneState := L.put f (wrapTo (f.hi + 1 - f.lo) v)

/-- Writes a flag. -/
def LaneState.setF (L : LaneState) (f : RF) (b : Bool) : LaneState := L.put f (b2n b)

/-- Sets a trouble flag (R11). -/
def LaneState.flag (L : LaneState) (f : RF) : LaneState := L.put f 1

/-- Sets a trouble flag where a condition holds. -/
def LaneState.flagIf (L : LaneState) (b : Bool) (f : RF) : LaneState := if b then L.flag f else L

/-- Sets bit `i` of a multi-bit field. -/
def LaneState.setBit (L : LaneState) (f : RF) (i : Nat) (b : Bool) : LaneState :=
  L.put f (setBits (L.get f) i i (b2n b))

/-- Bit `i` of a field. -/
def LaneState.bitOf (L : LaneState) (f : RF) (i : Nat) : Bool := bit (L.get f) i

/-- Adds to a counter, which saturates at all ones (R12). -/
def LaneState.count (L : LaneState) (f : RF) (k : Nat := 1) : LaneState :=
  L.put f (satU (f.hi + 1 - f.lo) (L.get f + k))

/-! ## Registers as a master reads and writes them -/

/-- Whether a key of a lock has been written (R8). -/
def LaneState.locked (L : LaneState) (lockReg : Nat) : Bool := lockReg ∈ L.locks

/-- The lock register of the instance that holds address `a` of a row. -/
def RegRow.lockOf (r : RegRow) (a : Nat) : Option Nat :=
  r.lock.map (fun p => p.1 + (if p.2 = 0 then 0 else (a - r.base) / p.2 * p.2))

/-- The word that a write leaves in a register, from its old word: every field by its access code (R8, R9). WO fields
keep reading 0; a bit of no field is reserved and keeps its 0 (R10). -/
def RegRow.written (r : RegRow) (locked secure : Bool) (old new : Nat) : Nat :=
  r.fields.foldl (fun acc f =>
    let n := bits new f.hi f.lo
    let o := bits old f.hi f.lo
    let v := match f.acc with
      | .rw => n
      | .ro => o
      | .wo => 0
      | .w1c => o &&& (n ^^^ (2 ^ (f.hi + 1 - f.lo) - 1))
      | .w1s => o ||| n
      | .rwl => if locked then o else n
      | .rws => if secure then n else o
    setBits acc f.hi f.lo v) old

/-- The word that a read returns: WO fields read 0, RWS fields read 0 to a non-secure master (R8, R9, R10). -/
def RegRow.readBy (r : RegRow) (secure : Bool) (w : Nat) : Nat :=
  r.fields.foldl (fun acc f =>
    match f.acc with
    | .wo => acc
    | .rws => if secure then setBits acc f.hi f.lo (bits w f.hi f.lo) else acc
    | _ => setBits acc f.hi f.lo (bits w f.hi f.lo)) 0

/-- Whether a non-secure write of `new` puts a 1 into a bit of an RWS field, which is recorded (R9). -/
def RegRow.rwsViolated (r : RegRow) (new : Nat) : Bool :=
  r.fields.any (fun f => f.acc == .rws && bits new f.hi f.lo != 0)

/-- The plain write of a register by a master: the access codes apply; an unassigned offset takes no effect (R10). -/
def LaneState.busWrite (L : LaneState) (secure : Bool) (a : Nat) (w : Word) : LaneState :=
  match R.findRow a with
  | none => L
  | some r =>
    let locked := match r.lockOf a with
      | none => false
      | some k => L.locked k
    L.setReg a (wordN (r.written locked secure (L.reg a).toNat w.toNat))

/-- The plain read of a register by a master (R8, R10). -/
def LaneState.busRead (L : LaneState) (secure : Bool) (a : Nat) : Word :=
  match R.findRow a with
  | none => 0
  | some r => wordN (r.readBy secure (L.reg a).toNat)

/-! ## Signals as hardware reads and writes them -/

/-- The signal of an ID (R16). -/
def LaneState.sig (L : LaneState) (i : Nat) : Word := Sparse.get 0 L.sigs i

/-- Writes a signal. -/
def LaneState.setSig (L : LaneState) (i : Nat) (w : Word) : LaneState :=
  { L with sigs := Sparse.set (fun _ => 0) L.sigs i w }

/-- Writes consecutive signals in one transaction (R60, R509). -/
def LaneState.setSigs (L : LaneState) (i : Nat) : List Word → LaneState
  | [] => L
  | w :: ws => (L.setSig i w).setSigs (i + 1) ws

/-- Consecutive signals in one transaction. -/
def LaneState.sigsFrom (L : LaneState) (i : Nat) : Nat → List Word
  | 0 => []
  | n + 1 => L.sig i :: L.sigsFrom (i + 1) n

/-- A signal as a signed number. -/
def LaneState.sigS (L : LaneState) (i : Nat) : Int := (L.sig i).toInt

/-! ## Memory -/

/-- The byte at a bus address of a memory region. -/
def LaneState.byte (L : LaneState) (a : Nat) : Byte := Sparse.get (memReset a) L.mem a

/-- Writes one byte. -/
def LaneState.setByte (L : LaneState) (a : Nat) (b : Byte) : LaneState :=
  { L with mem := Sparse.set memReset L.mem a b }

/-- `n` bytes from an address, little-endian, as a number (R7). -/
def LaneState.load (L : LaneState) (a : Nat) : Nat → Nat
  | 0 => 0
  | n + 1 => (L.byte a).toNat + 256 * L.load (a + 1) n

/-- Stores the low `n` bytes of a number, little-endian (R7). -/
def LaneState.store (L : LaneState) (a : Nat) : Nat → Nat → LaneState
  | 0, _ => L
  | n + 1, v => (L.setByte a (BitVec.ofNat 8 v)).store (a + 1) n (v / 256)

/-- A 32-bit word of memory. -/
def LaneState.word (L : LaneState) (a : Nat) : Word := wordN (L.load a 4)

/-- Stores a 32-bit word. -/
def LaneState.setWord (L : LaneState) (a : Nat) (w : Word) : LaneState := L.store a 4 w.toNat

/-- Stores bytes at consecutive addresses. -/
def LaneState.storeBytes (L : LaneState) (a : Nat) : List Byte → LaneState
  | [] => L
  | b :: bs => (L.setByte a b).storeBytes (a + 1) bs

/-- Bytes at consecutive addresses. -/
def LaneState.bytesFrom (L : LaneState) (a : Nat) : Nat → List Byte
  | 0 => []
  | n + 1 => L.byte a :: L.bytesFrom (a + 1) n

/-! ## Lanes of the module -/

/-- The state of a lane. -/
def State.lane (s : State) : Lane → LaneState
  | .a => s.laneA
  | .b => s.laneB
  | .c => s.laneC

/-- Replaces the state of a lane. -/
def State.setLane (s : State) (l : Lane) (L : LaneState) : State :=
  match l with
  | .a => { s with laneA := L }
  | .b => { s with laneB := L }
  | .c => { s with laneC := L }

/-- What a command returns: a next state, a fault or a refusal. -/
abbrev Out := Host.Outcome State Fault Refusal

/-- A command that changes one lane and nothing else. -/
def onLane (s : State) (l : Lane) (f : LaneState → LaneState) : Out := .next (s.setLane l (f (s.lane l)))

/-- A command that draws one free value and changes one lane (assumption 2). -/
def onLaneFree (s : State) (l : Lane) (f : Word → LaneState → LaneState) : Out :=
  .next { s.setLane l (f (Config.freeValue s.draws) (s.lane l)) with draws := s.draws + 1 }

/-- The effect of a command under its condition; where the condition fails, the event cannot occur and the lane stays
as it is (assumption 1). -/
def LaneState.when (L : LaneState) (p : Bool) (f : LaneState → LaneState) : LaneState := if p then f L else L

/-! ## Lane time, periods and ticks (R15, R41, R43) -/

/-- Lane time in coarse ticks of 5 ns. -/
def LaneState.coarse (L : LaneState) : Nat := L.time.now.toNat / 64

/-- The field tick in coarse ticks. -/
def LaneState.tTick (L : LaneState) : Nat := L.get R.sysTick_tick

/-- Field ticks per servo period. -/
def LaneState.nTicks (L : LaneState) : Nat := L.get R.sysTick_n

/-- The servo period in coarse ticks. -/
def LaneState.tServo (L : LaneState) : Nat := L.tTick * L.nTicks

/-- The period number: lane time in coarse ticks divided by T_servo (chapter 2). -/
def LaneState.pnum (L : LaneState) : Nat := L.coarse / L.tServo

/-- The index of the present field tick within its period. -/
def LaneState.tickIdx (L : LaneState) : Nat := L.coarse % L.tServo / L.tTick

/-- Sets lane time from a number of fine steps. -/
def LaneState.setNow (L : LaneState) (t : Nat) : LaneState :=
  { L with time := { L.time with now := BitVec.ofNat 64 t } }

/-- The first whole multiple of `q` coarse ticks after the present lane time (R43). -/
def LaneState.nextMultiple (L : LaneState) (q : Nat) : Nat :=
  if q = 0 then L.time.now.toNat else (L.coarse / q + 1) * q * 64

/-! ## Belay state and the views of the lanes (R272, R277) -/

def bsBoot : Nat := 0
def bsSync : Nat := 1
def bsRejoin : Nat := 2
def bsShadow : Nat := 3
def bsActive : Nat := 4
def bsSuspect : Nat := 5
def bsExcluded : Nat := 6
def bsService : Nat := 7
def bsDead : Nat := 8

/-- The own Belay state. -/
def LaneState.belay (L : LaneState) : Nat := L.get R.belayState_state

/-- The view field of a lane in BELAY_STATE. -/
def viewField : Lane → RF
  | .a => R.belayState_view_a
  | .b => R.belayState_view_b
  | .c => R.belayState_view_c

/-- The Belay state of a lane as this lane holds it: its own state, or its view of a peer. -/
def LaneState.view (L : LaneState) (y : Lane) : Nat := if y = L.id then L.belay else L.get (viewField y)

/-- Whether a state takes part in alignment (R32). -/
def participates (st : Nat) : Bool := st == bsActive || st == bsSuspect || st == bsShadow

/-- Whether a state drives (R61, R272). -/
def driving (st : Nat) : Bool := st == bsActive || st == bsSuspect

/-- The action of an own cause that acts when it is raised: 0 flag, 1 SUSPECT, 2 self-exclusion, 3 none of these; a
configured action of 3 acts as 2 (R288). -/
def LaneState.causeAction (L : LaneState) (code : Nat) : Nat :=
  if code = 0x05 ∨ code = 0x17 then 1
  else if code = 0x08 then min 2 (L.get R.belayAct_act_t1)
  else if code = 0x0C then min 2 (L.get R.belayAct_act_lath)
  else if code = 0x0D then min 2 (L.get R.belayAct_act_le)
  else if code = 0x11 then min 2 (L.get R.belayAct_act_mon)
  else if code = 0x1A then 0
  else if code ≤ 0x04 ∨ code = 0x10 ∨ code = 0x14 ∨ code = 0x15 ∨ code = 0x19 then 3
  else 2

/-- Raises a cause (code of R288) about a lane to the own Belay; an own cause whose action is flag sets flag_evt
(R606). -/
def LaneState.raise (L : LaneState) (code : Nat) (y : Lane) : LaneState :=
  let L := L.flagIf (y == L.id && L.causeAction code == 0) R.belayStat_flag_evt
  { L with belaySt := { L.belaySt with raised := addTo (code, y) L.belaySt.raised } }

/-- Raises an own cause. -/
def LaneState.raiseOwn (L : LaneState) (code : Nat) : LaneState := L.raise code L.id

/-- Whether a cause about a lane stands in this period. -/
def LaneState.isRaised (L : LaneState) (code : Nat) (y : Lane) : Bool := (code, y) ∈ L.belaySt.raised

/-! ## The lanes and their links -/

/-- The index of a lane. -/
def Lane.idx : Lane → Nat
  | .a => 0
  | .b => 1
  | .c => 2

/-- The lane of an index. -/
def Lane.ofIdx (i : Nat) : Lane := if i = 0 then .a else if i = 1 then .b else .c

/-- The peer at the other end of a Rope link: link 0 leads to the next lane, link 1 to the previous one (chapter 9). -/
def Lane.peer : Lane → Link → Lane
  | .a, .l0 => .b
  | .a, .l1 => .c
  | .b, .l0 => .c
  | .b, .l1 => .a
  | .c, .l0 => .a
  | .c, .l1 => .b

/-- The link that leads from a lane to a peer. -/
def Lane.linkTo (x y : Lane) : Link := if x.peer .l0 = y then .l0 else .l1

/-- The lanes of a module. -/
def lanes : List Lane := [.a, .b, .c]

/-- The index of a link. -/
def Link.idx : Link → Nat
  | .l0 => 0
  | .l1 => 1

/-- The up bit of a link. -/
def linkUpF : Link → RF
  | .l0 => R.ropeStat0_up
  | .l1 => R.ropeStat1_up

/-- Whether a link is up (R322). -/
def LaneState.linkUp (L : LaneState) (k : Link) : Bool := L.is (linkUpF k)

/-- What a lane keeps of a link. -/
def LaneState.link (L : LaneState) : Link → LinkSt
  | .l0 => L.link0
  | .l1 => L.link1

/-- Changes what a lane keeps of a link. -/
def LaneState.mapLink (L : LaneState) (k : Link) (f : LinkSt → LinkSt) : LaneState :=
  match k with
  | .l0 => { L with link0 := f L.link0 }
  | .l1 => { L with link1 := f L.link1 }

/-- Queues a block on each link that is up, behind the blocks of its rank (R71, R322, R601). -/
def LaneState.queueMsg (L : LaneState) (rank : Nat) (m : RopeMsg) : LaneState :=
  let ins (w : List TxBlock) : List TxBlock :=
    w.filter (fun b => b.rank ≤ rank) ++ [⟨rank, m⟩] ++ w.filter (fun b => rank < b.rank)
  let put (k : Link) (M : LaneState) : LaneState :=
    if M.linkUp k then M.mapLink k (fun K => { K with waiting := ins K.waiting }) else M
  put .l1 (put .l0 L)

/-- The messages in flight from one lane to another, oldest first. -/
def State.flight (s : State) (x y : Lane) : List RopeMsg :=
  match x, y with
  | .a, .b => s.rope.ab
  | .a, .c => s.rope.ac
  | .b, .a => s.rope.ba
  | .b, .c => s.rope.bc
  | .c, .a => s.rope.ca
  | .c, .b => s.rope.cb
  | _, _ => []

/-- Replaces the messages in flight from one lane to another. -/
def State.setFlight (s : State) (x y : Lane) (ms : List RopeMsg) : State :=
  match x, y with
  | .a, .b => { s with rope := { s.rope with ab := ms } }
  | .a, .c => { s with rope := { s.rope with ac := ms } }
  | .b, .a => { s with rope := { s.rope with ba := ms } }
  | .b, .c => { s with rope := { s.rope with bc := ms } }
  | .c, .a => { s with rope := { s.rope with ca := ms } }
  | .c, .b => { s with rope := { s.rope with cb := ms } }
  | _, _ => s

/-- What arrives next from a lane: idle frames fill time and carry nothing (R601). -/
def State.arriving (s : State) (x y : Lane) : List RopeMsg := (s.flight x y).dropWhile (fun m => m = .idle)


/-! ## Exchange segments (R49, R50) -/

/-- First signal of a lane's exchange segment. -/
def segBase (y : Lane) : Nat := 0x30000 + 0x2000 * y.idx

/-- Whether a signal ID lies in a lane's exchange segment. -/
def inSeg (y : Lane) (i : Nat) : Bool := segBase y ≤ i && i < segBase y + 0x2000

/-- Whether a signal ID lies in the exchange segment of a peer of this lane. -/
def LaneState.inPeerSeg (L : LaneState) (i : Nat) : Bool := lanes.any (fun y => y != L.id && inSeg y i)

/-- What a link carries from a lane: a block of 1 to 64 signals of the lane's own segment (R50, R51), period numbers of 16
bits (R30), and a transfer that names its sender (R305). -/
def RopeMsg.legal (x : Lane) : RopeMsg → Bool
  | .block a ws => decide (1 ≤ ws.length) && decide (ws.length ≤ 64) && inSeg x a && inSeg x (a + ws.length - 1)
  | .time p => decide (p < 65536)
  | .timeReport p _ _ _ _ _ => decide (p < 65536)
  | .transfer t => t.sender == x
  | _ => true

/-- Puts a frame on the wire of a link; there is no frame that is not legal. -/
def State.send (s : State) (x : Lane) (k : Link) (m : RopeMsg) : State :=
  if m.legal x then s.setFlight x (x.peer k) (s.flight x (x.peer k) ++ [m]) else s

/-- Ranks of signal blocks: share records first, then Belay records, then other blocks (R71, R277, R601). -/
def rankShare : Nat := 0
def rankBelay : Nat := 1
def rankOther : Nat := 2
def rankRelay : Nat := 3

/-- Publishes consecutive signals at an offset of the own exchange segment: written locally in one transaction and
sent over both Rope links (R50, R51). -/
def LaneState.publish (L : LaneState) (rank off : Nat) (ws : List Word) : LaneState :=
  (L.setSigs (segBase L.id + off) ws).queueMsg rank (.block (segBase L.id + off) ws)

/-! ## Masters and the world assignment table (R9, R505, R521 to R523) -/

/-- The master IDs of R505. -/
def Master.id : Master → Nat
  | .triad => 0x01
  | .tc1 => 0x02
  | .tc2 => 0x03
  | .svc => 0x04
  | .dbg => 0x05
  | .le0 => 0x08
  | .le1 => 0x09
  | .pipe => 0x10
  | .ropeRx => 0x11
  | .cdeRx => 0x12
  | .skim => 0x14
  | .nvmc => 0x15
  | .secEng => 0x16
  | .bist => 0x17

/-- The cores, the SVC and the debug port are the core class (R505). -/
def Master.isCore (m : Master) : Bool := m.id ≤ 5

/-- The lowest enabled region descriptor that covers an address (R521). -/
def LaneState.regionOf (L : LaneState) (a : Nat) : Option Nat :=
  (List.range 16).find? (fun n => L.is (R.watRgn_en n) && L.get (R.watRgn_base n) ≤ a / 4096 &&
    a / 4096 ≤ L.get (R.watLim_last n))

/-- Whether a memory address is non-secure (R521); the boot ROM is always secure (R522). -/
def LaneState.memNs (L : LaneState) (a : Nat) : Bool :=
  if 0x10000000 ≤ a && a < 0x10010000 then false
  else match L.regionOf a with
    | none => false
    | some n => L.is (R.watRgn_ns n)

/-- Whether the session's calibration grant covers a parameter signal: the operator's grant covers S:0x0_F000 to
S:0x0_FFFF, the full one every parameter (R49, R538, R544). -/
def LaneState.calGrants (L : LaneState) (i : Nat) : Bool :=
  L.get R.lcsState_cal_grant == 2 || (L.get R.lcsState_cal_grant == 1 && 0xF000 ≤ i && i < 0x10000)

/-- The kind of violation of a core-class write to a signal, beside its world (R49, R50, R522). -/
def LaneState.sigViol (L : LaneState) (i : Nat) (w : Word) : Option Nat :=
  if L.inPeerSeg i then some 4
  else if 0x36000 ≤ i && i < 0x38000 then some 8
  else if 0x38010 ≤ i && i < 0x38018 then some 5
  else if i < 0x10000 && !L.calGrants i then some 6
  else if 0x38000 ≤ i && w != 0 then some 7
  else none

/-- The kind of violation of an access (R523), none where it is allowed. Only core-class requests are judged. A world
violation is recorded before one of a fixed range (assumption 5). -/
def LaneState.judge (L : LaneState) (q : Req) (a : Nat) (write : Bool) (w : Word) : Option Nat :=
  if !q.m.isCore then none
  else if 0x40000000 ≤ a then
    match R.findRow a with
    | some r =>
      if !q.secure && r.fields.any (fun f => f.acc == .rws) then
        if write && r.rwsViolated w.toNat then some 1 else none
      else if !q.secure && !bit (L.get R.watBlk_ns) ((a - 0x40000000) / 0x10000) then some 1
      else none
    | none => if !q.secure && !bit (L.get R.watBlk_ns) ((a - 0x40000000) / 0x10000) then some 1 else none
  else if 0x2C000000 ≤ a && a < 0x2C010000 then
    if q.m == .dbg || q.secure then (if write then some 8 else none) else some 1
  else if !q.secure && !L.memNs a then some 1
  else if write && 0x10000000 ≤ a && a < 0x10010000 then some 2
  else if write && 0x20200000 ≤ a && a < 0x20300000 && (L.sigViol ((a - 0x20200000) / 4) w).isSome then
    L.sigViol ((a - 0x20200000) / 4) w
  else if write && 0x2039F000 ≤ a && a ≤ 0x2039F7FF then some 2
  else if write && 0x2803FF00 ≤ a && a ≤ 0x2803FF5F then some 8
  else if write && (match L.regionOf a with | some n => L.is (R.watRgn_ro n) | none => false) then some 2
  else none

/-- Records a violation (R523). -/
def LaneState.recordViol (L : LaneState) (q : Req) (a : Nat) (write : Bool) (kind : Nat) : LaneState :=
  let L := L.count R.watCnt_n
  if L.is R.watStat_viol then L.flag R.watStat_ovf
  else
    (((((L.flag R.watStat_viol).put R.watViol_master q.m.id).put R.watViol_world (b2n q.secure)).put
      R.watViol_write (b2n write)).put R.watViol_kind kind).setReg R.watVaddr (wordN a)

/-- A write of a master to an address, performed if the table allows it and recorded if not. -/
def LaneState.guardW (L : LaneState) (q : Req) (a : Nat) (w : Word) (f : LaneState → LaneState) : LaneState :=
  match L.judge q a true w with
  | none => f L
  | some k => L.recordViol q a true k

/-- Hands the data of a read to a master. -/
def LaneState.answer (L : LaneState) (m : Master) (w : Word) : LaneState :=
  { L with bus := { L.bus with reply := Sparse.set (fun _ => 0) L.bus.reply m.id w } }

/-- A read of a master, judged by the table: a read that breaks a rule returns 0 (R523). -/
def LaneState.guardR (L : LaneState) (q : Req) (a : Nat) (f : LaneState → Word × LaneState) : LaneState :=
  match L.judge q a false 0#32 with
  | none => let r := f L; r.2.answer q.m r.1
  | some k => (L.recordViol q a false k).answer q.m 0

/-- Ends an access of a master with a bus error (R19, R47). -/
def LaneState.busError (L : LaneState) (m : Master) : LaneState :=
  { L with bus := { L.bus with errors := addTo m.id L.bus.errors } }

/-! ## Axes (R92, R96) -/

/-- First signal of an axis block. -/
def axisSig (n off : Nat) : Nat := 0x20000 + 0x4000 * n + off

def axOff : Nat := 0
def axArmed : Nat := 1
def axDrive : Nat := 2
def axHold : Nat := 3
def axAsc : Nat := 4
def axFree : Nat := 5
def axLimp : Nat := 6

/-- The state of an axis. -/
def LaneState.axis (L : LaneState) (n : Nat) : Nat := L.get (R.axpState_state n)

/-- Whether an axis is in DRIVE, HOLD or LIMP. -/
def LaneState.axDriving (L : LaneState) (n : Nat) : Bool :=
  L.axis n == axDrive || L.axis n == axHold || L.axis n == axLimp

/-- Folds an operation over the axes X0 to X3. -/
def LaneState.forAxes (L : LaneState) (f : Nat → LaneState → LaneState) : LaneState :=
  (List.range 4).foldl (fun M n => f n M) L

/-- Whether every axis of the lane is OFF. -/
def LaneState.allOff (L : LaneState) : Bool := (List.range 4).all (fun n => L.axis n == axOff)

/-! ## Loop engines: memory, descriptors, banks (R184, R186, R189, R205) -/

/-- Base address of an engine's memory. -/
def leMem (e : Nat) : Nat := 0x20300000 + 0x20000 * e

/-- Address of a byte of an engine's data memory. -/
def leData (e a : Nat) : Nat := leMem e + 0x4000 + a

/-- The record of an engine. -/
def LaneState.le (L : LaneState) (e : Nat) : LeSt := if e = 0 then L.le0 else L.le1

/-- Changes the record of an engine. -/
def LaneState.mapLe (L : LaneState) (e : Nat) (f : LeSt → LeSt) : LaneState :=
  if e = 0 then { L with le0 := f L.le0 } else { L with le1 := f L.le1 }

/-- Word i of the descriptor of loop k. -/
def LaneState.desc (L : LaneState) (e k i : Nat) : Nat := (L.word (leData e (0x40 * k + 4 * i))).toNat

def LaneState.dEntry (L : LaneState) (e k : Nat) : Nat := bits (L.desc e k 0) 11 0
def LaneState.dTrig (L : LaneState) (e k : Nat) : Nat := bits (L.desc e k 0) 13 12
def LaneState.dAxis (L : LaneState) (e k : Nat) : Nat := bits (L.desc e k 0) 17 16
def LaneState.dPrompt (L : LaneState) (e k : Nat) : Bool := bit (L.desc e k 0) 18
def LaneState.dPacked (L : LaneState) (e k : Nat) : Bool := bit (L.desc e k 0) 19
def LaneState.dNsec (L : LaneState) (e k : Nat) : Nat := bits (L.desc e k 0) 25 20
/-- The schedule field: 0 not scheduled, 1 to 3 a record; 4 to 7 act as 0. -/
def LaneState.dSched (L : LaneState) (e k : Nat) : Nat :=
  if bits (L.desc e k 0) 28 26 ≤ 3 then bits (L.desc e k 0) 28 26 else 0
def LaneState.dAw (L : LaneState) (e k : Nat) : Nat := bits (L.desc e k 0) 31 29
def LaneState.dBudget (L : LaneState) (e k : Nat) : Nat := bits (L.desc e k 1) 15 0
def LaneState.dWcet (L : LaneState) (e k : Nat) : Nat := bits (L.desc e k 1) 31 16
def LaneState.dStart (L : LaneState) (e k : Nat) : Nat := bits (L.desc e k 2) 15 0
def LaneState.dDiv (L : LaneState) (e k : Nat) : Nat := atLeast1 (bits (L.desc e k 2) 23 16)
def LaneState.dPhase (L : LaneState) (e k : Nat) : Nat := bits (L.desc e k 2) 31 24
def LaneState.dState (L : LaneState) (e k : Nat) : Nat := bits (L.desc e k 3) 13 0
def LaneState.dOutId (L : LaneState) (e k : Nat) : Nat := bits (L.desc e k 8) 17 0
/-- The blend length nb + 1 in runs. -/
def LaneState.dBlend (L : LaneState) (e k : Nat) : Nat := bits (L.desc e k 8) 23 18 + 1
def LaneState.dWbound (L : LaneState) (e k : Nat) : Nat := bits (L.desc e k 9) 15 0

/-- A loop whose wcet is 0 is not described (R189). -/
def LaneState.described (L : LaneState) (e k : Nat) : Bool := L.dWcet e k != 0

/-- Whether an axis runs its loops: ARMED, DRIVE, HOLD or LIMP (R185). -/
def LaneState.axRuns (L : LaneState) (n : Nat) : Bool := L.axis n == axArmed || L.axDriving n

/-- Whether axis n names loop k of engine e (R213). -/
def LaneState.names (L : LaneState) (n e k : Nat) : Bool :=
  L.axRuns n && L.get (R.axpLoopsel_le n) == e && L.get (R.axpLoopsel_loop n) == k

/-- Whether the loop that AXP_LOOPSEL selects is a PROMPT loop (R74 to R76). -/
def LaneState.loopPrompt (L : LaneState) (n : Nat) : Bool :=
  L.dPrompt (L.get (R.axpLoopsel_le n)) (L.get (R.axpLoopsel_loop n))

/-- The loops of trigger 0 of an axis have F = 1 in their next run (R191). -/
def LaneState.loopsFresh (L : LaneState) (n : Nat) : LaneState :=
  [0, 1].foldl (fun (M : LaneState) e =>
    M.mapLe e (fun E => { E with ran := E.ran.filter (fun k => !(L.dTrig e k == 0 && L.dAxis e k == n)) })) L

/-- Every loop has F = 1 in its next run: the lane enters ACTIVE, SUSPECT or SHADOW (R191). -/
def LaneState.allFresh (L : LaneState) : LaneState :=
  (L.mapLe 0 (fun E => { E with ran := [] })).mapLe 1 (fun E => { E with ran := [] })

/-- Base address of a coefficient bank: 0 bank A, 1 bank B. -/
def leBank (e b : Nat) : Nat := leMem e + 0x8000 + 0xC000 * (b % 2)

/-- The active bank. -/
def LaneState.activeBank (L : LaneState) (e : Nat) : Nat := L.get (R.leBankStat_active e)

/-- Whether another master may write a byte of an engine's memory, by its offset (R186, R206). -/
def LaneState.leWritable (L : LaneState) (e off : Nat) : Bool :=
  if !L.locked (R.leLock e) then true
  else if off < 0x4480 then false
  else if off < 0x8000 then true
  else
    let b := if off < 0x14000 then 0 else 1
    b != L.activeBank e && L.get (R.leBankStat_ibs e) == 0

/-! ## Per-axis and per-lane records of the state -/

/-- The record of an axis. -/
def LaneState.ax (L : LaneState) (n : Nat) : AxisSt :=
  match n with
  | 0 => L.ax0
  | 1 => L.ax1
  | 2 => L.ax2
  | _ => L.ax3

/-- Changes the record of an axis. -/
def LaneState.mapAx (L : LaneState) (n : Nat) (f : AxisSt → AxisSt) : LaneState :=
  match n with
  | 0 => { L with ax0 := f L.ax0 }
  | 1 => { L with ax1 := f L.ax1 }
  | 2 => { L with ax2 := f L.ax2 }
  | _ => { L with ax3 := f L.ax3 }

/-- The feedback record of an axis. -/
def LaneState.fb (L : LaneState) (n : Nat) : FbSt :=
  match n with
  | 0 => L.fb0
  | 1 => L.fb1
  | 2 => L.fb2
  | _ => L.fb3

/-- Changes the feedback record of an axis. -/
def LaneState.mapFb (L : LaneState) (n : Nat) (f : FbSt → FbSt) : LaneState :=
  match n with
  | 0 => { L with fb0 := f L.fb0 }
  | 1 => { L with fb1 := f L.fb1 }
  | 2 => { L with fb2 := f L.fb2 }
  | _ => { L with fb3 := f L.fb3 }

/-- The field-control record of an axis. -/
def LaneState.fl (L : LaneState) (n : Nat) : FldSt :=
  match n with
  | 0 => L.fld0
  | 1 => L.fld1
  | 2 => L.fld2
  | _ => L.fld3

/-- Changes the field-control record of an axis. -/
def LaneState.mapFl (L : LaneState) (n : Nat) (f : FldSt → FldSt) : LaneState :=
  match n with
  | 0 => { L with fld0 := f L.fld0 }
  | 1 => { L with fld1 := f L.fld1 }
  | 2 => { L with fld2 := f L.fld2 }
  | _ => { L with fld3 := f L.fld3 }

/-- The profile record of an axis. -/
def LaneState.pr (L : LaneState) (n : Nat) : ProfSt :=
  match n with
  | 0 => L.prof0
  | 1 => L.prof1
  | 2 => L.prof2
  | _ => L.prof3

/-- Changes the profile record of an axis. -/
def LaneState.mapPr (L : LaneState) (n : Nat) (f : ProfSt → ProfSt) : LaneState :=
  match n with
  | 0 => { L with prof0 := f L.prof0 }
  | 1 => { L with prof1 := f L.prof1 }
  | 2 => { L with prof2 := f L.prof2 }
  | _ => { L with prof3 := f L.prof3 }

/-- A bit of the feedback flags signal of an axis (R133). -/
def LaneState.fbFlag (L : LaneState) (n i : Nat) : Bool := bit (L.sig (axisSig n 9)).toNat i

/-- Whether a lane's port n is fitted (AXP_CFG.fitted). -/
def LaneState.fitted (L : LaneState) (n : Nat) (y : Lane) : Bool := L.bitOf (R.axpCfg_fitted n) y.idx

/-- The driving lanes of an axis: ACTIVE or SUSPECT as this lane holds it, with the port fitted (R85). -/
def LaneState.drivers (L : LaneState) (n : Nat) : List Lane :=
  lanes.filter (fun y => driving (L.view y) && L.fitted n y)

/-- Whether FIELD regulates the set: DRIVE, HOLD or LIMP outside the start off interval (R66, R89). -/
def LaneState.regulates (L : LaneState) (n : Nat) : Bool := L.axDriving n && !(L.fl n).offInterval

/-- One evaluation of a MONITOR check: its run advances while its condition holds (R89). -/
def LaneState.monEval (L : LaneState) (n k : Nat) (cond : Bool) : LaneState :=
  L.mapAx n (fun A =>
    if cond && L.axis n != axOff then { A with monRun := A.monRun.set k (A.monRun.get k + 1) }
    else { A with monRun := A.monRun.set k 0, monFired := dropFrom k A.monFired })

/-- The thermal headroom of an axis in unsigned Q12.4 K: the smallest of limit minus temperature over the enabled
sources, floored at 0; 100 K (1,600) without a source (R84). -/
def LaneState.headroomOf (L : LaneState) (n : Nat) : Nat :=
  let temp (src : Nat) : Option Int :=
    if src = 1 then some (((L.adc.portTemp.find? (fun p => p.1 == n)).map (·.2)).getD 0)
    else if src = 2 then some (16 * ((L.get R.brgMeas_tj : Int) - 64))
    else if 0x10 ≤ src ∧ src ≤ 0x17 then some (sext 16 (Config.ntcTemp (L.adc.hk.get (20 + (src - 0x10)))).toNat)
    else none
  let one (src : Nat) (lim : Int) : List Int := (temp src).toList.map (fun t => max 0 (lim - t))
  let all := one (L.get (R.axpThermSrc_src0 n)) (L.getS (R.axpThermLim0_lim0 n)) ++
    one (L.get (R.axpThermSrc_src1 n)) (L.getS (R.axpThermLim0_lim1 n)) ++
    one (L.get (R.axpThermSrc_src2 n)) (L.getS (R.axpThermLim1_lim2 n)) ++
    one (L.get (R.axpThermSrc_src3 n)) (L.getS (R.axpThermLim1_lim3 n))
  match all with
  | [] => 1600
  | x :: xs => satU 16 (xs.foldl min x).toNat

/-- Records that ADC `i` returned code 0 or full scale (ADC_STAT.ovr). -/
def LaneState.setAdcOvr (L : LaneState) (i : Nat) (full : Bool) : LaneState :=
  if full then L.setBit R.adcStat_ovr i true else L

/-! ## The start of a set, and what the bridge die reports of a port -/

/-- Whether any phase of a port has BS_LOW set (R254), as the bridge die reports it. -/
def LaneState.bsLow (L : LaneState) (n : Nat) : Bool := bits (L.get R.brgStat_bs_low) (3 * n + 2) (3 * n) != 0

/-- Whether any bootstrap of a port is below its warning level (R149, R253). -/
def LaneState.bsWarn (L : LaneState) (n : Nat) : Bool := bits (L.get R.brgBswarn_warn) (3 * n + 2) (3 * n) != 0

/-- Puts the three leg units of an axis into a state: 0 OFF, 1 LOW, 2 HIGH, and discards their compares of this tick
(R225). Units that are not in FIELD mode, or held by the halt state, do not follow the axis. -/
def LaneState.legsTo (L : LaneState) (n out : Nat) : LaneState :=
  let L := { L with edge := { L.edge with loaded := dropFrom n L.edge.loaded } }
  [3 * n, 3 * n + 1, 3 * n + 2].foldl (fun M u =>
    if M.get (R.edgeEuCfg_mode u) == 1 && !decide (u ∈ M.edge.held) then M.put (R.edgeEuLvl_out u) out else M) L

/-- The legs of an axis after a change of its state: LOW in ASC, OFF in OFF, ARMED and FREE; a change into DRIVE, HOLD or
LIMP takes effect with the first load (R225). Legs stay OFF until the lock-time calibration is complete (R237). -/
def LaneState.legsFollow (L : LaneState) (n st : Nat) : LaneState :=
  if st == axAsc then L.legsTo n (b2n (L.is R.edgeStat_cal_done))
  else if st == axOff || st == axArmed || st == axFree then L.legsTo n 0
  else L

/-- The start sequence of a set begins: the port off, starting set, T_avail 0 (R158). -/
def LaneState.beginStart (L : LaneState) (n : Nat) : LaneState :=
  (((L.legsTo n 0).setF (R.fldStat_starting n) true).setSig (axisSig n 0x33) 0).mapFl n (fun X => { X with
    offInterval := true, offTicks := 0, conducting := false, skipRamp := false, ramp := none, vec := 0, seq := none })

/-- Whether a START may run: the model parameters of the set are not 0 (R135). -/
def LaneState.startReady (L : LaneState) (n : Nat) : Bool :=
  L.is (R.fldPsib_psib n) && L.is (R.fldPm_val n) && L.is (R.fldLd_val n) && L.is (R.fldLq_val n)

/-- PROFILE does not run in OFF, FREE and ASC: mode IDLE, stored commands dropped (R170). -/
def LaneState.profDrop (L : LaneState) (n : Nat) : LaneState :=
  let L := (L.put (R.profState_mode n) 0).put (R.profState_plan n) 0
  let L := if (L.pr n).pend.isNone then (L.put (R.profState_pend n) 0).put (R.profState_pend_op n) 0 else L
  L.mapPr n (fun P => { P with plan := none, stored := none })

/-- Sets the state of an axis, in AXP_STATE and in signal 0x0040 (R92, R96). A state other than DRIVE and LIMP ends a
STOP deceleration; OFF, FREE and ASC end the profile and drop its stored commands (R170); an entry into ARMED or DRIVE
from a state in which LOOP does not run makes the next run of its loops a first run (R191). -/
def LaneState.setAxis (L : LaneState) (n st : Nat) : LaneState :=
  let idle (x : Nat) : Bool := x == axOff || x == axFree || x == axAsc
  let L := if idle (L.axis n) && (st == axArmed || st == axDrive) then L.loopsFresh n else L
  let L := (L.put (R.axpState_state n) st).setSig (axisSig n 0x40) (wordN st)
  let L := L.legsFollow n st
  let L := if st == axDrive || st == axLimp then L else L.put (R.axpState_stopping n) 0
  if st == axOff || st == axFree || st == axAsc then L.profDrop n else L

/-- Puts an axis into its safe action, FREE or ASC (R91, R93). -/
def LaneState.safeAction (L : LaneState) (n : Nat) : LaneState :=
  if L.axis n == axOff then L
  else (L.setAxis n (if L.is (R.axpCfg_safe n) then axAsc else axFree)).setSig (axisSig n 0x33) 0


/-- Whether the bridge die holds a port in a trip action other than FLAG (TRIP_STAT.act_p). -/
def LaneState.portTripped (L : LaneState) (n : Nat) : Bool := bits (L.get R.tripStat_act_p) (2 * n + 1) (2 * n) != 0

/-! ## CRC-32 (R206) -/

/-- One bit of the reflected CRC-32. -/
def crcBit (c : BitVec 32) : BitVec 32 := if c.getLsbD 0 then (c >>> 1) ^^^ 0xEDB88320#32 else c >>> 1

/-- One byte of the reflected CRC-32. -/
def crcByte (c : BitVec 32) (b : Byte) : BitVec 32 :=
  crcBit (crcBit (crcBit (crcBit (crcBit (crcBit (crcBit (crcBit (c ^^^ b.setWidth 32))))))))

/-- CRC-32 with polynomial 0x04C1_1DB7, reflected, initial value and final XOR all ones (R206). -/
def crc32 (bs : List Byte) : BitVec 32 := bs.foldl crcByte 0xFFFFFFFF#32 ^^^ 0xFFFFFFFF#32

/-- The bytes of a word, little-endian (R7). -/
def wordBytes (w : Word) : List Byte := [w.extractLsb' 0 8, w.extractLsb' 8 8, w.extractLsb' 16 8, w.extractLsb' 24 8]

/-- A write of a signal by a master inside the lane: a peer's exchange segment is not written and the write is recorded
as a violation; the own exchange segment is also sent over both links (R50). -/
def LaneState.masterSig (L : LaneState) (q : Req) (i : Nat) (w : Word) : LaneState :=
  if L.inPeerSeg i then L.recordViol q (0x20200000 + 4 * i) true 4
  else if inSeg L.id i then L.publish rankOther (i - segBase L.id) [w]
  else L.setSig i w

/-- The compatibility class of the running image. -/
def LaneState.compat (L : LaneState) : Nat := bits (L.reg R.secRun).toNat 15 0

/-! ## Trips of the bridge die (R265 to R268) -/

/-- The map entry of a trip source: the register, or the fixed entry of R603, which follows BRG_CFG.safe. -/
def LaneState.tripEntry (L : LaneState) (s : Nat) : Nat :=
  let safe := (List.range 4).foldl (fun a p => a + (if L.bitOf R.brgCfg_safe p then 2 else 3) * 4 ^ p) 0
  if s = 32 then 0x000200AA
  else if s = 34 then 0x000303FF
  else if s = 36 ∨ s = 37 then 0x00030000 + safe
  else if s = 38 then 0x00020000 + safe
  else (L.reg (R.tripMap s)).toNat

/-- Whether a trip source is active, and whether it is flagged. -/
def LaneState.tripActive (L : LaneState) (s : Nat) : Bool :=
  if s < 32 then L.bitOf R.tripSrc0_active s else L.bitOf R.tripSrc1_active (s - 32)
def LaneState.tripFlagged (L : LaneState) (s : Nat) : Bool :=
  if s < 32 then L.bitOf R.tripFlag0_flag s else L.bitOf R.tripFlag1_flag (s - 32)

/-- Sets or clears the active state of a trip source. -/
def LaneState.setTrip (L : LaneState) (s : Nat) (b : Bool) : LaneState :=
  if s < 32 then L.setBit R.tripSrc0_active s b else L.setBit R.tripSrc1_active (s - 32) b

/-- The ports on which a source acts: its own port, or those of its map; HARD_OV and EDGE_LOSS act on enabled ports
(R240, R263, R265). -/
def LaneState.tripOnPort (L : LaneState) (s p : Nat) : Bool :=
  if s < 12 then s / 3 == p
  else if s < 16 then s - 12 == p
  else if s < 20 then s - 16 == p
  else if s < 24 then s - 20 == p
  else if s = 24 then false
  else if s = 32 ∨ s = 36 then L.bitOf R.brgCfg_port_en p
  else true

/-- Whether a source contributes: enabled, and active or latched with its flag set (R266). -/
def LaneState.tripContributes (L : LaneState) (s : Nat) : Bool :=
  let e := L.tripEntry s
  bit e 17 && (L.tripActive s || (bit e 16 && L.tripFlagged s))

/-- The action of a port, and of the chopper, as the contributions give it: the highest code (R266). -/
def LaneState.portAction (L : LaneState) (p : Nat) : Nat :=
  (List.range 39).foldl (fun a s =>
    if L.tripContributes s && L.tripOnPort s p then max a (bits (L.tripEntry s) (2 * p + 1) (2 * p)) else a) 0
def LaneState.chopAction (L : LaneState) : Nat :=
  (List.range 39).foldl (fun a s =>
    if L.tripContributes s && decide (24 ≤ s) then max a (if bits (L.tripEntry s) 9 8 = 3 then 3 else 0) else a) 0

/-! ## Gates of the bridge die (R242, R244 to R249) -/

/-- The port of a gate, and the other gate of its leg. -/
def gatePort (g : Nat) : Nat := g / 6
def gateMate (g : Nat) : Nat := if g % 2 = 0 then g + 1 else g - 1

/-- The request of a gate: its wire, or BRG_OVR_GATE under override (R250). -/
def LaneState.gateReq (L : LaneState) (g : Nat) : Bool :=
  if L.is R.brgStat_ovr then L.bitOf R.brgOvrGate_gate g else decide (g ∈ L.bridge.wire)

/-- Whether a port follows its gate wires (R242, R268). -/
def LaneState.followsWires (L : LaneState) (p : Nat) : Bool :=
  L.bitOf R.brgCfg_port_en p && L.is R.brgStat_locked && L.is R.brgStat_ena && L.portAction p == 0 &&
    !decide (p ∈ L.bridge.marker)

/-- What a gate is to be: its port's trip action, or the request with refresh pulse and interlock; a low bootstrap keeps
the high side off; the chopper gate under R261. -/
def LaneState.gateTarget (L : LaneState) (g : Nat) : Bool :=
  if g = 24 then
    L.is R.brgCfg_chop_en && L.is R.brgStat_chop_req && L.gateReq 24 && L.chopAction != 3 && !L.bridge.cfgFailed
  else
    let p := gatePort g
    let ph := g / 2
    let high := g % 2 == 1
    let a := L.portAction p
    let bs := !(high && L.bitOf R.brgStat_bs_low ph)
    if a = 3 then false
    else if a = 2 then !high
    else if a = 1 then high && bs
    else if !L.followsWires p || decide (ph ∈ L.bridge.ilkHold) then false
    else if ph ∈ L.bridge.refresh then !high
    else L.gateReq g && bs

/-- One gate moves toward its target: a turn-on waits for break-before-make, a turn-off starts at once, through the
weak sink where `soft` says so (R247, R258, R267). -/
def LaneState.driveGate (L : LaneState) (soft : Nat → Bool) (g : Nat) : LaneState :=
  let B := L.bridge
  if L.gateTarget g then
    if g ∈ B.on then L else { L with bridge := { B with waiting := addTo g B.waiting } }
  else if g ∈ B.on then
    { L with bridge := { B with
      on := dropFrom g B.on
      waiting := dropFrom g B.waiting
      phase := B.phase.set g 1
      unconf := addTo g B.unconf
      soft := if soft g then addTo g B.soft else B.soft } }
  else { L with bridge := { B with waiting := dropFrom g B.waiting } }

/-- Every gate moves toward its target; a leg held by an interlock is released once both its requests are low; a port
that follows its wires no longer ends its refresh pulses. -/
def LaneState.driveGates (L : LaneState) (soft : Nat → Bool := fun _ => false) : LaneState :=
  let L := { L with bridge := { L.bridge with
    ilkHold := L.bridge.ilkHold.filter (fun ph => L.gateReq (2 * ph) || L.gateReq (2 * ph + 1))
    refresh := L.bridge.refresh.filter (fun ph => L.followsWires (ph / 3)) } }
  (List.range 25).foldl (fun M g => M.driveGate soft g) L

/-- The actions of all groups after a change of the sources: TRIP_STAT shows them, a port whose action falls to FLAG
waits for the next tick marker, and the gates follow (R266 to R268). -/
def LaneState.tripUpdate (L : LaneState) (soft : Nat → Bool := fun _ => false) : LaneState :=
  let acts := (List.range 4).map (fun p => L.portAction p)
  let old := L.get R.tripStat_act_p
  let fell := (List.range 4).filter (fun p => bits old (2 * p + 1) (2 * p) != 0 && acts.getD p 0 == 0)
  let L := { L with bridge := { L.bridge with marker := fell.foldl (fun m p => addTo p m) L.bridge.marker } }
  let L := L.put R.tripStat_act_p ((List.range 4).foldl (fun a p => a + acts.getD p 0 * 4 ^ p) 0)
  (L.put R.tripStat_act_ch L.chopAction).driveGates soft

/-- A trip source is raised: active, and with its en set flagged, recorded as the first if no flag was set, and sent to
the lane die (R265, R266, R269, R270). -/
def LaneState.raiseTrip (L : LaneState) (s : Nat) (soft : Nat → Bool := fun _ => false) : LaneState :=
  let L := L.setTrip s true
  let L :=
    if bit (L.tripEntry s) 17 then
      let L := if L.is R.tripFlag0_flag || L.is R.tripFlag1_flag then L
        else (L.setF R.tripStat_first_valid true).put R.tripStat_first s
      let L := if s < 32 then L.setBit R.tripFlag0_flag s true else L.setBit R.tripFlag1_flag (s - 32) true
      { L with bridge := { L.bridge with flagsOut := addTo s L.bridge.flagsOut } }
    else L
  L.tripUpdate soft

/-- A trip source becomes inactive. -/
def LaneState.endTrip (L : LaneState) (s : Nat) : LaneState := (L.setTrip s false).tripUpdate

/-- A trip source whose condition is a single occurrence: raised, and no longer active after it (assumption 29). -/
def LaneState.pulseTrip (L : LaneState) (s : Nat) (soft : Nat → Bool := fun _ => false) : LaneState :=
  (L.raiseTrip s soft).endTrip s

/-- The majority gate enables the lane or removes the enable: source ENA (R265, R282). -/
def LaneState.setEnable (L : LaneState) (b : Bool) : LaneState :=
  if L.is R.brgStat_ena == b then L
  else
    let L := L.setF R.brgStat_ena b
    if b then L.endTrip 38 else L.raiseTrip 38

end Sys2Proof.Machine
end

