-- ==== Sys2Proof/Machine/LoopDesc.lean ====
section
/-! DEFINITION. What the ARM command asks of the loops and of the other blocks (R194, R218, R243, R427, R463). -/

namespace Sys2Proof.Machine

/-- When a described loop becomes ready in the worst-case schedule, in ns from the period boundary; `fin` holds the
loops that have finished. -/
def LaneState.readyAt (L : LaneState) (e : Nat) (fin : NMap) (k : Nat) : Option Nat :=
  let t := L.dTrig e k
  if t = 0 then some (5 * L.get (R.axpSched0_profile_end (L.dAxis e k)))
  else if t = 1 then some (20 * L.dStart e k)
  else if t = 2 then (fin.find? (fun p => p.1 == L.dStart e k % 16)).map (·.2)
  else none

/-- The loop that the engine takes next among the described loops that have not finished: the one ready first, and
among equal ready times the lower index (R190). -/
def LaneState.pickLoop (L : LaneState) (e : Nat) (fin : NMap) : Option (Nat × Nat) :=
  (List.range 16).foldl (fun best k =>
    if !L.described e k || fin.any (fun p => p.1 == k) then best
    else match L.readyAt e fin k, best with
      | some r, none => some (r, k)
      | some r, some (r', k') => if r < r' then some (r, k) else some (r', k')
      | none, b => b) none

/-- The worst-case schedule of an engine: finish times in ns by loop (R194). -/
def LaneState.leSchedule (L : LaneState) (e : Nat) : Nat → Nat → NMap → NMap
  | 0, _, fin => fin
  | fuel + 1, t, fin =>
    match L.pickLoop e fin with
    | none => fin
    | some (r, k) =>
      let f := max r t + 10 + 2 * L.dWcet e k
      let f := if L.dWbound e k = 0 then f else max f (20 * L.dWbound e k)
      L.leSchedule e fuel f (fin ++ [(k, f)])

/-- The loops of the engine that AXP_LOOPSEL names: the named loop is described, of trigger 0 and of this axis, and the
worst-case schedule ends every loop named by an armed or arming axis of that engine by that axis's loop_end (R194). -/
def LaneState.loopsFit (L : LaneState) (n : Nat) : Bool :=
  let e := L.get (R.axpLoopsel_le n)
  let k := L.get (R.axpLoopsel_loop n)
  let fin := L.leSchedule e 16 0 []
  L.described e k && L.dTrig e k == 0 && L.dAxis e k == n &&
    (List.range 4).all (fun i =>
      if (i == n || L.axRuns i) && L.get (R.axpLoopsel_le i) == e then
        match fin.find? (fun p => p.1 == L.get (R.axpLoopsel_loop i)) with
        | some p => decide (p.2 ≤ 5 * L.get (R.axpSched1_loop_end i))
        | none => false
      else true)

/-- Whether a safety function acts as NONE (R463). -/
def LaneState.fnNone (L : LaneState) (f : Nat) : Bool :=
  let t := L.get (R.siuFn_type f)
  t == 0 || decide (5 ≤ t) || L.get (R.siuFn_owner f) == 3

/-- The emergency-stop result of a function is active while its published permit is 0 (R93, R462). -/
def LaneState.estopActive (L : LaneState) (f : Nat) : Bool := !L.bitOf R.siuRes_permit f

/-- The checks of an ARM beside its schedule: the leg units of a fitted port are in FIELD mode (R218); port_en and safe
of the bridge die agree with AXP_CFG (R243); the loop of a mirrored axis in pair mode has at most 4 sections (R427); the
emergency-stop function of an axis with estop_en exists and SIU is locked (R463). -/
def LaneState.armChecks (L : LaneState) (n : Nat) : Bool :=
  let fit := L.fitted n L.id
  (!fit || [0, 1, 2].all (fun j => L.get (R.edgeEuCfg_mode (3 * n + j)) == 1)) &&
  L.bitOf R.brgCfg_port_en n == fit &&
  L.bitOf R.brgCfg_safe n == L.is (R.axpCfg_safe n) &&
  (!(L.is R.tetherCfg_pair_en && L.bitOf R.tetherCfg_axes n) ||
    decide (L.dNsec (L.get (R.axpLoopsel_le n)) (L.get (R.axpLoopsel_loop n)) ≤ 4)) &&
  (!L.is (R.axpCfg_estop_en n) ||
    (!L.fnNone (L.get (R.axpCfg_estop_fn n)) && L.is R.siuState_locked))

end Sys2Proof.Machine
end

