-- ==== Sys2Proof/Machine/Pair.lean ====
section
/-! DEFINITION. Pair operation as the axis pipeline uses it: pair state, pair share, pair words, the steps of a handover
(R421, R425, R429, R431 to R433, R442). -/

namespace Sys2Proof.Machine

def psSingle : Nat := 0
def psWait : Nat := 1
def psStandby : Nat := 2
def psDriving : Nat := 3
def psIn : Nat := 4
def psOut : Nat := 5

/-- Changes what a lane keeps of pair operation. -/
def LaneState.mapT (L : LaneState) (f : TetherSt → TetherSt) : LaneState := { L with tether := f L.tether }

/-- The pair state (R431). -/
def LaneState.pstate (L : LaneState) : Nat := L.get R.tetherState_pstate

/-- Pair mode is in force: TETHER is locked with pair_en (R421, R432). -/
def LaneState.pairMode (L : LaneState) : Bool := L.pstate != psSingle

/-- Whether an axis is mirrored (R421). -/
def LaneState.mirrored (L : LaneState) (n : Nat) : Bool := L.pairMode && L.bitOf R.tetherCfg_axes n

/-- The mirrored axes. -/
def LaneState.mirroredAxes (L : LaneState) : List Nat := (List.range 4).filter L.mirrored

/-- The axis whose commit tick is the pair's commit tick: the lowest mirrored one (assumption 48). -/
def LaneState.pairAxis (L : LaneState) : Nat := L.mirroredAxes.headD 0

/-- The module ID. -/
def LaneState.pairMod (L : LaneState) : Nat := L.get R.tetherCfg_mod

/-- Word at an offset of the latest valid partner record, at 0x2039_F000 (R424). -/
def LaneState.recWord (L : LaneState) (off : Nat) : Nat := L.load (0x2039F000 + off) 4

/-- A 64-bit value of the record. -/
def LaneState.recWord64 (L : LaneState) (off : Nat) : Nat := L.load (0x2039F000 + off) 8

/-- The committed torque reference scaled by the pair share, (T × s) >> 30, on a mirrored axis (R433). -/
def LaneState.pairScale (L : LaneState) (n : Nat) (T : Int) : Int :=
  if L.mirrored n then T * (L.get R.tetherShare_s : Int) / 2 ^ 30 else T

/-- The pair share of a state with handover step k in Q2.30 (R431). -/
def shareOf (st k : Nat) : Nat :=
  if st = psSingle ∨ st = psDriving then 0x40000000
  else if st = psIn then k * 0x04000000
  else if st = psOut then (16 - k) * 0x04000000
  else 0

/-- Enters a pair state with handover step 0 and its share; STANDBY puts the mirrored axes in DRIVE, HOLD, LIMP and ASC
into FREE (R431). -/
def LaneState.setPstate (L : LaneState) (st : Nat) : LaneState :=
  let L := ((L.put R.tetherState_pstate st).put R.tetherState_k 0).setReg R.tetherShare (wordN (shareOf st 0))
  let L := L.mapT (fun T => { T with toDriving := false, notIn := 0 })
  let L := if st = psDriving ∨ st = psOut then L else L.setF R.tetherState_own_auth false
  if st = psStandby then
    L.mirroredAxes.foldl (fun (M : LaneState) n =>
      if M.axDriving n || M.axis n == axAsc then M.setAxis n axFree else M) L
  else L

/-- The digest of the record in an area: CRC-32 over bytes 0x00 to 0x17 and 0x1C to 0x33 of each mirrored axis block, in
axis order (R425). -/
def LaneState.digestAt (L : LaneState) (base : Nat) : Word :=
  crc32 (L.mirroredAxes.flatMap (fun n =>
    L.bytesFrom (base + 0x40 + 0xF0 * n) 24 ++ L.bytesFrom (base + 0x5C + 0xF0 * n) 24))

/-- Word `o` of a lane's pair word, at offset 0x0050 of its exchange segment. -/
def LaneState.pairWord (L : LaneState) (y : Lane) (o : Nat) : Nat := (L.sig (segBase y + 0x50 + o)).toNat

/-- The lanes that drive, as this lane holds them. -/
def LaneState.pairDrivers (L : LaneState) : List Lane := lanes.filter (fun y => driving (L.view y))

/-- A period is coherent: the pair word of every driving lane shows a record of a new period with the link up, and all
digests and period numbers agree (R429, assumption 49); a module with cfg_mismatch is never coherent (R430). -/
def LaneState.isCoherent (L : LaneState) : Bool :=
  let drv := L.pairDrivers
  match drv with
  | [] => false
  | y :: _ =>
    !L.is R.tetherStat_cfg_mismatch && drv.all (fun z =>
      bit (L.pairWord z 2) 3 && L.pairWord z 0 == L.pairWord y 0 && L.pairWord z 1 == L.pairWord y 1 &&
        L.tether.lastNums.get z.idx != L.pairWord z 1 + 1)

/-- Counts coherent periods; the count returns to 0 at a period that is not coherent (R429). -/
def LaneState.countCoherence (L : LaneState) : LaneState :=
  let ok := L.isCoherent
  let L := if ok then L.count R.tetherCoh_count
    else (L.flagIf (L.is R.tetherCoh_count) R.tetherStat_coh_lost).put R.tetherCoh_count 0
  L.mapT (fun T => { T with
    coherent := ok
    lastNums := lanes.foldl (fun (m : NMap) z => m.set z.idx (L.pairWord z 1 + 1)) T.lastNums })

/-- The step of a handover at a commit tick: k and the share advance; at 16 IN becomes DRIVING, and a hand-over that is
cut short gives the share back at once (R432, R442). -/
def LaneState.handoverStep (L : LaneState) : LaneState :=
  let st := L.pstate
  if L.tether.toDriving then L.setPstate psDriving
  else if (st = psIn ∨ st = psOut) ∧ L.get R.tetherState_k < 16 then
    let k := L.get R.tetherState_k + 1
    let L := (L.put R.tetherState_k k).setReg R.tetherShare (wordN (shareOf st k))
    if k < 16 then L
    else
      let L := (L.flag R.tetherStat_handover_done).count R.tetherCnt_xfer
      if st = psIn then L.setPstate psDriving else L
  else L

/-- The pair's part of a commit tick: coherence over the pair words of the last period, the handover step, and the new
pair word: digest and period number of the latest valid record, the partner's state, the link and the partner's
verdict sequence (R429, R432, R442). -/
def LaneState.pairStep (L : LaneState) : LaneState :=
  let L := L.countCoherence.handoverStep
  let up := L.is R.tetherState_link_up
  let w2 := (if up then L.get R.tetherState_partner else 7) + 8 * b2n up + 65536 * (L.recWord 0x28 / 65536)
  let L := L.publish rankOther 0x50 [L.digestAt 0x2039F000, wordN (L.recWord 4), wordN w2]
  L.mapT (fun T => { T with lastStep := some L.pnum })

end Sys2Proof.Machine
end

