-- ==== Sys2Proof/Machine/Profile.lean ====
section
/-! DEFINITION. Motion profiles: jerk-limited plans, stream tracking, virtual limits, following-error checks (chapter 5,
R164 to R183). A plan is computed in exact integer arithmetic over 1/65,536 of a servo period, which lies within the
±1 count of R174; which of the two neighbouring counts is published is open (assumption 3, assumption 12). -/

namespace Sys2Proof.Machine

/-! ## Trajectories of piecewise-constant jerk (R172) -/

/-- A state of a trajectory: position, velocity, acceleration in the units of `Plan`. -/
structure Traj where
  p : Int
  v : Int
  a : Int
deriving DecidableEq, Repr

/-- The state after `t` sub-periods at jerk `j`. -/
def Traj.move (x : Traj) (j : Int) (t : Nat) : Traj :=
  { p := x.p + 3 * x.v * t + 3 * x.a * (t * t) + j * (t * t * t)
    v := x.v + 2 * x.a * t + j * (t * t)
    a := x.a + j * t }

/-- The state at time `t` along segments; after their end the velocity stays and the acceleration is 0. -/
def Traj.along (x : Traj) : List (Int × Nat) → Nat → Traj
  | [], t => ({ x with a := 0 } : Traj).move 0 t
  | (j, d) :: rest, t => if t ≤ d then x.move j t else (x.move j d).along rest (t - d)

/-- The length of segments. -/
def segsLen (segs : List (Int × Nat)) : Nat := (segs.map (·.2)).sum

/-- Limits of a plan in the units of `Traj`. -/
structure Limits where
  v : Int
  a : Int
  j : Int
deriving DecidableEq, Repr

/-- The time-optimal segments from (v, a) to (v1, 0) with |a| within its limit: jerk toward the target, constant
acceleration at the limit, jerk back (R172). -/
def velSegsIn (x : Traj) (v1 : Int) (m : Limits) : List (Int × Nat) :=
  let vs := x.v + x.a * x.a.natAbs / m.j
  if v1 = vs then [(-(x.a.sign) * m.j, (x.a.natAbs : Nat) / m.j.toNat)]
  else
    let d := (v1 - vs).sign
    let a := d * x.a
    let dv := d * (v1 - x.v)
    let peak : Int := Nat.sqrt ((m.j * dv + a * a) / 2).toNat
    if peak ≤ m.a then
      [(d * m.j, ((peak - a) / m.j).toNat), (-d * m.j, (peak / m.j).toNat)]
    else
      let gained := (m.a * m.a - a * a) / m.j + m.a * m.a / m.j
      [(d * m.j, ((m.a - a) / m.j).toNat), (0, ((dv - gained) / (2 * m.a)).toNat), (-d * m.j, (m.a / m.j).toNat)]

/-- The segments from a state to (v1, 0); an acceleration outside its limit is first brought inside (R172). -/
def velSegs (x : Traj) (v1 : Int) (m : Limits) : List (Int × Nat) :=
  if m.a < x.a.natAbs then
    let s := (-(x.a.sign) * m.j, ((x.a.natAbs - m.a) / m.j).toNat)
    s :: velSegsIn (x.move s.1 s.2) v1 m
  else velSegsIn x v1 m

/-- The stop of a state and its rest point. -/
def stopSegs (x : Traj) (m : Limits) : List (Int × Nat) := velSegs x 0 m

/-- The rest point of a stop under limits. -/
def restPoint (x : Traj) (m : Limits) : Int :=
  let s := stopSegs x m
  (x.along s (segsLen s)).p

/-- The segments that push toward velocity `vc` for `t` sub-periods. -/
def pushSegs (segs : List (Int × Nat)) (t : Nat) : List (Int × Nat) :=
  match segs with
  | [] => [(0, t)]
  | (j, d) :: rest => if t ≤ d then [(j, t)] else (j, d) :: pushSegs rest (t - d)

/-- The state after pushing for `t` sub-periods. -/
def pushed (x : Traj) (segs : List (Int × Nat)) (t : Nat) : Traj := x.along segs t

/-- The longest push, in sub-periods of `n` bits by bisection, after which the stop does not pass the target in the
direction d. -/
def bisectPush (x : Traj) (push : List (Int × Nat)) (m : Limits) (d target : Int) : Nat → Nat → Nat
  | 0, t => t
  | n + 1, t =>
    let t' := t + 2 ^ n
    let ok := d * restPoint (pushed x push t') m ≤ d * target
    bisectPush x push m d target n (if ok then t' else t)

/-- The time-optimal plan to a position at rest: push as hard as the limits allow in the direction in which the target
lies beyond the rest point of a stop, then stop (R172). -/
def posSegs (x : Traj) (target : Int) (m : Limits) : List (Int × Nat) :=
  let rest := restPoint x m
  let d := (target - rest).sign
  if d = 0 then stopSegs x m
  else
    let push := velSegs x (d * m.v) m
    let t := bisectPush x push m d target 48 0
    pushSegs push t ++ stopSegs (pushed x push t) m

/-! ## Units -/

/-- A position in counts, in the unit of `Traj`. -/
def trajP (counts : Int) : Int := counts * (6 * 2 ^ 72)

/-- A velocity in Q24.8 counts per servo period. -/
def trajV (v : Int) : Int := v * 2 ^ 49

/-- An acceleration in Q20.12 counts per servo period squared. -/
def trajA (a : Int) : Int := a * 2 ^ 28

/-- A position as it is published: one of the two counts next to the exact value (R174). -/
def pubP (p : Int) : Int := divOpen p (6 * 2 ^ 72)

/-- A velocity as it is published. -/
def pubV (v : Int) : Int := satS 32 (divOpen v (2 ^ 49))

/-- An acceleration as it is published. -/
def pubA (a : Int) : Int := satS 32 (divOpen a (2 ^ 28))

/-- The normal limits of an axis; in LIMP v_max and a_max are scaled by BELAY_LIMP.vscale, unsigned Q1.7 (R172,
R316). -/
def LaneState.limits (L : LaneState) (n : Nat) : Limits :=
  let k : Int := if L.axis n = axLimp then L.get R.belayLimp_vscale else 128
  { v := trajV (L.get (R.profVmax_lim n) * k) / 128
    a := trajA (L.get (R.profAmax_lim n) * k) / 128
    j := L.get (R.profJmax_lim n) }

/-- The limits of STOPPING. -/
def LaneState.stopLimits (L : LaneState) (n : Nat) : Limits :=
  { v := trajV (L.get (R.profVmax_lim n)), a := trajA (L.get (R.profStopA_lim n)), j := L.get (R.profStopJ_lim n) }

/-- A plan that would need a zero limit is not made (R173). -/
def Limits.ok (m : Limits) : Bool := decide (0 < m.v ∧ 0 < m.a ∧ 0 < m.j)

/-! ## The set-point of a period -/

/-- The measured state of R166: the agreed measured position of the previous period, or the own one when no lane
contributed; the observer speed; no acceleration. -/
def LaneState.measuredState (L : LaneState) (n : Nat) : Traj :=
  let own := sext 48 ((L.sig (axisSig n 4)).toNat + 2 ^ 32 * bits (L.sig (axisSig n 5)).toNat 15 0)
  let p := if L.get (R.axpState_contrib n) = 0 then own
    else sext 48 (wrapTo 48 (own + (L.sig (0x36002 + 0x10 * n) - wordI own).toInt))
  { p := trajP p, v := trajV (L.sig (axisSig n 6)).toInt, a := 0 }

/-- The samples a and b of a period (R177). -/
def ProfSt.around (P : ProfSt) (per : Int) : Option Sample × Option Sample :=
  (P.samples.find? (fun x => x.due ≤ per), P.samples.reverse.find? (fun x => per < x.due))

/-- The interpolated or extrapolated stream state of a period, as position, velocity and acceleration in counts, Q24.8
and Q20.12, rounded to nearest (R177, R178). -/
def ProfSt.stream (P : ProfSt) (per : Int) : Option (Int × Int × Int) :=
  match P.around per with
  | (some a, some b) =>
    let h := b.due - a.due
    let k := per - a.due
    let dp := wrap48i (b.pos - a.pos)
    if a.velValid && b.velValid then
      let h3 := (h * h * h).toNat
      let p := roundNearest (256 * dp * (3 * h * k * k - 2 * k * k * k) + a.vel * h * (k * k * k - 2 * h * k * k + h * h * k) +
        b.vel * h * (k * k * k - h * k * k)) (256 * h3)
      let v := roundNearest (256 * dp * (6 * h * k - 6 * k * k) + a.vel * h * (3 * k * k - 4 * h * k + h * h) +
        b.vel * h * (3 * k * k - 2 * h * k)) h3
      let acc := roundNearest (16 * (256 * dp * (6 * h - 12 * k) + a.vel * h * (6 * k - 4 * h) + b.vel * h * (6 * k - 2 * h))) h3
      some (a.pos + p, v, acc)
    else some (a.pos + roundNearest (dp * k) h.toNat, roundNearest (256 * dp) h.toNat, 0)
  | (some a, none) =>
    let v := if a.velValid then a.vel else P.slope
    some (a.pos + roundNearest (v * (per - a.due)) 256, v, 0)
  | (none, _) => none

/-- The exact set-point state at the boundary of a period, by the mode in force. -/
def LaneState.spAt (L : LaneState) (n per : Nat) : Traj :=
  let P := L.pr n
  match L.get (R.profState_mode n), P.plan with
  | 0, _ => L.measuredState n
  | 3, _ => match P.stream per with
    | some (p, v, a) => { p := trajP p, v := trajV v, a := trajA a }
    | none => L.measuredState n
  | _, some pl =>
    let t := (per - pl.start) * 65536
    let x : Traj := { p := pl.p, v := pl.v, a := pl.a }
    if segsLen pl.segs ≤ t then
      { p := if pl.vEnd = 0 then pl.pEnd else (x.along pl.segs t).p, v := pl.vEnd, a := 0 }
    else x.along pl.segs t
  | _, none => L.measuredState n

/-- Starts a plan from a state in a mode. -/
def LaneState.startPlan (L : LaneState) (n mode : Nat) (x : Traj) (segs : List (Int × Nat)) (pEnd vEnd target : Int) :
    LaneState :=
  let L := ((L.put (R.profState_mode n) mode).put (R.profState_plan n) 1).put (R.profState_at_target n) 0
  L.mapPr n (fun P => { P with
    plan := some { start := L.pnum, p := x.p, v := x.v, a := x.a, segs := segs, pEnd := pEnd, vEnd := vEnd }
    target := target })

/-- The virtual limits (R180). -/
def LaneState.virtLo (L : LaneState) (n : Nat) : Int :=
  sext 48 (L.get (R.profVminLo_lim n) + 2 ^ 32 * bits (L.get (R.profVminHi_lim n)) 15 0)

def LaneState.virtHi (L : LaneState) (n : Nat) : Int :=
  sext 48 (L.get (R.profVmaxPosLo_lim n) + 2 ^ 32 * bits (L.get (R.profVmaxPosHi_lim n)) 15 0)

/-- A plan that cannot be made leaves the previous one in force (R173). -/
def LaneState.planRefused (L : LaneState) (n : Nat) : LaneState :=
  (L.flag (R.profStat_cfg_err n)).flag (R.profStat_cmd_refused n)

/-- Plans to a position from a state: the target is clamped to the virtual limits; a start that cannot stop before a
limit sets lim_over (R172, R180, R181). -/
def LaneState.planPos (L : LaneState) (n : Nat) (x : Traj) (target : Int) : LaneState :=
  let m := L.limits n
  if !m.ok then L.planRefused n
  else
    let en := L.is (R.profCfg_vlim_en n)
    let t := if en then clampI (L.virtLo n) (L.virtHi n) target else target
    let rest := restPoint x m
    let past := en && (decide (trajP (L.virtHi n) < rest) || decide (rest < trajP (L.virtLo n)))
    let L := (L.flagIf (t != target) (R.profStat_tgt_clamp n)).flagIf past (R.profStat_lim_over n)
    L.startPlan n 1 x (posSegs x (trajP t) m) (trajP t) 0 t

/-- Plans to a velocity, clamped to ±v_max (R172). -/
def LaneState.planVel (L : LaneState) (n : Nat) (x : Traj) (vt : Int) : LaneState :=
  let m := L.limits n
  if !m.ok then L.planRefused n
  else
    let v := clampI (-m.v) m.v (trajV vt)
    L.startPlan n 2 x (velSegs x v m) 0 v vt

/-- Plans a stop in mode HOLDING or STOPPING. -/
def LaneState.planStop (L : LaneState) (n mode : Nat) (x : Traj) (m : Limits) : LaneState :=
  if !m.ok then L.planRefused n
  else L.startPlan n mode x (stopSegs x m) (restPoint x m) 0 (L.pr n).target

/-- POSITION with the target at the rest point of a stop under the normal limits (R170, R178). -/
def LaneState.planRest (L : LaneState) (n : Nat) (x : Traj) : LaneState :=
  let m := L.limits n
  if !m.ok then L.flag (R.profStat_cfg_err n)
  else L.planPos n x (roundNearest (restPoint x m) (6 * 2 ^ 72))

/-! ## Commands (R168 to R173, R179) -/

/-- The position of the stream block (R175). -/
def LaneState.blockPos (L : LaneState) (n : Nat) : Int :=
  let i := L.get (R.profSrc_id n)
  sext 48 ((L.sig (i + 1)).toNat + 2 ^ 32 * bits (L.sig (i + 2)).toNat 15 0)

/-- The target of op POS: PROF_TGT, or the signal block (PROF_CFG.src). -/
def LaneState.posTarget (L : LaneState) (n : Nat) : Int :=
  if L.is (R.profCfg_src n) then L.blockPos n
  else sext 48 (L.get (R.profTgtLo_tgt n) + 2 ^ 32 * bits (L.get (R.profTgtHi_tgt n)) 15 0)

/-- A TRACK command: accepted if a sample a exists for the boundary and the interpolated position lies within the entry
window of the set-point (R179). -/
def LaneState.enterTrack (L : LaneState) (n : Nat) (x : Traj) : LaneState :=
  match (L.pr n).stream L.pnum with
  | some (p, _, _) =>
    if (trajP p - x.p).natAbs ≤ L.get (R.profEntry_win n) * (6 * 2 ^ 72) then
      ((((L.put (R.profState_mode n) 3).put (R.profState_plan n) 0).put (R.profState_at_target n) 0)).mapPr n
        (fun P => { P with plan := none })
    else L.flag (R.profStat_cmd_refused n)
  | none => L.flag (R.profStat_cmd_refused n)

/-- Plans op 1 POS, 2 VEL or 3 TRACK from a state. -/
def LaneState.planOp (L : LaneState) (n op : Nat) (x : Traj) : LaneState :=
  if op = 1 then L.planPos n x (L.posTarget n)
  else if op = 2 then L.planVel n x (L.getS (R.profVtgt_vtgt n))
  else L.enterTrack n x

/-- REPLAN: the present mode and target with the present limits, in POSITION, VELOCITY and HOLDING (R173). -/
def LaneState.replan (L : LaneState) (n : Nat) : LaneState :=
  let x := L.spAt n L.pnum
  let P := L.pr n
  match L.get (R.profState_mode n) with
  | 1 => L.planPos n x P.target
  | 2 => L.planVel n x P.target
  | 5 => L.planStop n 5 x (L.limits n)
  | _ => L.flag (R.profStat_cmd_refused n)

/-- Stores a command for START or RESUME; the latest replaces the earlier one (R170). -/
def LaneState.storeCmd (L : LaneState) (n op : Nat) : LaneState :=
  ((L.put (R.profState_pend n) 1).put (R.profState_pend_op n) op).mapPr n (fun P => { P with stored := some op })

/-- A PROF command takes effect in the present axis state (R170). -/
def LaneState.profApply (L : LaneState) (n op : Nat) : LaneState :=
  let st := L.axis n
  if st = axArmed then if op ≤ 3 then L.storeCmd n op else L.flag (R.profStat_cmd_refused n)
  else if st = axHold then if op ≤ 3 then L.storeCmd n op else L.replan n
  else if st = axDrive ∨ st = axLimp then
    if L.is (R.axpState_stopping n) then L.flag (R.profStat_cmd_refused n)
    else if op = 4 then L.replan n
    else L.planOp n op (L.spAt n L.pnum)
  else L.flag (R.profStat_cmd_refused n)

/-- A write of PROF_CMD: the rules of R94 with the flags of PROF_STAT (R168). -/
def LaneState.wProfCmd (L : LaneState) (n : Nat) (w : Word) : LaneState :=
  let op := bits w.toNat 3 0
  let at8 := bits w.toNat 15 8
  let d := (at8 + 256 - L.pnum % 256) % 256
  if op = 0 then L
  else if 4 < op then L.flag (R.profStat_cmd_refused n)
  else if d = 0 ∨ 129 ≤ d then L.flag (R.profStat_cmd_late n)
  else
    let L := L.flagIf (L.pr n).pend.isSome (R.profStat_cmd_overwrite n)
    ((L.put (R.profState_pend n) 1).put (R.profState_pend_op n) op).mapPr n (fun P => { P with pend := some (op, at8) })

/-- A command written to PROF_CMD by a master. -/
def profCommand (l : Lane) (n : Axis) (q : Req) (op : Nat) (at8 : BitVec 8) (s : State) : Out :=
  let w := wordN (op + 256 * at8.toNat)
  onLane s l (fun L => L.guardW q (R.profCmd n) w (fun L => L.wProfCmd n w))

def execPos (l : Lane) (n : Axis) (q : Req) (at8 : BitVec 8) (s : State) : Out := profCommand l n q 1 at8 s
def execVel (l : Lane) (n : Axis) (q : Req) (at8 : BitVec 8) (s : State) : Out := profCommand l n q 2 at8 s
def execTrack (l : Lane) (n : Axis) (q : Req) (at8 : BitVec 8) (s : State) : Out := profCommand l n q 3 at8 s
def execReplan (l : Lane) (n : Axis) (q : Req) (at8 : BitVec 8) (s : State) : Out := profCommand l n q 4 at8 s

/-- A pending PROF command reaches its boundary and is applied, stored or refused (R168, R170). -/
def execProfCmdDue (l : Lane) (n : Axis) (s : State) : Out :=
  onLane s l (fun L =>
    match (L.pr n).pend with
    | some (op, at8) =>
      L.when (at8 == L.pnum % 256 && L.coarse % L.tServo == 0) (fun L =>
        let L := L.mapPr n (fun P => { P with pend := none })
        let L := if (L.pr n).stored.isNone then (L.put (R.profState_pend n) 0).put (R.profState_pend_op n) 0 else L
        L.profApply n op)
    | none => L)

/-- START takes effect: the set-point is the measured state; the stored command is planned from it, else POSITION with
the target at the rest point of a stop (R166, R170). -/
def LaneState.profStart (L : LaneState) (n : Nat) : LaneState :=
  let x := L.measuredState n
  let op := (L.pr n).stored
  let L := (L.put (R.profState_mode n) 0).mapPr n (fun P => { P with stored := none, plan := none })
  let L := if (L.pr n).pend.isNone then (L.put (R.profState_pend n) 0).put (R.profState_pend_op n) 0 else L
  match op with
  | some op => L.planOp n op x
  | none => L.planRest n x

/-- HOLD takes effect: mode HOLDING with the stop plan (R170). -/
def LaneState.profHold (L : LaneState) (n : Nat) : LaneState :=
  let x := L.spAt n L.pnum
  let mode := L.get (R.profState_mode n)
  (L.mapPr n (fun P => { P with beforeHold := mode })).planStop n 5 x (L.limits n)

/-- RESUME: the stored command is planned, or the mode held before HOLD is replanned to its target (R170). -/
def LaneState.profResume (L : LaneState) (n : Nat) : LaneState :=
  let x := L.spAt n L.pnum
  let P := L.pr n
  let L := L.mapPr n (fun P => { P with stored := none })
  match P.stored with
  | some op =>
    let L := if P.pend.isNone then (L.put (R.profState_pend n) 0).put (R.profState_pend_op n) 0 else L
    L.planOp n op x
  | none =>
    match P.beforeHold with
    | 2 => L.planVel n x P.target
    | 3 => L.enterTrack n x
    | 1 => L.planPos n x P.target
    | _ => L.planRest n x

/-- STOP takes effect: mode STOPPING under the STOP limits, stopping = 1 (R93, R170). -/
def LaneState.beginStop (L : LaneState) (n : Nat) : LaneState :=
  let x := L.spAt n L.pnum
  (L.put (R.axpState_stopping n) 1).planStop n 4 x (L.stopLimits n)

/-! ## The stream (R175, R176) -/

/-- Reads the stream block at decode_end: a new sample is held, a late one flagged, a bad one discarded. -/
def LaneState.readStream (L : LaneState) (n : Nat) : LaneState :=
  let i := L.get (R.profSrc_id n)
  let h := (L.sig i).toNat
  if !bit h 16 then L
  else
    let due : Int := L.pnum + sext 16 (h % 65536 + (65536 - L.pnum % 65536))
    let P := L.pr n
    let x : Sample := { due := due, velValid := bit h 17, pos := L.blockPos n, vel := (L.sig (i + 3)).toInt }
    match P.samples with
    | [] => (L.flagIf (decide (due ≤ L.pnum)) (R.profStat_strm_late n)).mapPr n (fun P => { P with samples := [x] })
    | y :: _ =>
      if due = y.due then L
      else if due < y.due ∨ 256 < due - y.due then L.flag (R.profStat_strm_err n)
      else (L.flagIf (decide (due ≤ L.pnum)) (R.profStat_strm_late n)).mapPr n (fun P => { P with
        samples := (x :: P.samples).take 4 })

/-! ## PROFILE (R164) -/

/-- Publishes a set-point in one transaction (R164). -/
def LaneState.publishSp (L : LaneState) (n : Nat) (x : Traj) : LaneState :=
  let p := pubP x.p
  L.setSigs (axisSig n 0x20) [wordI p, wordI (sext 48 (wrapTo 48 p) / 2 ^ 32), wordI (pubV x.v), wordI (pubA x.a)]

/-- The virtual limits in VELOCITY, HOLDING and TRACK: a motion that would pass a limit becomes a POSITION plan to it
(R180). -/
def LaneState.guardLimits (L : LaneState) (n : Nat) (x : Traj) : LaneState :=
  let mode := L.get (R.profState_mode n)
  let m := L.limits n
  if !L.is (R.profCfg_vlim_en n) || !m.ok then L
  else
    let hi := L.virtHi n
    let lo := L.virtLo n
    if mode = 2 ∨ mode = 5 then
      let r := restPoint x m
      if 0 < x.v ∧ trajP hi < r then (L.flag (R.profStat_lim_hit n)).planPos n x hi
      else if x.v < 0 ∧ r < trajP lo then (L.flag (R.profStat_lim_hit n)).planPos n x lo
      else L
    else if mode = 3 then
      if trajP hi < x.p then (L.flag (R.profStat_lim_hit n)).planPos n x hi
      else if x.p < trajP lo then (L.flag (R.profStat_lim_hit n)).planPos n x lo
      else L
    else L

/-- One period of PROFILE. -/
def LaneState.profile (L : LaneState) (n : Nat) : LaneState :=
  let L := L.readStream n
  let per := L.pnum
  let i := L.get (R.profSrc_id n)
  let mode := L.get (R.profState_mode n)
  let h := (L.sig i).toNat
  let L := if mode = 1 && L.is (R.profCfg_src n) && bit h 16 && h % 65536 == per % 65536 && L.blockPos n != (L.pr n).target
    then L.planPos n (L.spAt n per) (L.blockPos n) else L
  let x := L.spAt n per
  let L := L.guardLimits n x
  let mode := L.get (R.profState_mode n)
  let x := L.spAt n per
  let L := match (L.pr n).plan with
    | some pl =>
      let done := decide (segsLen pl.segs ≤ (per - pl.start) * 65536)
      (L.setF (R.profState_plan n) (!done)).setF (R.profState_at_target n) (done && mode == 1)
    | none => L
  let L := if mode = 3 then
      let lim := decide (L.get (R.profVmax_lim n) < (pubV x.v).natAbs) || decide (L.get (R.profAmax_lim n) < (pubA x.a).natAbs)
      let interp := ((L.pr n).around per).2.isSome
      (L.flagIf lim (R.profStat_strm_lim n)).mapPr n (fun P => if interp then { P with slope := pubV x.v } else P)
    else L
  L.publishSp n x

/-- PROFILE runs in ARMED, DRIVE, HOLD and LIMP of a lane that shares (R61, R164). In STANDBY with a partner in TRACK it
reads the stream block and publishes no set-point (R434). -/
def execProfile (l : Lane) (n : Axis) (s : State) : Out :=
  onLane s l (fun L =>
    if L.pstate == 2 && L.mirrored n && L.tether.recValid && bits (L.recWord (0x5C + 0xF0 * n)) 2 0 == 3 then L.readStream n
    else L.when (participates L.belay && (L.axis n == axArmed || L.axDriving n)) (fun L => L.profile n))

/-- Queues the action of a fired check for the next boundary (R183). -/
def LaneState.queueAct (L : LaneState) (n act : Nat) : LaneState :=
  if 1 ≤ act ∧ act ≤ 4 then L.mapAx n (fun A => { A with profActs := A.profActs ++ [act] }) else L

/-- Extrapolation longer than starve: strm_lost, its action, and POSITION at the rest point of a stop (R178). -/
def execStreamLost (l : Lane) (n : Axis) (s : State) : Out :=
  onLane s l (fun L =>
    match (L.pr n).around L.pnum with
    | (some a, none) =>
      L.when (L.get (R.profState_mode n) == 3 && decide ((atLeast1 (L.get (R.profStrm_starve n)) : Int) < L.pnum - a.due))
        (fun L =>
          let x := L.spAt n L.pnum
          ((L.flag (R.profStat_strm_lost n)).queueAct n (L.get (R.profFerrCtl_act_strm n))).planRest n x)
    | _ => L)

/-! ## Following error, stall and lost motion (R182, R183) -/

/-- The checks of a period at its median stage: e_f and the runs of FERR, STALL and LOST. -/
def LaneState.profChecks (L : LaneState) (n : Nat) : LaneState :=
  let own := L.get (R.axpState_contrib n) == 0
  let ag (o : Nat) : Word := L.sig (0x36000 + 0x10 * n + o)
  let ef := if own then (L.sig (axisSig n 0x20) - L.sig (axisSig n 4)).toInt else (ag 1 - ag 2).toInt
  let vo := if own then (L.sig (axisSig n 6)).toInt else (ag 3).toInt
  let T := if L.loopPrompt n then (L.sig (axisSig n 0x30)).toInt else (ag 0).toInt
  let vs := (L.sig (axisSig n 0x22)).toInt
  let L := L.putS (R.profFe_fe n) ef
  let mode := L.get (R.profState_mode n)
  let off := mode == 0 || mode == 4 || L.is (R.fldStat_starting n) || L.get (R.profFerrCtl_persist n) == 0
  let spd := L.get (R.profStall_spd n)
  let ferr := decide (L.get (R.profFerrWin_win n) < ef.natAbs)
  let stall := ferr && decide (vo.natAbs < spd) && decide (L.get (R.profStall_tq n) * 2 ^ 16 ≤ T.natAbs)
  let lost := decide (spd ≤ vs.natAbs) && decide (spd ≤ vo.natAbs) && decide (vs.sign * vo.sign = -1)
  let step (P : ProfSt) (k : Nat) (c : Bool) : ProfSt :=
    if c && !off then { P with runs := P.runs.set k (P.runs.get k + 1) }
    else { P with runs := P.runs.set k 0, fired := dropFrom k P.fired }
  L.mapPr n (fun P => step (step (step P 0 ferr) 1 stall) 2 lost)

/-- A check whose run reaches persist fires once: its flag is set and its action waits for the next boundary. -/
def execProfCheckFire (l : Lane) (n : Axis) (k : Fin 3) (s : State) : Out :=
  onLane s l (fun L =>
    let p := L.get (R.profFerrCtl_persist n)
    L.when (p != 0 && decide (p ≤ (L.pr n).runs.get k) && !decide (k.val ∈ (L.pr n).fired)) (fun L =>
      let L := L.mapPr n (fun P => { P with fired := addTo k.val P.fired })
      if k.val = 0 then (L.flag (R.profStat_ferr n)).queueAct n (L.get (R.profFerrCtl_act_ferr n))
      else if k.val = 1 then (L.flag (R.profStat_stall n)).queueAct n (L.get (R.profFerrCtl_act_stall n))
      else (L.flag (R.profStat_lost n)).queueAct n (L.get (R.profFerrCtl_act_lost n))))

/-- Marks that a transition of higher precedence fell at the present boundary (R95). -/
def LaneState.markHigher (L : LaneState) (n : Nat) : LaneState :=
  if L.coarse % L.tServo = 0 then L.mapAx n (fun A => { A with higherAt := some L.pnum }) else L

/-- The action of a fired check takes effect at the boundary: HOLD, STOP, safe action, or the Belay (R95, R183). An
action that is not allowed from the axis state is ignored. -/
def LaneState.profAct (L : LaneState) (n act : Nat) : LaneState :=
  let st := L.axis n
  if act = 3 then (L.safeAction n).markHigher n
  else if act = 4 then L.raiseOwn 0x1A
  else if (L.ax n).higherAt = some L.pnum then L
  else if act = 1 then
    if st = axDrive ∧ L.is (R.axpState_stopping n) = false then ((L.setAxis n axHold).profHold n).markHigher n else L
  else if st = axDrive ∨ st = axLimp then (L.beginStop n).markHigher n
  else L

def execProfAction (l : Lane) (n : Axis) (s : State) : Out :=
  onLane s l (fun L =>
    L.when (L.coarse % L.tServo == 0) (fun L =>
      let acts := (L.ax n).profActs
      let L := L.mapAx n (fun A => { A with profActs := [] })
      -- safe action first, then the rest in their order (R95)
      (acts.filter (· = 3) ++ acts.filter (· ≠ 3)).foldl (fun M a => M.profAct n a) L))

/-- A write of PROF_LOCK locks the fields; a set-point outside the virtual limits then gets a POSITION target at the
nearer limit (R181). -/
def LaneState.wProfLock (L : LaneState) (n : Nat) (w : Word) : LaneState :=
  if bits w.toNat 15 0 ≠ 0xC1A5 then L
  else
    let L := { L with locks := addTo (R.profLock n) L.locks }
    let x := L.spAt n L.pnum
    if L.is (R.profCfg_vlim_en n) && L.axDriving n && !L.is (R.axpState_stopping n) then
      if trajP (L.virtHi n) < x.p then L.planPos n x (L.virtHi n)
      else if x.p < trajP (L.virtLo n) then L.planPos n x (L.virtLo n)
      else L
    else L

end Sys2Proof.Machine
end

