-- ==== Sys2Proof/Machine/Axis.lean ====
section
/-! DEFINITION. The axis pipeline: sampling, sharing, the median, weights, set torques, MONITOR and the axis states
(chapter 2, R58 to R97). -/

namespace Sys2Proof.Machine

/-! ## Sampling -/

/-- The per-unit current of a code: saturate((code − 8192 − ofs) × k_i) in Q1.31 (R65). -/
def currentOf (code : Nat) (ofs ki : Int) : Int := satS 32 (((code : Int) - 8192 - ofs) * ki)

/-- SAMPLE: per-unit currents, leg validity and staleness of a tick (R65, R66), with the checks CUR_SUM and ILIM. -/
def LaneState.sample (L : LaneState) (n : Nat) (cu cv cw : Nat) (onU onV onW : Bool) : LaneState :=
  let full (c : Nat) : Bool := c == 0 || c == 16383
  let L := ((L.setAdcOvr (3 * n) (full cu)).setAdcOvr (3 * n + 1) (full cv)).setAdcOvr (3 * n + 2) (full cw)
  let ki := L.getS (R.axpIscale_k_i n)
  let iu := currentOf cu (L.getS (R.axpIofs_ofs_u n)) ki
  let iv := currentOf cv (L.getS (R.axpIofs_ofs_v n)) ki
  let iw := currentOf cw (L.getS (R.axpIofs_ofs_w n)) ki
  let vu := onU && !full cu
  let vv := onV && !full cv
  let vw := onW && !full cw
  let valid := b2n vu + 2 * b2n vv + 4 * b2n vw
  let n3 := b2n vu + b2n vv + b2n vw
  let cur : Option (Int × Int × Int) :=
    if n3 = 3 then some (iu, iv, iw)
    else if vu && vv then some (iu, iv, satS 32 (-(iu + iv)))
    else if vu && vw then some (iu, satS 32 (-(iu + iw)), iw)
    else if vv && vw then some (satS 32 (-(iv + iw)), iv, iw)
    else none
  let L := match cur with
    | some (a, b, c) =>
      let L := (L.setSigs (axisSig n 0) [wordI a, wordI b, wordI c]).setSig (axisSig n 3) (wordN valid)
      L.setSigs (axisSig n (0x200 + 8 * L.tickIdx)) [wordI a, wordI b, wordI c]
    | none => (L.setSig (axisSig n 3) (wordN (valid + 8))).flagIf (L.regulates n) (R.axpStat_cur_stale n)
  let lim (k : Nat) : Int := (L.get (R.axpMonThr_thr n k) : Int) * 2 ^ 16
  let sum := n3 == 3 && decide (lim 0 < (iu + iv + iw).natAbs)
  let past := match cur with
    | some (a, b, c) => decide (lim 7 < a.natAbs) || decide (lim 7 < b.natAbs) || decide (lim 7 < c.natAbs)
    | none => false
  let L := L.mapAx n (fun A => { A with
    lowOn := (if onU then [0] else []) ++ (if onV then [1] else []) ++ (if onW then [2] else []) })
  (L.monEval n 0 sum).monEval n 7 past

/-- The current and sin/cos conversions of an axis complete: codes held, SAMPLE runs (R63, R65, R66). -/
def execAdcConversionComplete (l : Lane) (n : Axis) (cu cv cw cs cc : BitVec 14) (onU onV onW : Bool) (s : State) :
    Out :=
  onLane s l (fun L =>
    let c := L.adc.code
    let c := ((c.set (3 * n) cu.toNat).set (3 * n + 1) cv.toNat).set (3 * n + 2) cw.toNat
    let c := (c.set (12 + 2 * n) cs.toNat).set (13 + 2 * n) cc.toNat
    let L := { L with adc := { L.adc with code := c } }
    let full (c : Nat) : Bool := c == 0 || c == 16383
    let L := (L.setAdcOvr (12 + 2 * n) (full cs.toNat)).setAdcOvr (13 + 2 * n) (full cc.toNat)
    L.sample n cu.toNat cv.toNat cw.toNat onU onV onW)

/-- A divided voltage in volts Q8.24 from its housekeeping code: −7.5 V to 67.5 V over the span (R580). -/
def voltsOf (code : Nat) : Int := divOpen ((150 * (code : Int) - 15 * 4095) * 2 ^ 24) (2 * 4095)

/-- A housekeeping channel is converted; channel 12 gives VLINK_x, signal 0x0012 of every axis (R64, R96, R580). -/
def execHkConversion (l : Lane) (ch : Fin 32) (code : BitVec 12) (s : State) : Out :=
  onLane s l (fun L =>
    let full := code.toNat == 0 || code.toNat == 4095
    let L := L.setAdcOvr (if ch.val < 16 then 20 else 21) full
    let L := { L with adc := { L.adc with hk := L.adc.hk.set ch code.toNat } }
    if ch.val = 12 then L.forAxes (fun n L => L.setSig (axisSig n 0x12) (wordI (voltsOf code.toNat))) else L)

/-! ## Share records -/

/-- The share record of an axis (R78): eight words. -/
def LaneState.shareRecord (L : LaneState) (n : Nat) : List Word :=
  let prompt := L.loopPrompt n
  let valid := (L.ax n).ownDone && !prompt
  let drv := (L.drivers n).foldl (fun a y => a + 2 ^ y.idx) 0
  [ wordN (L.axis n + 8 * b2n valid + 16 * b2n prompt + 32 * drv + 65536 * (L.pnum % 65536)),
    L.sig (axisSig n 0x30), L.sig (axisSig n 0x20), L.sig (axisSig n 4), L.sig (axisSig n 6),
    L.sig (axisSig n 0x33), L.sig (axisSig n 0x13),
    wordN (bits (L.get (R.axpWgtB_w n)) 29 14 + 65536 * bits (L.get (R.axpWgtA_w n)) 29 14) ]

/-- At loop_end the share record of an armed axis is queued on both Rope links; a TICK result not complete is late
(R71, R77, R78). -/
def execShareRecordQueue (l : Lane) (n : Axis) (s : State) : Out :=
  onLane s l (fun L =>
    L.when (L.axis n != axOff && (participates L.belay)) (fun L =>
      let late := !(L.ax n).ownDone && !L.loopPrompt n
      let L := L.setSig (axisSig n 0x13) (wordN (L.headroomOf n))
      let L := if late then (L.flag (R.axpStat_late n)).count (R.axpCnt_late n) else L
      let run := if late then L.belaySt.late.get n + 1 else 0
      let L := { L with belaySt := { L.belaySt with late := L.belaySt.late.set n run } }
      L.publish rankShare (8 * n) (L.shareRecord n)))

/-- Word `o` of lane y's share record for an axis, as this lane holds it. -/
def LaneState.share (L : LaneState) (y : Lane) (n o : Nat) : Word := L.sig (segBase y + 8 * n + o)

/-- A peer's share record, already in signal memory, takes part if it arrived by share_dl with this period's number;
otherwise it is discarded (R79); the median stage counts it as missing. `at5ns` is its arrival in coarse ticks from the boundary. -/
def LaneState.takeShare (L : LaneState) (y : Lane) (n at5ns : Nat) : LaneState :=
  let ok := decide (at5ns ≤ L.get (R.axpSched1_share_dl n)) && bits (L.share y n 0).toNat 31 16 == L.pnum % 65536
  if ok then
    L.mapAx n (fun A => { A with
      took := addTo y.idx A.took
      posted := addTo y.idx A.posted
      headroom := A.headroom.set y.idx (bits (L.share y n 6).toNat 15 0)
      lastAvail := A.lastAvail.set y.idx (L.share y n 5).toNat })
  else L

/-! ## The median -/

/-- A lane's bit of the feedback mask for an axis: its own from its state, a peer's from its Belay record, set until
the first record (R297). -/
def LaneState.fbMask (L : LaneState) (y : Lane) (n : Nat) : Bool :=
  if y = L.id then !decide (n ∈ L.belaySt.fbLost)
  else if y.idx ∈ L.belaySt.recSeen then bit (L.sig (segBase y + 0x43)).toNat n else true

/-- Word `o` of a lane's values for the median: the own ones from the axis block, a peer's from its record. -/
def LaneState.shared (L : LaneState) (y : Lane) (n o : Nat) : Word :=
  if y = L.id then
    L.sig (axisSig n (match o with | 1 => 0x30 | 2 => 0x20 | 3 => 4 | 4 => 6 | 5 => 0x33 | _ => 0x13))
  else L.share y n o

/-- Whether lane y's record took part in this period, the own one always does. -/
def LaneState.tookPart (L : LaneState) (y : Lane) (n : Nat) : Bool := y == L.id || y.idx ∈ (L.ax n).took

/-- Whether lane y's torque reference is valid: the own result on time, a peer's loop_valid. -/
def LaneState.loopValid (L : LaneState) (y : Lane) (n : Nat) : Bool :=
  if y = L.id then (L.ax n).ownDone else bit (L.share y n 0).toNat 3

/-- The contributing lanes of an axis (R80). -/
def LaneState.contributors (L : LaneState) (n : Nat) : List Lane :=
  (L.drivers n).filter (fun y => L.tookPart y n && L.loopValid y n)

/-- Median of three, mean of two shifted arithmetically, or the one value (R80). -/
def combine : List Int → Option Int
  | [a, b, c] => some (median3 a b c)
  | [a, b] => some ((a + b) / 2)
  | [a] => some a
  | _ => none

/-- The rule of lower magnitude of R300; a is the earlier-lettered lane's value. -/
def lowerMagnitude (a b : Int) : Int :=
  if (a < 0 ∧ 0 < b) ∨ (0 < a ∧ b < 0) then 0
  else if a.natAbs ≤ b.natAbs then a else b

/-- Whether the torque window is exceeded between the two driving lanes (R299). -/
def LaneState.torqueApart (L : LaneState) (n : Nat) (a b : Int) : Bool :=
  (L.get (R.axpDevTq_win n) : Int) * 2 ^ 16 < (a - b).natAbs

/-- The committed torque reference that the median stage forms, and whether the previous one is held (R80, R300,
R302). -/
def LaneState.medianTorque (L : LaneState) (n : Nat) : Option Int :=
  let v (y : Lane) : Int := (L.shared y n 1).toInt
  if L.loopPrompt n || L.is R.belayState_blind then
    if (L.ax n).ownDone then some (v L.id) else none
  else
    let c := L.contributors n
    match (L.drivers n).length, c with
    | 2, [x, y] =>
      if L.torqueApart n (v x) (v y) && !L.belaySt.selfExcluding then some (lowerMagnitude (v x) (v y))
      else combine (c.map v)
    | _, _ => combine (c.map v)

/-- An agreed position: 32-bit differences from a base lane's value, combined and added to it (R81). -/
def LaneState.agreedPos (L : LaneState) (n o : Nat) (base : Lane) (from_ : List Lane) : Int :=
  match combine (from_.map (fun y => (L.shared y n o - L.shared base n o).toInt)) with
  | some d => (L.shared base n o).toInt + d
  | none => (L.shared L.id n o).toInt

/-- The deviations of the lanes whose records took part, for one quantity: 0 torque, 1 set-point position, 2 measured
position, 3 observer speed (R82, R297). A lane without a valid torque reference is not compared in torque. -/
def LaneState.deviants (L : LaneState) (n q : Nat) (agreed : Int) : List Lane :=
  lanes.filter (fun y =>
    let st := L.view y
    L.tookPart y n && (participates st || y == L.id) &&
    (match q with
      | 0 => L.loopValid y n && decide ((L.get (R.axpDevTq_win n) : Int) * 2 ^ 16 < ((L.shared y n 1).toInt - agreed).natAbs)
      | 1 => decide (L.get (R.axpDevPos_win n) < (L.shared y n 2 - wordI agreed).toInt.natAbs)
      | 2 => L.fbMask y n && decide (L.get (R.axpDevPos_win n) < (L.shared y n 3 - wordI agreed).toInt.natAbs)
      | _ => L.fbMask y n && decide (L.get (R.axpDevSpd_win n) < ((L.shared y n 4).toInt - agreed).natAbs)))

/-- The counts of DEV for a quantity: the deviating lane's advances, those of the others return to 0; with more than
one deviating lane none advances and dev_multi is set (R289, R290). -/
def LaneState.countDev (L : LaneState) (n q : Nat) (dev : List Lane) : LaneState :=
  let key (y : Lane) : Nat := (n * 4 + q) * 3 + y.idx
  if 1 < dev.length then
    let L := L.flag R.belayStat_dev_multi
    { L with belaySt := { L.belaySt with multiNow := true } }
  else { L with belaySt := { L.belaySt with
    dev := lanes.foldl (fun m y => m.set (key y) (if y ∈ dev then m.get (key y) + 1 else 0)) L.belaySt.dev } }

/-- The peers' axis states against the own one: runs of periods with a difference (R83, R289). -/
def LaneState.compareStates (L : LaneState) (n : Nat) : LaneState :=
  lanes.foldl (fun M y =>
    if y = M.id then M
    else
      let differs := M.tookPart y n && bits (M.share y n 0).toNat 2 0 != M.axis n
      let run := if differs then (M.ax n).stateDiff.get y.idx + 1 else 0
      let M := M.mapAx n (fun A => { A with stateDiff := A.stateDiff.set y.idx run })
      let missing := !M.tookPart y n && driving (M.view y) && M.linkUp (M.id.linkTo y)
      let k := n * 3 + y.idx
      let dev := if 2 ≤ (M.ax n).stateDiff.get y.idx then M.belaySt.stateDev.get k + 1 else 0
      let miss := if missing then M.belaySt.miss.get k + 1 else 0
      let M := { M with belaySt := { M.belaySt with
        stateDev := M.belaySt.stateDev.set k dev, miss := M.belaySt.miss.set k miss } }
      let noRec := !M.tookPart y n && participates (M.view y)
      if noRec then (M.flag (R.axpStat_miss n)).count (R.axpCnt_miss n) else M) L

/-- The driving lanes as bits C, B, A. -/
def laneBits (ys : List Lane) : Nat := ys.foldl (fun a y => a + 2 ^ y.idx) 0

/-- The weight digests of the peers and the sum of the own weights (check WEIGHT). -/
def LaneState.weightCheck (L : LaneState) (n : Nat) : Bool :=
  let own := wordN (bits (L.get (R.axpWgtB_w n)) 29 14 + 65536 * bits (L.get (R.axpWgtA_w n)) 29 14)
  (L.drivers n).any (fun y => y != L.id && L.tookPart y n && L.share y n 7 != own) ||
    (L.get (R.axpWgtA_w n) + L.get (R.axpWgtB_w n) + L.get (R.axpWgtC_w n) != 0x40000000)

/-- The run of disagreement of two driving lanes on an axis, in periods (R301, R299). -/
def LaneState.disagree (L : LaneState) (n : Nat) (apart anyApart : Bool) : LaneState :=
  let L := L.flagIf apart R.belayStat_disagree_2
  { L with belaySt := { L.belaySt with
    disRun := L.belaySt.disRun.set n (if apart then L.belaySt.disRun.get n + 1 else 0)
    apartNow := if anyApart then addTo n L.belaySt.apartNow else dropFrom n L.belaySt.apartNow } }

/-- The median stage of an axis (R80 to R83, R89, R97, R297, R299, R300). -/
def LaneState.median (L : LaneState) (n : Nat) : LaneState :=
  let c := L.contributors n
  let drv := L.drivers n
  let prev := L.sig (axisSig n 0x31)
  let T := L.medianTorque n
  let L := L.flagIf T.isNone (R.axpStat_tq_hold n)
  let masked := c.filter (fun y => L.fbMask y n)
  let sp := L.agreedPos n 2 L.id c
  -- while a lane has lost its sensor, differences are taken from the lowest-lettered lane (R297)
  let pos := L.agreedPos n 3 (if masked == c then L.id else masked.headD L.id) masked
  let spd := (combine (masked.map (fun y => (L.shared y n 4).toInt))).getD (L.shared L.id n 4).toInt
  let w := (T.map wordI).getD prev
  let L := L.setSigs (0x36000 + 0x10 * n)
    [w, wordI sp, wordI pos, wordI spd, wordN (laneBits c + 16 * laneBits drv),
      L.reg (R.axpWgtA n), L.reg (R.axpWgtB n), L.reg (R.axpWgtC n), wordN L.pnum]
  let L := L.put (R.axpState_contrib n) (laneBits c)
  let d0 := L.deviants n 0 w.toInt
  let d1 := L.deviants n 1 sp
  let d2 := L.deviants n 2 pos
  let d3 := L.deviants n 3 spd
  let L := (L.flagIf (d0 != []) (R.axpStat_dev_tq n)).flagIf (d1 != [] || d2 != []) (R.axpStat_dev_pos n)
  let L := L.flagIf (d3 != []) (R.axpStat_dev_spd n)
  let L := (((L.countDev n 0 d0).countDev n 1 d1).countDev n 2 d2).countDev n 3 d3
  let L := L.compareStates n
  let L := match drv with
    | [x, y] =>
      let far (o : Nat) (win : Nat) : Bool := decide (win < (L.shared x n o - L.shared y n o).toInt.natAbs)
      let both := x ∈ c && y ∈ c
      let apart := both && L.torqueApart n (L.shared x n 1).toInt (L.shared y n 1).toInt
      let posWin := L.get (R.axpDevPos_win n)
      let anyApart := apart || (L.tookPart x n && L.tookPart y n && (far 2 posWin || far 3 posWin ||
        decide (L.get (R.axpDevSpd_win n) < ((L.shared x n 4).toInt - (L.shared y n 4).toInt).natAbs)))
      L.disagree n (apart && !L.belaySt.selfExcluding) anyApart
    | _ => L.disagree n false false
  let L := L.monEval n 5 (L.weightCheck n)
  let tq := L.regulates n && !L.is (R.fldStat_vlim n) && decide ((L.get (R.axpMonThr_thr n 3) : Int) * 2 ^ 16 <
    ((L.sig (axisSig n 0x11)).toInt - (L.sig (axisSig n 0x32)).toInt).natAbs)
  (L.monEval n 3 tq).profChecks n

/-- At share_dl the median stage runs for every axis that is not OFF. -/
def execMedian (l : Lane) (n : Axis) (s : State) : Out :=
  onLane s l (fun L => L.when (L.axis n != axOff && participates L.belay)
    (fun L => (L.median n).mapAx n (fun A => { A with medDone := true })))

/-- A peer axis state that differs for 2 consecutive periods sets state_dev and is raised to the Belay (R83). -/
def execStateDevRaise (l : Lane) (n : Axis) (y : Lane) (s : State) : Out :=
  onLane s l (fun L => L.when (2 ≤ (L.ax n).stateDiff.get y.idx && y != L.id) (fun L => L.flag (R.axpStat_state_dev n)))

/-! ## Weights and set torques -/

/-- One way to clamp the lanes: `kinds` gives each lane 0 lower clamp, 1 free, 2 upper clamp; the weights in Q2.30 if
the choice is consistent with one λ for which they sum to 1 (R85). `lo`, `hi` in percent. -/
def tryClamp (lo hi : Nat) (h kinds : List Nat) : Option (List Int) :=
  let fixed := (kinds.map (fun k => if k = 0 then lo else if k = 2 then hi else 0)).sum
  let H := ((h.zip kinds).map (fun p => if p.2 = 1 then p.1 else 0)).sum
  let rest := 100 - fixed
  if 100 < fixed then none
  else if H = 0 then
    if 1 ∈ kinds ∨ fixed ≠ 100 then none
    else
      -- λ exists when every lower-clamped headroom times λ stays below its clamp while upper ones exceed theirs
      let lows := (h.zip kinds).filterMap (fun p => if p.2 = 0 then some p.1 else none)
      let highs := (h.zip kinds).filterMap (fun p => if p.2 = 2 then some p.1 else none)
      if lows.all (fun x => highs.all (fun y => 0 < y ∧ x * hi ≤ y * lo)) then
        some (kinds.map (fun k => roundNearest ((if k = 0 then lo else hi) * 2 ^ 30 : Nat) 100))
      else none
  else
    let ok := (h.zip kinds).all (fun p =>
      if p.2 = 1 then decide (lo * H ≤ p.1 * rest ∧ p.1 * rest ≤ hi * H)
      else if p.2 = 0 then decide (p.1 * rest ≤ lo * H)
      else decide (hi * H ≤ p.1 * rest))
    if ok then
      some ((h.zip kinds).map (fun p =>
        if p.2 = 1 then roundNearest (p.1 * rest * 2 ^ 30 : Nat) (100 * H)
        else roundNearest ((if p.2 = 0 then lo else hi) * 2 ^ 30 : Nat) 100))
    else none

/-- Every choice of clamps for `k` lanes. -/
def clampChoices : Nat → List (List Nat)
  | 0 => [[]]
  | k + 1 => (clampChoices k).flatMap (fun c => [1 :: c, 0 :: c, 2 :: c])

/-- The highest-lettered lane takes 1.0 minus the others, so that the sum is exact (R85). -/
def lastTakesRest (ws : List Int) : List Int := ws.dropLast ++ [0x40000000 - ws.dropLast.sum]

/-- The target weights of the driving lanes from their headrooms (R85). Where no λ makes the clamped weights sum to 1
the spec states no weights: they are free values (assumption 7). -/
def targetWeights (h : List Nat) : List Int :=
  let k := h.length
  if k ≤ 1 then h.map (fun _ => 0x40000000)
  else
    let equal := h.map (fun _ => roundNearest (2 ^ 30) k)
    if h.all (· = 0) then lastTakesRest equal
    else
      let lo := if k = 2 then 40 else 15
      match (clampChoices k).findSome? (tryClamp lo 60 h) with
      | some ws => lastTakesRest ws
      | none => lastTakesRest ((List.range k).map (fun i => ((Config.openWeight h i).toNat : Int)))

/-- The register of a lane's applied weight. -/
def wgtF (n : Nat) : Lane → RF
  | .a => R.axpWgtA_w n
  | .b => R.axpWgtB_w n
  | .c => R.axpWgtC_w n

/-- Writes the applied weights: those of the driving lanes, 0 for the others. -/
def LaneState.applyWeights (L : LaneState) (n : Nat) (drv : List Lane) (ws : List Int) : LaneState :=
  let L := lanes.foldl (fun M y => M.put (wgtF n y) 0) L
  (drv.zip ws).foldl (fun M p => M.putS (wgtF n p.1) p.2) L

/-- The target weights of the present driving lanes; equal while one of them has posted no headroom (R86). -/
def LaneState.targets (L : LaneState) (n : Nat) (drv : List Lane) : List Int :=
  let A := L.ax n
  let known := drv.all (fun y => y == L.id || y.idx ∈ A.posted)
  let h := drv.map (fun (y : Lane) => if y = L.id then (L.sig (axisSig n 0x13)).toNat % 65536 else A.headroom.get y.idx)
  targetWeights (if known then h else drv.map (fun _ => 0))

/-- The weights of a step of the admission ramp (R307). -/
def admitWeights (drv : List Lane) (wt : List Int) (r k : Nat) : List Int :=
  let pairs := drv.zip wt
  let wr := ((pairs.find? (fun p => p.1.idx = r)).map (·.2)).getD 0
  let now := wr * k / 16
  let others := (pairs.filter (fun p => p.1.idx ≠ r)).map (·.2) |>.sum
  lastTakesRest (pairs.map (fun p =>
    if p.1.idx = r then now else if others = 0 then p.2 else p.2 + (wr - now) * p.2 / others))

/-- The weights of a commit tick: the admission ramp, the immediate change with the driving set, or the linear ramp to
a new target (R86, R87, R307). `retire`: the lane that ramps out to SERVICE and its step k (R309). A ramp's first step is taken at the commit tick that forms its target (assumption 8). -/
def LaneState.updateWeights (L : LaneState) (n : Nat) (retire : Option (Nat × Nat)) : LaneState :=
  let drv := L.drivers n
  let A := L.ax n
  let ids := drv.map Lane.idx
  let wupd := atLeast1 (L.get (R.axpCfg_wupd n))
  let fresh := L.pnum % wupd == 0
  let wt := L.targets n drv
  let L := match A.admitRamp, retire with
    | _, some (r, k) =>
      -- the ramp-out runs the admission ramp backwards; a change of the driving set ends it (R309)
      if A.drove.all (· ∈ ids) && r ∈ ids then
        (L.applyWeights n drv (admitWeights drv wt r k)).mapAx n (fun A => { A with
          admitRamp := none, rampLen := 0 })
      else (L.applyWeights n drv wt).mapAx n (fun A => { A with admitRamp := none, rampLen := 0 })
    | some (r, k), none =>
      if r ∈ ids && A.drove.all (· ∈ ids) then
        let wt := if k = 0 || fresh then wt else drv.map (fun (y : Lane) => (A.wNew.get y.idx : Int))
        let L := L.applyWeights n drv (admitWeights drv wt r (k + 1))
        L.mapAx n (fun A => { A with
          wNew := (drv.zip wt).foldl (fun (m : NMap) (p : Lane × Int) => m.set p.1.idx p.2.toNat) []
          admitRamp := if k + 1 < 16 then some (r, k + 1) else none
          rampLen := 0 })
      else (L.applyWeights n drv wt).mapAx n (fun A => { A with admitRamp := none, rampLen := 0 })
    | none, none =>
      if ids != A.drove then (L.applyWeights n drv wt).mapAx n (fun A => { A with rampLen := 0 })
      else
        let L := if fresh then L.mapAx n (fun A => { A with
            wOld := drv.foldl (fun (m : NMap) (y : Lane) => m.set y.idx (L.get (wgtF n y))) []
            wNew := (drv.zip wt).foldl (fun (m : NMap) (p : Lane × Int) => m.set p.1.idx p.2.toNat) []
            rampK := 0
            rampLen := wupd }) else L
        let A := L.ax n
        if A.rampLen = 0 then L
        else
          let k := A.rampK + 1
          let step (y : Lane) : Int :=
            let o : Int := A.wOld.get y.idx
            o + ((((A.wNew.get y.idx : Int) - o) * k).tdiv A.rampLen)
          let L := L.applyWeights n drv (lastTakesRest (drv.map step))
          L.mapAx n (fun A => { A with rampK := k, rampLen := if k < A.rampLen then A.rampLen else 0 })
  L.mapAx n (fun A => { A with drove := ids })

/-- The magnitudes of the set torques from a torque magnitude, weights and available torques, and the excess that
stays unserved (R88). -/
def setTorques (m : Nat) (w avail : List Nat) : List Nat × Nat :=
  let a := w.map (fun x => m * x / 2 ^ 30)
  let excess := ((a.zip avail).map (fun p => p.1 - p.2)).sum
  let a := (a.zip avail).map (fun p => min p.1 p.2)
  let open_ := (a.zip avail).map (fun p => decide (p.1 < p.2))
  let sumW := ((w.zip open_).map (fun p => if p.2 then p.1 else 0)).sum
  if excess = 0 ∨ sumW = 0 then (a, excess)
  else
    let add := (a.zip (avail.zip (w.zip open_))).map (fun p =>
      if p.2.2.2 then min (p.2.1 - p.1) (excess * p.2.2.1 / sumW) else 0)
    ((a.zip add).map (fun p => p.1 + p.2), excess - add.sum)

/-- The T_avail of a driving lane in this period; a missing record counts as 0, in a blind pair the peer's last posted
one (R88, R302). -/
def LaneState.availOf (L : LaneState) (n : Nat) (y : Lane) : Nat :=
  if y = L.id then (max 0 (L.sig (axisSig n 0x33)).toInt).toNat
  else if L.tookPart y n then (max 0 (L.share y n 5).toInt).toNat
  else if L.is R.belayState_blind then (max 0 (wordN ((L.ax n).lastAvail.get y.idx)).toInt).toNat
  else 0

/-- Forms the set torques of the driving lanes from the torque T and applies the own one; a lane in SHADOW computes 0
(R88). A mirrored axis scales T by the pair share first (R433). -/
def LaneState.applySet (L : LaneState) (n : Nat) (T : Int) : LaneState :=
  let drv := L.drivers n
  let T := L.pairScale n T
  let r := setTorques T.natAbs (drv.map (fun y => L.get (wgtF n y))) (drv.map (L.availOf n))
  let signed := (drv.zip r.1).map (fun p => (p.1.idx, if T < 0 then -(p.2 : Int) else (p.2 : Int)))
  let own := ((signed.find? (fun p => p.1 = L.id.idx)).map (·.2)).getD 0
  let L := L.flagIf (0 < r.2) (R.axpStat_tq_short n)
  (L.setSig (axisSig n 0x32) (wordI own)).mapAx n (fun A => { A with setTorque := signed })

/-- The step of a lane that has accepted ENTER_SERVICE is known in every lane (assumption 37). At the commit tick the
committed torque of the median replaces the previous one, weights are updated and set
torques are formed (R74, R86 to R88); in pair mode the pair word is posted and a handover takes its step first
(R429, R442). A PROMPT axis keeps its committed torque here. -/
def execCommitTick (l : Lane) (n : Axis) (s : State) : Out :=
  let retire := lanes.findSome? (fun y => ((s.lane y).belaySt.serviceAt).map (fun p =>
    (y.idx, 16 - ((s.lane l).pnum - p))))
  onLane s l (fun L =>
    let L := if L.pairMode && L.pairAxis == n.val && L.tickIdx == L.get (R.axpSched2_commit_tick n) &&
        L.tether.lastStep != some L.pnum then L.pairStep else L
    L.when (L.axis n != axOff && participates L.belay && L.tickIdx == L.get (R.axpSched2_commit_tick n)) (fun L =>
      let L := if L.loopPrompt n then L else L.setSig (axisSig n 0x31) (L.sig (0x36000 + 0x10 * n))
      let L := if L.is R.belayState_blind then L else L.updateWeights n retire
      let L := L.setSigs (0x36005 + 0x10 * n) [L.reg (R.axpWgtA n), L.reg (R.axpWgtB n), L.reg (R.axpWgtC n)]
      L.applySet n (L.sig (axisSig n 0x31)).toInt))

/-- A PROMPT result replaces the committed torque at the first tick boundary at least 200 ns (40 coarse ticks) after
its COMMIT (R75, R88). -/
def execPromptCommit (l : Lane) (n : Axis) (s : State) : Out :=
  onLane s l (fun L =>
    match (L.ax n).prompt with
    | some (w, t) =>
      L.when (t ≤ L.coarse && L.coarse % L.tTick == 0) (fun L =>
        let L := (L.setSig (axisSig n 0x31) w).mapAx n (fun A => { A with prompt := none })
        L.applySet n w.toInt)
    | none => L)

/-! ## MONITOR -/

/-- The fault class of a MON cause as its bit in the order of R311: F-WIND for CUR_SUM, TQ_EST, FLUX and ILIM, F-SENS
for SPD_X and HALL_POS, F-BRIDGE for EDGE_DEV, F-LANE for WEIGHT (R606). -/
def monCheckClass (k : Nat) : FaultClass :=
  if k = 0 ∨ k = 3 ∨ k = 4 ∨ k = 7 then .wind
  else if k = 1 ∨ k = 2 then .sens
  else if k = 6 then .bridge
  else .lane

/-- A check's run reaches persist: it fires once, sets its flag and takes its action (R89, R91). -/
def execMonitorCheckFire (l : Lane) (n : Axis) (k : Fin 8) (s : State) : Out :=
  onLane s l (fun L =>
    let p := L.get (R.axpMonThr_persist n k)
    L.when (L.axis n != axOff && p != 0 && decide (p ≤ (L.ax n).monRun.get k) && !decide (k.val ∈ (L.ax n).monFired))
      (fun L =>
        let L := (L.setBit (R.axpStat_mon n) k true).mapAx n (fun A => { A with monFired := addTo k.val A.monFired })
        let act := L.get (R.axpMonThr_act n k)
        let L := if act == 1 || act == 3 then L.safeAction n else L
        if act == 2 || act == 3 then
          let L := L.raiseOwn 0x11
          { L with belaySt := { L.belaySt with monClass := some (monCheckClass k) } }
        else L))

/-! ## Axis commands -/

/-- A write of AXP_CMD: the target is checked at the write, a second write replaces the first (R94). -/
def LaneState.wAxpCmd (L : LaneState) (n : Nat) (w : Word) : LaneState :=
  let op := bits w.toNat 3 0
  let at8 := bits w.toNat 15 8
  let d := (at8 + 256 - L.pnum % 256) % 256
  if op = 0 then L
  else if 8 < op then L.flag (R.axpStat_cmd_refused n)
  else if d = 0 ∨ 129 ≤ d then L.flag (R.axpStat_cmd_late n)
  else
    let L := L.flagIf (L.is (R.axpState_pend n)) (R.axpStat_cmd_overwrite n)
    ((L.put (R.axpState_pend n) 1).put (R.axpState_pend_op n) op).mapAx n (fun A => { A with pendAt := at8 })

/-- The word of AXP_CMD for an op and a target. -/
def axpCmdWord (op : Nat) (at8 : BitVec 8) : Word := wordN (op + 256 * at8.toNat)

/-- A command written to AXP_CMD by a master. -/
def axpCommand (l : Lane) (n : Axis) (q : Req) (op : Nat) (at8 : BitVec 8) (s : State) : Out :=
  onLane s l (fun L => L.guardW q (R.axpCmd n) (axpCmdWord op at8) (fun L => L.wAxpCmd n (axpCmdWord op at8)))

def execArm (l : Lane) (n : Axis) (q : Req) (at8 : BitVec 8) (s : State) : Out := axpCommand l n q 1 at8 s
def execDisarm (l : Lane) (n : Axis) (q : Req) (at8 : BitVec 8) (s : State) : Out := axpCommand l n q 2 at8 s
def execStart (l : Lane) (n : Axis) (q : Req) (at8 : BitVec 8) (s : State) : Out := axpCommand l n q 3 at8 s
def execStop (l : Lane) (n : Axis) (q : Req) (at8 : BitVec 8) (s : State) : Out := axpCommand l n q 4 at8 s
def execHold (l : Lane) (n : Axis) (q : Req) (at8 : BitVec 8) (s : State) : Out := axpCommand l n q 5 at8 s
def execResume (l : Lane) (n : Axis) (q : Req) (at8 : BitVec 8) (s : State) : Out := axpCommand l n q 6 at8 s
def execFree (l : Lane) (n : Axis) (q : Req) (at8 : BitVec 8) (s : State) : Out := axpCommand l n q 7 at8 s
def execAsc (l : Lane) (n : Axis) (q : Req) (at8 : BitVec 8) (s : State) : Out := axpCommand l n q 8 at8 s

/-- The armed axes of a lane with axis n added. -/
def LaneState.armedWith (L : LaneState) (n : Nat) : List Nat := (List.range 4).filter (fun i => i = n ∨ L.axis i ≠ axOff)

/-- Every record of the armed axes arrives by its share_dl under the serial rule of R71: a record starts at the later
of its loop_end and the end of the one before it, lasts 360 ns (72) and arrives at most 400 ns (80) later. -/
def LaneState.shareFits (L : LaneState) (axes : List Nat) : Bool :=
  let le (i : Nat) : Nat := L.get (R.axpSched1_loop_end i)
  let sorted := sortBy (fun i j => le i < le j || (le i == le j && i ≤ j)) axes
  (sorted.foldl (fun (p : Nat × Bool) i =>
    let e := max p.1 (le i) + 72
    (e, p.2 && decide (e + 80 ≤ L.get (R.axpSched1_share_dl i)))) (0, true)).2

/-- The legality of a schedule (R70, R72). -/
def LaneState.schedLegal (L : LaneState) (n : Nat) : Bool :=
  let de := L.get (R.axpSched0_decode_end n)
  let pe := L.get (R.axpSched0_profile_end n)
  let le := L.get (R.axpSched1_loop_end n)
  let dl := L.get (R.axpSched1_share_dl n)
  let ct := L.get (R.axpSched2_commit_tick n)
  decide (de ≤ pe ∧ pe ≤ le ∧ le ≤ dl ∧ 160 ≤ de ∧ 120 ≤ pe - de ∧ 1 ≤ ct ∧ ct ≤ L.nTicks - 1 ∧
    dl + 100 ≤ ct * L.tTick) && L.shareFits (L.armedWith n)

/-- The transition that a command asks for, judged at its boundary (R72, R76, R93); START and RESUME of a mirrored axis are
refused in WAIT and STANDBY (R431). -/
def LaneState.axpApply (L : LaneState) (n op : Nat) : LaneState :=
  let st := L.axis n
  let refuse := L.flag (R.axpStat_cmd_refused n)
  if (op = 3 ∨ op = 6) && L.mirrored n && (L.pstate == 1 || L.pstate == 2) then refuse else
  let rest := st == axArmed || st == axFree || st == axAsc
  if op = 1 then
    if st != axOff || !participates L.belay || !L.locked (R.axpLock n) ||
        (L.loopPrompt n && !L.is (R.axpCfg_prompt_ok n)) || !L.armChecks n then refuse
    else if !L.schedLegal n || !L.loopsFit n then L.flag (R.axpStat_sched_illegal n)
    else L.setAxis n axArmed
  else if op = 2 then if rest then L.setAxis n axOff else refuse
  else if op = 3 then if rest && L.startReady n then ((L.setAxis n axDrive).beginStart n).profStart n else refuse
  else if op = 4 then if st == axDrive || st == axLimp then L.beginStop n else refuse
  else if op = 5 then
    if st == axDrive && !L.is (R.axpState_stopping n) then (L.setAxis n axHold).profHold n else refuse
  else if op = 6 then if st == axHold then (L.setAxis n axDrive).profResume n else refuse
  else if op = 7 then if st != axOff then L.setAxis n axFree else refuse
  else if st != axOff then L.setAxis n axAsc
  else refuse

/-- A pending command reaches its boundary: it is judged, or dropped when a transition of higher precedence fell at the
same boundary (R94, R95). -/
def execAxpCmdDue (l : Lane) (n : Axis) (s : State) : Out :=
  onLane s l (fun L =>
    L.when (L.is (R.axpState_pend n) && (L.ax n).pendAt == L.pnum % 256 && L.coarse % L.tServo == 0) (fun L =>
      let op := L.get (R.axpState_pend_op n)
      let L := (L.put (R.axpState_pend n) 0).put (R.axpState_pend_op n) 0
      if (L.ax n).higherAt = some L.pnum then L.flag (R.axpStat_cmd_dropped n) else L.axpApply n op))

/-- A stopping axis enters ASC at the first boundary with STILL set and set-point velocity 0 (R93). -/
def execStopReachAsc (l : Lane) (n : Axis) (s : State) : Out :=
  onLane s l (fun L =>
    L.when (L.is (R.axpState_stopping n) && L.fbFlag n 0 && L.sig (axisSig n 0x22) == 0 && L.coarse % L.tServo == 0)
      (fun L => L.setAxis n axAsc))

/-- The emergency-stop result is active: an axis with estop_en goes to ASC (R93, R95). -/
def execEstopActive (l : Lane) (n : Axis) (s : State) : Out :=
  onLane s l (fun L =>
    L.when (L.is (R.axpCfg_estop_en n) && L.estopActive (L.get (R.axpCfg_estop_fn n)) && L.axis n != axOff &&
        L.axis n != axAsc) (fun L => (L.setAxis n axAsc).markHigher n))

/-- A write of AXP_CNT_CLR: 1 clears both counts (R12). -/
def LaneState.wAxpCntClr (L : LaneState) (n : Nat) (w : Word) : LaneState :=
  if bit w.toNat 0 then L.setReg (R.axpCnt n) 0 else L

def execAxpCntClr (l : Lane) (n : Axis) (q : Req) (s : State) : Out :=
  onLane s l (fun L => L.guardW q (R.axpCntClr n) 1 (fun L => L.wAxpCntClr n 1))

end Sys2Proof.Machine
end

