-- ==== Sys2Proof/Machine/Skim.lean ====
section
/-! DEFINITION. Skim, the background sequencer: when jobs fall due, yield and end (R52 to R57), and the jobs whose
meaning is in chapters 1 and 2. -/

namespace Sys2Proof.Machine

/-- The job kinds of R52. -/
def jkDlcal : Nat := 1
def jkAdczero : Nat := 2
def jkScrub : Nat := 3
def jkNvscrub : Nat := 4
def jkRepair : Nat := 5
def jkRefx : Nat := 6
def jkAvsmon : Nat := 7
def jkShuntz : Nat := 8

/-- The kind of a job; a reserved kind is NONE (R52). -/
def LaneState.jobKind (L : LaneState) (j : Nat) : Nat :=
  if L.get (R.skimJobCfg_kind j) ≤ 8 then L.get (R.skimJobCfg_kind j) else 0

/-- The power domain in which the target of a job lies (R52, R482; assumption 6). -/
def LaneState.jobDomain (L : LaneState) (j : Nat) : Nat :=
  let k := L.jobKind j
  let t := L.get (R.skimJobCfg_target j)
  if k = jkDlcal then 7
  else if k = jkAdczero || k = jkShuntz || k = jkRefx then 5
  else if (k = jkScrub || k = jkRepair) && t = 2 then 2
  else if (k = jkScrub || k = jkRepair) && t = 3 then 3
  else if (k = jkScrub || k = jkRepair) && t = 6 then 10
  else if (k = jkScrub || k = jkRepair) && t = 7 then 11
  else 1

/-- Whether a power domain is on (R482). -/
def LaneState.domainOn (L : LaneState) (d : Nat) : Bool := L.bitOf R.pwrState_pwr d

/-- Ends a run of a job with its status and value. -/
def LaneState.skimEnd (L : LaneState) (j status value : Nat) : LaneState :=
  let L := (L.put (R.skimJobLast_status j) status).put (R.skimJobLast_value j) value
  let L := (L.count (R.skimJobCnt_runs j)).flagIf (status == 1) R.skimStat_job_fail
  let L := (L.put R.skimStat_job j).setF R.skimStat_busy false
  { L with skim := { L.skim with
      due := dropFrom j L.skim.due
      running := none
      ranOnce := if L.get (R.skimJobCfg_period j) = 0 then addTo j L.skim.ranOnce else L.skim.ranOnce } }

/-- Whether job `j` is the one that Skim runs next: Skim enabled and not held, and no due job of lower index (R53). -/
def LaneState.skimNext (L : LaneState) (j : Nat) : Bool :=
  L.is R.skimCtl_en && !L.is R.skimCtl_hold && j ∈ L.skim.due && L.skim.due.all (fun i => j ≤ i)

/-- Runs a step of job `j` of a kind, if it is the one to run. -/
def LaneState.skimRun (L : LaneState) (j kind : Nat) (f : LaneState → LaneState) : LaneState :=
  L.when (L.skimNext j && L.jobKind j == kind) (fun L => f (L.put R.skimStat_job j))

/-- A job's period elapses and it becomes due; a job still due is not queued twice and sets overrun; a job whose
target lies in a gated domain is not run and its last status reads 3 (R53, R54, R56). -/
def execSkimJobDue (l : Lane) (j : Fin 16) (s : State) : Out :=
  onLane s l (fun L =>
    let p := L.get (R.skimJobCfg_period j)
    let elapsed := if p = 0 then !decide (j.val ∈ L.skim.ranOnce) && !decide (j.val ∈ L.skim.due)
      else decide (p ≤ L.skim.since.get j)
    L.when (L.is R.skimCtl_en && L.is (R.skimJobCfg_en j) && L.jobKind j != 0 && elapsed) (fun L =>
      let L := { L with skim := { L.skim with since := L.skim.since.set j 0 } }
      if !L.domainOn (L.jobDomain j) then L.put (R.skimJobLast_status j) 3
      else if j.val ∈ L.skim.due then L.flag R.skimStat_overrun
      else { L with skim := { L.skim with due := addTo j.val L.skim.due } }))

/-- A foreground request preempts the step of the running job: the partial step is discarded without effect, retried
later, and counted (R55). -/
def execSkimStepPreempt (l : Lane) (j : Fin 16) (s : State) : Out :=
  onLane s l (fun L =>
    L.when (L.skimNext j) (fun L => (L.put R.skimStat_job j).count (R.skimJobCnt_preempt j)))

/-- ADCZERO: the signed offset of an ADC's zero reference in codes; beyond ADC_ZLIM its status is 1 and the ADC's bit
in ADC_ZSTAT is set (R67). `code` is the converted zero reference, zero being 8,192. -/
def execAdczero (l : Lane) (j : Fin 16) (code : BitVec 14) (s : State) : Out :=
  onLane s l (fun L => L.skimRun j jkAdczero (fun L =>
    let ofs : Int := (code.toNat : Int) - 8192
    let bad := decide (L.get R.adcZlim_lim < ofs.natAbs)
    let L := if bad then L.setBit R.adcZstat_zfail (L.get (R.skimJobCfg_target j)) true else L
    L.skimEnd j (b2n bad) (wrapTo 24 ofs)))

/-- A write of SKIM_CTL: en starts or stops the job table, hold pauses it, clr_cnt clears every job count. -/
def LaneState.wSkimCtl (L : LaneState) (w : Word) : LaneState :=
  let L := (L.put R.skimCtl_en (bits w.toNat 0 0)).put R.skimCtl_hold (bits w.toNat 1 1)
  if bit w.toNat 8 then (List.range 16).foldl (fun M j => M.setReg (R.skimJobCnt j) 0) L else L

/-- The word of SKIM_CTL with its bits en, hold and clr_cnt. -/
def skimCtlWord (en hold clr : Bool) : Word := wordN (b2n en + 2 * b2n hold + 256 * b2n clr)

def execSkimEnable (l : Lane) (q : Req) (en : Bool) (s : State) : Out :=
  onLane s l (fun L =>
    let w := skimCtlWord en (L.is R.skimCtl_hold) false
    L.guardW q R.skimCtl w (fun L => L.wSkimCtl w))

def execSkimHold (l : Lane) (q : Req) (hold : Bool) (s : State) : Out :=
  onLane s l (fun L =>
    let w := skimCtlWord (L.is R.skimCtl_en) hold false
    L.guardW q R.skimCtl w (fun L => L.wSkimCtl w))

def execSkimClrCnt (l : Lane) (q : Req) (s : State) : Out :=
  onLane s l (fun L =>
    let w := skimCtlWord (L.is R.skimCtl_en) (L.is R.skimCtl_hold) true
    L.guardW q R.skimCtl w (fun L => L.wSkimCtl w))

end Sys2Proof.Machine
end

