-- ==== Sys2Proof/Machine/Bist.lean ====
section
/-! DEFINITION. Self-test: the boot set, requested tests, their results, and the Skim job REFX (chapter 17, R565 to R571,
R604). -/

namespace Sys2Proof.Machine

/-- Changes what life cycle, security and self-test keep. -/
def LaneState.mapK (L : LaneState) (f : LcsSt → LcsSt) : LaneState := { L with lcs := f L.lcs }

/-- Whether every axis of the three lanes is OFF in this lane's view: its own states, and those of the peers' last share
records (R556, R566). -/
def LaneState.viewAllOff (L : LaneState) : Bool :=
  L.allOff && lanes.all (fun y => y == L.id || (List.range 4).all (fun n => bits (L.share y n 0).toNat 2 0 == axOff))

/-- The coverage of a test in per mille (R565). -/
def bistCover (t : Nat) : Nat := [992, 980, 975, 985, 970, 960, 990, 950, 965, 965, 998].getD t 0

/-- The classes of a test: in-service and intrusive; a test of both runs where either may (R565). -/
def bistService (t : Nat) : Bool := t ≤ 6 || t == 8 || t == 9
def bistIntrusive (t : Nat) : Bool := t == 5 || t == 7 || t == 10

/-- Whether a test may run at a request (R566). -/
def LaneState.bistMay (L : LaneState) (t : Nat) : Bool :=
  let st := L.belay
  let svc := st == bsService || st == bsBoot || st == bsSync || st == bsExcluded
  let intr := L.viewAllOff && (L.get R.lcsState_lc != 3 || 2 ≤ L.get R.lcsState_role)
  L.get R.lcsState_lc != 4 && ((bistService t && svc) || (bistIntrusive t && intr))

/-- Starts the next queued test; REF_X without a driving peer is skipped (R568). At the end of the in-service set the
Cairn time is kept for the report (R563). -/
def LaneState.bistNext (L : LaneState) : LaneState :=
  let peers := lanes.filter (fun y => y != L.id && driving (L.view y))
  let q := if peers.isEmpty then L.lcs.bistQueue.filter (fun t => t != 1) else L.lcs.bistQueue
  match q with
  | t :: rest =>
    ((L.setF R.bistStat_busy true).put R.bistStat_test t).mapK (fun C => { C with bistRun := some t, bistQueue := rest })
  | [] =>
    let L := (L.setF R.bistStat_busy false).mapK (fun C => { C with bistRun := none, bistQueue := [] })
    { L with aon := { L.aon with setEnd := wordN (L.aon.now * 32768 / 200000000) } }

/-- The running test stops: run 1, pass 0, abort 1, and the queued tests are not run (R569). -/
def LaneState.bistAbort (L : LaneState) : LaneState :=
  match L.lcs.bistRun with
  | none => L
  | some t =>
    let L := ((L.setF (R.bistRes_run t) true).setF (R.bistRes_pass t) false).setF (R.bistRes_abort t) true
    ((L.flag R.bistStat_aborted).setF R.bistStat_busy false).mapK (fun C => { C with bistRun := none, bistQueue := [] })

/-- A write of BIST_CMD: abort first, then a run of the mask in ascending order; a request that breaks a rule, or comes
while a test runs, is refused whole. -/
def LaneState.wBistCmd (L : LaneState) (w : Word) : LaneState :=
  let L := if bit w.toNat 17 then L.bistAbort else L
  let ts := (List.range 11).filter (fun t => bit w.toNat t)
  if !bit w.toNat 16 || ts.isEmpty then L
  else if L.is R.bistStat_busy || !ts.all (fun t => L.bistMay t) then L.flag R.bistStat_refused
  else (L.mapK (fun C => { C with bistQueue := ts })).bistNext

def execBistRun (l : Lane) (q : Req) (mask : BitVec 11) (s : State) : Out :=
  onLane s l (fun L =>
    let w := mask.setWidth 32 ||| 0x10000
    L.guardW q R.bistCmd w (fun L => L.wBistCmd w))

def execBistAbort (l : Lane) (q : Req) (s : State) : Out :=
  onLane s l (fun L => L.guardW q R.bistCmd 0x20000 (fun L => L.wBistCmd 0x20000))

/-- The boot set starts once the triad has left reset: PHY_LB, LBIST_TRIAD, LBIST_LE and MBIST together (R567). -/
def execBootSelftest (l : Lane) (s : State) : Out :=
  onLane s l (fun L => L.when (L.pwr.bootStep == 4 && !L.lcs.bootSet && !L.lcs.bootDone) (fun L =>
    (L.setF R.bistStat_busy true).mapK (fun C => { C with bootSet := true, bistQueue := [7, 8, 9, 10] })))

/-- MBIST releases the memories: they read 0, but for eNVM and Cairn memory (R604). -/
def LaneState.mbistRelease (L : LaneState) : LaneState :=
  { L with sigs := [], mem := L.mem.filter (fun c => c.1 < 0x00810000 || (0x28000000 ≤ c.1 && c.1 < 0x28040000)) }

/-- MBIST remaps a failing row of a region to a spare row, if one is free (R517, R565). -/
def LaneState.remapRow (L : LaneState) (r row : Nat) : LaneState :=
  if (r, row) ∈ L.memSt.remap then L
  else if L.get (R.nvmcSrCnt_total r) ≤ L.get (R.nvmcSrCnt_used r) then L.setBit R.nvmcSrStat_spare_out r true
  else
    let L := { L with memSt := { L.memSt with remap := L.memSt.remap ++ [(r, row)] } }
    ((L.count (R.nvmcSrCnt_used r)).put R.nvmcSrLast_region r).put R.nvmcSrLast_row row

/-- Writes the result and the detail of a test that ends (R570). -/
def LaneState.bistResult (L : LaneState) (t : Nat) (pass : Bool) (cov detail dur : Nat) : LaneState :=
  let L := (L.put (R.bistRes_cov t) (min cov (bistCover t))).setF (R.bistRes_run t) true
  let L := ((L.setF (R.bistRes_pass t) pass).setF (R.bistRes_abort t) false).put (R.bistRes_dur t) dur
  let L := (L.put (R.bistDet_detail t) (if pass then 0 else detail)).count (R.bistDet_runs t)
  (L.flag R.bistStat_done).flagIf (!pass) R.bistStat_fail

/-- A test ends: of the boot set, which ends with its last test and whose failure keeps the lane in BOOT, or the running
test of a request. `cov`, `detail` and `dur` are what the test measured, `rows` the rows that MBIST repaired. -/
def execBistTestComplete (l : Lane) (t : Fin 11) (pass : Bool) (cov : BitVec 10) (detail : BitVec 16) (dur : BitVec 19)
    (rows : List (Fin 8 × BitVec 12)) (s : State) : Out :=
  onLane s l (fun L =>
    let boot := L.lcs.bootSet && decide (t.val ∈ L.lcs.bistQueue)
    L.when (boot || L.lcs.bistRun == some t.val) (fun L =>
      let L := L.bistResult t pass cov.toNat detail.toNat dur.toNat
      let L := if t.val = 10 then rows.foldl (fun (M : LaneState) p => M.remapRow p.1 p.2.toNat) L.mbistRelease else L
      if boot then
        let L := (L.put R.bistStat_test t).mapK (fun C => { C with
          bistQueue := dropFrom t.val C.bistQueue, bootFail := C.bootFail || !pass })
        if L.lcs.bistQueue.isEmpty then
          (L.setF R.bistStat_busy false).mapK (fun C => { C with bootSet := false, bootDone := true })
        else L
      else L.bistNext))

/-! ## REFX (R571) -/

/-- REFX: the lane posts its reading in µV and compares it with the median of the values that the driving lanes posted
within the last 4,096 periods, or with their mean when there are two; with fewer, the status is 2 and the value is free. -/
def execRefx (l : Lane) (j : Fin 16) (uv : Word) (s : State) : Out :=
  onLaneFree s l (fun free L => L.skimRun j jkRefx (fun L =>
    let L := L.publish rankOther 0x70 [uv]
    let L := L.mapK (fun C => { C with
      refx := C.refx.set L.id.idx uv.toNat, refxAt := C.refxAt.set L.id.idx (L.pnum + 1) })
    let fresh (y : Lane) : Bool :=
      let at1 := L.lcs.refxAt.get y.idx
      driving (L.view y) && at1 != 0 && decide (L.pnum + 1 ≤ at1 + 4096)
    let vs : List Int := (lanes.filter fresh).map (fun y => (L.lcs.refx.get y.idx : Int))
    let judge (dev2 : Int) (M : LaneState) : LaneState :=
      let bad := decide (200 * L.get R.bistRefxLim_lim < dev2.natAbs)
      (M.flagIf bad R.bistStat_refx_fail).skimEnd j (b2n bad) (wrapTo 24 (divOpen dev2 200))
    match vs with
    | [a, b, c] => judge (2 * ((uv.toNat : Int) - median3 a b c)) L
    | [a, b] => judge (2 * (uv.toNat : Int) - (a + b)) L
    | _ => L.skimEnd j 2 (free.toNat % 2 ^ 24)))

end Sys2Proof.Machine
end

