-- ==== Sys2Proof/Machine/Feedback.lean ====
section
/-! DEFINITION. Position feedback: counting, interpolation, equalisation, angle, index, Hall, speeds, observer, compare
and quadrature emulation (chapter 3, R98 to R133, and R297 for DECODE). -/

namespace Sys2Proof.Machine

/-- A 48-bit signed position, wrapped (R103). -/
def wrap48 (i : Int) : Int := sext 48 (wrapTo 48 i)

/-- Counts per revolution: 4,096 × FB_CFG.periods (R113). -/
def LaneState.cpr (L : LaneState) (n : Nat) : Nat := 4096 * L.get (R.fbCfg_periods n)

/-- Raises a flag of the period (R133) and its sticky bit. -/
def LaneState.fbRaise (L : LaneState) (n bit_ : Nat) (f : RF) : LaneState :=
  (L.flag f).mapFb n (fun F => { F with raised := addTo bit_ F.raised })

/-! ## Quadrature counter (R99) -/

/-- The place of a comparator pair in the sequence 11, 10, 00, 01. -/
def quadPlace (a b : Bool) : Nat := if a then (if b then 0 else 1) else (if b then 3 else 2)

/-- A comparator change steps C; a double change leaves C and raises QUAD_ERR. Each edge counted is stamped (R123). -/
def LaneState.quadEdge (L : LaneState) (n : Nat) (a b : Bool) (stamp : Nat) : LaneState :=
  let F := L.fb n
  let d := (quadPlace a b + 4 - quadPlace F.levelA F.levelB) % 4
  let L := L.mapFb n (fun F => { F with levelA := a, levelB := b })
  if d = 0 then L
  else if d = 2 then (L.fbRaise n 6 (R.fbStat_quad_err n)).mapFb n (fun F => { F with quadErr := true })
  else
    let step : Int := if d = 1 then 1 else -1
    L.mapFb n (fun F =>
      let c := F.c + BitVec.ofInt 38 step
      { F with
        c := c
        lastEdge := some (c.toInt, stamp)
        anchor := match F.anchor with | some p => some p | none => some (c.toInt, stamp)
        upSeen := F.upSeen || d == 1
        downSeen := F.downSeen || d == 3
        net := F.net + step })

def execQuadEdge (l : Lane) (n : Axis) (a b : Bool) (stamp : BitVec 64) (s : State) : Out :=
  onLane s l (fun L => L.when (L.fb n).started (fun L => L.quadEdge n a b stamp.toNat))

/-! ## Equalisation (R107 to R110) -/

/-- The equalised pair in Q1.15 from the codes about mid-scale (R107). Roundings to Q1.15 are open (assumption 3). -/
def LaneState.equalise (L : LaneState) (n : Nat) (xs xc : Int) : Int × Int :=
  let numS := (16 * xs - L.getS (R.fbEqOfs_o_s n)) * L.get (R.fbEqGain_g_s n)
  let numC := (16 * xc - L.getS (R.fbEqOfs_o_c n)) * L.get (R.fbEqGain_g_c n)
  let s := satS 16 (divOpen numS (2 ^ 14))
  let c := satS 16 (divOpen (2 * numC + L.getS (R.fbEqPh_k n) * s) (2 ^ 15))
  (s, c)

/-- Writes the fields that show the accumulators, truncated toward minus infinity (R108). -/
def LaneState.showEq (L : LaneState) (n : Nat) : LaneState :=
  let F := L.fb n
  let L := (L.putS (R.fbEqOfs_o_s n) (F.accOs / 65536)).putS (R.fbEqOfs_o_c n) (F.accOc / 65536)
  let L := (L.putS (R.fbEqGain_g_s n) (F.accGs / 65536)).putS (R.fbEqGain_g_c n) (F.accGc / 65536)
  L.putS (R.fbEqPh_k n) (F.accK / 65536)

/-- Loads the accumulators from the fields; the internal fraction bits are cleared (R110). -/
def LaneState.loadEq (L : LaneState) (n : Nat) : LaneState :=
  let os := L.getS (R.fbEqOfs_o_s n) * 65536
  let oc := L.getS (R.fbEqOfs_o_c n) * 65536
  let gs := (L.get (R.fbEqGain_g_s n) : Int) * 65536
  let gc := (L.get (R.fbEqGain_g_c n) : Int) * 65536
  let k := L.getS (R.fbEqPh_k n) * 65536
  L.mapFb n (fun F => { F with accOs := os, accOc := oc, accGs := gs, accGc := gc, accK := k })

/-- A step shift, values below 4 acting as 4. -/
def muOf (v : Nat) : Nat := max 4 v

/-- The update of the coefficients from a tick's s and c, clamped; a clamp raises EQ_LIMIT (R108, R109). -/
def LaneState.adaptEq (L : LaneState) (n : Nat) : LaneState :=
  let F := L.fb n
  let s := F.s
  let c := F.co
  let e := s * s + c * c - 2 ^ 28
  let mo := muOf (L.get (R.fbEqCtl_mu_o n))
  let mg := muOf (L.get (R.fbEqCtl_mu_g n))
  let mp := muOf (L.get (R.fbEqCtl_mu_p n))
  let os := F.accOs + divOpen (e * s) (2 ^ (11 + mo))
  let oc := F.accOc + divOpen (e * c) (2 ^ (11 + mo))
  let gs := F.accGs - divOpen (F.accGs * e * s * s) (2 ^ (58 + mg))
  let gc := F.accGc - divOpen (F.accGc * e * c * c) (2 ^ (58 + mg))
  let k := F.accK - divOpen (e * s * c) (2 ^ (27 + mp))
  let co (x : Int) : Int := clampI (-(512 * 2 ^ 20)) (512 * 2 ^ 20) x
  let cg (x : Int) : Int := clampI (0x0800 * 65536) (0x7FFF * 65536) x
  let ck (x : Int) : Int := clampI (-(2 ^ 28)) (2 ^ 28) x
  let L := L.mapFb n (fun F => { F with accOs := co os, accOc := co oc, accGs := cg gs, accGc := cg gc, accK := ck k })
  let hit := co os != os || co oc != oc || cg gs != gs || cg gc != gc || ck k != k
  let L := L.showEq n
  if hit then L.fbRaise n 11 (R.fbStat_eq_limit n) else L

/-! ## Electrical angle (R113, R114) -/

/-- floor(r × pp × 2^32 / cpr) + eofs, without the Hall correction, of a position. -/
def LaneState.baseAngle (L : LaneState) (n : Nat) (pos : Int) : Nat :=
  let cpr := L.cpr n
  let r := ((pos - (L.fb n).refL) % (cpr : Int)).toNat
  if cpr = 0 then 0 else (r * L.get (R.fbCfg_pp n) * 2 ^ 32 / cpr + L.get (R.fbEofs_eofs n)) % 2 ^ 32

/-- The tick electrical angle of a position. -/
def LaneState.tickAngle (L : LaneState) (n : Nat) (pos : Int) : Nat :=
  (L.baseAngle n pos + (L.fb n).hallCorr) % 2 ^ 32

/-! ## Index (R116 to R118) -/

/-- A rising index edge is stamped; a second accepted edge of the same tick is discarded with idx_ovr (R116, R117). -/
def execIndexEdge (l : Lane) (n : Axis) (stamp : BitVec 64) (s : State) : Out :=
  onLane s l (fun L =>
    let F := L.fb n
    let tick (t : Nat) : Nat := (t + (64 * L.tTick - 1)) / (64 * L.tTick)
    L.when (F.started && L.is (R.fbCfg_idx_en n) && (!L.is (R.fbCfg_idx_qual n) || (F.levelA && F.levelB))) (fun L =>
      if F.idxStamps.any (fun t => tick t == tick stamp.toNat) then L.flag (R.fbStat_idx_ovr n)
      else L.mapFb n (fun F => { F with idxStamps := F.idxStamps ++ [stamp.toNat] })))

/-- The value of {−cpr, 0, +cpr} nearest to a difference; a tie goes toward 0 (assumption 9). -/
def nearestTurn (diff : Int) (cpr : Nat) : Int :=
  if (cpr : Int) < 2 * diff then cpr else if 2 * diff < -(cpr : Int) then -(cpr : Int) else 0

/-- The latch of an index edge at the tick in which it falls (R114, R116, R118). `tk` is the tick boundary. -/
def LaneState.latchIndex (L : LaneState) (n stamp tk : Nat) : LaneState :=
  let F := L.fb n
  let T := 64 * L.tTick
  let Lp := wrap48 (F.prevPos + roundNearest (wrap48 (F.pos - F.prevPos) * ((stamp : Int) - (tk - T))) T)
  let v := wrapTo 48 Lp
  let L := (L.setReg (R.fbIdxLo n) (wordN v)).setReg (R.fbIdxHi n) (wordI (Lp / 2 ^ 32))
  let L := (L.count (R.fbIdxCnt_idx n)).mapFb n (fun F => { F with raised := addTo 8 F.raised })
  let L := match F.lastLatch with
    | none => L.mapFb n (fun F => { F with refL := Lp })
    | some prev =>
      let diff := wrap48 (Lp - prev)
      let drift := diff - nearestTurn diff (L.cpr n)
      let L := L.setReg (R.fbIdxDrift n) (wordI drift)
      if L.get (R.fbIdxTol_tol n) < drift.natAbs then
        (L.fbRaise n 9 (R.fbStat_idx_drift n)).count (R.fbIdxCnt_drift n)
      else L
  L.mapFb n (fun F => { F with lastLatch := some Lp, angAbs := true, hallCorr := 0 })

/-! ## Observer (R125, R126) -/

/-- A product m × 2^−sh × e, rounded toward minus infinity after a gain of 2^up. -/
def obsTerm (m sh up : Nat) (e : Int) : Int := m * e * 2 ^ up / 2 ^ sh

/-- One observer step on the tick position; an invalid tick takes e = 0 (R125). -/
def LaneState.observe (L : LaneState) (n : Nat) (valid : Bool) : LaneState :=
  let F := L.fb n
  let e := if valid then sext 56 (wrapTo 56 (F.pos * 2 ^ 24 - F.pHat)) else 0
  let p := F.pHat + F.vHat / 2 ^ 8 + obsTerm (L.get (R.fbObsK1_m n)) (L.get (R.fbObsK1_sh n)) 0 e
  let v := F.vHat + F.aHat / 2 ^ 8 + obsTerm (L.get (R.fbObsK2_m n)) (L.get (R.fbObsK2_sh n)) 8 e
  let a := F.aHat + obsTerm (L.get (R.fbObsK3_m n)) (L.get (R.fbObsK3_sh n)) 16 e
  L.mapFb n (fun F => { F with
    pHat := sext 72 (wrapTo 72 p)
    vHat := sext 64 (wrapTo 64 v)
    aHat := sext 64 (wrapTo 64 a)
    raised := if valid then F.raised else addTo 12 F.raised })

/-- The observer starts at the position with speed and acceleration 0. -/
def LaneState.obsStart (L : LaneState) (n : Nat) : LaneState :=
  L.mapFb n (fun F => { F with pHat := F.pos * 2 ^ 24, vHat := 0, aHat := 0 })

/-- The observer speed: v_hat × N in Q24.8, rounded to nearest and saturated (R127). -/
def LaneState.obsSpeed (L : LaneState) (n : Nat) : Int := satS 32 (roundNearest ((L.fb n).vHat * L.nTicks) (2 ^ 24))

/-- The observer acceleration: a_hat × N² in Q20.12 (R127). -/
def LaneState.obsAccel (L : LaneState) (n : Nat) : Int :=
  satS 32 (roundNearest ((L.fb n).aHat * (L.nTicks * L.nTicks : Nat)) (2 ^ 28))

/-! ## Position compare (R128 to R131) -/

/-- The active compare position. -/
def LaneState.cmpP (L : LaneState) (n : Nat) : Int :=
  sext 48 (L.get (R.fbCmpLo_p_lo n) + 2 ^ 32 * L.get (R.fbCmpHi_p_hi n))

/-- Sets the active compare position. -/
def LaneState.setCmpP (L : LaneState) (n : Nat) (p : Int) : LaneState :=
  let v := wrapTo 48 p
  (L.put (R.fbCmpLo_p_lo n) v).put (R.fbCmpHi_p_hi n) (v / 2 ^ 32)

/-- A hit at an instant: CMP_HIT, its time, and a pulse request on EU_13 to EU_15 (R128). -/
def LaneState.cmpHit (L : LaneState) (n t : Nat) : LaneState :=
  let L := (L.setReg (R.fbCmpTlo n) (wordN t)).setReg (R.fbCmpThi n) (wordN (t / 2 ^ 32))
  let L := L.fbRaise n 10 (R.fbStat_cmp_hit n)
  let o := L.get (R.fbCmpCtl_out n)
  if 1 ≤ o ∧ o ≤ 3 then { L with edge := { L.edge with pulseReq := L.edge.pulseReq ++ [(12 + o, t + 64 * L.tTick + 9600)] } } else L

/-- Advances P past a position in a direction, counting each advance after the first; a spacing of 0 clears en
(R129). -/
def LaneState.cmpAdvance (L : LaneState) (n : Nat) (up : Bool) (pos : Int) : LaneState :=
  let spc := L.get (R.fbCmpSpc_spc n)
  if spc = 0 then L.put (R.fbCmpCtl_en n) 0
  else
    let past := if up then wrap48 (pos - L.cmpP n) else wrap48 (L.cmpP n - pos)
    let m := past.toNat / spc + 1
    let L := L.setCmpP n (if up then L.cmpP n + m * spc else L.cmpP n - m * spc)
    L.count (R.fbCmpMiss_miss n) (m - 1)

/-- One evaluation of the compare at a tick boundary `tk` (R128 to R131). -/
def LaneState.compare (L : LaneState) (n tk : Nat) : LaneState :=
  let F := L.fb n
  if !L.is (R.fbCmpCtl_en n) then L
  else
    let P := L.cmpP n
    let dir := L.get (R.fbCmpCtl_dir n)
    let spd := L.obsSpeed n
    let rel := wrap48 (P - F.pos)
    let behind := F.cmpFresh && !F.still &&
      (if dir = 1 then 0 ≤ rel
       else if dir = 2 then (decide (0 < spd) && decide (rel < 0)) || (decide (spd < 0) && decide (0 < rel))
       else rel ≤ 0)
    let L := L.mapFb n (fun F => { F with cmpFresh := false })
    if behind then
      if L.get (R.fbCmpCtl_mode n) = 0 then L.flag (R.fbStat_cmp_behind n)
      else
        let up := if dir = 2 then decide (0 < spd) else dir != 1
        (L.cmpHit n (Config.openInstant F.pos P).toNat).cmpAdvance n up F.pos
    else
      let move := wrap48 (F.pos - F.prevPos)
      let dist := wrap48 (P - F.prevPos)
      let rising := decide (0 < dist ∧ dist ≤ move)
      let falling := decide (dist < 0 ∧ move ≤ dist)
      let fire := if dir = 1 then falling else if dir = 2 then rising || falling else rising
      if fire then
        let T := 64 * L.tTick
        let t := ((tk : Int) - T + roundNearest (T * dist.natAbs) move.natAbs).toNat
        (L.cmpHit n t).cmpAdvance n rising F.pos
      else L

/-! ## The tick (R104) -/

/-- Feedback of one tick: equalisation, fine angle, position, tick angle, coefficients, index latch, compare and
observer (R102 to R104, R107 to R113, R116, R125, R128). -/
def LaneState.fbTick (L : LaneState) (n : Nat) : LaneState :=
  let F := L.fb n
  let tk := L.coarse / L.tTick * L.tTick * 64
  let raw (i : Nat) : Int := (L.adc.code.get i : Int) - 8192
  let xs := if L.is (R.fbCfg_dir_inv n) then -raw (12 + 2 * n) else raw (12 + 2 * n)
  let sc := L.equalise n xs (raw (13 + 2 * n))
  let phi := (Config.finePhi sc.1 sc.2).toNat
  let rr := sc.1 * sc.1 + sc.2 * sc.2
  let lo : Int := L.get (R.fbAfe_r_lo n) * 128
  let hi : Int := L.get (R.fbAfe_r_hi n) * 128
  let amp := decide (rr < lo * lo) || decide (hi * hi < rr)
  -- C is set to the quadrant of the first valid sample (R100)
  let first := !F.primed && !amp
  let L := if first then L.mapFb n (fun F => { F with
      primed := true, c := BitVec.ofNat 38 (phi / 1024), cSample := BitVec.ofNat 38 (phi / 1024) }) else L
  let cs := (L.fb n).cSample.toInt
  let d := ((phi / 1024 : Nat) + 4 - (cs % 4).toNat) % 4
  let mismatch := d == 2
  let L := if mismatch && !amp then L.fbRaise n 6 (R.fbStat_quad_err n) else L
  let L := if amp then L.fbRaise n 5 (R.fbStat_amp_fault n) else L
  let valid := !amp && !mismatch && !F.quadErr && (L.fb n).primed
  let cc := cs + (if d = 1 then 1 else if d = 3 then -1 else 0)
  let full := cc / 4 * 4096 + phi
  let pos := if valid then wrap48 full else F.pos
  let L := L.flagIf (valid && !first && wrap48 (pos - F.pos) != pos - F.pos) (R.fbStat_pos_wrap n)
  let L := L.mapFb n (fun F => { F with
    s := sc.1, co := sc.2, phi := phi, prevPos := if first then pos else F.pos, pos := pos, posValid := valid
    quadErr := false, invalidRun := if valid then 0 else F.invalidRun + 1 })
  let L := if first then L.obsStart n else L
  let predicted := (L.fb n).pHat / 2 ^ 24
  let theta := L.tickAngle n (if valid then pos else predicted)
  let L := (L.put (R.fbEang_theta n) theta).setSig (axisSig n 0x0A) (wordN theta)
  let L := (L.setReg (R.fbPosLo n) (wordN (wrapTo 48 pos))).setReg (R.fbPosHi n) (wordI (pos / 2 ^ 32))
  let L := if L.is (R.fbEqCtl_en n) && !L.is (R.fbEqCtl_freeze n) && valid && !F.still then L.adaptEq n else L
  let T := 64 * L.tTick
  let mine := F.idxStamps.filter (fun t => t ≤ tk)
  let L := L.mapFb n (fun F => { F with idxStamps := F.idxStamps.filter (fun t => tk < t) })
  let L := match mine.filter (fun t => tk - T < t) with
    | t :: _ => L.latchIndex n t tk
    | [] => L
  (L.compare n tk).observe n valid

def execFbTickUpdate (l : Lane) (n : Axis) (s : State) : Out :=
  onLane s l (fun L => L.when (L.fb n).started (fun L => L.fbTick n))

/-- After persist consecutive invalid ticks the sensor is lost: raised to the Belay, ang_abs cleared, the lane's bit of
the feedback mask cleared (R111, R114, R297). -/
def execSensLost (l : Lane) (n : Axis) (s : State) : Out :=
  onLane s l (fun L => L.when (atLeast1 (L.get (R.fbAfe_persist n)) ≤ (L.fb n).invalidRun && (L.fb n).started) (fun L =>
    let L := ((L.flag (R.fbStat_sens_lost n)).raiseOwn 0x10).mapFb n (fun F => { F with
      angAbs := false, hallCorr := 0, validRun := 0 })
    { L with belaySt := { L.belaySt with fbLost := addTo n.val L.belaySt.fbLost } }))

/-! ## Hall inputs (R119 to R121) -/

/-- The sector of a Hall state; 6 and 7 are illegal and reported as 7 (R119). -/
def LaneState.hallSector (L : LaneState) (n h : Nat) : Nat :=
  let v := bits (L.reg (R.fbHallMap n)).toNat (3 * h + 2) (3 * h)
  if v ≤ 5 then v else 7

/-- A Hall level stable for the filter time is accepted: sector, legality, and the Hall angle before the first index
(R114, R119, R120). -/
def execHallFilterAccept (l : Lane) (n : Axis) (h : BitVec 3) (s : State) : Out :=
  onLane s l (fun L =>
    let F := L.fb n
    let sec := L.hallSector n h.toNat
    let L := L.mapFb n (fun F => { F with hall := h.toNat })
    if sec = 7 then L.fbRaise n 3 (R.fbStat_hall_illegal n)
    else
      let L := L.mapFb n (fun F => { F with lastLegal := some sec })
      match F.lastLegal with
      | none => L
      | some old =>
        let d := (sec + 6 - old) % 6
        let L := if d = 0 then L else L.mapFb n (fun F => { F with hallSeen := true })
        if 2 ≤ d ∧ d ≤ 4 then L.fbRaise n 3 (R.fbStat_hall_illegal n)
        else if (d = 1 ∨ d = 5) ∧ F.angAbs = false ∧ L.is (R.fbCfg_hall_en n) then
          let j := if d = 1 then sec else old
          let target : Int := L.get (R.fbHallCfg_ofs n) * 65536 + divOpen (j * 2 ^ 32 : Nat) 6
          L.mapFb n (fun F => { F with hallCorr := wrapTo 32 (target - L.baseAngle n F.pos) })
        else L)

/-! ## Edge-count speed (R123, R124) -/

/-- The end of a window: the edge-count speed in Q24.8, STILL, PARTIAL and REV. With a single edge since the start the
spec states no speed: a free value (assumption 10). -/
def LaneState.windowEnd (L : LaneState) (n : Nat) (free : Word) : LaneState :=
  let F := L.fb n
  let T := 64 * L.tServo
  let win := atLeast1 (L.get (R.fbSpdCtl_win n))
  let L := if F.upSeen || F.downSeen then
      let both := F.upSeen && F.downSeen
      let byNet := (1024 * F.net * 256).tdiv win
      let v := if F.still || both then byNet
        else match F.anchor, F.lastEdge with
          | some (ca, ta), some (cl, tl) =>
            if tl = ta then free.toInt else (256 * 1024 * (cl - ca) * T).tdiv ((tl : Int) - ta)
          | _, _ => byNet
      L.mapFb n (fun F => { F with ecSpeed := satS 32 v, isPartial := F.still, rev := both, still := false, quiet := 0 })
    else
      let q := F.quiet + 1
      let v := if 8 ≤ q then 0
        else match F.lastEdge with
          | some (_, tl) =>
            let lim := (256 * 1024 * T) / (L.time.now.toNat - tl)
            F.ecSpeed.sign * (min F.ecSpeed.natAbs lim : Nat)
          | none => F.ecSpeed
      L.mapFb n (fun F => { F with
        ecSpeed := v, quiet := q, still := F.still || decide (8 ≤ q), isPartial := false, rev := false })
  L.mapFb n (fun F => { F with anchor := F.lastEdge, upSeen := false, downSeen := false, net := 0 })

def execSpeedWindowEnd (l : Lane) (n : Axis) (s : State) : Out :=
  onLaneFree s l (fun free L =>
    L.when ((L.fb n).started && L.pnum % atLeast1 (L.get (R.fbSpdCtl_win n)) == 0) (fun L => L.windowEnd n free))

/-! ## DECODE (R105, R127, R133, R297) -/

/-- The feedback flags of the period (R133). -/
def LaneState.fbFlags (L : LaneState) (n : Nat) : Nat :=
  let F := L.fb n
  let sec := L.hallSector n F.hall
  let illegal := sec == 7 || decide (3 ∈ F.raised)
  let r (i : Nat) : Nat := 2 ^ i * b2n (decide (i ∈ F.raised))
  b2n F.still + 2 * b2n F.isPartial + 4 * b2n F.rev + 8 * b2n illegal + 16 * b2n F.posValid + r 5 + r 6 +
    128 * b2n F.angAbs + r 8 + r 9 + r 10 + r 11 + r 12 + 2 ^ 16 * F.hall + 2 ^ 19 * sec

/-- The circular difference of two sectors (R121). -/
def sectorDiff (x y : Nat) : Nat := min ((x + 6 - y) % 6) ((y + 6 - x) % 6)

/-- DECODE: position, speeds and flags of the period in one transaction, then the checks SPD_X and HALL_POS (R90). A
lane whose sensor is lost writes the extrapolated agreed values instead (R297). -/
def LaneState.decode (L : LaneState) (n : Nat) : LaneState :=
  let F := L.fb n
  let lost := decide (n ∈ L.belaySt.fbLost)
  let agreedSpd := (L.sig (0x36003 + 0x10 * n)).toInt
  let old := sext 48 ((L.sig (axisSig n 4)).toNat + 2 ^ 32 * (bits (L.sig (axisSig n 5)).toNat 15 0))
  let lo32 := wordI ((L.sig (0x36002 + 0x10 * n)).toInt + agreedSpd / 256)
  let pos := if lost then wrap48 (old + (lo32 - wordI old).toInt) else F.pos
  let spd := if lost then agreedSpd else L.obsSpeed n
  let flags := L.fbFlags n
  let illegal := bit flags 3
  let L := L.setSigs (axisSig n 4)
    [wordI pos, wordI (pos / 2 ^ 32), wordI spd, wordI (L.obsAccel n), wordI F.ecSpeed, wordN flags]
  let run := if F.posValid then F.validRun + 1 else 0
  let L := L.mapFb n (fun F => { F with raised := [], validRun := run })
  let back := lost && !L.is (R.fbStat_sens_lost n) && F.angAbs && decide (64 ≤ run)
  let L := if back then { L with belaySt := { L.belaySt with fbLost := dropFrom n L.belaySt.fbLost } } else L
  let thr1 : Int := L.get (R.axpMonThr_thr n 1) * 256
  let L := if F.isPartial || F.rev then L else L.monEval n 1 (decide (thr1 < (F.ecSpeed - spd).natAbs))
  if illegal then L
  else
    let enc := wrapTo 32 ((L.get (R.fbEang_theta n) : Int) - L.get (R.fbHallCfg_ofs n) * 65536) * 6 / 2 ^ 32
    L.monEval n 2 (decide (L.get (R.axpMonThr_thr n 2) < sectorDiff enc (L.hallSector n F.hall)))

def execDecode (l : Lane) (n : Axis) (s : State) : Out :=
  onLane s l (fun L =>
    if (L.fb n).started then L.decode n else L.setSig (axisSig n 9) 0)

/-! ## Register commands -/

/-- A write of FB_CMP_LO commits both words of P (R130). -/
def LaneState.wFbCmpLo (L : LaneState) (n : Nat) (w : Word) : LaneState :=
  let hi := (L.fb n).cmpHi
  ((L.put (R.fbCmpLo_p_lo n) w.toNat).put (R.fbCmpHi_p_hi n) hi).mapFb n (fun F => { F with cmpFresh := true })

/-- A write of FB_CMP_HI waits for its commit (R130). -/
def LaneState.wFbCmpHi (L : LaneState) (n : Nat) (w : Word) : LaneState :=
  L.mapFb n (fun F => { F with cmpHi := bits w.toNat 15 0 })

def execFbCmpLoWrite (l : Lane) (n : Axis) (q : Req) (w : Word) (s : State) : Out :=
  onLane s l (fun L => L.guardW q (R.fbCmpLo n) w (fun L => L.wFbCmpLo n w))

/-- Whether FB_EOFS and obs_reset are accepted: axis OFF, ARMED or FREE under a full calibration grant (R115). -/
def LaneState.fbCalOpen (L : LaneState) (n : Nat) : Bool :=
  (L.axis n == axOff || L.axis n == axArmed || L.axis n == axFree) && L.get R.lcsState_cal_grant == 2

/-- A write of FB_EOFS (R115). -/
def LaneState.wFbEofs (L : LaneState) (n : Nat) (w : Word) : LaneState :=
  if L.fbCalOpen n then L.setReg (R.fbEofs n) w else L.flag (R.fbStat_wr_refused n)

def execFbEofsWrite (l : Lane) (n : Axis) (q : Req) (w : Word) (s : State) : Out :=
  onLane s l (fun L => L.guardW q (R.fbEofs n) w (fun L => L.wFbEofs n w))

/-- The equalisation register 0 OFS, 1 GAIN, 2 PH. -/
def eqReg (n r : Nat) : Nat := if r = 0 then R.fbEqOfs n else if r = 1 then R.fbEqGain n else R.fbEqPh n

/-- A firmware write to an equalisation register replaces the field and clears its internal bits; the accumulators of
the other registers keep theirs (R110). -/
def LaneState.wFbEq (L : LaneState) (n r : Nat) (w : Word) : LaneState :=
  let L := L.busWrite true (eqReg n r) w
  let os := L.getS (R.fbEqOfs_o_s n) * 65536
  let oc := L.getS (R.fbEqOfs_o_c n) * 65536
  let gs := (L.get (R.fbEqGain_g_s n) : Int) * 65536
  let gc := (L.get (R.fbEqGain_g_c n) : Int) * 65536
  let k := L.getS (R.fbEqPh_k n) * 65536
  L.mapFb n (fun F =>
    if r = 0 then { F with accOs := os, accOc := oc }
    else if r = 1 then { F with accGs := gs, accGc := gc }
    else { F with accK := k })

def execFbEqWrite (l : Lane) (n : Axis) (q : Req) (r : Fin 3) (w : Word) (s : State) : Out :=
  onLane s l (fun L => L.guardW q (eqReg n r) w (fun L => L.wFbEq n r w))

/-- A read of FB_POS_LO captures the tick position into the requester's latch (R106). -/
def LaneState.rFbPosLo (L : LaneState) (n : Nat) (q : Req) : Word × LaneState :=
  (L.reg (R.fbPosLo n), { L with time := { L.time with
    posLatch := Sparse.set (fun _ => 0) L.time.posLatch (64 * n + q.m.id) (L.reg (R.fbPosHi n)) } })

/-- A read of FB_POS_HI returns the captured upper word (R106). -/
def LaneState.rFbPosHi (L : LaneState) (n : Nat) (q : Req) : Word × LaneState :=
  (Sparse.get 0 L.time.posLatch (64 * n + q.m.id), L)

def execFbPosLoRead (l : Lane) (n : Axis) (q : Req) (s : State) : Out :=
  onLane s l (fun L => L.guardR q (R.fbPosLo n) (fun L => L.rFbPosLo n q))

def execFbPosHiRead (l : Lane) (n : Axis) (q : Req) (s : State) : Out :=
  onLane s l (fun L => L.guardR q (R.fbPosHi n) (fun L => L.rFbPosHi n q))

/-- A write of FB_CMD (R12, R110, R115). -/
def LaneState.wFbCmd (L : LaneState) (n : Nat) (w : Word) : LaneState :=
  let L := if bit w.toNat 0 then L.setReg (R.fbIdxCnt n) 0 else L
  let L := if bit w.toNat 1 then L.setReg (R.fbCmpMiss n) 0 else L
  let L := if bit w.toNat 2 then
      (((L.setReg (R.fbEqOfs n) 0).setReg (R.fbEqGain n) 0x10001000).setReg (R.fbEqPh n) 0).loadEq n
    else L
  if bit w.toNat 3 then (if L.fbCalOpen n then L.obsStart n else L.flag (R.fbStat_wr_refused n)) else L

def execFbClrIdxCnt (l : Lane) (n : Axis) (q : Req) (s : State) : Out :=
  onLane s l (fun L => L.guardW q (R.fbCmd n) 1 (fun L => L.wFbCmd n 1))

def execFbClrMiss (l : Lane) (n : Axis) (q : Req) (s : State) : Out :=
  onLane s l (fun L => L.guardW q (R.fbCmd n) 2 (fun L => L.wFbCmd n 2))

def execEqReset (l : Lane) (n : Axis) (q : Req) (s : State) : Out :=
  onLane s l (fun L => L.guardW q (R.fbCmd n) 4 (fun L => L.wFbCmd n 4))

def execObsReset (l : Lane) (n : Axis) (q : Req) (s : State) : Out :=
  onLane s l (fun L => L.guardW q (R.fbCmd n) 8 (fun L => L.wFbCmd n 8))

/-- A write of FB_LOCK locks the axis's feedback fields and starts feedback if periods and pp are not 0 (R100). -/
def LaneState.wFbLock (L : LaneState) (n : Nat) (w : Word) : LaneState :=
  if bits w.toNat 15 0 ≠ 0xC1A5 then L
  else
    let L := { L with locks := addTo (R.fbLock n) L.locks }
    if L.get (R.fbCfg_periods n) ≠ 0 ∧ L.get (R.fbCfg_pp n) ≠ 0 ∧ (L.fb n).started = false then
      (L.loadEq n).mapFb n (fun F => { F with started := true, primed := false })
    else L

def execFbLock (l : Lane) (n : Axis) (q : Req) (w : Word) (s : State) : Out :=
  onLane s l (fun L => L.guardW q (R.fbLock n) w (fun L => L.wFbLock n w))

/-! ## Quadrature emulation (R132) -/

/-- The output counter moves one edge toward the tick position divided by 2^div; in pass-through the pins follow the
comparators and the index input. -/
def execQeoStep (l : Lane) (idxLevel : Bool) (s : State) : Out :=
  onLane s l (fun L =>
    let n := L.get R.qeoCtl_axis
    let F := L.fb n
    let zEn := L.is R.qeoCtl_z_en
    if !L.is R.qeoCtl_en then { L with qeo := { L.qeo with pinA := false, pinB := false, pinZ := false } }
    else if L.get R.qeoCtl_mode = 0 then
      { L with qeo := { L.qeo with pinA := F.levelA, pinB := F.levelB, pinZ := idxLevel && zEn } }
    else
      let div := min 12 (L.get R.qeoCtl_div)
      let target := F.pos / (2 ^ div : Nat)
      let c := L.qeo.counter
      let c' := if c < target then c + 1 else if target < c then c - 1 else c
      let q := (c' % 4).toNat
      let cpr : Int := L.cpr n
      let crossed := cpr != 0 && c * 2 ^ div / cpr != c' * 2 ^ div / cpr
      let L := { L with qeo := { counter := c', pinA := q == 0 || q == 1, pinB := q == 0 || q == 3, pinZ := crossed && zEn } }
      L.flagIf (decide (256 < (target - c').natAbs)) R.qeoStat_lag)

end Sys2Proof.Machine
end

