-- ==== Sys2Proof/Machine/Field.lean ====
section
/-! DEFINITION. Field control: flux and torque estimation, comparators, switching tables, crossing placement, limits and
the start sequence (chapter 4, R134 to R163, R607). Fluxes are held in Q2.30, currents in Q1.31, torques in Q4.28,
angles in Q0.32; the roundings of the intermediate results, the trigonometric functions and the roots are open
(assumption 3, assumption 11). -/

namespace Sys2Proof.Machine

/-! ## Vectors -/

/-- The Clarke transform of three quantities (R136). -/
def clarke (u v w : Int) : Int × Int := (divOpen (2 * u - v - w) 3, (Config.overSqrt3 (v - w)))

/-- Rotates a vector by an angle in Q0.32. -/
def rot (th : Nat) (d q : Int) : Int × Int :=
  let c := Config.cosQ30 (th % 2 ^ 32)
  let s := Config.sinQ30 (th % 2 ^ 32)
  (divOpen (d * c - q * s) (2 ^ 30), divOpen (d * s + q * c) (2 ^ 30))

/-- Rotates a vector back by an angle. -/
def rotBack (th : Nat) (a b : Int) : Int × Int := rot (2 ^ 32 - th % 2 ^ 32) a b

/-- A quotient by a signed number, 0 for a zero divisor. -/
def quotOpen (num den : Int) : Int := divOpen (num * den.sign) den.natAbs

/-- Torque of a flux and a current vector: psi × i in Q4.28. -/
def crossTorque (pa pb ia ib : Int) : Int := divOpen (pa * ib - pb * ia) (2 ^ 33)

/-- Volt-seconds of a leg that was high for `h` fine steps: V h / psi_base in Q2.30; V in Q8.24 volts (R136). -/
def LaneState.legFlux (L : LaneState) (n : Nat) (h : Nat) : Int :=
  quotOpen ((L.sig (axisSig n 0x12)).toInt * h * 5) (L.get (R.fldPsib_psib n))

/-- The electrical speed in turns per tick, Q0.32, from the observer speed (R127, R150). -/
def LaneState.turnsPerTick (L : LaneState) (n : Nat) : Int :=
  quotOpen ((L.sig (axisSig n 6)).toInt * L.get (R.fbCfg_pp n) * 2 ^ 32)
    (256 * L.nTicks * (4096 * L.get (R.fbCfg_periods n)) : Nat)

/-- The electrical speed in radians per tick, Q2.30. -/
def LaneState.omega (L : LaneState) (n : Nat) : Int := Config.timesTwoPi (divOpen (L.turnsPerTick n) 4)

/-! ## Angle source (R142, R143) -/

/-- The angle source in force. -/
def LaneState.angSrc (L : LaneState) (n : Nat) : Nat :=
  let F := L.fb n
  let sec := bits (L.sig (axisSig n 9)).toNat 21 19
  if F.angAbs then 0
  else if L.is (R.fbCfg_hall_en n) && F.hallSeen then 1
  else if L.is (R.fbCfg_hall_en n) && sec != 7 && !L.fbFlag n 3 then 2
  else 3

/-- The angle that a source gives, with the references of a position's angle. -/
def LaneState.angleBy (L : LaneState) (n src : Nat) (refL : Int) (hallCorr : Nat) : Nat :=
  let F := L.fb n
  let cpr := 4096 * L.get (R.fbCfg_periods n)
  if src = 2 then
    let sec := bits (L.sig (axisSig n 9)).toNat 21 19
    wrapTo 32 (L.get (R.fbHallCfg_ofs n) * 65536 + divOpen ((2 * sec + 1) * 2 ^ 32 : Nat) 12)
  else if F.posValid && cpr != 0 then
    let r := ((F.pos - refL) % (cpr : Int)).toNat
    (r * L.get (R.fbCfg_pp n) * 2 ^ 32 / cpr + L.get (R.fbEofs_eofs n) + hallCorr) % 2 ^ 32
  else (L.sig (axisSig n 0x0A)).toNat

/-- The angle in force; when it steps because the source changes, psi_hat is rotated by the same step (R143). -/
def LaneState.angleStep (L : LaneState) (n : Nat) : LaneState :=
  let F := L.fb n
  let X := L.fl n
  let src := L.angSrc n
  let th := L.angleBy n src F.refL F.hallCorr
  let L := (L.put (R.fldStat_ang_src n) src).flagIf (src == 3) (R.fldStat_no_angle n)
  if src = X.src then
    L.mapFl n (fun X => { X with theta := th, refL := F.refL, hallCorr := F.hallCorr })
  else
    let old := L.angleBy n X.src X.refL X.hallCorr
    let p := rot (th + (2 ^ 32 - old % 2 ^ 32)) X.psiA X.psiB
    L.mapFl n (fun X => { X with
      theta := th, src := src, refL := F.refL, hallCorr := F.hallCorr, psiA := p.1, psiB := p.2 })

/-! ## ESTIMATE (R136 to R141) -/

/-- The time for which a leg was high between two instants, from its level at the first and its edges in order. -/
def highTime (level : Bool) (t0 t1 : Nat) : List LegEdge → Nat
  | [] => if level then t1 - t0 else 0
  | e :: es => (if level then e.stamp - t0 else 0) + highTime e.up (max t0 e.stamp) t1 es

/-- The edges of a leg between two instants. -/
def edgesOf (es : List LegEdge) (leg t0 t1 : Nat) : List LegEdge :=
  es.filter (fun e => e.leg == leg && decide (t0 ≤ e.stamp ∧ e.stamp < t1))

/-- The edges of a leg that ESTIMATE uses for the tick before: the measured ones, or the commanded ones delayed by
t_dly where reports are missing or failed (R137). -/
def LaneState.estEdges (L : LaneState) (n leg t0 t1 : Nat) : List LegEdge × Bool :=
  let X := L.fl n
  let m := edgesOf X.meas leg t0 t1
  let c := edgesOf X.cmd leg t0 t1
  let sort (es : List LegEdge) : List LegEdge := sortBy (fun a b => a.stamp ≤ b.stamp) es
  if leg ∈ X.failed || m.length < c.length then
    (sort (c.map (fun e => { e with stamp := e.stamp + L.get (R.fldEdly_t_dly n) })), true)
  else (sort m, false)

/-- The level of a leg after its edges. -/
def lastLevel (level : Bool) (es : List LegEdge) : Bool := (es.getLast?.map (·.up)).getD level

/-- Whether a measured edge differs from the commanded edge of its leg and direction by more than a threshold (check
EDGE_DEV). A commanded edge without a report counts as differing (R137). -/
def LaneState.edgeDev (L : LaneState) (n t0 t1 : Nat) : Bool :=
  let X := L.fl n
  let thr := L.get (R.axpMonThr_thr n 6)
  (X.cmd.filter (fun e => decide (t0 ≤ e.stamp ∧ e.stamp < t1))).any (fun c =>
    match X.meas.find? (fun m => m.leg == c.leg && m.up == c.up && decide (t0 ≤ m.stamp)) with
    | some m => decide (thr < ((m.stamp : Int) - c.stamp).natAbs)
    | none => true)

/-- The mutual flux of the other driving sets in the q axis (R138). -/
def LaneState.mutualQ (L : LaneState) (n : Nat) : Int :=
  if !L.is (R.fldCfg_coup_en n) then 0
  else
    let sum := (((L.ax n).setTorque.filter (fun p => p.1 != L.id.idx)).map (·.2)).sum
    quotOpen ((L.get (R.fldM_val n) : Int) * sum * 4) (L.get (R.fldPm_val n))

/-- Whether ESTIMATE runs as in FREE: psi_hat = psi_cm with i = 0 and T_est = 0 (R140, R142). -/
def LaneState.estFree (L : LaneState) (n : Nat) : Bool :=
  L.axis n == axFree || (L.fl n).offInterval || (L.fl n).src == 3

/-- The resistance update from the difference of the models before the blend (R141). -/
def LaneState.adaptR (L : LaneState) (n : Nat) (ea eb ia ib : Int) : LaneState :=
  let mu := max 8 (L.get (R.fldRsAdp_mu_r n))
  let nom : Int := L.get (R.fldRsNom_r_nom n)
  let lo := nom * L.get (R.fldRsAdp_lo n) * 2 ^ 12
  let hi := nom * L.get (R.fldRsAdp_hi n) * 2 ^ 12
  let r := (L.fl n).accR + divOpen (ea * ia + eb * ib) (2 ^ (14 + mu))
  let c := clampI lo hi r
  let L := (L.mapFl n (fun X => { X with accR := c })).putS (R.fldRs_r n) (c / 2 ^ 16)
  L.flagIf (c == lo || c == hi) (R.fldStat_rs_limit n)

/-- One tick of ESTIMATE (R138): the two flux models, their blend, own flux and torque estimate. -/
def LaneState.estimate (L : LaneState) (n : Nat) : LaneState :=
  let L := L.angleStep n
  let X := L.fl n
  let th := X.theta
  let T := 64 * L.tTick
  let t1 := L.coarse / L.tTick * L.tTick * 64
  let t0 := t1 - T
  let legs := [0, 1, 2].map (fun g => (L.estEdges n g t0 t1, X.level.getD g false))
  let L := L.flagIf (legs.any (fun p => p.1.2)) (R.fldStat_est_cmd n)
  let lam := legs.map (fun p => L.legFlux n (highTime p.2 t0 t1 p.1.1))
  let lab := clarke (lam.getD 0 0) (lam.getD 1 0) (lam.getD 2 0)
  let L := L.monEval n 6 (L.edgeDev n t0 t1)
  let stale := bit (L.sig (axisSig n 3)).toNat 3
  let s (o : Nat) : Int := (L.sig (axisSig n o)).toInt
  let pm : Int := L.get (R.fldPm_val n)
  let ld : Int := L.get (R.fldLd_val n)
  let lq : Int := L.get (R.fldLq_val n)
  let meas := clarke (s 0) (s 1) (s 2)
  let model := rot th (quotOpen ((X.psiD - pm) * 2 ^ 31) ld) (quotOpen (X.psiQ * 2 ^ 31) lq)
  let i := if stale then model else meas
  let free := L.estFree n
  let i := if free then (0, 0) else i
  let r : Int := L.getS (R.fldRs_r n)
  let drop (a b : Int) : Int := divOpen (r * (a + b)) (2 ^ 33)
  let vm := (X.psiA + lab.1 - drop X.iA i.1, X.psiB + lab.2 - drop X.iB i.2)
  let idq := rotBack th i.1 i.2
  let qm := L.mutualQ n
  let mut_ := rot th 0 qm
  let cmOwn := rot th (pm + divOpen (ld * idq.1) (2 ^ 31)) (divOpen (lq * idq.2) (2 ^ 31))
  let cm := (cmOwn.1 + mut_.1, cmOwn.2 + mut_.2)
  let g : Int := L.get (R.fldBlend_g n)
  let hat := if free then cm
    else if stale then vm
    else (vm.1 + divOpen (g * (cm.1 - vm.1)) (2 ^ 32), vm.2 + divOpen (g * (cm.2 - vm.2)) (2 ^ 32))
  let own := (hat.1 - mut_.1, hat.2 - mut_.2)
  let te := if free then 0 else satS 32 (crossTorque own.1 own.2 i.1 i.2)
  let odq := rotBack th own.1 own.2
  let mag := Config.hypot own.1 own.2
  let k := L.tickIdx
  let L := L.setSigs (axisSig n 0x10) [wordN mag, wordI te]
  let L := L.setSigs (axisSig n (0x203 + 8 * k)) [wordN (Config.angleOf own.1 own.2).toNat, wordN mag, wordI te]
  let L := L.mapFl n (fun X => { X with
    psiA := hat.1, psiB := hat.2, psiD := odq.1, psiQ := odq.2, iPrevA := X.iA, iPrevB := X.iB, iA := i.1, iB := i.2
    stale := stale
    level := legs.map (fun p => lastLevel p.2 p.1.1)
    cmd := X.cmd.filter (fun e => t1 ≤ e.stamp)
    meas := X.meas.filter (fun e => t1 ≤ e.stamp)
    failed := []
    tEst := (te :: X.tEst).take 16 })
  let iMag := Config.hypot i.1 i.2
  if L.is (R.fldCfg_rs_en n) && !stale && !free && decide (L.get (R.fldRsAdp_i_min n) * 2 ^ 23 ≤ iMag) then
    L.adaptR n (vm.1 - cm.1) (vm.2 - cm.2) i.1 i.2
  else L

def execEstimate (l : Lane) (n : Axis) (s : State) : Out :=
  onLane s l (fun L => L.when (L.axis n != axOff && participates L.belay) (fun L => L.estimate n))

/-! ## Switching tables (R147 to R149) -/

/-- The vector code of active vector a_j: 100, 110, 010, 011, 001, 101. -/
def active (j : Nat) : Nat :=
  match j % 6 with
  | 0 => 4
  | 1 => 6
  | 2 => 2
  | 3 => 3
  | 4 => 1
  | _ => 5

/-- The 6-sector table: in sector k, f and the sign of d_T name the vector 60°, −60°, 120° or −120° from a_k (R147). -/
def table6 (k : Nat) (f up : Bool) : Nat :=
  if f then (if up then active (k + 1) else active (k + 5))
  else (if up then active (k + 2) else active (k + 4))

/-- The odd rows of the 12-sector table, m = 2j + 1, for d_T of +2, +1, −1 and −2 (R148). -/
def table12odd (j : Nat) (f : Bool) (d : Int) : Nat :=
  if f then
    (if d = 2 then active (j + 2) else if d = 1 then active (j + 1) else if d = -1 then active j else active (j + 5))
  else
    (if d = 2 then active (j + 2) else if d = 1 then active (j + 3) else if d = -1 then active (j + 4)
     else active (j + 5))

/-- The zero vector: 000, or with zmin the one reached with the fewest leg changes; 000 while the bridge reports a
bootstrap of the port below its warning level (R149). -/
def zeroVector (zmin warn : Bool) (prev : Nat) : Nat :=
  if zmin && !warn && (prev == 6 || prev == 3 || prev == 5 || prev == 7) then 7 else 0

/-- The vector selected for an angle of the own flux and the comparator states. -/
def selectVector (sect12 zmin warn : Bool) (prev : Nat) (thPsi : Nat) (f : Bool) (d : Int) : Nat :=
  if d = 0 then zeroVector zmin warn prev
  else if sect12 then
    let m := (thPsi + 2 ^ 32 / 24) % 2 ^ 32 * 12 / 2 ^ 32
    if m % 2 = 0 then table6 (m / 2) f (0 < d) else table12odd (m / 2) f d
  else table6 ((thPsi + 2 ^ 32 / 12) % 2 ^ 32 * 6 / 2 ^ 32) f (0 < d)

/-! ## Crossing placement (R150 to R152) -/

/-- The quantities that FIELD extrapolates within a tick. -/
structure FieldX where
  T : Int
  psi : Int
  iMag : Int
  psiD : Int
  psiQ : Int
  iD : Int
  iQ : Int
  th : Nat
deriving DecidableEq, Repr

/-- Their rates per tick. -/
structure FieldRate where
  dT : Int
  dPsi : Int
  di : Int
  dD : Int
  dQ : Int
deriving DecidableEq, Repr

/-- The rates of a candidate vector (R150). -/
def LaneState.rates (L : LaneState) (n : Nat) (x : FieldX) (vec : Nat) : FieldRate :=
  let full (b : Nat) : Int := if bit vec b then L.legFlux n (64 * L.tTick) else 0
  let vab := clarke (full 2) (full 1) (full 0)
  let v := if vec = 0 ∨ vec = 7 then (0, 0) else rotBack x.th vab.1 vab.2
  let r : Int := L.getS (R.fldRs_r n)
  let w := L.omega n
  let ld : Int := L.get (R.fldLd_val n)
  let lq : Int := L.get (R.fldLq_val n)
  let dD := v.1 - divOpen (r * x.iD) (2 ^ 32) + divOpen (w * x.psiQ) (2 ^ 30)
  let dQ := v.2 - divOpen (r * x.iQ) (2 ^ 32) - divOpen (w * x.psiD) (2 ^ 30)
  let a := x.iQ - quotOpen (x.psiQ * 2 ^ 31) ld
  let b := quotOpen (x.psiD * 2 ^ 31) lq - x.iD
  { dT := divOpen (dD * a + dQ * b) (2 ^ 33)
    dPsi := quotOpen (x.psiD * dD + x.psiQ * dQ) x.psi
    di := quotOpen (quotOpen (x.iD * dD * 2 ^ 31) ld + quotOpen (x.iQ * dQ * 2 ^ 31) lq) x.iMag
    dD := dD
    dQ := dQ }

/-- Linear extrapolation over `t` fine steps of a tick of `tf` (R151). -/
def LaneState.extrapolate (L : LaneState) (n : Nat) (x : FieldX) (k : FieldRate) (t tf : Nat) : FieldX :=
  let lin (v d : Int) : Int := v + divOpen (d * t) tf
  let ld : Int := L.get (R.fldLd_val n)
  let lq : Int := L.get (R.fldLq_val n)
  { T := lin x.T k.dT
    psi := lin x.psi k.dPsi
    iMag := lin x.iMag k.di
    psiD := lin x.psiD k.dD
    psiQ := lin x.psiQ k.dQ
    iD := lin x.iD (quotOpen (k.dD * 2 ^ 31) ld)
    iQ := lin x.iQ (quotOpen (k.dQ * 2 ^ 31) lq)
    th := wrapTo 32 (x.th + divOpen (L.turnsPerTick n * t) tf) }

/-- The targets and options of a tick. -/
structure FieldCfg where
  Tt : Int
  psiRef : Int
  ht : Int
  hpsi : Int
  iLim : Int
  sect12 : Bool
  zmin : Bool
  warn : Bool
  tf : Nat
deriving DecidableEq, Repr

/-- The magnitude of a non-zero d_T in 12-sector mode (R145, R146). -/
def magnitude (c : FieldCfg) (T : Int) (d : Int) : Int :=
  if c.sect12 && decide (2 * c.ht ≤ (c.Tt - T).natAbs) then 2 * d.sign else d.sign

/-- The comparators at the evaluation at 1.5 µs (R145). -/
def evalComparators (c : FieldCfg) (x : FieldX) (d : Int) (f : Bool) : Int × Bool :=
  let e := c.Tt - x.T
  let d := if c.ht ≤ e then magnitude c x.T 1 else if e ≤ -c.ht then magnitude c x.T (-1) else d
  let f := if x.psi ≤ c.psiRef - c.hpsi then true else if c.psiRef + c.hpsi ≤ x.psi then false else f
  (d, f)

/-- The time in fine steps to an upper or lower edge, if the quantity moves from inside toward it. -/
def timeTo (v edge rate : Int) (upper : Bool) (tf : Nat) : Option Nat :=
  if upper then
    if 0 < rate ∧ v < edge then some (roundNearest ((edge - v) * tf) rate.natAbs).toNat else none
  else if rate < 0 ∧ edge < v then some (roundNearest ((v - edge) * tf) rate.natAbs).toNat else none

/-- The crossings of a segment: torque, flux and current limit (R146, R151). -/
def crossings (c : FieldCfg) (x : FieldX) (k : FieldRate) (d : Int) (f : Bool) :
    Option Nat × Option Nat × Option Nat :=
  let tq :=
    if 0 < d then timeTo x.T (c.Tt + c.ht) k.dT true c.tf
    else if d < 0 then timeTo x.T (c.Tt - c.ht) k.dT false c.tf
    else if 0 < k.dT then timeTo x.T (c.Tt + c.ht) k.dT true c.tf
    else timeTo x.T (c.Tt - c.ht) k.dT false c.tf
  let fl := if f then timeTo x.psi (c.psiRef + c.hpsi) k.dPsi true c.tf
    else timeTo x.psi (c.psiRef - c.hpsi) k.dPsi false c.tf
  let cu := if c.iLim ≤ x.iMag ∧ 0 < k.di then some 0 else timeTo x.iMag c.iLim k.di true c.tf
  (tq, fl, cu)

/-- The comparator states after the crossings at the earliest time (R146). -/
def applyCrossings (c : FieldCfg) (x : FieldX) (k : FieldRate) (d : Int) (f atT atF atI : Bool) : Int × Bool :=
  let d' := if atT then (if d ≠ 0 then 0 else if 0 < k.dT then magnitude c x.T (-1) else magnitude c x.T 1) else d
  (if atI then 0 else d', if atF then !f else f)

/-- What FIELD's loop leaves: instants with vectors, comparators, whether the sequence was cut, a torque crossing or a
current-limit crossing occurred, the sign of d_T stayed, and the end state. -/
structure FieldEnd where
  seq : List (Nat × Nat)
  d : Int
  f : Bool
  cut : Bool
  tqCross : Bool
  iCross : Bool
  x : FieldX
deriving DecidableEq, Repr

/-- The loop of R152, from time `t` with vector `v` in force; `fuel` bounds the segments, each of at least 250 ns
(3,200 fine steps). -/
def LaneState.fieldLoop (L : LaneState) (n : Nat) (c : FieldCfg) : Nat → Nat → Nat → FieldEnd → FieldEnd
  | 0, _, _, r => r
  | fuel + 1, t, v, r =>
    let d := if r.d = 0 then 0 else magnitude c r.x.T r.d
    let thPsi := ((Config.angleOf r.x.psiD r.x.psiQ).toNat + r.x.th) % 2 ^ 32
    let vNew := selectVector c.sect12 c.zmin c.warn v thPsi r.f d
    if vNew ≠ v ∧ r.seq.length = 2 then
      let k := L.rates n r.x v
      { r with d := d, cut := true, x := L.extrapolate n r.x k (c.tf - t) c.tf }
    else
      let r := { r with d := d, seq := if vNew ≠ v then r.seq ++ [(t, vNew)] else r.seq }
      let k := L.rates n r.x vNew
      let cr := crossings c r.x k d r.f
      let first := (cr.1.toList ++ cr.2.1.toList ++ cr.2.2.toList).min?
      match first with
      | none => { r with x := L.extrapolate n r.x k (c.tf - t) c.tf }
      | some tc0 =>
        let tc := max tc0 3200
        if c.tf - 3200 < t + tc then { r with x := L.extrapolate n r.x k (c.tf - t) c.tf }
        else
          let atT := cr.1 == some tc0
          let atF := cr.2.1 == some tc0
          let atI := cr.2.2 == some tc0
          let x := L.extrapolate n r.x k tc c.tf
          let df := applyCrossings c x k d r.f atT atF atI
          L.fieldLoop n c fuel (t + tc) vNew { r with
            x := x, d := df.1, f := df.2, tqCross := r.tqCross || atT, iCross := r.iCross || atI }

/-- The torque target of a set: the own set torque, scaled by the start ramp; 0 while any BS_LOW of the port is set
(R158, R607). -/
def LaneState.torqueTarget (L : LaneState) (n : Nat) : Int :=
  let T := (L.sig (axisSig n 0x32)).toInt
  if L.bsLow n then 0
  else match (L.fl n).ramp with
    | some j => divOpen (T * j) (atLeast1 (L.get (R.fldStart_ramp n)))
    | none => T

/-- The flux reference (R144). -/
def LaneState.psiRef (L : LaneState) (n : Nat) (Tt : Int) : Int :=
  if L.is (R.fldCfg_fref_mode n) then L.get (R.fldFref_psi_ref n)
  else
    let pm : Int := L.get (R.fldPm_val n)
    let lim : Int := L.getS (R.fldIlim_i_lim n)
    let iq := clampI (-lim) lim (quotOpen (Tt * 2 ^ 33) pm)
    Config.hypot pm (divOpen (L.get (R.fldLq_val n) * iq) (2 ^ 31))

/-- The available torque of the set (R157). -/
def LaneState.availTorque (L : LaneState) (n : Nat) : Int :=
  let lim : Int := L.getS (R.fldIlim_i_lim n)
  let ta := divOpen (L.get (R.fldPm_val n) * lim) (2 ^ 33)
  let src := (L.fl n).src
  let ta := if src = 0 then ta else if src = 3 then 0 else divOpen (ta * L.get (R.fldTlim_tq_hall n)) (2 ^ 16)
  let N := L.nTicks
  let mean := divOpen (((L.fl n).tEst.take N).sum) N
  let ta := if L.is (R.fldStat_vlim n) then min ta mean.natAbs else ta
  if L.axis n == axFree || L.axis n == axAsc || L.bsLow n || (L.fl n).offInterval || !driving L.belay ||
      L.portTripped n then 0
  else max 0 ta

/-- One tick of FIELD for a regulated set: the comparators, the sequence of at most two instants, the tick record and
the voltage-limit run (R145 to R155). -/
def LaneState.field (L : LaneState) (n : Nat) : LaneState :=
  let X := L.fl n
  let Tt := L.torqueTarget n
  let c : FieldCfg :=
    { Tt := Tt
      psiRef := L.psiRef n Tt
      ht := L.get (R.fldBand_h_t n) * 2 ^ 12
      hpsi := L.get (R.fldBand_h_psi n) * 2 ^ 14
      iLim := L.getS (R.fldIlim_i_lim n)
      sect12 := L.is (R.fldCfg_sect12 n)
      zmin := L.is (R.fldCfg_zmin n)
      warn := L.bsWarn n
      tf := 64 * L.tTick }
  let idq := rotBack X.theta X.iA X.iB
  let x0 : FieldX :=
    { T := (L.sig (axisSig n 0x11)).toInt, psi := (L.sig (axisSig n 0x10)).toNat
      iMag := Config.hypot X.iA X.iB, psiD := X.psiD, psiQ := X.psiQ, iD := idq.1, iQ := idq.2, th := X.theta }
  let start := 300 * 64
  let x1 := L.extrapolate n x0 (L.rates n x0 X.vec) start c.tf
  let df := evalComparators c x1 X.dT X.f
  let r := L.fieldLoop n c 82 start X.vec
    { seq := [], d := df.1, f := df.2, cut := false, tqCross := false, iCross := false, x := x1 }
  let v1 := ((r.seq.head?).map (·.2)).getD X.vec
  let v2 := ((r.seq.getLast?).map (·.2)).getD X.vec
  let limited := decide (df.1.sign = Tt.sign ∧ Tt ≠ 0 ∧ r.d.sign = Tt.sign) && !r.tqCross && !r.iCross &&
    decide (c.ht < (Tt - r.x.T).natAbs)
  let L := L.mapFl n (fun X => { X with
    dT := r.d, f := r.f, seq := some r.seq
    limRun := if limited then X.limRun + 1 else 0
    freeRun := if limited then 0 else X.freeRun + 1
    ramp := X.ramp.map (· + 1) })
  let L := if limited then L.count (R.fldCnt_vlim n) else L
  let L := if r.cut then (L.flag (R.fldStat_seq_cut n)).count (R.fldCnt_cut n) else L
  let L := (L.setF (R.fldStat_ilim_act n) r.iCross).flagIf r.iCross (R.fldStat_ilim_evt n)
  let rec_ := X.vec + 8 * v1 + 64 * v2 + 512 * r.seq.length + 2048 * b2n limited + 4096 * b2n r.iCross +
    8192 * b2n r.cut + 16384 * b2n X.stale
  let L := L.setSig (axisSig n (0x206 + 8 * L.tickIdx)) (wordN rec_)
  L.monEval n 4 (decide ((L.get (R.axpMonThr_thr n 4) : Int) * 2 ^ 16 <
    ((L.sig (axisSig n 0x10)).toNat - c.psiRef).natAbs))

/-- FIELD runs for an axis in DRIVE, HOLD or LIMP outside the off interval with an angle source (R142, R152). -/
def execField (l : Lane) (n : Axis) (s : State) : Out :=
  onLane s l (fun L =>
    L.when (participates L.belay && L.axis n != axOff) (fun L =>
      if L.regulates n && (L.fl n).src != 3 then L.field n
      else (L.mapFl n (fun X => { X with seq := some [], limRun := 0, freeRun := X.freeRun + 1 })).monEval n 4 false))

/-- After 2 consecutive voltage-limited ticks vlim and vlim_evt are set (R155). -/
def execVlimSet (l : Lane) (n : Axis) (s : State) : Out :=
  onLane s l (fun L => L.when (2 ≤ (L.fl n).limRun && !L.is (R.fldStat_vlim n)) (fun L =>
    (L.setF (R.fldStat_vlim n) true).flag (R.fldStat_vlim_evt n)))

/-- vlim clears after 2 × N ticks that are not voltage-limited (R155). -/
def execVlimClear (l : Lane) (n : Axis) (s : State) : Out :=
  onLane s l (fun L => L.when (2 * L.nTicks ≤ (L.fl n).freeRun) (fun L => L.setF (R.fldStat_vlim n) false))

/-! ## Starting (R158 to R160) -/

/-- The phase voltages of a port from the housekeeping conversions, in volts Q8.24 (R64, R580). -/
def LaneState.phaseVolts (L : LaneState) (n : Nat) : List Int :=
  [0, 1, 2].map (fun j => divOpen ((150 * (L.adc.hk.get (3 * n + j) : Int) - 15 * 4095) * 2 ^ 24) (2 * 4095))

/-- An off tick of a start: from the second one on, the phase voltages are checked for diode conduction, which extends
the interval by one tick, up to t_max (R158 step 2). -/
def execStartOffTick (l : Lane) (n : Axis) (s : State) : Out :=
  onLane s l (fun L => L.when (L.fl n).offInterval (fun L =>
    let k := (L.fl n).offTicks + 1
    let vl := (L.sig (axisSig n 0x12)).toInt
    let third := divOpen (3 * 2 ^ 24) 10
    let cond := decide (2 ≤ k) && (L.phaseVolts n).any (fun v => decide (v < -third) || decide (vl + third < v))
    let L := L.flagIf (cond && decide (k < max 2 (L.get (R.fldStart_t_max n)))) (R.fldStat_start_ext n)
    L.mapFl n (fun X => { X with offTicks := k, conducting := cond })))

/-- The decision of a start: the back-EMF is formed, the start is refused, or accepted with psi_hat on the encoder angle
(R158 steps 3 to 6). -/
def LaneState.startDecide (L : LaneState) (n : Nat) : LaneState :=
  let X := L.fl n
  let v := L.phaseVolts n
  let e := Config.backEmf (v.getD 0 0) (v.getD 1 0) (v.getD 2 0) (L.sig (axisSig n 6)).toInt
  let mag := Config.hypot e.1 e.2
  let vll := Config.timesSqrt3 mag
  let ang := (Config.angleOf e.1 e.2).toNat
  let L := (L.put (R.fldBemf_vll n) (satU 16 (vll / 2 ^ 16))).put (R.fldBemf_ang n) (ang / 2 ^ 16)
  let vl := (L.sig (axisSig n 0x12)).toInt
  let L := L.mapFl n (fun X => { X with offInterval := false, offTicks := 0, conducting := false })
  if X.conducting || decide (vl - 2 * 2 ^ 24 < (vll : Int)) then
    (((L.setF (R.fldStat_starting n) false).safeAction n).flag (R.axpStat_start_refused_vlim n))
  else
    let L := L.angleStep n
    let th := (L.fl n).theta
    let pm : Int := L.get (R.fldPm_val n)
    let w := L.omega n
    let known := decide (L.get (R.fldStart1_e_min n) * 2 ^ 16 ≤ mag)
    let psi0 : Int := if known then
        if w = 0 then pm * 5 / 4
        else clampI (pm * 3 / 4) (pm * 5 / 4)
          (quotOpen ((mag : Int) * L.tTick * 5 * 2 ^ 36) (L.get (R.fldPsib_psib n) * w.natAbs : Nat))
      else pm
    let p := rot th psi0 0
    let want := wrapTo 32 (th + w.sign * 2 ^ 30)
    let off := wrapTo 32 ((ang : Int) - want)
    let far := decide (L.get (R.fldStart_ang_tol n) * 2 ^ 24 < min off (2 ^ 32 - off))
    let L := L.flagIf (known && far) (R.fldStat_bemf_ang n)
    let skip := (L.fl n).skipRamp
    let L := if skip then L.setF (R.fldStat_starting n) false else L
    L.mapFl n (fun X => { X with
      psiA := p.1, psiB := p.2, psiD := psi0, psiQ := 0, ramp := if skip then none else some 1 })

def execStartDecision (l : Lane) (n : Axis) (s : State) : Out :=
  onLane s l (fun L =>
    let X := L.fl n
    L.when (X.offInterval && decide (2 ≤ X.offTicks) &&
        (!X.conducting || decide (max 2 (L.get (R.fldStart_t_max n)) ≤ X.offTicks)))
      (fun L => L.startDecide n))

/-- After ramp ticks FIELD uses the full set torque and clears starting (R158 step 7). -/
def execStartRampEnd (l : Lane) (n : Axis) (s : State) : Out :=
  onLane s l (fun L =>
    match (L.fl n).ramp with
    | some j => L.when (decide (atLeast1 (L.get (R.fldStart_ramp n)) ≤ j)) (fun L =>
        (L.mapFl n (fun X => { X with ramp := none })).setF (R.fldStat_starting n) false)
    | none => L)

/-! ## Register commands -/

/-- A write of FLD_CMD: clr_cnt clears FLD_CNT, rs_reset sets r to r_nom with its hidden bits cleared (R12, R141). -/
def LaneState.wFldCmd (L : LaneState) (n : Nat) (w : Word) : LaneState :=
  let L := if bit w.toNat 0 then L.setReg (R.fldCnt n) 0 else L
  if bit w.toNat 1 then
    (L.setReg (R.fldRs n) (L.reg (R.fldRsNom n))).mapFl n (fun X => { X with
      accR := L.getS (R.fldRsNom_r_nom n) * 2 ^ 16 })
  else L

def execFldClrCnt (l : Lane) (n : Axis) (q : Req) (s : State) : Out :=
  onLane s l (fun L => L.guardW q (R.fldCmd n) 1 (fun L => L.wFldCmd n 1))

def execRsReset (l : Lane) (n : Axis) (q : Req) (s : State) : Out :=
  onLane s l (fun L => L.guardW q (R.fldCmd n) 2 (fun L => L.wFldCmd n 2))

/-- A firmware write to FLD_RS replaces r and its hidden bits (R141). -/
def LaneState.wFldRs (L : LaneState) (n : Nat) (w : Word) : LaneState :=
  (L.setReg (R.fldRs n) w).mapFl n (fun X => { X with accR := w.toInt * 2 ^ 16 })

def execFldRsWrite (l : Lane) (n : Axis) (q : Req) (w : Word) (s : State) : Out :=
  onLane s l (fun L => L.guardW q (R.fldRs n) w (fun L => L.wFldRs n w))

/-- A write of FLD_LOCK locks the FLD fields of the axis and loads FLD_RS from FLD_RS_NOM (R134). -/
def LaneState.wFldLock (L : LaneState) (n : Nat) (w : Word) : LaneState :=
  if bits w.toNat 15 0 ≠ 0xC1A5 then L
  else ({ L with locks := addTo (R.fldLock n) L.locks }).wFldRs n (L.reg (R.fldRsNom n))

def execFldLock (l : Lane) (n : Axis) (q : Req) (w : Word) (s : State) : Out :=
  onLane s l (fun L => L.guardW q (R.fldLock n) w (fun L => L.wFldLock n w))

end Sys2Proof.Machine
end

