-- ==== Sys2Proof/Machine/Time.lean ====
section
/-! DEFINITION. Lane time, its alignment over Rope, and the clocks (chapter 1, R29 to R48). -/

namespace Sys2Proof.Machine

/-! ## SYS_TICK and the time registers -/

/-- The legal combinations of SYS_TICK with the Cordee basic cycle in coarse ticks (R41). -/
def tickLegal (tick n cycle : Nat) : Bool :=
  500 ≤ tick && tick ≤ 4000 && 2 ≤ n && n ≤ 16 && 2000 ≤ tick * n && tick * n ≤ 50000 && cycle % (tick * n) == 0

/-- The Cordee basic cycle in coarse ticks: CDE_CYCLE.bc counts 20 ns. -/
def LaneState.basicCycle (L : LaneState) : Nat := 4 * L.get R.cdeCycle_bc

/-- A write of SYS_TICK: accepted if the combination is legal, else ignored with tick_illegal (R42). -/
def LaneState.wSysTick (L : LaneState) (q : Req) (w : Word) : LaneState :=
  if tickLegal (bits w.toNat 11 0) (bits w.toNat 20 16) L.basicCycle then L.busWrite q.secure R.sysTick w
  else L.flag R.sysAlignStat_tick_illegal

def execSysTickWrite (l : Lane) (q : Req) (w : Word) (s : State) : Out :=
  onLane s l (fun L => L.guardW q R.sysTick w (fun L => L.wSysTick q w))

/-- A read of SYS_TIME_LO captures lane time into the master's latch (R29). -/
def LaneState.rSysTimeLo (L : LaneState) (q : Req) : Word × LaneState :=
  (L.time.now.extractLsb' 0 32,
    { L with time := { L.time with
        latch := Sparse.set (fun _ => 0) L.time.latch q.m.id (L.time.now.extractLsb' 32 32) } })

/-- A read of SYS_TIME_HI returns the latch of the same master (R29). -/
def LaneState.rSysTimeHi (L : LaneState) (q : Req) : Word × LaneState := (Sparse.get 0 L.time.latch q.m.id, L)

def execSysTimeLoRead (l : Lane) (q : Req) (s : State) : Out :=
  onLane s l (fun L => L.guardR q R.sysTimeLo (fun L => L.rSysTimeLo q))

def execSysTimeHiRead (l : Lane) (q : Req) (s : State) : Out :=
  onLane s l (fun L => L.guardR q R.sysTimeHi (fun L => L.rSysTimeHi q))

/-! ## The alignment exchange -/

/-- Sends the own TIME frame on one link that is up, with its stamp (R30). -/
def State.sendTime (s : State) (l : Lane) (k : Link) (stamp : BitVec 64) : State :=
  let L := s.lane l
  if L.linkUp k then
    (s.setLane l (L.mapLink k (fun K => { K with ownTx := some (stamp.toNat, L.pnum % 65536) }))).send l k
      (.time (L.pnum % 65536))
  else s

/-- Each lane sends a TIME frame on every Rope link that is up; each end stamps its own transmission (R30). -/
def execTimeFrameSend (l : Lane) (stamp0 stamp1 : BitVec 64) (s : State) : Out :=
  .next ((s.sendTime l .l0 stamp0).sendTime l .l1 stamp1)

/-- A frame of a link failed its CRC (R322). -/
def LaneState.ropeCrcError (L : LaneState) (k : Link) : LaneState :=
  let L := L.mapLink k (fun K => { K with errs := K.errs + 1 })
  match k with
  | .l0 => (L.flag R.ropeStat0_crc_evt).count R.ropeCnt0_crc
  | .l1 => (L.flag R.ropeStat1_crc_evt).count R.ropeCnt1_crc

/-- A frame of a link arrives: `f` where its CRC passes, the error count where it fails. -/
def LaneState.ropeFrame (L : LaneState) (k : Link) (crcOk : Bool) (f : LaneState → LaneState) : LaneState :=
  if crcOk then f L else L.ropeCrcError k

/-- The arrival of the peer's TIME frame is stamped (R30, R31). -/
def execTimeFrameReceived (l : Lane) (k : Link) (stamp : BitVec 64) (crcOk : Bool) (s : State) : Out :=
  match s.arriving (l.peer k) l with
  | .time p :: rest =>
    let s := s.setFlight (l.peer k) l rest
    onLane s l (fun L =>
      let L := L.mapLink k (fun K => { K with ownRx := some (stamp.toNat, p, crcOk) })
      if crcOk then L else (L.ropeCrcError k).flag R.sysAlignStat_frame_miss)
  | _ => .next s

/-- The pair offset of x to y as this lane holds it: y's time minus x's time. -/
def LaneState.heldPair (L : LaneState) : Lane → Lane → Option Int
  | .a, .b => L.time.heldAB.map (·.1)
  | .b, .a => L.time.heldAB.map (fun p => -p.1)
  | .b, .c => L.time.heldBC.map (·.1)
  | .c, .b => L.time.heldBC.map (fun p => -p.1)
  | .c, .a => L.time.heldCA.map (·.1)
  | .a, .c => L.time.heldCA.map (fun p => -p.1)
  | _, _ => some 0

/-- Holds a pair offset at its latest valid value (R31). -/
def LaneState.holdPair (L : LaneState) (x y : Lane) (d : Int) : LaneState :=
  match x, y with
  | .a, .b => { L with time := { L.time with heldAB := some (d, 0) } }
  | .b, .a => { L with time := { L.time with heldAB := some (-d, 0) } }
  | .b, .c => { L with time := { L.time with heldBC := some (d, 0) } }
  | .c, .b => { L with time := { L.time with heldBC := some (-d, 0) } }
  | .c, .a => { L with time := { L.time with heldCA := some (d, 0) } }
  | .a, .c => { L with time := { L.time with heldCA := some (-d, 0) } }
  | _, _ => L

/-- The TIME_REPORT of a link: period numbers, both stamps and the latest offset to the third lane (R30, R31). It is
formed once the own frame is sent and the peer's frame has arrived with a good CRC. -/
def LaneState.timeReport (L : LaneState) (k : Link) : Option RopeMsg :=
  match (L.link k).ownTx, (L.link k).ownRx with
  | some (tx, txp), some (rx, rxp, true) =>
    let third := if k = .l0 then L.id.peer .l1 else L.id.peer .l0
    some (.timeReport (L.pnum % 65536) txp rxp tx rx (L.heldPair L.id third))
  | _, _ => none

/-- Sends the report of one link that is up. -/
def State.sendReport (s : State) (l : Lane) (k : Link) : State :=
  match (s.lane l).timeReport k with
  | some m => if (s.lane l).linkUp k then s.send l k m else s
  | none => s

def execTimeReportSend (l : Lane) (s : State) : Out := .next ((s.sendReport l .l0).sendReport l .l1)

/-- The measurement of a pair from the own stamps and the peer's report (R30, R31): d and twice the delay, in fine
steps. -/
def pairMeasure (xTx xRx yTx yRx : Int) : Int × Int :=
  (divOpen ((yRx - xTx) - (xRx - yTx)) 2, (yRx - xTx) + (xRx - yTx))

/-- A TIME_REPORT is used only if its three period numbers equal the own one; the offset is valid if both frames
passed their CRC and the delay lies between 50 ns (640 fine steps) and 400 ns (5,120). Else frame_miss is set. -/
def LaneState.takeReport (L : LaneState) (k : Link) (p txp rxp tx rx : Nat) (third : Option Int) : LaneState :=
  let own := L.pnum % 65536
  match (L.link k).ownTx, (L.link k).ownRx with
  | some (xTx, xTxp), some (xRx, xRxp, true) =>
    let m := pairMeasure xTx xRx tx rx
    if p = own ∧ txp = own ∧ rxp = own ∧ xTxp = own ∧ xRxp = own ∧ 1280 ≤ m.2 ∧ m.2 ≤ 10240 then
      let y := L.id.peer k
      let z := if k = .l0 then L.id.peer .l1 else L.id.peer .l0
      let L := (L.mapLink k (fun K => { K with meas := some m.1 })).holdPair L.id y m.1
      match third with
      | some d => L.holdPair y z d
      | none => L
    else L.flag R.sysAlignStat_frame_miss
  | _, _ => L.flag R.sysAlignStat_frame_miss

def execTimeReportReceived (l : Lane) (k : Link) (crcOk : Bool) (s : State) : Out :=
  match s.arriving (l.peer k) l with
  | .timeReport p txp rxp tx rx third :: rest =>
    onLane (s.setFlight (l.peer k) l rest) l (fun L =>
      if crcOk then L.takeReport k p txp rxp tx rx third
      else (L.ropeCrcError k).flag R.sysAlignStat_frame_miss)
  | _ => .next s

/-! ## The correction and the timing conditions -/

/-- The valid offsets of this period to the lanes this lane follows (R32, R33). -/
def LaneState.followed (L : LaneState) : List Int :=
  let f (k : Link) : List Int :=
    if participates (L.view (L.id.peer k)) then (L.link k).meas.toList else []
  f .l0 ++ f .l1

/-- The correction c of R33, as twice its value. -/
def LaneState.correction2 (L : LaneState) : Int :=
  match L.followed with
  | [d1, d2] => 2 * median3 0 d1 d2
  | [d1] => if participates L.belay then d1 else 2 * d1
  | _ => 0

/-- The limit of the rate correction, ±500 ppm in units of 2^−32. -/
def rateLimit : Int := 2147484

/-- The slew for the next period and the rate (R33, R34, R35). In holdover the rate stays. -/
def LaneState.correct (L : LaneState) : LaneState :=
  let c2 := L.correction2
  let hold := L.followed.isEmpty
  let slew := clampI (-512) 512 (divOpen c2 4)
  let den := 2 * 8 * L.tServo * 64
  let rate := clampI (-rateLimit) rateLimit (L.getS R.sysRate_corr + divOpen (c2 * 2 ^ 32) den)
  let sat := rate == rateLimit || rate == -rateLimit
  let L := { L with time := { L.time with nextSlew := slew } }
  let L := (L.setF R.sysAlignStat_holdover hold).putS R.sysRate_corr rate
  (L.setF R.sysAlignStat_rate_sat sat).flagIf sat R.sysAlignStat_rate_sat_evt

/-- The time of lane y relative to lane x through the pair offsets held, directly or through the third lane. -/
def LaneState.relTime (L : LaneState) (x y : Lane) : Option Int :=
  if x = y then some 0
  else match L.heldPair x y with
    | some d => some d
    | none =>
      let z := Lane.ofIdx (3 - x.idx - y.idx)
      match L.heldPair x z, L.heldPair z y with
      | some d, some e => some (d + e)
      | _, _ => none

/-- The lanes that a held pair offset relates to another lane. -/
def LaneState.measuredLanes (L : LaneState) : List Lane :=
  lanes.filter (fun x => lanes.any (fun y => x != y && (L.relTime x y).isSome))

/-- Whether a lane is present: in SYNC or a later state with its Rope link to this lane up, or this lane (R44). -/
def LaneState.present (L : LaneState) (y : Lane) : Bool :=
  if y = L.id then bsSync ≤ L.belay
  else L.linkUp (L.id.linkTo y) && bsSync ≤ L.view y && L.view y ≤ bsDead

/-- Twice the reference time of a list of lane times: the median, the mean, or the one time. -/
def ref2 : List Int → Int
  | [x, y, z] => 2 * median3 x y z
  | [x, y] => x + y
  | [x] => 2 * x
  | _ => 0

/-- The lanes whose times form the reference: the participating ones, or those present when none participates. -/
def LaneState.refLanes (L : LaneState) : List Lane :=
  let p := L.measuredLanes.filter (fun y => participates (L.view y))
  if lanes.any (fun y => participates (L.view y)) then p else L.measuredLanes.filter L.present

/-- The offset of a lane from the reference, in fine steps; 0 while it is not measured. -/
def LaneState.offsetOf (L : LaneState) (y : Lane) : Int :=
  match L.measuredLanes with
  | [] => 0
  | b :: _ =>
    if y ∈ L.measuredLanes ∧ L.refLanes ≠ [] then
      let rel (z : Lane) : Int := (L.relTime b z).getD 0
      divOpen (2 * rel y - ref2 (L.refLanes.map rel)) 2
    else 0

/-- The offset register of a lane. -/
def ofsF : Lane → RF
  | .a => R.sysAlignOfsA_ofs
  | .b => R.sysAlignOfsB_ofs
  | .c => R.sysAlignOfsC_ofs

/-- Posts the offsets, judges the own one, and counts the periods beyond and within 250 ns (3,200 fine steps) of each
participating lane that is measured; beyond 1 µs (12,800) TIME_EXCLUDE is raised and stands until the lane rejoins
through SYNC (R36, R37). -/
def LaneState.timingConditions (L : LaneState) : LaneState :=
  let ofs := lanes.map (fun y => (y, L.offsetOf y, participates (L.view y) && y ∈ L.measuredLanes))
  let L := ofs.foldl (fun M p => M.putS (ofsF p.1) p.2.1) L
  let own := L.getS (ofsF L.id)
  let L := L.setF R.sysAlignStat_aligned (own.natAbs ≤ 640)
  ofs.foldl (fun M p =>
    let i := p.1.idx
    if !p.2.2 then M
    else
      let far := 3200 < p.2.1.natAbs
      let M := { M with time := { M.time with
        beyond := M.time.beyond.set i (if far then M.time.beyond.get i + 1 else 0)
        within := M.time.within.set i (if far then 0 else M.time.within.get i + 1) } }
      let M := if 12800 < p.2.1.natAbs then
          (M.setBit R.sysAlignStat_exclude i true).setBit R.sysAlignStat_suspect i false
        else M
      if M.bitOf R.sysAlignStat_exclude i then M.raise 0x06 p.1
      else if M.bitOf R.sysAlignStat_suspect i then M.raise 0x05 p.1
      else M) L

/-- The lane forms its correction, posts the offsets and evaluates the timing conditions (R33, R36). -/
def execAlignCorrection (l : Lane) (s : State) : Out :=
  onLane s l (fun L => (L.correct).timingConditions)

/-- At the fourth consecutive period without a valid measurement a held pair offset lapses (R31). -/
def execPairOffsetLapse (l x y : Lane) (s : State) : Out :=
  onLane s l (fun L =>
    let lapse (h : Option (Int × Nat)) : Option (Int × Nat) := h.filter (fun p => p.2 < 4)
    match x, y with
    | .a, .b | .b, .a => { L with time := { L.time with heldAB := lapse L.time.heldAB } }
    | .b, .c | .c, .b => { L with time := { L.time with heldBC := lapse L.time.heldBC } }
    | .c, .a | .a, .c => { L with time := { L.time with heldCA := lapse L.time.heldCA } }
    | _, _ => L)

/-- An offset beyond 250 ns in 2 consecutive periods raises TIME_SUSPECT, unless TIME_EXCLUDE is raised (R36, R37). -/
def execTimeSuspectRaise (l y : Lane) (s : State) : Out :=
  onLane s l (fun L =>
    L.when (2 ≤ L.time.beyond.get y.idx && !L.bitOf R.sysAlignStat_exclude y.idx && participates (L.view y))
      (fun L => (L.setBit R.sysAlignStat_suspect y.idx true).raise 0x05 y))

/-- An offset within 250 ns for 16 consecutive periods clears TIME_SUSPECT (R36). -/
def execTimeSuspectClear (l y : Lane) (s : State) : Out :=
  onLane s l (fun L =>
    L.when (16 ≤ L.time.within.get y.idx) (fun L => L.setBit R.sysAlignStat_suspect y.idx false))

/-! ## Steps in SYNC -/

/-- The step target of a lane in SYNC, as its distance from the own time (R39). -/
def LaneState.stepTarget (L : LaneState) : Option Int :=
  let part := lanes.filter (fun y => y ≠ L.id ∧ participates (L.view y))
  if part = [] then
    let d := lanes.filterMap (fun y => if y ≠ L.id ∧ L.present y then L.heldPair L.id y else none)
    if d = [] then none else some (d.foldl max 0)
  else
    let d := part.filterMap (fun y => L.relTime L.id y)
    if d = [] then none else some (divOpen (ref2 d) 2)

/-- At a period boundary in SYNC the lane steps to its target: at the first boundary at which it has one, and later
when it is more than 250 ns away (R38). -/
def LaneState.syncStep (L : LaneState) : LaneState :=
  if L.belay ≠ bsSync then L
  else match L.stepTarget with
    | none => L
    | some d =>
      if !L.time.stepped || 3200 < d.natAbs then
        let L := L.setNow ((L.time.now.toNat : Int) + d).toNat
        ({ L with time := { L.time with stepped := true } }).flag R.sysAlignStat_stepped
      else L

/-! ## Tick parameters, clocks and oscillator -/

/-- The reference SYS_TICK and basic cycle of R44, from the values known of the lanes: those of the participating
lanes; without any, the value held by at least two of the lanes present; a lone lane takes its own. -/
def LaneState.tickRefOk (L : LaneState) : Bool :=
  let own := (L.reg R.sysTick, wordN L.basicCycle)
  let peer (k : Link) : Option (Word × Word) := (L.link k).peerTick
  let links : List Link := [.l0, .l1]
  let part := links.filter (fun k => participates (L.view (L.id.peer k)))
  let pres := links.filter (fun k => L.present (L.id.peer k))
  if part ≠ [] then part.all (fun k => peer k = none ∨ peer k = some own)
  else if pres = [] then true
  else pres.any (fun k => peer k = some own)

/-- A peer's SYS_TICK and basic cycle arrive in SYNC; a difference from the reference sets tick_mismatch (R44). -/
def execTickParamReceived (l : Lane) (k : Link) (crcOk : Bool) (s : State) : Out :=
  match s.arriving (l.peer k) l with
  | .tickParam t c i lc sp :: rest =>
    onLane (s.setFlight (l.peer k) l rest) l (fun L => L.ropeFrame k crcOk (fun L =>
      let L := L.mapLink k (fun K => { K with peerTick := some (t, c), peerIdent := some (i, lc), peerSplit := sp })
      L.flagIf (L.belay == bsSync && !L.tickRefOk) R.sysAlignStat_tick_mismatch))
  | _ => .next s

/-- An island clock stops or leaves ±5 % for 2 µs; raised to the Belay as CLK (R47). The loss of the edge-timing clock
forces every gate wire and auxiliary output low until reset (R239). -/
def execClockLoss (l : Lane) (island : Fin 14) (s : State) : Out :=
  onLane s l (fun L =>
    let L := (L.setBit R.sysIslStat_clk_loss island true).raiseOwn 0x0A
    if island.val = 4 then { L with edge := { L.edge with forcedLow := true } } else L)

/-- A handshake without acknowledgement for 1 µs ends the access with a bus error; raised to the Belay (R47). -/
def execHandshakeTimeout (l : Lane) (island : Fin 14) (m : Master) (s : State) : Out :=
  onLane s l (fun L => ((L.setBit R.sysIslStat_hs_timeout island true).busError m).raiseOwn 0x0A)

/-- OSC_x fails: the PLLs switch to the internal RC reference and the Belay excludes the lane (R48). -/
def execOscFail (l : Lane) (s : State) : Out :=
  onLane s l (fun L => ({ L with time := { L.time with oscOk := false, onRc := true } }).raiseOwn 0x0A)

end Sys2Proof.Machine
end

