-- ==== Sys2Proof/Machine/Vote.lean ====
section
/-! DEFINITION. Votes: the vote generator of the lane die and the majority gate of the bridge die (R279 to R287). -/

namespace Sys2Proof.Machine

def voteAbstain : Nat := 0
def voteFor : Nat := 1
def voteAgainst : Nat := 2
def voteInvalid : Nat := 3

/-! ## What a lane votes (R272, R287) -/

/-- The driven vote about a lane, in BELAY_VOTE.out. -/
def LaneState.driven (L : LaneState) (y : Lane) : Nat := bits (L.get R.belayVote_out) (2 * y.idx + 1) (2 * y.idx)

/-- The class of the vote of a lane, as the bridge die last reported it. -/
def LaneState.voteIn (L : LaneState) (y : Lane) : Nat := bits (L.get R.belayVote_in) (2 * y.idx + 1) (2 * y.idx)

/-- The vote about a lane that the Belay decides: about itself by its state, about a peer by its view while it drives; a
peer decided against gets AGAINST until its admission, and without information the last vote is held (R272, R287,
R293, R294, R346). -/
def LaneState.decidedVote (L : LaneState) (y : Lane) : Nat :=
  let st := L.belay
  if y = L.id then
    if L.is R.triadDbg_force_abstain then voteAbstain
    else if st == bsActive then voteFor
    else if st == bsSuspect then (if L.belaySt.selfExcluding then voteAgainst else voteFor)
    else if st == bsExcluded || st == bsService || st == bsDead then voteAgainst
    else voteAbstain
  else if !driving st then voteAbstain
  else if y.idx ∈ L.belaySt.against then voteAgainst
  else
    let v := L.view y
    if driving v then voteFor
    else if v == 15 then L.driven y
    else voteAgainst

/-- The vote that is driven: a lane in split mode never drives FOR, but ABSTAIN instead (R351). -/
def LaneState.drivenVote (L : LaneState) (y : Lane) : Nat :=
  if L.is R.triadStat_split && L.decidedVote y == voteFor then voteAbstain else L.decidedVote y

/-- The vote generator takes the decided votes (R284, R285). -/
def LaneState.driveVotes (L : LaneState) : LaneState :=
  L.put R.belayVote_out (lanes.foldl (fun a y => a + L.drivenVote y * 4 ^ y.idx) 0)

def execVoteOutputChange (l : Lane) (s : State) : Out := onLane s l LaneState.driveVotes

/-- Without a refresh for 2 periods all three outputs fall to ABSTAIN (R285). -/
def execVoteRefreshTimeout (l : Lane) (s : State) : Out := onLane s l (fun L => L.put R.belayVote_out 0)

/-! ## Classification (R279 to R281) -/

/-- A run of a vote line on the majority-gate clock, in ns: S or L of a FOR waveform, or neither. -/
inductive VoteRun where
  | short | long | other
deriving DecidableEq, Repr

/-- The kind of a run: 375–625 ns or 875–1,125 ns lie in the FOR ranges (R281). -/
def voteRun (ns : Nat) : VoteRun :=
  if 375 ≤ ns ∧ ns ≤ 625 then .short
  else if 875 ≤ ns ∧ ns ≤ 1125 then .long
  else .other

/-- The run sequence of one frame of a lane's code (R280). -/
def voteCode : Lane → List VoteRun
  | .a => .long :: List.replicate 14 .short
  | .b => .long :: .long :: List.replicate 12 .short
  | .c => .long :: .short :: .long :: List.replicate 11 .short

/-- The sequence of runs that a sender's code repeats, cut so that it ends `cut` runs into a frame. -/
def codeTail (y : Lane) (cut len : Nat) : List VoteRun :=
  let all := (List.replicate (len / (voteCode y).length + 2) (voteCode y)).flatten ++ (voteCode y).take cut
  all.drop (all.length - len)

/-- Whether runs align to the sender's code in some phase. -/
def codeAligns (y : Lane) (runs : List VoteRun) : Bool :=
  (List.range (voteCode y).length).any (fun cut => runs == codeTail y cut runs.length)

/-- Whether the last two frames are complete and match the sender's code. -/
def twoFrames (y : Lane) (runs : List VoteRun) : Bool :=
  let n := (voteCode y).length
  (List.range n).any (fun cut => decide (2 * n + cut ≤ runs.length) &&
    runs.drop (runs.length - (2 * n + cut)) == codeTail y cut (2 * n + cut))

/-- The class of an input from the runs since its last classification, oldest first, and the time since its last
transition: an input that acquires FOR keeps the class it held (R281). -/
def voteClass (y : Lane) (held : Nat) (runs : List Nat) (still : Nat) : Nat :=
  let rs := runs.map voteRun
  if 2500 ≤ still then voteAbstain
  else if rs.all (· ≠ .other) && decide (still ≤ 1125) && codeAligns y rs then
    if twoFrames y rs then voteFor else held
  else match runs.getLast? with
    | some r => if 1750 ≤ r ∧ r ≤ 2250 then voteAgainst else voteInvalid
    | none => voteInvalid

/-! ## The majority rule (R282, R283) -/

/-- The class of the vote of a lane at the majority gate. -/
def LaneState.gateCls (L : LaneState) (y : Lane) : Nat := L.gate.cls.get y.idx

/-- Whether both peers' votes are classified ABSTAIN and the own one FOR. -/
def LaneState.lastLaneVotes (L : LaneState) : Bool :=
  lanes.all (fun y => L.gateCls y == (if y = L.id then voteFor else voteAbstain))

/-- The majority rule: two votes FOR; or one, none AGAINST or INVALID, and last-lane mode latched (R282). -/
def LaneState.majority (L : LaneState) : Bool :=
  let n := (lanes.filter (fun y => L.gateCls y == voteFor)).length
  decide (2 ≤ n) || (decide (n = 1) && L.gate.latched && lanes.all (fun y => decide (L.gateCls y ≤ voteFor)))

/-- The gate after a change of a class: the latch clears, and a held LL_ARM is dropped, unless both peers ABSTAIN and the
own vote is FOR (R283); then the enable follows the majority. -/
def LaneState.gateEval (L : LaneState) : LaneState :=
  let L := if L.lastLaneVotes then L else { L with gate := { L.gate with latched := false, armHeld := false } }
  L.setEnable L.majority

/-- The majority gate of lane `l` classifies the vote of lane `y` anew from the runs it has measured (R281). -/
def execVoteClassChange (l y : Lane) (runs : List (BitVec 16)) (still : BitVec 16) (s : State) : Out :=
  onLane s l (fun L =>
    let c := voteClass y (L.gateCls y) (runs.map (·.toNat)) still.toNat
    ({ L with gate := { L.gate with cls := L.gate.cls.set y.idx c } }).gateEval)

/-- The lane die sends LL_ARM, which the bridge die holds while both peers ABSTAIN and the own vote is FOR. It is sent in
ACTIVE or SUSPECT, after the two-fault record, with no peer driving (R283). -/
def execLlArmReceived (l : Lane) (s : State) : Out :=
  onLane s l (fun L =>
    L.when (driving L.belay && L.aon.twoFault && lanes.all (fun y => y == L.id || !driving (L.view y))) (fun L =>
      let L := L.setF R.belayState_ll_armed true
      let L := L.setSig 0x38000 (L.reg R.belayState)
      if L.lastLaneVotes then { L with gate := { L.gate with armHeld := true } } else L))

/-- After 200 µs of ABSTAIN from both peers, with the own vote FOR and an LL_ARM held, last-lane mode latches (R283). -/
def execLastLaneLatch (l : Lane) (s : State) : Out :=
  onLane s l (fun L => L.when (L.lastLaneVotes && L.gate.armHeld) (fun L =>
    { L with gate := { L.gate with latched := true } }.gateEval))

end Sys2Proof.Machine
end

