-- ==== Sys2Proof/Machine/Belay.lean ====
section
/-! DEFINITION. The Belay of a lane: its states, causes and exclusions, the two-lane rules, rejoin, service and the
two-fault rule (R272 to R278, R286 to R317, R606). -/

namespace Sys2Proof.Machine

/-- Changes what the Belay keeps beside its registers. -/
def LaneState.mapB (L : LaneState) (f : BelaySt → BelaySt) : LaneState := { L with belaySt := f L.belaySt }

/-- The driving lanes as this lane holds them. -/
def LaneState.drivingLanes (L : LaneState) : List Lane := lanes.filter (fun y => driving (L.view y))

/-- Whether lane time stands at a servo-period boundary. -/
def LaneState.atPeriod (L : LaneState) : Bool := L.coarse % L.tServo == 0

/-- BELAY_STATE.two_lane, and the mirrors of BELAY_STATE and of the requests (R317). -/
def LaneState.mirror (L : LaneState) : LaneState :=
  let L := L.setF R.belayState_two_lane (L.drivingLanes.length == 2)
  (L.setSig 0x38000 (L.reg R.belayState)).setSig 0x38001 (wordN (bits (L.reg R.belayReq).toNat 2 0))

/-- The counts of DEV, STATE_DEV and MISS return to 0 when a lane has left the driving states (R295). -/
def LaneState.dropCounts (L : LaneState) (was : List Lane) : LaneState :=
  let now := L.drivingLanes
  if was.all (· ∈ now) then L else L.mapB (fun B => { B with dev := [], stateDev := [], miss := [] })

/-- The own state changes (R272, R273): leaving ACTIVE, SUSPECT and SHADOW is the safe action of every axis (R93);
entering one of them makes the next run of every loop a first run (R191). -/
def LaneState.setBelay (L : LaneState) (st cause : Nat) : LaneState :=
  let was := L.drivingLanes
  let old := L.belay
  let L := (L.put R.belayState_state st).put R.belayCause_own cause
  let L := if participates old && !participates st then L.forAxes (fun n M => (M.safeAction n).markHigher n) else L
  let L := if !participates old && participates st then L.allFresh else L
  let L := L.mapB (fun B => { B with
    selfExcluding := B.selfExcluding && st == bsSuspect
    ready := B.ready && st == bsSync
    serviceAt := if driving st then B.serviceAt else none })
  (L.dropCounts was).mirror

/-! ## Exclusion -/

/-- The cause field of a lane in BELAY_CAUSE. -/
def causeF : Lane → RF
  | .a => R.belayCause_cause_a
  | .b => R.belayCause_cause_b
  | .c => R.belayCause_cause_c

/-- Records that a lane was excluded, with its cause. -/
def LaneState.noteExcluded (L : LaneState) (y : Lane) (code : Nat) : LaneState :=
  (((L.flag R.belayStat_excl_evt).count R.belayCnt_excl).put (causeF y) code).mapB (fun B => { B with
    exclNow := some y.idx })

/-- The rejoin attempts within the window of BELAY_REJ, in minutes of the always-on timer (R308). -/
def LaneState.attemptsNow (L : LaneState) : List Nat :=
  let span := atLeast1 (L.get R.belayRej_window) * 12000000000
  L.aon.attempts.filter (fun t => decide (L.aon.now < t + span))

/-- Whether an excluded lane has used its attempts; a limit of 0 leaves none (R308). -/
def LaneState.exhausted (L : LaneState) : Bool := decide (L.get R.belayRej_limit ≤ L.attemptsNow.length)

/-- The lane enters EXCLUDED, and DEAD at once with REJ_LIMIT where its attempts are exhausted (R273, R308). A rejoin in
progress has failed. -/
def LaneState.exclude (L : LaneState) (code : Nat) : LaneState :=
  let failed := L.belay == bsRejoin || L.belay == bsShadow
  let L := (L.flagIf failed R.belayStat_rej_fail).setBelay bsExcluded code
  let L := (L.noteExcluded L.id code).mapB (fun B => { B with exclAt := L.coarse, transfer := none })
  if L.exhausted then L.setBelay bsDead 0x19 else L

/-- A cause whose action is self-exclusion (R273, R274, R293): CLK and WAKE_FAIL exclude at once from every state but
DEAD, any cause excludes at once from SHADOW and REJOIN; a driving lane enters SUSPECT and posts its request. A cause
that arrives meanwhile only records its code. -/
def LaneState.selfExclude (L : LaneState) (code : Nat) : LaneState :=
  let st := L.belay
  if code = 0x0A ∨ code = 0x13 then
    if st == bsDead || st == bsExcluded then L else L.exclude code
  else if st == bsShadow || st == bsRejoin then L.exclude code
  else if !driving st then L
  else if L.belaySt.selfExcluding then L.put R.belayCause_own code
  else
    let L := if st == bsActive then L.setBelay bsSuspect code else L.put R.belayCause_own code
    (L.flag R.belayStat_self_excl).mapB (fun B => { B with
      selfExcluding := true, requests := addTo L.id.idx B.requests, requestCause := code })

/-- A peer cause has reached its action: AGAINST the peer until its admission, the request in the Belay record, and the
peer EXCLUDED in this lane's view (R273, R294, R310). -/
def LaneState.decideAgainst (L : LaneState) (y : Lane) (code : Nat) : LaneState :=
  if y = L.id ∨ y.idx ∈ L.belaySt.against then L
  else
    let was := L.drivingLanes
    let v := L.view y
    let L := if driving v || v == 15 then (L.put (viewField y) bsExcluded).noteExcluded y code else L.put (causeF y) code
    let L := L.mapB (fun B => { B with
      against := addTo y.idx B.against, requests := addTo y.idx B.requests, requestCause := code })
    (L.dropCounts was).mirror

/-! ## Views (R277) -/

/-- Word `o` of a peer's Belay record. -/
def LaneState.brec (L : LaneState) (y : Lane) (o : Nat) : Nat := (L.sig (segBase y + 0x40 + o)).toNat

/-- The view of a peer: its own record while the direct link is up, else the third lane's view, else 15. A peer decided
against is EXCLUDED while it has not been seen to leave the driving states; its reboot ends the request. -/
def LaneState.refreshView (L : LaneState) (y : Lane) : LaneState :=
  if y = L.id then L
  else
    let z := Lane.ofIdx (3 - L.id.idx - y.idx)
    let v := if L.linkUp (L.id.linkTo y) then bits (L.brec y 0) 3 0
      else if L.linkUp (L.id.linkTo z) then bits (L.brec z 1) (4 * y.idx + 3) (4 * y.idx)
      else 15
    if y.idx ∈ L.belaySt.against then
      if v == bsBoot || v == bsSync then
        (L.put (viewField y) v).mapB (fun B => { B with
          against := dropFrom y.idx B.against, requests := dropFrom y.idx B.requests })
      else L.put (viewField y) (if driving v || v == 15 then bsExcluded else v)
    else L.put (viewField y) v

/-- The views of both peers and the own state in the view fields, and what follows from a change of the driving set. -/
def LaneState.refreshViews (L : LaneState) : LaneState :=
  let was := L.drivingLanes
  let L := (lanes.foldl (fun (M : LaneState) y => M.refreshView y) L).put (viewField L.id) L.belay
  (L.dropCounts was).mirror

/-! ## Power-on (R273, R275, R276) -/

/-- BOOT is left once the image is verified, SYS_TICK is legal, the lock-time calibration is complete, BELAY_LOCK is
written and the bridge die is locked (R241, R273). LOCKSTEP_BROKEN is reported as cause CMD (R348). -/
def execBootExit (l : Lane) (s : State) : Out :=
  onLane s l (fun L =>
    L.when (L.belay == bsBoot && L.lcs.imageOk && tickLegal L.tTick L.nTicks L.basicCycle &&
        L.is R.edgeStat_cal_done && L.locked R.belayLock && L.is R.brgStat_locked)
      (fun L => L.setBelay bsSync (if L.is R.triadStat_lockstep_broken then 0x18 else 0)))

/-- The own identity: SYS_ID without the lane field, and the life-cycle state (R276, R536). -/
def LaneState.ident (L : LaneState) : Word × Nat := (wordN (setBits (L.reg R.sysId).toNat 11 8 0), L.get R.lcsState_lc)

/-- The identities of the peers that are present and known. -/
def LaneState.peerIdents (L : LaneState) : List (Word × Nat) :=
  [Link.l0, Link.l1].filterMap (fun k => if L.present (L.id.peer k) then (L.link k).peerIdent else none)

/-- The identity check passes: no peer present, or one of the same identity (R276). -/
def LaneState.identOk (L : LaneState) : Bool := L.peerIdents.isEmpty || L.peerIdents.any (· == L.ident)

def execIdentityCheck (l : Lane) (s : State) : Out :=
  onLane s l (fun L => L.when (L.belay == bsSync && !L.identOk) (fun L =>
    ((L.flag R.belayStat_id_mismatch).put R.belayCause_own 0x14).raiseOwn 0x14))

/-- The ready lanes that this lane sees, itself included (R275, R277). -/
def LaneState.readyLanes (L : LaneState) : List Lane :=
  lanes.filter (fun y => if y = L.id then L.belaySt.ready else L.linkUp (L.id.linkTo y) && bit (L.brec y 0) 4)

/-- Keeps the period in which two ready lanes were first seen, and the time since which this lane is ready alone. -/
def LaneState.noteReady (L : LaneState) : LaneState :=
  let n := L.readyLanes.length
  L.mapB (fun B => { B with
    twoReady := if 2 ≤ n then (match B.twoReady with | some p => some p | none => some L.pnum) else none
    aloneSince := if B.ready && decide (n ≤ 1) then (match B.aloneSince with | some t => some t | none => some L.coarse)
      else none })

/-- Records a rejoin attempt with its time (R304, R308); the REJOIN after a LANE_RESET out of SERVICE is not counted
(R558). -/
def LaneState.noteAttempt (L : LaneState) : LaneState :=
  let L := if L.aon.uncounted then { L with aon := { L.aon with uncounted := false } }
    else { L with aon := { L.aon with attempts := L.attemptsNow ++ [L.aon.now] } }
  L.put R.belayCnt_attempts (min 15 L.attemptsNow.length)

/-- The lane enters REJOIN. -/
def LaneState.enterRejoin (L : LaneState) : LaneState :=
  (L.setBelay bsRejoin 0).mapB (fun B => { B with rejoinAt := L.coarse, transfer := none, leaving := false })

/-- The conditions of R40, R44 and R276 are met in SYNC: without a participating lane the lane becomes ready; else it
enters REJOIN at a boundary with both links up and the class of every driving lane (R273, R304). A split lane does not
leave SYNC (R351). -/
def execSyncExit (l : Lane) (s : State) : Out :=
  onLane s l (fun L =>
    L.when (L.belay == bsSync && decide (8 ≤ L.time.syncRun) && L.tickRefOk && L.identOk &&
        !L.is R.triadStat_split) (fun L =>
      let others := lanes.filter (fun y => y ≠ L.id)
      if others.any (fun y => participates (L.view y)) then
        if (L.drivingLanes).any (fun y => bits (L.brec y 5) 31 16 != L.compat) then
          ((L.flag R.belayStat_compat).put R.belayCause_own 0x15).raiseOwn 0x15
        else if L.linkUp .l0 && L.linkUp .l1 && L.atPeriod then L.noteAttempt.enterRejoin
        else L
      else (L.mapB (fun B => { B with ready := true })).noteReady))

/-- A ready lane enters ACTIVE at a boundary whose number is a multiple of 64, at least 8 periods after it first saw two
ready lanes, while no lane participates (R275). -/
def execPowerOnActivate (l : Lane) (s : State) : Out :=
  onLane s l (fun L =>
    let due := match L.belaySt.twoReady with
      | some p => decide (p + 8 ≤ L.pnum)
      | none => false
    L.when (L.belay == bsSync && L.belaySt.ready && due && L.pnum % 64 == 0 && L.atPeriod &&
      lanes.all (fun y => !participates (L.view y))) (fun L => L.setBelay bsActive 0))

/-! ## The two-fault rule (R311 to R316) -/

/-- The severity of a class; lower is more severe (R312). -/
def FaultClass.rank : FaultClass → Nat
  | .lane | .sup | .clk => 0
  | .link => 1
  | .temp | .bridge | .wind => 2
  | .sens => 3
  | .net => 4

/-- Whether a class is scoped to one set (R311, R312). -/
def FaultClass.setScoped : FaultClass → Bool
  | .sens | .wind | .bridge => true
  | _ => false

/-- The outcomes of R313. -/
inductive Outcome2 where
  | contin | limpAxis | lastLane | blindPair | oneNet | temp
deriving DecidableEq, Repr

/-- The two-fault matrix: the first fault is the row, the second the column (R314). F-LINK with F-NET gives A; `star`
says that the star of the lane excluded for F-LINK is stopped, which gives E (R315). -/
def matrix (first second : FaultClass) (star : Bool) : Outcome2 :=
  match first, second with
  | .net, .net | .net, .lane | .net, .sup | .net, .clk => .oneNet
  | .lane, .net | .sup, .net | .clk, .net => .oneNet
  | .net, .link | .link, .net => if star then .oneNet else .contin
  | .net, _ | _, .net => .contin
  | .sens, _ | .wind, _ | .bridge, _ => .limpAxis
  | _, .sens | _, .wind | _, .bridge => .limpAxis
  | .temp, _ | _, .temp => .temp
  | .link, .link | .lane, .link | .sup, .link | .clk, .link => .blindPair
  | _, _ => .lastLane

/-- The class of a cause (R288, R606). -/
def LaneState.causeClass (L : LaneState) (code : Nat) : Option FaultClass :=
  if code = 0x11 then L.belaySt.monClass
  else if code = 0x05 ∨ code = 0x06 ∨ code = 0x0A ∨ code = 0x13 then some .clk
  else if code = 0x0B then some .sup
  else if code = 0x0F then some .link
  else if code = 0x10 then some .sens
  else if code = 0x12 then some .bridge
  else if (1 ≤ code ∧ code ≤ 4) ∨ code = 0x07 ∨ code = 0x09 ∨ (0x0C ≤ code ∧ code ≤ 0x0E) ∨ code = 0x16 ∨ code = 0x17
    then some .lane
  else none

/-- Whether a trip flag has reached the lane die and still stands (R270). -/
def LaneState.tripKnown (L : LaneState) (s : Nat) : Bool := decide (s ∈ L.bridge.known) && L.tripFlagged s

/-- The axes on which trips of this lane stand as F-BRIDGE: per-port sources on theirs, GW_CH, CHOP_FAULT and HARD_OV on
all (R298). -/
def LaneState.bridgeAxes (L : LaneState) : List Nat :=
  (List.range 4).filter (fun n =>
    (List.range 24).any (fun s => L.tripKnown s && L.tripOnPort s n) ||
      L.tripKnown 24 || L.tripKnown 31 || L.tripKnown 32)

/-- The networks that this lane holds lost, by star (R311, R417). -/
def LaneState.lostNets (L : LaneState) : List Nat := (List.range 3).filter (fun j => !L.bitOf R.cdeState_net_ok j)

/-- The active faults of this lane with their axes: its standing causes, sensor loss, trips, OT or no headroom, a link
classified F-LINK, and lost networks (R277, R297, R298, R311). -/
def LaneState.ownFaults (L : LaneState) : List (FaultClass × List Nat) :=
  let all := [0, 1, 2, 3]
  let causes := (L.belaySt.raised.filter (fun p => p.2 == L.id)).filterMap (fun p => (L.causeClass p.1).map (fun c =>
    (c, if c = .wind ∨ c = .sens ∨ c = .bridge then
      (if p.1 = 0x11 then (List.range 4).filter (fun n => (L.ax n).monFired ≠ []) else all) else all)))
  causes.filter (fun p => p.1 != .sens || p.2 != all) ++
    (if L.belaySt.selfExcluding then ((L.causeClass L.belaySt.requestCause).map (fun c => (c, all))).toList else []) ++
    (if L.belaySt.fbLost = [] then [] else [(.sens, L.belaySt.fbLost)]) ++
    (if L.bridgeAxes = [] then [] else [(.bridge, L.bridgeAxes)]) ++
    (if L.tripKnown 37 || (List.range 4).any (fun n => L.axis n != axOff && L.headroomOf n == 0) then [(.temp, all)]
      else []) ++
    (if L.belaySt.linkClass.get 0 = 1 ∨ L.belaySt.linkClass.get 1 = 1 then [(.link, all)] else []) ++
    (if L.lostNets = [] then [] else [(.net, all)])

/-- Adds a fault: a fault of a lane that already has one counts as one fault of the more severe class (R312). -/
def LaneState.noteFault (L : LaneState) (y : Nat) (c : FaultClass) (axes : List Nat) : LaneState :=
  L.mapB (fun B =>
    match B.faults.find? (fun e => e.lane == y) with
    | none => { B with faults := B.faults ++ [⟨y, c, axes⟩] }
    | some _ => { B with faults := B.faults.map (fun e =>
        if e.lane = y then
          if c.rank < e.cls.rank then ⟨y, c, axes⟩
          else if c = e.cls then ⟨y, c, axes.foldl (fun l n => addTo n l) e.axes⟩
          else e
        else e) })

/-- The bit of a class in the Belay record (R277, R311). -/
def FaultClass.bit : FaultClass → Nat
  | .lane => 0
  | .sup => 1
  | .clk => 2
  | .link => 3
  | .net => 4
  | .sens => 5
  | .wind => 6
  | .bridge => 7
  | .temp => 8

def faultClasses : List FaultClass := [.lane, .sup, .clk, .link, .net, .sens, .wind, .bridge, .temp]

/-- The axes of a peer's fault: those whose feedback bit is clear for F-SENS, those for which it posts T_avail 0 while
not OFF for the other set-scoped classes; all where none shows (assumption 38). -/
def LaneState.peerFaultAxes (L : LaneState) (y : Lane) (c : FaultClass) : List Nat :=
  let all := [0, 1, 2, 3]
  let some_ (l : List Nat) : List Nat := if l = [] then all else l
  if c = .sens then some_ (all.filter (fun n => !Machine.bit (L.brec y 3) n))
  else if c.setScoped then
    some_ (all.filter (fun n => bits (L.sig (segBase y + 8 * n)).toNat 2 0 != 0 && L.sig (segBase y + 8 * n + 5) == 0))
  else all

/-- The faults of this lane and those that the peers' records show, once per period. A fault of class F-TEMP leaves when
it is no longer shown (R313). F-LINK is a fault of the later-lettered end. -/
def LaneState.assess (L : LaneState) : LaneState :=
  let later (k : Link) : Nat := max L.id.idx (L.id.peer k).idx
  let L := L.ownFaults.foldl (fun (M : LaneState) p =>
    if p.1 = .link then
      [Link.l0, Link.l1].foldl (fun (N : LaneState) k =>
        if N.belaySt.linkClass.get k.idx = 1 then N.noteFault (later k) .link p.2 else N) M
    else if p.1 = .net then M.lostNets.foldl (fun (N : LaneState) j => N.noteFault j .net p.2) M
    else M.noteFault L.id.idx p.1 p.2) L
  let L := lanes.foldl (fun (M : LaneState) y =>
    if y = M.id ∨ !M.linkUp (M.id.linkTo y) then M
    else faultClasses.foldl (fun (N : LaneState) c =>
      if Machine.bit (N.brec y 3) (8 + c.bit) && c != .net && c != .link then
        N.noteFault y.idx c (N.peerFaultAxes y c)
      else N) M) L
  let hot (i : Nat) : Bool :=
    if i = L.id.idx then L.ownFaults.any (fun p => p.1 == .temp) else Machine.bit (L.brec (Lane.ofIdx i) 3) 16
  L.mapB (fun B => { B with faults := B.faults.filter (fun e => e.cls != .temp || hot e.lane) })

/-- Whether the star of a lane is stopped, as its view tells: from its exclusion until it is in SYNC or a later state
(R315). -/
def LaneState.starStopped (L : LaneState) (i : Nat) : Bool :=
  let v := L.view (Lane.ofIdx i)
  v == bsExcluded || v == bsBoot || v == bsSync

/-- The outcome of two faults, with the axes on which both lie: set-scoped pairs on different axes give A (R312). -/
def LaneState.pairOutcome (L : LaneState) (e f : FaultEntry) : Outcome2 × List Nat :=
  let common := e.axes.filter (· ∈ f.axes)
  let star := (e.cls == .link && L.starStopped e.lane) || (f.cls == .link && L.starStopped f.lane)
  if e.cls.setScoped && f.cls.setScoped && common.isEmpty then (.contin, [])
  else (matrix e.cls f.cls star, common)

/-- The outcomes of the faults in force, of the first fault with each later one. -/
def LaneState.outcomes (L : LaneState) : List (Outcome2 × List Nat) :=
  match L.belaySt.faults with
  | [] => []
  | e :: rest => rest.map (fun f => L.pairOutcome e f)

/-- The axes on which the limp rule is to hold (R302, R313, R316). -/
def LaneState.limpAxes (L : LaneState) : List Nat :=
  let all := [0, 1, 2, 3]
  if L.is R.belayState_blind then all
  else L.outcomes.foldl (fun acc o => match o.1 with
    | .contin => acc
    | .limpAxis => o.2.foldl (fun l n => addTo n l) acc
    | _ => all) []

/-- The controlled-stop request is raised (R290, R301, R316). -/
def LaneState.stopRequest (L : LaneState) : LaneState :=
  ((L.flag R.belayStat_stop_req_evt).setF R.belayReq_stop true).mirror

/-- The limp rule is entered on axes: the speed-limit request is raised, and the axes pass to LIMP at the next boundary
(R316). -/
def LaneState.enterLimp (L : LaneState) (axes : List Nat) : LaneState :=
  let old := L.get R.belayState_limp_axes
  let new := axes.filter (fun n => !Machine.bit old n)
  if new = [] then L
  else
    let L := if old = 0 then
        ((L.flag R.belayStat_limp_evt).setF R.belayReq_speed_lim true).mapB (fun B => { B with limpAt := some L.coarse })
      else L
    let L := new.foldl (fun (M : LaneState) n => M.setBit R.belayState_limp_axes n true) L
    (L.mapB (fun B => { B with limpPend := new.foldl (fun l n => addTo n l) B.limpPend })).mirror

/-- Two faults call for the limp rule; a double loss also writes the two-fault record to Cairn memory (R283, R313,
R316). -/
def execLimpEnter (l : Lane) (s : State) : Out :=
  onLane s l (fun L =>
    let ax := L.limpAxes
    L.when (driving L.belay && ax.any (fun n => !L.bitOf R.belayState_limp_axes n)) (fun L =>
      let os : List Outcome2 := L.outcomes.map (·.1)
      let L := if .lastLane ∈ os then { L with aon := { L.aon with twoFault := true } } else L
      (L.enterLimp ax).mapB (fun B => { B with limpTemp := os.all (fun o => o == .temp || o == .contin) && os != [] })))

/-- The controlled-stop request is raised t_req seconds after the limp entry (R316). -/
def execStopRequest (l : Lane) (s : State) : Out :=
  onLane s l (fun L => match L.belaySt.limpAt, L.belaySt.stopAt with
    | some t, none =>
      L.when (decide (t + L.get R.belayLimp_t_req * 200000000 ≤ L.coarse)) (fun L =>
        L.stopRequest.mapB (fun B => { B with stopAt := some L.coarse }))
    | _, _ => L)

/-- t_hold seconds later the limp timer expires: the limp axes pass to HOLD at the next boundary (R93, R316). -/
def execLimpTimerExpire (l : Lane) (s : State) : Out :=
  onLane s l (fun L => match L.belaySt.stopAt with
    | some t =>
      L.when (decide (t + L.get R.belayLimp_t_hold * 200000000 ≤ L.coarse) && !L.is R.belayReq_hold) (fun L =>
        ((L.setF R.belayReq_hold true).mirror).mapB (fun B => { B with
          holdPend := (List.range 4).filter (fun n => L.bitOf R.belayState_limp_axes n) }))
    | none => L)

/-- A lone ready lane with solo_en enters ACTIVE when no peer has been ready for solo_t ms: it records the two-fault
state, and the limp rule applies (R275). -/
def execSoloStart (l : Lane) (s : State) : Out :=
  onLane s l (fun L =>
    let due := match L.belaySt.aloneSince with
      | some t => decide (t + L.get R.belayStart_solo_t * 200000 ≤ L.coarse)
      | none => false
    L.when (L.belay == bsSync && L.belaySt.ready && L.is R.belayStart_solo_en && due && L.atPeriod &&
        lanes.all (fun y => !participates (L.view y))) (fun L =>
      let L := { L.setBelay bsActive 0 with aon := { L.aon with twoFault := true } }
      let L := lanes.foldl (fun (M : LaneState) y => if y = M.id then M else M.noteFault y.idx .lane [0, 1, 2, 3]) L
      L.enterLimp [0, 1, 2, 3]))

/-! ## Causes and their actions (R273, R288 to R296) -/

/-- A cause with action SUSPECT moves ACTIVE to SUSPECT (R273, R288). -/
def execSuspectEnter (l : Lane) (code : BitVec 8) (s : State) : Out :=
  onLane s l (fun L =>
    L.when (L.belay == bsActive && L.isRaised code.toNat L.id && L.causeAction code.toNat == 1)
      (fun L => L.setBelay bsSuspect code.toNat))

/-- 16 consecutive periods without a cause of action SUSPECT or higher return SUSPECT to ACTIVE (R273). -/
def execSuspectClear (l : Lane) (s : State) : Out :=
  onLane s l (fun L =>
    L.when (L.belay == bsSuspect && !L.belaySt.selfExcluding && decide (16 ≤ L.belaySt.cleanRun) && L.atPeriod)
      (fun L => L.setBelay bsActive 0))

/-- A cause with action self-exclusion takes it (R293). -/
def execSelfExclusion (l : Lane) (code : BitVec 8) (s : State) : Out :=
  onLane s l (fun L =>
    L.when (L.isRaised code.toNat L.id && L.causeAction code.toNat == 2) (fun L => L.selfExclude code.toNat))

/-- A self-excluding lane enters EXCLUDED at the next boundary (R293). -/
def execExcludedEnter (l : Lane) (s : State) : Out :=
  onLane s l (fun L =>
    L.when (L.belaySt.selfExcluding && L.atPeriod) (fun L => L.exclude L.belaySt.requestCause))

/-- The cause that a peer's record gives for the exclusion of this lane, 0 where none does (assumption 40). -/
def LaneState.peersCause (L : LaneState) : Nat :=
  ((lanes.find? (fun y => y != L.id && bit (L.brec y 4) L.id.idx)).map (fun y => bits (L.brec y 4) 15 8)).getD 0

/-- Two votes about this lane classified AGAINST at its own bridge die exclude a driving lane (R273). -/
def execPeerExclusion (l : Lane) (s : State) : Out :=
  onLane s l (fun L =>
    let n := (lanes.filter (fun y => L.voteIn y == voteAgainst)).length
    L.when (driving L.belay && decide (2 ≤ n)) (fun L => L.exclude L.peersCause))

/-- Whether a count of DEV, STATE_DEV or MISS of a lane has reached its limit (R288); with two lanes driving no count
leads to an exclusion (R299). -/
def LaneState.countDue (L : LaneState) (y : Lane) (code : Nat) : Bool :=
  let dn := atLeast1 (L.get R.belayCfg_dev_n)
  let mn := atLeast1 (L.get R.belayCfg_miss_n)
  let hit (m : NMap) (lim : Nat) : Bool := m.any (fun p => p.1 % 3 == y.idx && decide (lim ≤ p.2))
  L.drivingLanes.length != 2 &&
    (if code = 0x01 then hit L.belaySt.dev dn
    else if code = 0x02 then hit L.belaySt.stateDev dn
    else if code = 0x03 then hit L.belaySt.miss mn
    else false)

/-- Whether a peer's link is down and its vote about this lane is ABSTAIN or INVALID: F-LANE of the peer (R292). -/
def LaneState.linkLane (L : LaneState) (y : Lane) : Bool :=
  !L.linkUp (L.id.linkTo y) && (L.voteIn y == voteAbstain || L.voteIn y == voteInvalid)

/-- Whether a peer cause against a lane reaches its action. -/
def LaneState.peerDue (L : LaneState) (y : Lane) (code : Nat) : Bool :=
  L.countDue y code || (code == 0x06 && L.isRaised 0x06 y) || (code == 0x0F && L.linkLane y)

/-- Sets the counts against a lane to 0 (R295). -/
def LaneState.zeroCounts (L : LaneState) (y : Lane) : LaneState :=
  let z (m : NMap) : NMap := m.filter (fun p => p.1 % 3 != y.idx)
  L.mapB (fun B => { B with dev := z B.dev, stateDev := z B.stateDev, miss := z B.miss })

/-- The blind pair is entered (R302). -/
def LaneState.enterBlind (L : LaneState) : LaneState :=
  (((L.setF R.belayState_blind true).flag R.belayStat_blind_evt).mirror)

/-- Classifies a link that is down by its peer's vote: FOR or AGAINST is F-LINK (R292). With three lanes driving, the
later-lettered end excludes itself and the other votes AGAINST it; with only the two ends, they go on as a blind pair
(R302). -/
def LaneState.classifyLink (L : LaneState) (k : Link) : LaneState :=
  let y := L.id.peer k
  let v := L.voteIn y
  if L.linkUp k || L.belaySt.linkClass.get k.idx == 1 || !(v == voteFor || v == voteAgainst) then L
  else
    let L := L.flag (match k with | .l0 => R.ropeStat0_flink_evt | .l1 => R.ropeStat1_flink_evt)
    let L := L.mapB (fun B => { B with linkClass := B.linkClass.set k.idx 1 })
    let drv := L.drivingLanes
    if driving L.belay && drv.length == 3 then
      if y.idx < L.id.idx then (L.raiseOwn 0x0F).selfExclude 0x0F else L.decideAgainst y 0x0F
    else if driving L.belay && drv.length == 2 && y ∈ drv then L.enterBlind
    else L

/-- A peer count or cause, or an own count, reaches its action (R288, R294): a driving lane votes AGAINST the peer. Of
two lanes that would be excluded in one period, only the earlier-lettered is; the counts against the other return to 0
(R295). DEV against itself excludes the lane; LATE makes it SUSPECT or excludes it. -/
def LaneState.causeAct (L : LaneState) (y : Lane) (code : Nat) : LaneState :=
  if y = L.id then
    if code = 0x01 ∧ L.countDue y code then (L.raiseOwn code).selfExclude code
    else if code = 0x04 then
      let worst := L.belaySt.late.foldl (fun m p => max m p.2) 0
      if atLeast1 (L.get R.belayCfg_late_x) ≤ worst then (L.raiseOwn code).selfExclude code
      else if atLeast1 (L.get R.belayCfg_late_s) ≤ worst ∧ L.belay = bsActive then (L.raiseOwn code).setBelay bsSuspect code
      else L
    else L
  else if driving L.belay && L.peerDue y code then
    let earlier := lanes.any (fun z => decide (z.idx < y.idx) &&
      [0x01, 0x02, 0x03].any (fun c => L.countDue z c))
    let other := match L.belaySt.exclNow with
      | some x => x != y.idx
      | none => false
    if driving (L.view y) && (earlier || other) then L.zeroCounts y
    else
      let L := if code = 0x0F then
          (L.setF R.belayState_blind false).mapB (fun B => { B with
            linkClass := B.linkClass.set (L.id.linkTo y).idx 2 })
        else L
      let cls := if code = 0x0F then some FaultClass.lane else L.causeClass code
      let L := L.raise code y
      let L := match cls with
        | some c => L.noteFault y.idx c [0, 1, 2, 3]
        | none => L
      L.decideAgainst y code
  else L

def execExclusionCauseAction (l y : Lane) (code : BitVec 8) (s : State) : Out :=
  onLane s l (fun L => L.causeAct y code.toNat)

/-- Whether a run of periods has lasted BELAY_CFG.dis_t ms. -/
def LaneState.disTime (L : LaneState) (run : Nat) : Bool :=
  decide (atLeast1 (L.get R.belayCfg_dis_t) * 200000 ≤ run * L.tServo)

/-- Several lanes beyond one window for dis_t raise the controlled-stop request (R290). -/
def execDevMulti (l : Lane) (s : State) : Out :=
  onLane s l (fun L => L.when (decide (1 ≤ L.belaySt.multiRun) && L.disTime L.belaySt.multiRun) LaneState.stopRequest)

/-- The own check of an axis fails: CUR_SUM, SPD_X, HALL_POS, TQ_EST or FLUX without its persist count, AMP_FAULT or
QUAD_ERR (R299). -/
def LaneState.ownCheckFails (L : LaneState) (n : Nat) : Bool :=
  (List.range 5).any (fun k => (L.ax n).monRun.get k != 0) || L.fbFlag n 5 || L.fbFlag n 6

/-- With two lanes driving, an own check that fails in 2 consecutive periods of disagreement excludes the lane (R299). -/
def execOwnPlaus (l : Lane) (n : Axis) (s : State) : Out :=
  onLane s l (fun L => L.when (L.drivingLanes.length == 2 && decide (2 ≤ L.belaySt.plausRun.get n))
    (fun L => (L.raiseOwn 0x16).selfExclude 0x16))

/-- Disagreement of two lanes for dis_t raises the controlled-stop request and the limp rule on the axis without a
request delay (R301). -/
def execDisagree2 (l : Lane) (n : Axis) (s : State) : Out :=
  onLane s l (fun L =>
    L.when (driving L.belay && decide (1 ≤ L.belaySt.disRun.get n) && L.disTime (L.belaySt.disRun.get n)) (fun L =>
      let L := L.enterLimp [n.val]
      match L.belaySt.stopAt with
      | some _ => L
      | none => L.stopRequest.mapB (fun B => { B with stopAt := some L.coarse })))

/-! ## Rejoin and service (R303 to R309) -/

/-- What a transfer carries of an axis. -/
def LaneState.axisTransfer (L : LaneState) (n : Nat) : AxisTransfer :=
  { axpState := L.reg (R.axpState n), pendAt := (L.ax n).pendAt, profState := L.reg (R.profState n), prof := L.pr n
    weights := [L.reg (R.axpWgtA n), L.reg (R.axpWgtB n), L.reg (R.axpWgtC n)]
    vHat := (L.fb n).vHat, aHat := (L.fb n).aHat }

/-- The bytes of a loop's state areas: 32 bytes for each section (R199, R203). -/
def LaneState.loopArea (L : LaneState) (e k : Nat) : List Byte :=
  L.bytesFrom (leData e (L.dState e k)) (32 * L.dNsec e k)

/-- What a transfer carries of a loop. -/
def LaneState.loopTransfer (L : LaneState) (e k : Nat) : LoopTransfer :=
  let E := L.le e
  { engine := e, loop := k, area := L.loopArea e k, stat := L.reg (R.leLoopStat e k), inited := decide (k ∈ E.inited)
    fromSet := E.fromSet.get k, fromBank := E.fromBank.get k }

/-- The described loops of a lane. -/
def LaneState.describedLoops (L : LaneState) : List (Nat × Nat) :=
  (List.range 32).filterMap (fun i => if L.described (i / 16) (i % 16) then some (i / 16, i % 16) else none)

/-- The rejoin transfer of a lane at a boundary P_t, to be installed at P_t + k. -/
def LaneState.makeTransfer (L : LaneState) (k : Nat) : Transfer :=
  { sender := L.id, period := L.pnum, k := k, axes := (List.range 4).map L.axisTransfer
    loops := L.describedLoops.map (fun p => L.loopTransfer p.1 p.2) }

/-- The lowest-lettered driving lane sends the transfer to a lane in REJOIN, on the link to it; `d` is its k (R305). -/
def execRejoinTransferSend (l : Lane) (k : Link) (d : BitVec 8) (s : State) : Out :=
  onLane s l (fun L =>
    let y := L.id.peer k
    L.when (driving L.belay && L.drivingLanes.head? == some L.id && L.view y == bsRejoin && L.linkUp k && L.atPeriod &&
        !decide (y.idx ∈ L.belaySt.sent)) (fun L =>
      let L := L.mapLink k (fun K => { K with waiting := K.waiting ++ [⟨rankOther, .transfer (L.makeTransfer d.toNat)⟩] })
      L.mapB (fun B => { B with sent := addTo y.idx B.sent })))

def execRejoinTransferReceived (l : Lane) (k : Link) (crcOk : Bool) (s : State) : Out :=
  match s.arriving (l.peer k) l with
  | .transfer t :: rest =>
    onLane (s.setFlight (l.peer k) l rest) l (fun L => L.ropeFrame k crcOk (fun L =>
      L.when (L.belay == bsRejoin) (fun L => L.mapB (fun B => { B with transfer := some t }))))
  | _ => .next s

/-- A transfer that is not complete within 2 ms returns the lane to SYNC (R305). -/
def execRejoinTransferTimeout (l : Lane) (s : State) : Out :=
  onLane s l (fun L =>
    L.when (L.belay == bsRejoin && L.belaySt.transfer.isNone && decide (L.belaySt.rejoinAt + 400000 ≤ L.coarse))
      (fun L => (L.flag R.belayStat_rej_fail).setBelay bsSync 0))

/-- Installs what a transfer carries of an axis; p_hat is set from the own position, and ESTIMATE starts from the own
current model (R140, R305). -/
def LaneState.installAxis (L : LaneState) (n : Nat) (t : AxisTransfer) : LaneState :=
  let st := bits t.axpState.toNat 2 0
  let L := ((L.setReg (R.axpState n) t.axpState).setSig (axisSig n 0x40) (wordN st)).legsFollow n st
  let L := (L.setReg (R.profState n) t.profState).mapPr n (fun _ => t.prof)
  let L := L.mapAx n (fun A => { A with pendAt := t.pendAt, rampLen := 0, admitRamp := none })
  let L := ((L.setReg (R.axpWgtA n) (t.weights.getD 0 0)).setReg (R.axpWgtB n) (t.weights.getD 1 0)).setReg
    (R.axpWgtC n) (t.weights.getD 2 0)
  let L := (L.obsStart n).mapFb n (fun F => { F with vHat := t.vHat, aHat := t.aHat })
  let pm : Int := L.get (R.fldPm_val n)
  let c := rot (L.fl n).theta pm (L.mutualQ n)
  L.mapFl n (fun X => { X with psiA := c.1, psiB := c.2, psiD := pm, psiQ := 0 })

/-- Installs what a transfer carries of a loop. The state areas have been advanced to P_t + k on the transferred inputs,
which gives the sender's own states at P_t + k: `src` is the sender while it drives (assumption 39). -/
def LaneState.installLoop (L : LaneState) (src : LaneState) (t : LoopTransfer) : LaneState :=
  let t := if driving src.belay then src.loopTransfer t.engine t.loop else t
  let L := (L.storeBytes (leData t.engine (L.dState t.engine t.loop)) t.area).setReg (R.leLoopStat t.engine t.loop) t.stat
  L.mapLe t.engine (fun E => { E with
    inited := if t.inited then addTo t.loop E.inited else dropFrom t.loop E.inited
    fromSet := E.fromSet.set t.loop t.fromSet
    fromBank := E.fromBank.set t.loop t.fromBank })

/-- At P_t + k the lane installs the transfer and enters SHADOW (R305). -/
def execShadowEnter (l : Lane) (s : State) : Out :=
  onLane s l (fun L => match L.belaySt.transfer with
    | some t =>
      L.when (L.belay == bsRejoin && L.pnum == t.period + t.k && L.atPeriod) (fun L =>
        let L := (t.axes.zip (List.range 4)).foldl (fun (M : LaneState) p => M.installAxis p.2 p.1) L
        let L := t.loops.foldl (fun (M : LaneState) u => M.installLoop (s.lane t.sender) u) L
        (L.setBelay bsShadow 0).mapB (fun B => { B with transfer := none, shadowRun := B.shadowRun.set L.id.idx 0 }))
    | none => L)

/-- A lane is admitted at a boundary that is a multiple of 8 after 64 clean SHADOW periods (R306): the driving lanes vote
FOR it, its weight ramps in (R307), and in the lane itself every driving axis runs its start sequence. -/
def execAdmission (l y : Lane) (s : State) : Out :=
  onLane s l (fun L =>
    let due := decide (64 ≤ L.belaySt.shadowRun.get y.idx) && L.pnum % 8 == 0 && L.atPeriod && L.view y == bsShadow
    let ramp (M : LaneState) : LaneState :=
      M.forAxes (fun n N => N.mapAx n (fun A => { A with admitRamp := some (y.idx, 0) }))
    if y = L.id then
      L.when due (fun L =>
        let L := ramp (L.setBelay bsActive 0)
        L.forAxes (fun n M => if M.axDriving n then M.beginStart n else M))
    else
      L.when (due && driving L.belay) (fun L =>
        let L := (L.put (viewField y) bsActive).mapB (fun B => { B with
          against := dropFrom y.idx B.against, requests := dropFrom y.idx B.requests
          faults := B.faults.filter (fun e => e.lane != y.idx) })
        (ramp L).mirror))

/-- After the ramp-out of 16 periods the lane enters SERVICE (R309). -/
def execServiceEnter (l : Lane) (s : State) : Out :=
  onLane s l (fun L => match L.belaySt.serviceAt with
    | some p => L.when (L.belay == bsActive && decide (p + 17 ≤ L.pnum) && L.atPeriod) (fun L => L.setBelay bsService 0)
    | none => L)

/-! ## The Belay record and the watchdog (R277, R278) -/

/-- The Belay record of a lane. -/
def LaneState.belayRecord (L : LaneState) : List Word :=
  let classes := L.ownFaults.foldl (fun l p => addTo p.1.bit l) []
  [ wordN (L.belay + 16 * b2n L.belaySt.ready + 256 * L.get R.belayCause_own + 65536 * (L.pnum % 65536)),
    wordN (L.view .a + 16 * L.view .b + 256 * L.view .c + 4096 * b2n (L.linkUp .l0) + 8192 * b2n (L.linkUp .l1)),
    wordN (L.get R.belayVote_out + 256 * L.get R.belayVote_in + 65536 * L.get R.belayState_ll_armed +
      131072 * L.get R.belayVote_ll_latched),
    wordN ((List.range 4).foldl (fun a n => a + b2n (!decide (n ∈ L.belaySt.fbLost)) * 2 ^ n) 0 +
      256 * classes.foldl (fun a i => a + 2 ^ i) 0),
    wordN (L.belaySt.requests.foldl (fun a i => a + 2 ^ i) 0 + 256 * L.belaySt.requestCause),
    wordN (min 15 L.attemptsNow.length + 65536 * L.compat), 0, 0 ]

/-- The lane queues its record once per period: when the median stage of every armed axis has completed, at the latest
at T_servo − T_tick (R277). -/
def execBelayRecordSend (l : Lane) (s : State) : Out :=
  onLane s l (fun L =>
    let armed := (List.range 4).filter (fun n => L.axis n != axOff)
    let ready := (!armed.isEmpty && armed.all (fun n => (L.ax n).medDone)) || decide (L.nTicks ≤ L.tickIdx + 1)
    L.when (!L.belaySt.recSent && ready) (fun L =>
      (L.publish rankBelay 0x40 L.belayRecord).mapB (fun B => { B with recSent := true })))

/-- The exclusion requests of a record: the peer's own one, and one about the third lane where an own count against it
is not 0 (R294). A lane in SHADOW or REJOIN that every driving lane requests is excluded (R273). -/
def LaneState.takeRequests (L : LaneState) (y : Lane) : LaneState :=
  let w := L.brec y 4
  let counts (z : Lane) : Bool :=
    [L.belaySt.dev, L.belaySt.stateDev, L.belaySt.miss].any (fun m => m.any (fun p => p.1 % 3 == z.idx && p.2 != 0))
  let L := if driving L.belay && bit w y.idx then L.decideAgainst y (bits w 15 8) else L
  let z := Lane.ofIdx (3 - L.id.idx - y.idx)
  let L := if driving L.belay && bit w z.idx && counts z then L.decideAgainst z (bits w 15 8) else L
  let drv := L.drivingLanes
  if (L.belay == bsShadow || L.belay == bsRejoin) && !drv.isEmpty && drv.all (fun x => bit (L.brec x 4) L.id.idx) then
    L.exclude (bits w 15 8)
  else L

/-- A peer's Belay record, already in signal memory, updates the views, the requests and the ready lanes (R275, R277). -/
def LaneState.takeBelay (L : LaneState) (y : Lane) : LaneState :=
  let L := L.mapB (fun B => { B with recSeen := addTo y.idx B.recSeen })
  (L.refreshViews.takeRequests y).noteReady

/-- A write of BELAY_KICK: 0x5EED restarts the watchdog (R278). -/
def LaneState.wBelayKick (L : LaneState) (w : Word) : LaneState :=
  if bits w.toNat 15 0 = 0x5EED then L.mapB (fun B => { B with wdg := 0 }) else L

def execBelayKick (l : Lane) (q : Req) (w : Word) (s : State) : Out :=
  onLane s l (fun L => L.guardW q R.belayKick w (fun L => L.wBelayKick w))

/-- A missed deadline of the watchdog raises WDG (R278). -/
def execWdg (l : Lane) (s : State) : Out :=
  onLane s l (fun L =>
    let p := L.get R.belayWdg_period
    L.when (p != 0 && decide (p ≤ L.belaySt.wdg)) (fun L =>
      ((L.flag R.belayStat_wdg).raiseOwn 0x0E).mapB (fun B => { B with wdg := 0 })))

/-! ## Vote reports (R286) -/

/-- The bridge die reports its classes, the enable and the latch; the links show whether their peers are alive, and
links that are down are classified (R286, R292). -/
def execVoteReport (l : Lane) (s : State) : Out :=
  onLane s l (fun L =>
    let L := L.put R.belayVote_in (lanes.foldl (fun a y => a + L.gateCls y * 4 ^ y.idx) 0)
    let L := L.setF R.belayVote_ena (L.is R.brgStat_ena)
    let L := L.flagIf (L.gate.latched && !L.is R.belayVote_ll_latched) R.belayStat_ll_latch_evt
    let L := L.setF R.belayVote_ll_latched L.gate.latched
    let alive (k : Link) : Bool := let v := L.voteIn (L.id.peer k); v == voteFor || v == voteAgainst
    let L := (L.setF R.ropeStat0_peer_alive (alive .l0)).setF R.ropeStat1_peer_alive (alive .l1)
    (L.classifyLink .l0).classifyLink .l1)

/-- A driven vote of a peer that differs from its class for 3 consecutive periods raises VOTE_LINE (R286). -/
def execVoteLine (l y : Lane) (s : State) : Out :=
  onLane s l (fun L => L.when (decide (3 ≤ L.belaySt.voteDiff.get y.idx) && y != L.id)
    (fun L => (L.flag R.belayStat_vote_mismatch).raiseOwn 0x17))

/-! ## Commands of BELAY_CMD (R288, R308, R309) -/

/-- ENTER_SERVICE is accepted while all lanes are ACTIVE, no axis is in LIMP and disagree_2 is clear (R309). -/
def LaneState.enterService (L : LaneState) : LaneState :=
  if lanes.all (fun y => L.view y == bsActive) && (List.range 4).all (fun n => L.axis n != axLimp) &&
      !L.is R.belayStat_disagree_2 then
    L.mapB (fun B => { B with serviceAt := some L.pnum })
  else L.flag R.belayStat_cmd_refused

/-- A write of BELAY_CMD by a master of an op other than REVIVE; clr_cnt clears BELAY_CNT.excl. -/
def LaneState.belayOp (L : LaneState) (op : Nat) : LaneState :=
  if op = 1 then L.enterService
  else if op = 2 then
    if L.belay = bsService then L.mapB (fun B => { B with leaving := true }) else L.flag R.belayStat_cmd_refused
  else if op = 3 then (L.raiseOwn 0x18).selfExclude 0x18
  else L

def execEnterService (l : Lane) (q : Req) (s : State) : Out :=
  onLane s l (fun L => L.guardW q R.belayCmd 1 (fun L => L.belayOp 1))

def execLeaveService (l : Lane) (q : Req) (s : State) : Out :=
  onLane s l (fun L => L.guardW q R.belayCmd 2 (fun L => L.belayOp 2))

def execSelfExclude (l : Lane) (q : Req) (s : State) : Out :=
  onLane s l (fun L => L.guardW q R.belayCmd 3 (fun L => L.belayOp 3))

def execBelayClrCnt (l : Lane) (q : Req) (s : State) : Out :=
  onLane s l (fun L => L.guardW q R.belayCmd 0x100 (fun L => L.put R.belayCnt_excl 0))

/-! ## The Belay at a period boundary -/

/-- What the Belay does at every period boundary, with the causes of the period that ends: the runs of SUSPECT, SHADOW,
two-lane and vote checks, the watchdog, the faults, the pending axis transitions and SERVICE (R93, R273, R278, R285,
R286, R299, R306, R309, R316). -/
def LaneState.belayPeriod (L : LaneState) : LaneState :=
  let B0 := L.belaySt
  let late := B0.late.any (fun p => decide (atLeast1 (L.get R.belayCfg_late_s) ≤ p.2))
  let dirty := late || B0.raised.any (fun p => p.2 == L.id && (L.causeAction p.1 == 1 || L.causeAction p.1 == 2))
  let dev (y : Lane) : Bool := B0.dev.any (fun p => p.1 % 3 == y.idx && p.2 != 0)
  let two := L.drivingLanes.length == 2
  let L := L.mapB (fun B => { B with
    cleanRun := if dirty then 0 else B.cleanRun + 1
    shadowRun := lanes.foldl (fun (m : NMap) y =>
      m.set y.idx (if L.view y == bsShadow && !dev y then m.get y.idx + 1 else 0)) B.shadowRun
    multiRun := if B.multiNow then B.multiRun + 1 else 0
    multiNow := false
    plausRun := (List.range 4).foldl (fun (m : NMap) n =>
      m.set n (if two && decide (n ∈ B.apartNow) && L.ownCheckFails n then m.get n + 1 else 0)) B.plausRun
    voteDiff := lanes.foldl (fun (m : NMap) y =>
      m.set y.idx (if y != L.id && L.linkUp (L.id.linkTo y) && decide (y.idx ∈ B.recSeen) &&
          bits (L.brec y 2) (2 * L.id.idx + 1) (2 * L.id.idx) != L.voteIn y then m.get y.idx + 1 else 0)) B.voteDiff
    sent := B.sent.filter (fun i => L.view (Lane.ofIdx i) == bsRejoin)
    wdg := B.wdg + 1
    exclNow := none
    recSent := false })
  let L := L.refreshViews.assess
  let L := L.mapB (fun B => { B with raised := [], monClass := none })
  let L := if L.belaySt.limpTemp && L.limpAxes.isEmpty then
      (((L.put R.belayState_limp_axes 0).setReg R.belayReq 0).mapB (fun B => { B with
        limpTemp := false, limpAt := none, stopAt := none, limpPend := [], holdPend := [] })).mirror
    else L
  let L := L.belaySt.limpPend.foldl (fun (M : LaneState) n =>
    if M.axis n = axDrive ∨ M.axis n = axHold then (M.setAxis n axLimp).markHigher n else M) L
  let L := L.belaySt.holdPend.foldl (fun (M : LaneState) n =>
    if M.axis n = axLimp then ((M.setAxis n axHold).profHold n).markHigher n else M) L
  let L := L.mapB (fun B => { B with limpPend := [], holdPend := [] })
  let secs (t : Nat) : Nat := satU 16 ((t - L.coarse + 199999999) / 200000000)
  let left := match L.belaySt.limpAt, L.belaySt.stopAt with
    | some t, none => secs (t + L.get R.belayLimp_t_req * 200000000)
    | some _, some t => if L.is R.belayReq_hold then 0 else secs (t + L.get R.belayLimp_t_hold * 200000000)
    | none, _ => 0
  let L := (L.put R.belayReq_t_left left).put R.belayCnt_attempts (min 15 L.attemptsNow.length)
  let L := if L.belay == bsService && (L.belaySt.leaving ||
      lanes.any (fun y => y != L.id && !driving (L.view y))) then L.bistAbort.enterRejoin else L
  L.noteReady.driveVotes

end Sys2Proof.Machine
end

