-- ==== Sys2Proof/Machine/Edge.lean ====
section
/-! DEFINITION. The edge generator: units, timebases, compares, pulses, delay line, halt state (chapter 7, R215 to
R240). -/

namespace Sys2Proof.Machine

/-- The compare value "none" (R220). -/
def cmpNone : Nat := 0x3FFFFF

/-- The mode of a unit (R217). -/
def LaneState.euMode (L : LaneState) (u : Nat) : Nat := L.get (R.edgeEuCfg_mode u)

/-- Modes of R217. -/
def euOff : Nat := 0
def euField : Nat := 1
def euPwm : Nat := 2
def euPulse : Nat := 3
def euStatic : Nat := 4

/-- The timebase of a unit: leg units in FIELD mode always use TB_F (R219). -/
def LaneState.euTb (L : LaneState) (u : Nat) : Nat := if L.euMode u = euField then 3 else L.get (R.edgeEuCfg_tb u)

/-- The active compares of a unit: those loaded for the tick in FIELD mode, else those of the last reload (R227,
R228). -/
def LaneState.activeCmp (L : LaneState) (u : Nat) (off : Bool) : Nat :=
  if L.euMode u = euField then L.get (if off then R.edgeEuOff_cmp u else R.edgeEuOn_cmp u)
  else Sparse.get cmpNone (if off then L.edge.actOff else L.edge.actOn) u

/-- A timebase's active period in fine steps: the field tick, or coarse ticks of at least 20 (R219). -/
def LaneState.tbFine (L : LaneState) (tb : Nat) : Nat :=
  if tb = 3 then 64 * L.tTick else 64 * max 20 (L.edge.tbPeriod.get tb)

/-- Whether a timebase has boundaries: TB_F always, TB_n from its first boundary on while its en is set (R219). -/
def LaneState.tbRuns (L : LaneState) (tb : Nat) : Bool :=
  decide (tb = 3) || (decide (tb ∈ L.edge.tbRun) &&
    (if tb = 0 then L.is R.edgeTb0_en else if tb = 1 then L.is R.edgeTb1_en else L.is R.edgeTb2_en))

/-- Sets the output of a unit: 0 OFF or inactive, 1 LOW, 2 HIGH or active. -/
def LaneState.euOut (L : LaneState) (u out : Nat) : LaneState := L.put (R.edgeEuLvl_out u) out

/-! ## Compares under FIELD -/

/-- The ON and OFF compares of a leg in a sequence of vectors from the vector in force (R223). -/
def legCompares (leg : Nat) : Bool → List (Nat × Nat) → Nat × Nat
  | _, [] => (cmpNone, cmpNone)
  | b, (t, v) :: rest =>
    let r := legCompares leg (bit v leg) rest
    if bit v leg && !b then (t, r.2) else if b && !bit v leg then (r.1, t) else r

/-- The EDGE stage loads the legs of an axis from FIELD's sequence (R223). `done` is the fine step of the tick at which
the load completes; an instant before it is late (R224). Legs that were OFF take the vector in force (assumption 25). -/
def execEdgeLoad (l : Lane) (n : Axis) (done : BitVec 22) (s : State) : Out :=
  onLane s l (fun L =>
    match (L.fl n).seq with
    | none => L
    | some seq =>
      L.when (L.regulates n && L.is R.edgeStat_cal_done && !L.is R.edgeStat_halt && !L.edge.releasing) (fun L =>
        let vec := (L.fl n).vec
        let L := L.flagIf (seq.any (fun p => decide (p.1 < done.toNat))) R.edgeStat_late_edge
        let L := { L with edge := { L.edge with
          loaded := addTo n.val L.edge.loaded
          loadDone := L.edge.loadDone.set n done.toNat
          fired := L.edge.fired.filter (fun i => i / 2 / 3 != n.val)
          held := L.edge.held.filter (fun u => u / 3 != n.val) } }
        [0, 1, 2].foldl (fun M leg =>
          let u := 3 * n.val + leg
          if M.euMode u = euField then
            let c := legCompares leg (bit vec leg) seq
            let M := (M.put (R.edgeEuOn_cmp u) c.1).put (R.edgeEuOff_cmp u) c.2
            if M.get (R.edgeEuLvl_out u) == 0 then M.euOut u (if bit vec leg then 2 else 1) else M
          else M) L))

/-- A commanded edge of a leg goes to the EDGE_DEV check with its instant in lane time (R222). -/
def LaneState.commanded (L : LaneState) (u : Nat) (up : Bool) (t : Nat) : LaneState :=
  let stamp := L.coarse / L.tTick * L.tTick * 64 + t
  L.mapFl (u / 3) (fun X => { X with cmd := X.cmd ++ [⟨u % 3, up, stamp⟩] })

/-- An ON or OFF compare fires, once per timebase period: a value at or beyond the period never fires, and OFF wins at
the same fine step (R220, R221). An instant that lay before its load fires at the first fine step after it (R224). -/
def execEdgeCompareFire (l : Lane) (u : Fin 16) (off : Bool) (s : State) : Out :=
  onLane s l (fun L =>
    let m := L.euMode u
    let n := u.val / 3
    let c := L.activeCmp u off
    let key := 2 * u.val + b2n off
    let live := if m = euField then decide (n ∈ L.edge.loaded) && L.regulates n
      else m == euPwm && L.tbRuns (L.euTb u) && L.is R.edgeStat_cal_done
    L.when (live && decide (c < L.tbFine (L.euTb u)) && !decide (key ∈ L.edge.fired) &&
        !L.is R.edgeStat_halt && !decide (u.val ∈ L.edge.held)) (fun L =>
      let L := { L with edge := { L.edge with fired := addTo key L.edge.fired } }
      if !off && L.activeCmp u true == c then L
      else
        let done := L.edge.loadDone.get n
        let L := if m = euField then L.commanded u (!off) (if c < done then done + 1 else c) else L
        L.euOut u (if off then (if u.val < 12 then 1 else 0) else 2)))

/-! ## Timebases, shadows and holds -/

/-- The register fields of a timebase. -/
def tbPeriodF (tb : Nat) : RF :=
  if tb = 0 then R.edgeTb0_period else if tb = 1 then R.edgeTb1_period else R.edgeTb2_period
def tbEnF (tb : Nat) : RF := if tb = 0 then R.edgeTb0_en else if tb = 1 then R.edgeTb1_en else R.edgeTb2_en

/-- Flags late writes or releases of units (bits 0 to 15) and timebases (bits 16 to 18) (R228, R229). -/
def LaneState.lateWrites (L : LaneState) (mask : Nat) : LaneState :=
  if mask = 0 then L
  else L.setReg R.edgeLate (wordN ((L.reg R.edgeLate).toNat ||| mask)) |>.flag R.edgeStat_late_write

/-- The bits of the units on a timebase, and of the timebase itself. -/
def LaneState.tbMask (L : LaneState) (tb : Nat) : Nat :=
  ((List.range 16).filter (fun u => L.euTb u == tb)).foldl (fun a u => a + 2 ^ u) 0 +
    (if tb < 3 then 2 ^ (16 + tb) else 0)

/-- The reload of the units on a timebase from their shadows (R228). -/
def LaneState.reloadUnits (L : LaneState) (tb : Nat) : LaneState :=
  (List.range 16).foldl (fun M u =>
    if M.euTb u == tb && M.euMode u == euPwm then
      let E := M.edge
      let E := { E with
        fired := E.fired.filter (fun i => i / 2 != u)
        held := if M.is R.edgeStat_halt || E.releasing then E.held else dropFrom u E.held }
      let E := if M.bitOf R.edgeUpdHold_unit u then E
        else { E with
          actOn := Sparse.set (fun _ => cmpNone) E.actOn u (M.get (R.edgeEuOn_cmp u))
          actOff := Sparse.set (fun _ => cmpNone) E.actOff u (M.get (R.edgeEuOff_cmp u)) }
      { M with edge := E }
    else M) L

/-- A timebase boundary: the reload of shadow compares and of the shadow period. The first boundary of TB_n falls on a
servo-period boundary; none starts before cal_done. `late` names the units and timebases for which a write reaches the
island in this reload cycle: it stays in the shadow and is flagged (R219, R228, R237). -/
def execTimebaseBoundary (l : Lane) (tb : Fin 4) (late : BitVec 19) (s : State) : Out :=
  onLane s l (fun L =>
    let starts := decide (tb.val ∈ L.edge.tbRun) || L.coarse % L.tServo == 0
    L.when (L.is R.edgeStat_cal_done && (decide (tb.val = 3) || (L.is (tbEnF tb) && starts))) (fun L =>
      let L := if tb.val = 3 then L else
        let L := { L with edge := { L.edge with tbRun := addTo tb.val L.edge.tbRun } }
        if L.bitOf R.edgeUpdHold_tb tb then L
        else { L with edge := { L.edge with tbPeriod := L.edge.tbPeriod.set tb (L.get (tbPeriodF tb)) } }
      (L.reloadUnits tb).lateWrites (late.toNat &&& L.tbMask tb)))

/-- A write of EDGE_UPD_HOLD holds or releases reloads. A release that reaches the island in the reload cycle of a
timebase (`inReload`) loads at the following reload and flags the released units of that timebase (R229). -/
def execEdgeUpdHoldWrite (l : Lane) (q : Req) (w : Word) (inReload : Option (Fin 4)) (s : State) : Out :=
  onLane s l (fun L => L.guardW q R.edgeUpdHold w (fun L =>
    let old := (L.reg R.edgeUpdHold).toNat
    let released := old &&& (old ^^^ (w.toNat &&& old))
    let L := L.busWrite q.secure R.edgeUpdHold w
    match inReload with
    | none => L
    | some tb => L.lateWrites (released &&& L.tbMask tb)))

/-- A write of EDGE_TBn: a timebase that is disabled has no boundaries and starts anew when enabled (R219). -/
def LaneState.wEdgeTb (L : LaneState) (q : Req) (tb : Nat) (w : Word) : LaneState :=
  let L := L.busWrite q.secure (tbEnF tb).addr w
  if L.is (tbEnF tb) then L else { L with edge := { L.edge with tbRun := dropFrom tb L.edge.tbRun } }

/-! ## Unit registers -/

/-- Whether a unit accepts a mode (R217). -/
def modeAllowed (u m : Nat) : Bool :=
  m == euOff || (m == euField && u < 12) || (m == euPwm && 12 ≤ u && u < 16) ||
    ((m == euPulse || m == euStatic) && 13 ≤ u && u < 16)

/-- The output of a unit that enters a mode: FIELD legs follow their axis, PWM holds its state, STATIC takes its level,
OFF and PULSE are inactive. -/
def LaneState.enterMode (L : LaneState) (u : Nat) : LaneState :=
  if u ∈ L.edge.held then L
  else
    let m := L.euMode u
    if m = euField then L.legsFollow (u / 3) (L.axis (u / 3))
    else if m = euPwm then L
    else if m = euStatic then L.euOut u (if L.is (R.edgeEuLvl_lvl u) then 2 else 0)
    else L.euOut u 0

/-- A write of EDGE_EUn_CFG: ignored with mode_refused for a mode that the unit does not accept (R217). -/
def LaneState.wEdgeCfg (L : LaneState) (q : Req) (u : Nat) (w : Word) : LaneState :=
  if modeAllowed u (bits w.toNat 2 0) then
    let old := L.euMode u
    let L := L.busWrite q.secure (R.edgeEuCfg u) w
    if L.euMode u = old then L else L.enterMode u
  else L.flag R.edgeStat_mode_refused

def execEdgeModeWrite (l : Lane) (q : Req) (u : Fin 16) (w : Word) (s : State) : Out :=
  onLane s l (fun L => L.guardW q (R.edgeEuCfg u) w (fun L => L.wEdgeCfg q u w))

/-- A write of EDGE_EUn_ON or EDGE_EUn_OFF: a FIELD unit ignores it (R227). -/
def LaneState.wEdgeCmp (L : LaneState) (q : Req) (u : Nat) (off : Bool) (w : Word) : LaneState :=
  if L.euMode u = euField then L else L.busWrite q.secure (if off then R.edgeEuOff u else R.edgeEuOn u) w

/-- A write of EDGE_EUn_LVL: a STATIC unit's output takes the level (R232). -/
def LaneState.wEdgeLvl (L : LaneState) (q : Req) (u : Nat) (w : Word) : LaneState :=
  let L := L.busWrite q.secure (R.edgeEuLvl u) w
  if L.euMode u = euStatic then L.enterMode u else L

def execEdgeLvlWrite (l : Lane) (q : Req) (u : Fin 16) (w : Word) (s : State) : Out :=
  onLane s l (fun L => L.guardW q (R.edgeEuLvl u) w (fun L => L.wEdgeLvl q u w))

/-- The level at the ball of AUX_0 to AUX_2 (EU_13 to EU_15): inverted by inv, forced low by the loss of the edge clock
(R232, R239). -/
def LaneState.auxLevel (L : LaneState) (u : Nat) : Bool :=
  !L.edge.forcedLow && (L.get (R.edgeEuLvl_out u) == 2) != L.is (R.edgeEuCfg_inv u)

/-! ## Pulses (R231) -/

/-- A PULSE unit goes active T_tick + 750 ns after a compare hit; a pulse that would start while the previous one is
active is dropped, and so is one during the halt (R231, R238). -/
def execPulseStart (l : Lane) (u : Fin 16) (s : State) : Out :=
  onLane s l (fun L =>
    match L.edge.pulseReq.find? (fun p => p.1 == u.val) with
    | none => L
    | some p =>
      let L := { L with edge := { L.edge with pulseReq := L.edge.pulseReq.erase p } }
      if L.euMode u ≠ euPulse ∨ L.is R.edgeStat_halt ∨ u.val ∈ L.edge.held then L
      else if p.2 < L.edge.pulseEnd.get u then L.flag R.edgeStat_pulse_ovr
      else
        let L := { L with edge := { L.edge with
          pulseEnd := L.edge.pulseEnd.set u (p.2 + 64 * atLeast1 (L.get (R.edgeEuCfg_width u))) } }
        L.euOut u 2)

/-- A PULSE unit goes inactive width coarse ticks after it went active (R231). -/
def execPulseEnd (l : Lane) (u : Fin 16) (s : State) : Out :=
  onLane s l (fun L => L.when (L.euMode u == euPulse && L.get (R.edgeEuLvl_out u) == 2) (fun L => L.euOut u 0))

/-! ## The halt state (R238) -/

/-- Whether EDGE is to be in its halt state: a frozen pipeline, or a halted core of the triad with halt_core. -/
def LaneState.haltCause (L : LaneState) : Bool :=
  L.triad.frozen || (L.is R.edgeCtl_halt_core && L.triad.halted.any (fun c => c < 3))

/-- The halt state takes the legs of a driving or braking axis to its safe level and every other unit to its inactive
level (R238). -/
def execEdgeHaltEnter (l : Lane) (s : State) : Out :=
  onLane s l (fun L =>
    L.when (L.haltCause && !L.is R.edgeStat_halt) (fun L =>
      let L := (List.range 16).foldl (fun M u =>
        let n := u / 3
        if u < 12 && (M.axDriving n || M.axis n == axAsc) then M.euOut u (if M.is (R.axpCfg_safe n) then 1 else 0)
        else M.euOut u 0) L
      let L := { L with edge := { L.edge with
        held := List.range 16, loaded := [], pulseReq := [], releasing := false } }
      L.flag R.edgeStat_halt))

/-- The halt is released: every unit resumes from the next field-tick boundary (R238). -/
def execEdgeHaltRelease (l : Lane) (s : State) : Out :=
  onLane s l (fun L =>
    L.when (L.is R.edgeStat_halt && !L.haltCause) (fun L =>
      { L.setF R.edgeStat_halt false with edge := { L.edge with releasing := true } }))

/-- What EDGE does at a field-tick boundary: the legs' compares of the last tick are void (R226), a released halt ends
for the units that are not PWM and not driven by FIELD (R238), and new tap tables take effect (R236). -/
def LaneState.edgeTick (L : LaneState) : LaneState :=
  let E := L.edge
  let L : LaneState := { L with edge := { E with loaded := [], fired := E.fired.filter (fun i => L.euMode (i / 2) != euField) } }
  let L := if !E.releasing then L else
    let L := { L with edge := { L.edge with releasing := false } }
    (List.range 16).foldl (fun M u =>
      let n := u / 3
      let waits := M.euMode u == euPwm || (M.euMode u == euField && M.axDriving n)
      if waits then M else ({ M with edge := { M.edge with held := dropFrom u M.edge.held } }).enterMode u) L
  E.newTab.foldl (fun (M : LaneState) (p : Nat × Nat) =>
    let tab := 1 - M.get (R.edgeDlStat_table p.1)
    let M := { M with edge := { M.edge with
      newTab := [], tabN16 := Sparse.set (fun _ => 1648) M.edge.tabN16 (2 * p.1 + tab) p.2 } }
    ((M.put (R.edgeDlStat_table p.1) tab).put (R.edgeDlStat_n16 p.1) p.2).put (R.edgeDlStat_age p.1) 0) L

/-- What EDGE does at a servo-period boundary: the age of every group's table (R236). -/
def LaneState.edgePeriod (L : LaneState) : LaneState :=
  (List.range 4).foldl (fun M g => M.count (R.edgeDlStat_age g)) L

/-! ## Delay line (R233 to R237) -/

/-- Entry f of a tap table built from N16 (R235). -/
def tapOf (n16 f : Nat) : Nat := (f * n16 + 512) / 1024

/-- Whether N16 lies within the limits of EDGE_DL_LIM (R235). -/
def LaneState.n16Ok (L : LaneState) (n16 : Nat) : Bool :=
  decide (16 * L.get R.edgeDlLim_lo ≤ n16 ∧ n16 ≤ 16 * L.get R.edgeDlLim_hi)

/-- DLCAL: 16 measurement steps give N16, and the build step checks it and builds the inactive table (R235). -/
def execDlcal (l : Lane) (j : Fin 16) (n16 : BitVec 12) (s : State) : Out :=
  onLane s l (fun L => L.skimRun j jkDlcal (fun L =>
    let g := L.get (R.skimJobCfg_target j) % 4
    let old := L.get (R.edgeDlStat_n16 g)
    let d : Int := (n16.toNat : Int) - old
    let value := n16.toNat + 4096 * wrapTo 12 (satS 12 d)
    if !L.n16Ok n16.toNat then (L.flag R.edgeStat_dl_fail).skimEnd j 1 value
    else if L.get R.edgeDlLim_step < d.natAbs then (L.flag R.edgeStat_dl_jump).skimEnd j 1 value
    else
      let L := { L with edge := { L.edge with
        newTab := L.edge.newTab.filter (fun (p : Nat × Nat) => p.1 != g) ++ [(g, n16.toNat)] } }
      L.skimEnd j 0 value))

/-- A write of EDGE_LOCK: the key locks the block and starts the foreground calibration (R237). -/
def LaneState.wEdgeLock (L : LaneState) (w : Word) : LaneState :=
  if bits w.toNat 15 0 = 0xC1A5 ∧ !L.locked R.edgeLock then
    { L with locks := addTo R.edgeLock L.locks, edge := { L.edge with calRunning := true } }
  else L

def execEdgeLock (l : Lane) (q : Req) (w : Word) (s : State) : Out :=
  onLane s l (fun L => L.guardW q R.edgeLock w (fun L => L.wEdgeLock w))

/-- The lock-time calibration completes: a group within the limits takes its new table, any other keeps its reset table
and dl_fail is set; cal_done is set where all pass (R237). -/
def execEdgeCalComplete (l : Lane) (n0 n1 n2 n3 : BitVec 12) (s : State) : Out :=
  onLane s l (fun L => L.when L.edge.calRunning (fun L =>
    let L := { L with edge := { L.edge with calRunning := false } }
    let ns := [n0.toNat, n1.toNat, n2.toNat, n3.toNat]
    let L := [0, 1, 2, 3].foldl (fun (M : LaneState) g =>
      let n16 := ns.getD g 0
      if M.n16Ok n16 then { M with edge := { M.edge with newTab := M.edge.newTab ++ [(g, n16)] } }
      else M.flag R.edgeStat_dl_fail) L
    if ns.all (fun n => L.n16Ok n) then L.setF R.edgeStat_cal_done true else L))

/-- The age of a group exceeds EDGE_DL_AGE: dl_stale is set and the stale table stays in use (R236). -/
def execDlStale (l : Lane) (g : Fin 4) (s : State) : Out :=
  onLane s l (fun L =>
    L.when (decide (L.get R.edgeDlAge_age < L.get (R.edgeDlStat_age g.val))) (fun L => L.flag R.edgeStat_dl_stale))

end Sys2Proof.Machine
end

