-- ==== Sys2Proof/Machine/Bridge.lean ====
section
/-! DEFINITION. The bridge die: gates, bootstraps, current protection, chopper, trips (chapter 8, R241 to R271, R603). -/

namespace Sys2Proof.Machine

/-! ## Gate wires -/

/-- Whether GATE holds every gate-wire request low: the lane neither ACTIVE nor SUSPECT, excluding itself, or without
its edge clock (R61, R239). -/
def LaneState.gateHeld (L : LaneState) : Bool :=
  !driving L.belay || L.belaySt.selfExcluding || L.edge.forcedLow

/-- The level that the lane die puts on a gate wire: a leg unit in HIGH or LOW drives one of its two wires (R216); while
braking is requested the chopper wire follows EU_12, with 100 % in OFF mode and in the halt state (R230, R238). -/
def LaneState.wireLevel (L : LaneState) (g : Nat) : Bool :=
  if L.gateHeld then false
  else if g < 24 then L.get (R.edgeEuLvl_out (g / 2)) == 1 + g % 2
  else L.is R.brgStat_chop_req && (L.euMode 12 == euOff || L.is R.edgeStat_halt || L.get (R.edgeEuLvl_out 12) == 2)

/-- A gate-wire edge reaches the bridge die: a turn-off starts, or a turn-on waits under break-before-make. `together`:
the other request of the leg rose within the same cycle of 10 ns; with both switches off, neither turns on and ILK is
raised (R247, R249). -/
def execGateWireEdge (l : Lane) (g : Fin 25) (together : Bool) (s : State) : Out :=
  onLane s l (fun L =>
    let up := L.wireLevel g
    L.when (up != decide (g.val ∈ L.bridge.wire)) (fun L =>
      let B := L.bridge
      let L := { L with bridge := { B with wire := if up then addTo g.val B.wire else dropFrom g.val B.wire } }
      let leg := g.val / 2
      let both := g.val < 24 && up && together && L.gateReq g && L.gateReq (gateMate g) &&
        !decide (g.val ∈ B.on) && !decide (gateMate g ∈ B.on) && !L.bitOf R.brgIlk_leg leg
      if both && !decide (leg ∈ B.ilkHold) then
        let L := { L with bridge := { L.bridge with ilkHold := addTo leg L.bridge.ilkHold } }
        let L := ((L.setBit R.brgIlk_leg leg true).flag R.brgEvt_interlock).count R.brgCnt_ilk
        L.pulseTrip (16 + leg / 3)
      else L.driveGates))

/-- A waiting turn-on starts once the other switch of the leg is confirmed off and dead_min has passed (R247). -/
def execTurnOnStart (l : Lane) (g : Fin 25) (s : State) : Out :=
  onLane s l (fun L =>
    let B := L.bridge
    let mate := gateMate g
    L.when (decide (g.val ∈ B.waiting) && (g.val == 24 || !decide (mate ∈ B.on))) (fun L =>
      { L with bridge := { B with
        waiting := dropFrom g.val B.waiting
        on := addTo g.val B.on
        phase := B.phase.set g 1
        unconf := addTo g.val (if g.val = 24 then B.unconf else dropFrom mate B.unconf)
        soft := dropFrom g.val B.soft } }))

/-- The prime phase of a transition ends and its float phase begins (R244). -/
def execGatePrimeEnd (l : Lane) (g : Fin 25) (s : State) : Out :=
  onLane s l (fun L =>
    L.when (L.bridge.phase.get g == 1) (fun L =>
      { L with bridge := { L.bridge with phase := L.bridge.phase.set g 2 } }))

/-- The profile fields adapt and margin of a gate and direction. -/
def LaneState.primeAdapt (L : LaneState) (g : Nat) (on : Bool) : Bool :=
  g != 24 && (if on then L.is (R.brgPon_adapt (g / 6)) else L.is (R.brgPoff_adapt (g / 6)))
def LaneState.primeMargin (L : LaneState) (g : Nat) (on : Bool) : Nat :=
  5 * ((if on then L.get (R.brgPon_margin (g / 6)) else L.get (R.brgPoff_margin (g / 6))) + 1)

/-- The next prime code from t_pa in ns; none: no crossing of v_pl before float ended (R245). -/
def nextPrime (code margin : Nat) (tPa : Option Nat) : Int :=
  let prime := 10 + 5 * code
  match tPa with
  | none => code + 1
  | some t => if t < prime then (code : Int) - 1 else if prime + margin < t then code + 1 else code

/-- Float ends, at confirmation or after its time: set begins, and the prime code adapts to t_pa (R244, R245). A code
that the update brings to 0 or 126 sets prime_lim (assumption 31). -/
def execGateFloatEnd (l : Lane) (g : Fin 25) (confirmed : Bool) (tPa : Option (BitVec 16)) (s : State) : Out :=
  onLane s l (fun L =>
    L.when (L.bridge.phase.get g == 2) (fun L =>
      let on := decide (g.val ∈ L.bridge.on)
      let L := { L with bridge := { L.bridge with
        phase := L.bridge.phase.set g 0
        unconf := if confirmed then dropFrom g.val L.bridge.unconf else L.bridge.unconf
        soft := if confirmed then dropFrom g.val L.bridge.soft else L.bridge.soft } }
      let t := tPa.map BitVec.toNat
      let L := match on, t with
        | true, some t => L.put (R.brgPrime_t_pa g) (satU 8 t)
        | _, _ => L
      if L.primeAdapt g on then
        let f := if on then R.brgPrime_on g else R.brgPrime_off g
        let old := L.get f
        let raw := nextPrime old (L.primeMargin g on) t
        let new := (clampI 0 126 raw).toNat
        (L.put f new).flagIf (decide (raw ≠ old) && (new == 0 || new == 126)) R.brgEvt_prime_lim
      else L))

/-- Gate watch: a transition is not confirmed in 2 µs, or a confirmed gate drifts for more than 100 ns (R248). -/
def execGateWatchFault (l : Lane) (g : Fin 25) (s : State) : Out :=
  onLane s l (fun L => (L.put R.brgEvt_gw_gate g).pulseTrip (if g.val = 24 then 24 else 20 + g.val / 6))

/-- A write of BRG_OVR_EN: en = 1 is refused outside MAKER and INSTALL (R250). -/
def LaneState.wBrgOvrEn (L : LaneState) (q : Req) (w : Word) : LaneState :=
  let lc := L.get R.lcsState_lc
  if bit w.toNat 0 && lc != 1 && lc != 2 then L.flag R.brgEvt_ovr_refused
  else
    let L := L.busWrite q.secure R.brgOvrEn w
    (L.setF R.brgStat_ovr (L.is R.brgOvrEn_en)).driveGates

def execOverrideEnable (l : Lane) (q : Req) (w : Word) (s : State) : Out :=
  onLane s l (fun L => L.guardW q R.brgOvrEn w (fun L => L.wBrgOvrEn q w))

/-- A write of BRG_OVR_GATE. -/
def LaneState.wBrgOvrGate (L : LaneState) (q : Req) (w : Word) : LaneState :=
  (L.busWrite q.secure R.brgOvrGate w).driveGates

/-! ## Measured edge instants (R251) -/

/-- A switch node crosses half of the link voltage: the crossing goes over Lath as a delay after the wire edge, or as an
offset from the field-tick boundary; `value` is in fine steps. -/
def execSwitchNodeCrossing (l : Lane) (ph : Fin 12) (up byWire : Bool) (value : BitVec 22) (s : State) : Out :=
  onLane s l (fun L => { L with bridge := { L.bridge with
    reports := L.bridge.reports ++ [⟨ph.val, up, byWire, value.toNat⟩] } })

/-- The wire delay of R584 in fine steps: 4.0 ns, 51.2 steps (assumption 32). -/
def wireDelay : Nat := 51

/-- The lane die receives the oldest crossing report and forms the measured instant: the commanded instant, the wire
delay and the reported delay, or the offset from the tick boundary (R251). A report whose CRC fails leaves the leg to
R137. -/
def execEdgeInstantReport (l : Lane) (crcOk : Bool) (s : State) : Out :=
  onLane s l (fun L =>
    match L.bridge.reports with
    | [] => L
    | r :: rest =>
      let L := { L with bridge := { L.bridge with reports := rest } }
      let n := r.phase / 3
      let leg := r.phase % 3
      if !crcOk then L.mapFl n (fun X => { X with failed := addTo leg X.failed })
      else
        let tick := L.coarse / L.tTick * L.tTick * 64
        let base := if r.byWire then
            ((L.fl n).cmd.filter (fun e => e.leg == leg && e.up == r.up)).getLast?.map (fun e => e.stamp + wireDelay)
          else some tick
        match base with
        | some b => L.mapFl n (fun X => { X with meas := X.meas ++ [⟨leg, r.up, b + r.value⟩] })
        | none => L)

/-! ## Bootstraps -/

/-- A low side off for t_rmax under a high request starts a refresh pulse: high side off, low side on (R252). -/
def execRefreshPulseStart (l : Lane) (ph : Fin 12) (s : State) : Out :=
  onLane s l (fun L =>
    L.when (L.followsWires (ph.val / 3) && L.gateReq (2 * ph.val + 1) && !decide (2 * ph.val ∈ L.bridge.on) &&
        !decide (ph.val ∈ L.bridge.refresh)) (fun L =>
      ({ L with bridge := { L.bridge with refresh := addTo ph.val L.bridge.refresh } }.count R.brgCnt_refresh).driveGates))

/-- The refresh pulse ends after t_ref: the low side turns off and the high side returns if still requested (R252). -/
def execRefreshPulseEnd (l : Lane) (ph : Fin 12) (s : State) : Out :=
  onLane s l (fun L =>
    L.when (decide (ph.val ∈ L.bridge.refresh)) (fun L =>
      { L with bridge := { L.bridge with refresh := dropFrom ph.val L.bridge.refresh } }.driveGates))

/-- The warning comparator of a bootstrap changes state (R253). -/
def execBsWarnChange (l : Lane) (ph : Fin 12) (low : Bool) (s : State) : Out :=
  onLane s l (fun L => L.setBit R.brgBswarn_warn ph low)

/-- A bootstrap falls below 7.0 V: its high side turns off at once (R254). -/
def execBsLow (l : Lane) (ph : Fin 12) (s : State) : Out :=
  onLane s l (fun L => ((L.setBit R.brgStat_bs_low ph true).setBit R.brgEvt_bs_low_evt ph true).driveGates)

/-- The high side is released at the tick marker after the bootstrap has risen above 7.5 V (R254). -/
def execBsLowRelease (l : Lane) (ph : Fin 12) (s : State) : Out :=
  onLane s l (fun L => L.when (L.bitOf R.brgStat_bs_low ph) (fun L => (L.setBit R.brgStat_bs_low ph false).driveGates))

/-! ## Short circuit (R256 to R258) -/

/-- The SC_LS threshold of a phase (R256). -/
def LaneState.scThreshold (L : LaneState) (ph : Nat) : Nat :=
  let p := ph / 3
  if L.is (R.brgSca_adapt_en p) then
    min (L.get (R.brgSca_th_max p)) (max (L.get (R.brgSca_th_min p)) (L.bridge.env.get ph + L.get (R.brgSca_margin p)))
  else L.get (R.brgSca_th_max p)

/-- Every 1 µs the envelope follows the magnitude m of the phase current, sampled while the low side is on (R256). -/
def execScThresholdUpdate (l : Lane) (ph : Fin 12) (m : BitVec 8) (s : State) : Out :=
  onLane s l (fun L =>
    L.when (decide (2 * ph.val ∈ L.bridge.on)) (fun L =>
      let env := L.bridge.env.get ph
      let up := L.get (R.brgSca_up (ph.val / 3))
      let env' := if env < m.toNat then min m.toNat (env + 2 * (up + 1)) else env - env / 64
      { L with bridge := { L.bridge with env := L.bridge.env.set ph env' } }))

/-- The low-side current of a phase exceeds its threshold for 50 ns while the low side is confirmed on: SC_LS trips with
a soft turn-off of the port's switches that are on (R256, R258). `m` is the magnitude in units of R255. -/
def execScLs (l : Lane) (ph : Fin 12) (m : BitVec 8) (s : State) : Out :=
  onLane s l (fun L =>
    let g := 2 * ph.val
    L.when (decide (g ∈ L.bridge.on) && !decide (g ∈ L.bridge.unconf) && decide (L.scThreshold ph < m.toNat))
      (fun L => L.pulseTrip ph (fun g => gatePort g == ph.val / 3)))

/-- The DC-link shunt of a port exceeds dc_th for 50 ns: SC_DC trips with a soft turn-off (R257, R258). -/
def execScDc (l : Lane) (p : Fin 4) (m : BitVec 8) (s : State) : Out :=
  onLane s l (fun L =>
    L.when (decide (bits (L.reg R.brgDcth).toNat (8 * p.val + 7) (8 * p.val) < m.toNat))
      (fun L => L.pulseTrip (12 + p.val) (fun g => gatePort g == p.val)))

/-- SHUNTZ: the offsets of a port's three phase amplifiers in codes; only while the port's axis is OFF, ARMED or FREE
(R259). -/
def execShuntz (l : Lane) (j : Fin 16) (u v w : BitVec 8) (s : State) : Out :=
  onLane s l (fun L => L.skimRun j jkShuntz (fun L =>
    let p := L.get (R.skimJobCfg_target j) % 4
    let st := L.axis p
    if st != axOff && st != axArmed && st != axFree then L.put (R.skimJobLast_status j) 3 |>.skimEnd j 3 0
    else
      let bad := [u, v, w].any (fun x => decide (L.get R.brgShunt_zlim < x.toInt.natAbs))
      L.skimEnd j (b2n bad) (u.toNat + 256 * v.toNat + 65536 * w.toNat)))

/-! ## Chopper and link voltage; trips (R261 to R265) -/

/-- The link voltage at the bridge die, 0.25 V units. -/
def LaneState.seeVlink (L : LaneState) (v : BitVec 8) : LaneState := L.put R.brgMeas_vlink v.toNat

/-- VLINK crosses ch_on or ch_off: the braking request is set or cleared (R261); CHOP_FAULT needs the request (R262). -/
def execChopperRequestChange (l : Lane) (v : BitVec 8) (s : State) : Out :=
  onLane s l (fun L =>
    let L := L.seeVlink v
    if L.get R.brgVl0_ch_on ≤ v.toNat then (L.setF R.brgStat_chop_req true).driveGates
    else if v.toNat ≤ L.get R.brgVl0_ch_off then (L.setF R.brgStat_chop_req false).endTrip 31
    else L)

/-- VLINK at or above ch_flt for flt_t with the braking request set (R262). -/
def execChopFault (l : Lane) (v : BitVec 8) (s : State) : Out :=
  onLane s l (fun L =>
    L.when (L.is R.brgStat_chop_req && decide (L.get R.brgVl0_ch_flt ≤ v.toNat)) (fun L => (L.seeVlink v).raiseTrip 31))

/-- The hard over-voltage threshold: codes below 192 act as 192. -/
def LaneState.hov (L : LaneState) : Nat := max 192 (L.get R.brgVl0_hov)

/-- VLINK reaches hov: ASC_LOW on every enabled port (R263). -/
def execHardOv (l : Lane) (v : BitVec 8) (s : State) : Out :=
  onLane s l (fun L => L.when (decide (L.hov ≤ v.toNat)) (fun L => (L.seeVlink v).raiseTrip 32))

/-- VLINK has stayed below hov − 2 V for 100 µs (R263). -/
def execHardOvClear (l : Lane) (v : BitVec 8) (s : State) : Out :=
  onLane s l (fun L =>
    L.when (L.tripActive 32 && decide (v.toNat + 8 < L.hov)) (fun L => (L.seeVlink v).endTrip 32))

/-- VLINK below uv (R264). -/
def execVlinkUv (l : Lane) (v : BitVec 8) (s : State) : Out :=
  onLane s l (fun L => L.when (decide (v.toNat < L.get R.brgVl1_uv)) (fun L => (L.seeVlink v).raiseTrip 33))

def execVlinkUvClear (l : Lane) (v : BitVec 8) (s : State) : Out :=
  onLane s l (fun L => L.when (decide (L.get R.brgVl1_uv ≤ v.toNat)) (fun L => (L.seeVlink v).endTrip 33))

/-- The gate supply below 80 % of VG for 1 µs, and its return (R265, R574). -/
def execVgUv (l : Lane) (s : State) : Out := onLane s l (fun L => (L.setF R.brgStat_vg_ok false).raiseTrip 34)

def execVgUvClear (l : Lane) (s : State) : Out := onLane s l (fun L => (L.setF R.brgStat_vg_ok true).endTrip 34)

/-- The bridge-die junction reaches 160 °C, and falls below 145 °C; BRG_MEAS.tj is °C + 64 (R265). -/
def execOt (l : Lane) (tj : BitVec 8) (s : State) : Out :=
  onLane s l (fun L => L.when (decide (160 + 64 ≤ tj.toNat)) (fun L => (L.put R.brgMeas_tj tj.toNat).raiseTrip 35))

def execOtClear (l : Lane) (tj : BitVec 8) (s : State) : Out :=
  onLane s l (fun L => L.when (decide (tj.toNat < 145 + 64)) (fun L => (L.put R.brgMeas_tj tj.toNat).endTrip 35))

/-- A TRIP_n input active for its filter time, and its return to the inactive level (R265). -/
def execExtTrip (l : Lane) (k : Fin 6) (s : State) : Out := onLane s l (fun L => L.raiseTrip (25 + k.val))

def execExtTripRelease (l : Lane) (k : Fin 6) (s : State) : Out := onLane s l (fun L => L.endTrip (25 + k.val))

/-- The bridge die sees no valid Lath frame for 2 µs: the safe action of each port (R265). -/
def execLathLoss (l : Lane) (s : State) : Out := onLane s l (fun L => L.raiseTrip 37)

/-- The bridge die misses a tick marker or the Lath clock: edge-clock loss (R240, R265). -/
def execEdgeLoss (l : Lane) (s : State) : Out := onLane s l (fun L => L.raiseTrip 36)

/-- A tick marker reaches the bridge die: the losses of markers and of frames end (R240, R265). -/
def LaneState.tickMarker (L : LaneState) : LaneState :=
  let L := if L.tripActive 36 then L.endTrip 36 else L
  if L.tripActive 37 then L.endTrip 37 else L

/-- A port whose action has fallen to FLAG follows its wires again from the next tick marker (R268). -/
def execTripActionRelease (l : Lane) (p : Fin 4) (s : State) : Out :=
  onLane s l (fun L =>
    L.when (decide (p.val ∈ L.bridge.marker) && L.portAction p == 0) (fun L =>
      { L with bridge := { L.bridge with marker := dropFrom p.val L.bridge.marker } }.driveGates))

/-- A write of TRIP_FLAG0 (`hi` false) or TRIP_FLAG1: a clear is refused while its source is active (R269). -/
def LaneState.wTripFlag (L : LaneState) (hi : Bool) (w : Word) : LaneState :=
  let base := if hi then 32 else 0
  let n := if hi then 7 else 32
  let asked := (List.range n).filter (fun i => bit w.toNat i && L.tripFlagged (base + i))
  let L := L.flagIf (asked.any (fun i => L.tripActive (base + i))) R.tripStat_clr_refused
  let L := asked.foldl (fun M i =>
    if M.tripActive (base + i) then M
    else if hi then M.setBit R.tripFlag1_flag i false else M.setBit R.tripFlag0_flag i false) L
  let L := if L.is R.tripFlag0_flag || L.is R.tripFlag1_flag then L else L.setF R.tripStat_first_valid false
  L.tripUpdate

def execTripFlagClear (l : Lane) (q : Req) (hi : Bool) (w : Word) (s : State) : Out :=
  let a := if hi then R.tripFlag1 else R.tripFlag0
  onLane s l (fun L => L.guardW q a w (fun L => L.wTripFlag hi w))

/-- The oldest flag on its way reaches the lane die, which raises it to the Belay: VG_UV and EDGE_LOSS as TRIP_LANE, and
every flag in the active fault classes (R270, R288, R298). -/
def execTripFlagReport (l : Lane) (s : State) : Out :=
  onLane s l (fun L =>
    match L.bridge.flagsOut with
    | [] => L
    | f :: rest =>
      let L := { L with bridge := { L.bridge with flagsOut := rest, known := addTo f L.bridge.known, lathDown := false } }
      if f = 34 ∨ f = 36 then L.raiseOwn 0x12 else L)

/-- The lane die receives no valid Lath frame for 2 µs: TRIP_LANE, and LATH where an access has failed (R19, R270). -/
def execLaneLathLoss (l : Lane) (s : State) : Out :=
  onLane s l (fun L =>
    let L := { L with bridge := { L.bridge with lathDown := true } }.raiseOwn 0x12
    if 3 ≤ L.lath.fails then L.raiseOwn 0x0C else L)

/-! ## Locks and commands -/

/-- The initial prime codes of every gate (R245). -/
def LaneState.primeReset (L : LaneState) : LaneState :=
  (List.range 25).foldl (fun M g =>
    let on := if g = 24 then M.get R.brgPch_prime0 else M.get (R.brgPon_prime0 (g / 6))
    let off := if g = 24 then M.get R.brgPch_prime0 else M.get (R.brgPoff_prime0 (g / 6))
    (M.put (R.brgPrime_on g) on).put (R.brgPrime_off g) off) L

/-- BRG_STAT.locked: both locks written and the check passed. -/
def LaneState.bridgeLocked (L : LaneState) : LaneState :=
  L.setF R.brgStat_locked (L.locked R.brgLock && L.locked R.tripLock && !L.bridge.cfgFailed)

/-- A write of BRG_LOCK: the key locks BRG, sets the prime codes and checks the thresholds and the tick against
SYS_TICK.tick, which the Lath master sends as 0 before SYS_LOCK (R241, R245). -/
def LaneState.wBrgLock (L : LaneState) (w : Word) : LaneState :=
  if bits w.toNat 15 0 = 0xC1A5 ∧ !L.locked R.brgLock then
    let sent := if L.locked R.sysLock then L.tTick else 0
    let t := L.get R.brgTick_tick
    let ok := decide (L.get R.brgVl0_ch_off < L.get R.brgVl0_ch_on ∧ L.get R.brgVl0_ch_on < L.get R.brgVl0_ch_flt ∧
      L.get R.brgVl0_ch_flt < L.get R.brgVl0_hov ∧ 500 ≤ t ∧ t ≤ 4000 ∧ t = sent)
    let L := { L with locks := addTo R.brgLock L.locks }.primeReset
    let L := if ok then L else
      { L.flag R.brgEvt_cfg_err with bridge := { L.bridge with cfgFailed := true } }
    L.bridgeLocked.driveGates
  else L

def execBrgLock (l : Lane) (q : Req) (w : Word) (s : State) : Out :=
  onLane s l (fun L => L.guardW q R.brgLock w (fun L => L.wBrgLock w))

/-- A write of TRIP_LOCK: the key locks TRIP (R241). -/
def LaneState.wTripLock (L : LaneState) (w : Word) : LaneState :=
  if bits w.toNat 15 0 = 0xC1A5 then { L with locks := addTo R.tripLock L.locks }.bridgeLocked.driveGates else L

/-- A write of TRIP_MAP_s: the fixed entries ignore it (R603). -/
def LaneState.wTripMap (L : LaneState) (q : Req) (s : Nat) (w : Word) : LaneState :=
  if s = 32 ∨ s = 34 ∨ s = 36 ∨ s = 37 ∨ s = 38 then L else (L.busWrite q.secure (R.tripMap s) w).tripUpdate

/-- A write of BRG_CMD: clr_cnt clears BRG_CNT, prime_reset returns every prime code to prime0 (R12, R245). -/
def LaneState.wBrgCmd (L : LaneState) (w : Word) : LaneState :=
  let L := if bit w.toNat 0 then L.setReg R.brgCnt 0 else L
  if bit w.toNat 1 then L.primeReset else L

def execBrgClrCnt (l : Lane) (q : Req) (s : State) : Out :=
  onLane s l (fun L => L.guardW q R.brgCmd 1 (fun L => L.wBrgCmd 1))

def execPrimeReset (l : Lane) (q : Req) (s : State) : Out :=
  onLane s l (fun L => L.guardW q R.brgCmd 2 (fun L => L.wBrgCmd 2))

end Sys2Proof.Machine
end

