-- ==== Sys2Proof/Machine/LoopEngine.lean ====
section
/-! DEFINITION. The loop engines: readiness, runs, instructions, gain schedule, coefficient banks (chapter 6, R184 to
R214). A command of an instruction row issues the engine's next instruction: it takes effect when the word at the
program counter is of that row's opcode, and the word's fields are its operands (assumption 13). -/

namespace Sys2Proof.Machine

/-! ## Engine faults and the end of a run -/

/-- Whether any axis names loop k of engine e (R213). -/
def LaneState.named (L : LaneState) (e k : Nat) : Bool := (List.range 4).any (fun n => L.names n e k)

/-- LE_BANK_STAT.blending, and the end of HELD once no loop blends from the former active bank (R206, R208). -/
def LaneState.leBlendUpdate (L : LaneState) (e : Nat) : LaneState :=
  let bl := (List.range 16).filter (fun k => L.is (R.leLoopStat_blending e k))
  let L := L.setF (R.leBankStat_blending e) (!bl.isEmpty)
  if L.get (R.leBankStat_ibs e) == 3 && bl.all (fun k => (L.le e).fromBank.get k == L.activeBank e) then
    L.put (R.leBankStat_ibs e) 0
  else L

/-- The end of a run, normal or aborted: its length is recorded (R193), and a run with m = nb + 1 ends its blend
(R204). -/
def LaneState.leStop (L : LaneState) (e : Nat) (r : LeRun) (cycles : Nat) : LaneState :=
  let k := r.loop
  let L := L.put (R.leLoopTime_last e k) (satU 16 cycles)
  let L := L.put (R.leLoopTime_max e k) (max (L.get (R.leLoopTime_max e k)) (satU 16 cycles))
  let L := L.mapLe e (fun E => { E with run := none })
  if L.is (R.leLoopStat_blending e k) && r.view.m != 0 && decide (L.dBlend e k ≤ r.view.m) then
    ((L.setF (R.leLoopStat_blending e k) false).put (R.leLoopStat_m e k) 0).leBlendUpdate e
  else L

/-- An engine fault aborts the run: the loop is disabled, the fault recorded, and raised to the Belay if an axis names
the loop (R195). -/
def LaneState.leFault (L : LaneState) (e : Nat) (r : LeRun) (cause cycles : Nat) : LaneState :=
  let L := L.leStop e r cycles
  let named := L.named e r.loop
  let L := L.setBit (R.leLoopEn_en e) r.loop false
  let L := if L.is (R.leStat_fault e) then L
    else ((L.put (R.leFlt_loop e) r.loop).put (R.leFlt_cause e) cause).put (R.leFlt_pc e) r.pc
  let L := L.flag (R.leStat_fault e)
  if named then L.raiseOwn 0x0D else L

/-- A loop becomes ready at a lane time in fine steps; a loop that still waits or runs is not queued twice (R192). -/
def LaneState.leReady (L : LaneState) (e k stamp : Nat) : LaneState :=
  let E := L.le e
  if E.ready.any (fun p => p.2 == k) || E.run.any (fun r => r.loop == k) then
    (L.flag (R.leStat_skip e)).count (R.leCnt_skip e)
  else L.mapLe e (fun E => { E with ready := E.ready ++ [(stamp, k)] })

/-- Whether the engine starts runs: the check of R209 passed, LE_CTL.run set, the lane ACTIVE, SUSPECT or SHADOW
(R185, R209). -/
def LaneState.leCanRun (L : LaneState) (e : Nat) : Bool :=
  (L.le e).check == 2 && L.is (R.leCtl_run e) && participates L.belay

/-- Whether loop k may become ready and run now: described, enabled, due in this period, and for trigger 0 its axis
runs loops (R185, R189, assumption 14). -/
def LaneState.loopMayRun (L : LaneState) (e k : Nat) : Bool :=
  L.leCanRun e && L.described e k && L.bitOf (R.leLoopEn_en e) k && L.pnum % L.dDiv e k == L.dPhase e k &&
    (L.dTrig e k != 0 || L.axRuns (L.dAxis e k))

/-- A loop becomes ready by its trigger: at profile_end of its axis, or at the period offset 20 ns × start (R190). A
chained loop becomes ready at the END of its preceding loop. -/
def execLoopTrigger (l : Lane) (e : Fin 2) (k : Fin 16) (s : State) : Out :=
  onLane s l (fun L =>
    let t := L.dTrig e k
    let off := if t = 0 then L.get (R.axpSched0_profile_end (L.dAxis e k)) else 4 * L.dStart e k
    L.when (decide (t ≤ 1) && L.loopMayRun e k) (fun L => L.leReady e k ((L.pnum * L.tServo + off) * 64)))

/-- The ready loop that starts first: earliest ready time, then lower index (R190). -/
def firstReady : List (Nat × Nat) → Option (Nat × Nat)
  | [] => none
  | p :: ps =>
    match firstReady ps with
    | none => some p
    | some b => if b.1 < p.1 ∨ (b.1 = p.1 ∧ b.2 < p.2) then some b else some p

/-- A run begins: 4 cycles of dispatch, registers and accumulators 0, F set on a first run (R191); a blend in progress
moves to its next run (R204). A waiting loop that is no longer enabled or whose axis no longer runs is dropped. -/
def execLoopRunStart (l : Lane) (e : Fin 2) (s : State) : Out :=
  onLane s l (fun L =>
    match (L.le e).run, firstReady (L.le e).ready with
    | none, some (t, k) =>
      L.when (L.leCanRun e) (fun L =>
        let L := L.mapLe e (fun E => { E with ready := E.ready.filter (fun p => p != (t, k)) })
        if !L.bitOf (R.leLoopEn_en e) k || (L.dTrig e k == 0 && !L.axRuns (L.dAxis e k)) then L
        else
          let bl := L.is (R.leLoopStat_blending e k)
          let m := if bl then L.get (R.leLoopStat_m e k) + 1 else 0
          let L := L.put (R.leLoopStat_m e k) m
          let E := L.le e
          let run : LeRun := {
            loop := k, pc := L.dEntry e k, f := !decide (k ∈ E.ran), cycles := 4, period := L.pnum
            view := ⟨L.activeBank e, L.get (R.leLoopStat_set e k), E.fromBank.get k, E.fromSet.get k, m⟩ }
          L.mapLe e (fun E => { E with
            run := some run
            ran := addTo k E.ran
            inited := if L.dSched e k = 0 then addTo k E.inited else E.inited }))
    | _, _ => L)

/-! ## Instruction words (R210) -/

/-- The instruction word at a program counter. -/
def LaneState.leWord (L : LaneState) (e pc : Nat) : Nat := (L.word (leMem e + 4 * pc)).toNat

def leOp (w : Nat) : Nat := bits w 31 26
def leD (w : Nat) : Nat := bits w 25 22
def leA (w : Nat) : Nat := bits w 21 18
def leB (w : Nat) : Nat := bits w 17 14
def leImm14 (w : Nat) : Nat := bits w 13 0
def leImm18 (w : Nat) : Nat := bits w 17 0

/-- A q register as a signed number, and an accumulator. -/
def LeRun.qv (r : LeRun) (i : Nat) : Int := (Sparse.get (0 : Word) r.q i).toInt
def LeRun.accv (r : LeRun) (i : Nat) : Int := Sparse.get (0 : Int) r.acc i

/-- Writes a q register with a number wrapped to 32 bits, or an accumulator. -/
def LeRun.setQ (r : LeRun) (i : Nat) (v : Int) : LeRun := { r with q := Sparse.set (fun _ => 0) r.q i (wordI v) }
def LeRun.setAcc (r : LeRun) (i : Nat) (v : Int) : LeRun := { r with acc := Sparse.set (fun _ => 0) r.acc i v }

/-- What an instruction does: it goes on with a run and a cost in cycles, or ends in an engine fault. -/
inductive LeRes where
  | go (L : LaneState) (r : LeRun) (cost : Nat)
  | fault (L : LaneState) (cause cost : Nat)

/-- The cost of a result. -/
def LeRes.cost : LeRes → Nat
  | .go _ _ c => c
  | .fault _ _ c => c

/-- Issues the next instruction of a run, if it is of opcode `op`: ECC first (R188), then the opcode, then its effect;
an instruction that would exceed the budget does not complete (R193). The program counter arrives at `f` advanced by
one. A reserved opcode is the engine fault ILLEGAL (R195). -/
def LaneState.leIssue (L : LaneState) (e op : Nat) (ecc : Ecc) (f : LeRun → Nat → LaneState → LeRes) : LaneState :=
  match (L.le e).run with
  | none => L
  | some r =>
    let w := L.leWord e r.pc
    if r.wait.isSome then L
    else if ecc = .bad then L.leFault e r 4 r.cycles
    else if 0x27 ≤ leOp w then L.leFault e r 1 r.cycles
    else if leOp w ≠ op then L
    else
      let L' := if ecc = .corrected then (L.flag (R.leStat_ecc_cor e)).count (R.leCnt_ecc e) else L
      let res := f { r with pc := r.pc + 1 } w L'
      if L.dBudget e r.loop < r.cycles + res.cost then L
      else match res with
        | .fault M cause c => M.leFault e r cause (r.cycles + c)
        | .go M r' c =>
          if 0xFFF < r'.pc && op != 1 then M.leFault e r 2 (r.cycles + c)
          else M.mapLe e (fun E => { E with run := some { r' with cycles := r.cycles + c } })

/-- A command that issues an instruction on a lane. -/
def leRow (l : Lane) (e : Fin 2) (op : Nat) (ecc : Ecc) (s : State) (f : LeRun → Nat → LaneState → LeRes) : Out :=
  onLane s l (fun L => L.leIssue e op ecc f)

/-- An instruction of one cycle that only writes qd. -/
def leAlu (l : Lane) (e : Fin 2) (op cost : Nat) (ecc : Ecc) (s : State) (f : LeRun → Nat → Int) : Out :=
  leRow l e op ecc s (fun r w L => .go L (r.setQ (leD w) (f r w)) cost)

/-- The cycles that the next instruction of a run takes at least (R210); used to judge the budget. -/
def LaneState.leMinCost (L : LaneState) (e : Nat) (r : LeRun) : Nat :=
  let w := L.leWord e r.pc
  let n := bits w 5 0
  let bl := if r.view.m = 0 then 0 else 2
  match leOp w with
  | 0x05 | 0x0D | 0x19 | 0x1A | 0x22 | 0x23 | 0x25 => 2
  | 0x07 | 0x08 => 6
  | 0x18 => if L.dPacked e r.loop then (3 + bl) * ((n + 1) / 2) else (4 + bl) * n
  | 0x1B => 2 + 2 * ((List.range 32).filter (fun i => bit (L.desc e r.loop 6) i)).length
  | 0x1C => 5
  | 0x1D => 12
  | _ => 1

/-- A run that would take more cycles than its budget is aborted with cause BUDGET: its next instruction, with the
wait `w` of R212 in cycles, does not complete within the budget, or a WAIT holds until the budget is spent (R193,
R214). -/
def execLeBudgetExpire (l : Lane) (e : Fin 2) (w : Fin 7) (s : State) : Out :=
  onLane s l (fun L =>
    match (L.le e).run with
    | none => L
    | some r =>
      let op := leOp (L.leWord e r.pc)
      let wait := if op == 0x07 || op == 0x08 then min w.val 3 else if op == 0x1D then w.val else 0
      L.when (r.wait.isSome || decide (L.dBudget e r.loop < r.cycles + L.leMinCost e r + wait))
        (fun L => L.leFault e r 5 (L.dBudget e r.loop)))

/-! ## Simple instructions -/

def execLeNop (l : Lane) (e : Fin 2) (ecc : Ecc) (s : State) : Out :=
  leRow l e 0x00 ecc s (fun r _ L => .go L r 1)

/-- The loops chained to loop k become ready at its end, once per period (R190). -/
def LaneState.leChain (L : LaneState) (e k stamp : Nat) : LaneState :=
  (List.range 16).foldl (fun M j =>
    if M.dTrig e j == 2 && M.dStart e j % 16 == k && !decide (j ∈ (M.le e).chained) && M.loopMayRun e j then
      (M.mapLe e (fun E => { E with chained := addTo j E.chained })).leReady e j stamp
    else M) L

/-- END ends the run; `stamp` is the lane time of the end, at which a chained loop becomes ready (R190, R193). -/
def execLeEnd (l : Lane) (e : Fin 2) (ecc : Ecc) (stamp : BitVec 64) (s : State) : Out :=
  onLane s l (fun L =>
    let M := L.leIssue e 0x01 ecc (fun r _ L => .go L r 1)
    match (L.le e).run, (M.le e).run with
    | some r, some r' =>
      if r.wait.isNone && leOp (L.leWord e r.pc) == 1 && decide (r.cycles < r'.cycles) then
        (M.leStop e r r'.cycles).leChain e r.loop stamp.toNat
      else M
    | _, _ => M)

def execLeLdi (l : Lane) (e : Fin 2) (ecc : Ecc) (s : State) : Out :=
  leAlu l e 0x02 1 ecc s (fun _ w => sext 18 (leImm18 w))

/-- LUI writes qd[31:18] and keeps the rest. -/
def execLeLui (l : Lane) (e : Fin 2) (ecc : Ecc) (s : State) : Out :=
  leAlu l e 0x03 1 ecc s (fun r w => (setBits (wordI (r.qv (leD w))).toNat 31 18 (leImm14 w) : Nat))

def execLeMov (l : Lane) (e : Fin 2) (ecc : Ecc) (s : State) : Out :=
  leAlu l e 0x04 1 ecc s (fun r w => r.qv (leA w))

/-- The address of LDD and STD, formed in 32 bits. -/
def leAddr (r : LeRun) (w : Nat) : Nat := wrapTo 32 (r.qv (leA w) + 4 * (leImm14 w : Int))

/-- Whether a data address may be read; DADDR otherwise (R195). -/
def leReadable (a : Nat) : Bool := decide (a < 0x4000) && a % 4 == 0

/-- Whether a data address may be stored to (R195). -/
def leStorable (a : Nat) : Bool := leReadable a && decide (0x480 ≤ a)

def execLeLdd (l : Lane) (e : Fin 2) (ecc : Ecc) (s : State) : Out :=
  leRow l e 0x05 ecc s (fun r w L =>
    let a := leAddr r w
    if leReadable a then .go L (r.setQ (leD w) (L.word (leData e a)).toInt) 2 else .fault L 3 2)

def execLeStd (l : Lane) (e : Fin 2) (ecc : Ecc) (s : State) : Out :=
  leRow l e 0x06 ecc s (fun r w L =>
    let a := leAddr r w
    if leStorable a then .go (L.setWord (leData e a) (wordI (r.qv (leB w)))) r 1 else .fault L 3 1)

/-- The master of an engine. -/
def leReq (e : Nat) : Req := ⟨if e = 0 then .le0 else .le1, true⟩

/-- LDS loads a signal; `w` is the wait of R212. -/
def execLeLds (l : Lane) (e : Fin 2) (ecc : Ecc) (w : Fin 4) (s : State) : Out :=
  leRow l e 0x07 ecc s (fun r i L => .go L (r.setQ (leD i) (L.sigS (leImm18 i))) (6 + w.val))

/-- STS stores a signal; `w` is the wait of R212. -/
def execLeSts (l : Lane) (e : Fin 2) (ecc : Ecc) (w : Fin 4) (s : State) : Out :=
  leRow l e 0x08 ecc s (fun r i L =>
    .go (L.masterSig (leReq e) (leImm18 i) (wordI (r.qv (leD i)))) r (6 + w.val))

def execLeAdd (l : Lane) (e : Fin 2) (ecc : Ecc) (s : State) : Out :=
  leAlu l e 0x09 1 ecc s (fun r w => r.qv (leA w) + r.qv (leB w))

def execLeSub (l : Lane) (e : Fin 2) (ecc : Ecc) (s : State) : Out :=
  leAlu l e 0x0A 1 ecc s (fun r w => r.qv (leA w) - r.qv (leB w))

def execLeAdds (l : Lane) (e : Fin 2) (ecc : Ecc) (s : State) : Out :=
  leAlu l e 0x0B 1 ecc s (fun r w => satS 32 (r.qv (leA w) + r.qv (leB w)))

def execLeSubs (l : Lane) (e : Fin 2) (ecc : Ecc) (s : State) : Out :=
  leAlu l e 0x0C 1 ecc s (fun r w => satS 32 (r.qv (leA w) - r.qv (leB w)))

/-- MULQ: the Q1.31 product rounded to nearest and saturated (R199, R210); a tie goes up, as in R359 (assumption 15). -/
def execLeMulq (l : Lane) (e : Fin 2) (ecc : Ecc) (s : State) : Out :=
  leAlu l e 0x0D 2 ecc s (fun r w => satS 32 (rshRound 31 (r.qv (leA w) * r.qv (leB w))))

def execLeNeg (l : Lane) (e : Fin 2) (ecc : Ecc) (s : State) : Out :=
  leAlu l e 0x0E 1 ecc s (fun r w => satS 32 (-(r.qv (leA w))))

def execLeAbs (l : Lane) (e : Fin 2) (ecc : Ecc) (s : State) : Out :=
  leAlu l e 0x0F 1 ecc s (fun r w => satS 32 (r.qv (leA w)).natAbs)

def execLeMin (l : Lane) (e : Fin 2) (ecc : Ecc) (s : State) : Out :=
  leAlu l e 0x10 1 ecc s (fun r w => min (r.qv (leA w)) (r.qv (leB w)))

def execLeMax (l : Lane) (e : Fin 2) (ecc : Ecc) (s : State) : Out :=
  leAlu l e 0x11 1 ecc s (fun r w => max (r.qv (leA w)) (r.qv (leB w)))

/-- CLMP: min(max(qd, qa), qb), and qa where qa exceeds qb. -/
def execLeClmp (l : Lane) (e : Fin 2) (ecc : Ecc) (s : State) : Out :=
  leAlu l e 0x12 1 ecc s (fun r w =>
    if r.qv (leB w) < r.qv (leA w) then r.qv (leA w)
    else min (max (r.qv (leD w)) (r.qv (leA w))) (r.qv (leB w)))

def execLeShl (l : Lane) (e : Fin 2) (ecc : Ecc) (s : State) : Out :=
  leAlu l e 0x13 1 ecc s (fun r w => satS 32 (r.qv (leA w) * (2 ^ bits w 4 0 : Nat)))

def execLeSar (l : Lane) (e : Fin 2) (ecc : Ecc) (s : State) : Out :=
  leAlu l e 0x14 1 ecc s (fun r w => r.qv (leA w) / (2 ^ bits w 4 0 : Nat))

/-! ## Accumulators -/

/-- Saturates an accumulator or a section state and flags it (R199). -/
def LaneState.leSat (L : LaneState) (e width : Nat) (v : Int) : LaneState :=
  L.flagIf (satS width v != v) (R.leStat_sat e)

/-- A result taken to a signal of `width` bits (R196, R197). -/
def toSignal (width : Nat) (acc : Int) : Int := satS width (rshRound 15 acc)

def execLeClra (l : Lane) (e : Fin 2) (ecc : Ecc) (s : State) : Out :=
  leRow l e 0x15 ecc s (fun r w L => .go L (r.setAcc (leD w % 4) 0) 1)

def execLeWra (l : Lane) (e : Fin 2) (ecc : Ecc) (s : State) : Out :=
  leRow l e 0x16 ecc s (fun r w L => .go L (r.setAcc (leD w % 4) (r.qv (leA w) * 2 ^ 15)) 1)

def execLeRda (l : Lane) (e : Fin 2) (ecc : Ecc) (s : State) : Out :=
  leAlu l e 0x17 1 ecc s (fun r w => toSignal 32 (r.accv (leA w % 4)))

/-- MACW: a wide product shifted right by 16 − sh, added in 64 bits. -/
def execLeMacw (l : Lane) (e : Fin 2) (ecc : Ecc) (s : State) : Out :=
  leRow l e 0x19 ecc s (fun r w L =>
    let v := r.accv (leD w % 4) + r.qv (leA w) * r.qv (leB w) / (2 ^ (16 - bits w 3 0) : Nat)
    .go (L.leSat e 64 v) (r.setAcc (leD w % 4) (satS 64 v)) 2)

/-- MACP: two packed products added in 40 bits. -/
def execLeMacp (l : Lane) (e : Fin 2) (ecc : Ecc) (s : State) : Out :=
  leRow l e 0x1A ecc s (fun r w L =>
    let a := (wordI (r.qv (leA w))).toNat
    let b := (wordI (r.qv (leB w))).toNat
    let v := r.accv (leD w % 4) + sext 16 (bits a 31 16) * sext 16 (bits b 31 16) +
      sext 16 (bits a 15 0) * sext 16 (bits b 15 0)
    .go (L.leSat e 40 v) (r.setAcc (leD w % 4) (satS 40 v)) 2)

/-! ## Coefficient sets and sections -/

/-- A 64-bit section state in data memory. -/
def LaneState.ld64 (L : LaneState) (e a : Nat) : Int := sext 64 (L.load (leData e a) 8)
def LaneState.st64 (L : LaneState) (e a : Nat) (v : Int) : LaneState := L.store (leData e a) 8 (wrapTo 64 v)

/-- The state block of section j of a loop, and whether it lies in the data memory that may be stored to. -/
def LaneState.secAddr (L : LaneState) (e k j : Nat) : Nat := L.dState e k + 32 * j
def LaneState.secOk (L : LaneState) (e k j : Nat) : Bool :=
  let a := L.secAddr e k j
  leStorable a && decide (a + 32 ≤ 0x4000)

/-- Bank offset of set n of loop k; none is the engine fault BADSET (R195, R203). -/
def LaneState.setAddr (L : LaneState) (e k bank n : Nat) : Option Nat :=
  let nsec := L.dNsec e k
  let size := if L.dPacked e k then (10 * nsec + 7) / 8 * 8 else 24 * nsec + 8
  let base := L.load (leBank e bank + 8 + 2 * k) 2
  let a := 0x480 + 8 * base + n * size
  if base = 0xFFFF ∨ 0xC000 < a + size then none else some a

/-- The five coefficients b0, b1, b2, a1, a2 of section j of a set, each with its shift (R203). -/
def LaneState.setCoefs (L : LaneState) (e k bank n j : Nat) : Option (List (Int × Nat)) :=
  (L.setAddr e k bank n).map (fun a =>
    if L.dPacked e k then
      (List.range 5).map (fun i => (sext 16 (L.load (leBank e bank + a + 10 * j + 2 * i) 2), 0))
    else
      let o := leBank e bank + a + 24 * j
      let sh := L.load (o + 20) 4
      (List.range 5).map (fun i => (sext 32 (L.load (o + 4 * i) 4), bits sh (4 * i + 3) (4 * i))))

/-- A coefficient of the m-th of `n` blended runs; the last run uses the new set exactly (R204). -/
def blendCoef (m n : Nat) (c0 c1 : Int × Nat) : Int × Nat :=
  if n ≤ m then c1
  else
    let sh := max c0.2 c1.2
    let a := c0.1 / (2 ^ (sh - c0.2) : Nat)
    let b := c1.1 / (2 ^ (sh - c1.2) : Nat)
    (a + ((b - a) * m).tdiv n, sh)

/-- The coefficients of section j that a run uses. -/
def LaneState.runCoefs (L : LaneState) (e : Nat) (r : LeRun) (j : Nat) : Option (List (Int × Nat)) :=
  let v := r.view
  match L.setCoefs e r.loop v.bank v.set j with
  | none => none
  | some c1 =>
    if v.m = 0 then some c1
    else (L.setCoefs e r.loop v.fromBank v.fromSet j).map (fun c0 =>
      List.zipWith (blendCoef v.m (L.dBlend e r.loop)) c0 c1)

/-- The product of a signal and a coefficient in the format of the sections (R196, R197). -/
def secMul (packed : Bool) (x : Int) (c : Int × Nat) : Int :=
  if packed then x * c.1 else x * c.1 / (2 ^ (16 - c.2) : Nat)

/-- One section in transposed direct form II (R198): the new state and y. -/
def LaneState.section (L : LaneState) (e a : Nat) (packed : Bool) (cs : List (Int × Nat)) (x : Int) : LaneState × Int :=
  let width := if packed then 40 else 64
  let c (i : Nat) : Int × Nat := cs.getD i (0, 0)
  let s1 := L.ld64 e a
  let s2 := L.ld64 e (a + 8)
  let acc := secMul packed x (c 0) + s1
  let y := toSignal (if packed then 16 else 32) (satS width acc)
  let n1 := secMul packed x (c 1) - secMul packed y (c 3) + s2
  let n2 := secMul packed x (c 2) - secMul packed y (c 4)
  let L := ((L.leSat e width acc).leSat e width n1).leSat e width n2
  ((((L.st64 e (a + 16) s1).st64 e (a + 24) s2).st64 e a (satS width n1)).st64 e (a + 8) (satS width n2), y)

/-- A cascade over sections: each section's y is the next one's x; a fault keeps the states written before it. -/
def LaneState.cascade (L : LaneState) (e : Nat) (r : LeRun) : List Nat → Int → LaneState × Except Nat Int
  | [], x => (L, .ok x)
  | j :: js, x =>
    if !L.secOk e r.loop j then (L, .error 3)
    else match L.runCoefs e r j with
      | none => (L, .error 6)
      | some cs =>
        let p := L.section e (L.secAddr e r.loop j) (L.dPacked e r.loop) cs x
        p.1.cascade e r js p.2

/-- CAS runs sections s to s + n − 1 of the current set; sections outside nsec or n = 0 are MISUSE (R195, R198). -/
def execLeCas (l : Lane) (e : Fin 2) (ecc : Ecc) (s : State) : Out :=
  leRow l e 0x18 ecc s (fun r w L =>
    let first := bits w 13 9
    let n := bits w 5 0
    let packed := L.dPacked e r.loop
    let cost := L.leMinCost e { r with pc := r.pc - 1 }
    if n = 0 ∨ L.dNsec e r.loop < first + n then .fault L 7 cost
    else
      let x := r.qv (leA w)
      let secs := List.range' first n
      match L.cascade e r secs (if packed then satS 16 (rshRound 16 x) else x) with
      | (M, .error c) => .fault M c cost
      | (M, .ok y) =>
        .go M { r.setQ (leD w) (if packed then y * 2 ^ 16 else y) with
          upd := secs.foldl (fun u j => addTo j u) r.upd } cost)

/-! ## Output limits and anti-windup (R200) -/

/-- The output limits: those of the descriptor, and in wide format those of the set too. -/
def LaneState.outLimits (L : LaneState) (e : Nat) (r : LeRun) : Option (Int × Int) :=
  let lo := sext 32 (L.desc e r.loop 4)
  let hi := sext 32 (L.desc e r.loop 5)
  if L.dPacked e r.loop then some (lo, hi)
  else (L.setAddr e r.loop r.view.bank r.view.set).map (fun a =>
    let o := leBank e r.view.bank + a + 24 * L.dNsec e r.loop
    (max lo (sext 32 (L.load o 4)), min hi (sext 32 (L.load (o + 4) 4))))

/-- The anti-windup of one section that a CAS of this run has updated. -/
def LaneState.antiWindup (L : LaneState) (e : Nat) (r : LeRun) (d : Int) (j : Nat) : LaneState :=
  let a := L.secAddr e r.loop j
  let aw := L.dAw e r.loop
  let packed := L.dPacked e r.loop
  if !bit (L.desc e r.loop 6) j then L
  else if aw = 1 then
    if (L.ld64 e a - L.ld64 e (a + 16)).sign = d.sign then
      (L.st64 e a (L.ld64 e (a + 16))).st64 e (a + 8) (L.ld64 e (a + 24))
    else L
  else if aw = 2 then
    let kb := sext 32 (L.desc e r.loop 7)
    let width := if packed then 40 else 64
    let v := L.ld64 e a - kb * d / (2 ^ (if packed then 32 else 16) : Nat)
    (L.leSat e width v).st64 e a (satS width v)
  else L

def execLeOut (l : Lane) (e : Fin 2) (ecc : Ecc) (s : State) : Out :=
  leRow l e 0x1B ecc s (fun r w L =>
    let cost := L.leMinCost e { r with pc := r.pc - 1 }
    match L.outLimits e r with
    | none => .fault L 6 cost
    | some (lo, hi) =>
      let x := r.qv (leA w)
      let y := if hi < lo then lo else min (max x lo) hi
      let d := satS 32 (x - y)
      let L := L.setF (R.leLoopStat_clamped e r.loop) (d != 0)
      let L := if d = 0 then L else r.upd.foldl (fun M j => M.antiWindup e r d j) L
      .go L (r.setQ (leD w) y) cost)

/-! ## Tables, comparisons, branches -/

/-- LUT: an interpolated look-up in a table of 2^k + 1 entries; k outside 1 to 10 or a table outside data memory is
DADDR (R195, R211). -/
def execLeLut (l : Lane) (e : Fin 2) (ecc : Ecc) (s : State) : Out :=
  leRow l e 0x1C ecc s (fun r w L =>
    let h := (L.word (leData e (0x400 + 8 * bits w 3 0))).toNat
    let base := bits h 13 0
    let k := bits h 17 14
    if k = 0 ∨ 10 < k ∨ !leReadable base ∨ 0x4000 < base + 4 * (2 ^ k + 1) then .fault L 3 5
    else
      let u := (wordI (r.qv (leA w)) ^^^ 0x80000000#32).toNat
      let i := u / 2 ^ (32 - k)
      let f : Nat := u * 2 ^ k % 2 ^ 32
      let e0 := (L.word (leData e (base + 4 * i))).toInt
      let e1 := (L.word (leData e (base + 4 * i + 4))).toInt
      .go L (r.setQ (leD w) (e0 + (e1 - e0) * f / 2 ^ 32)) 5)

/-- CMP sets F by condition 0 EQ, 1 NE, 2 LT, 3 GE, signed. -/
def execLeCmp (l : Lane) (e : Fin 2) (ecc : Ecc) (s : State) : Out :=
  leRow l e 0x1E ecc s (fun r w L =>
    let x := r.qv (leA w)
    let y := r.qv (leB w)
    let f := match bits w 1 0 with
      | 0 => decide (x = y)
      | 1 => decide (x ≠ y)
      | 2 => decide (x < y)
      | _ => decide (y ≤ x)
    .go L { r with f := f } 1)

def execLeSel (l : Lane) (e : Fin 2) (ecc : Ecc) (s : State) : Out :=
  leAlu l e 0x1F 1 ecc s (fun r w => if r.f then r.qv (leA w) else r.qv (leB w))

/-- A branch from the instruction's own address; offset 0 is the fault BRANCH (R195). -/
def leBranch (r : LeRun) (w : Nat) (taken : Bool) (L : LaneState) : LeRes :=
  if leImm14 w = 0 then .fault L 2 1
  else .go L { r with pc := if taken then r.pc - 1 + leImm14 w else r.pc } 1

def execLeBf (l : Lane) (e : Fin 2) (ecc : Ecc) (s : State) : Out :=
  leRow l e 0x20 ecc s (fun r w L => leBranch r w (r.f != bit w 22) L)

def execLeJmp (l : Lane) (e : Fin 2) (ecc : Ecc) (s : State) : Out :=
  leRow l e 0x21 ecc s (fun r w L => leBranch r w true L)

/-! ## Results and waits -/

/-- SHARE and COMMIT of a run that has had one are ignored and set dup (R213). -/
def leDup (e : Nat) (r : LeRun) (L : LaneState) : LeRes := .go (L.flag (R.leStat_dup e)) r 2

/-- SHARE writes the result of a TICK loop that its axis names; completed before loop_end of the run's period, at lane
time `stamp`, it is the record's value (R77, R213). -/
def execLeShare (l : Lane) (e : Fin 2) (ecc : Ecc) (stamp : BitVec 64) (s : State) : Out :=
  leRow l e 0x22 ecc s (fun r w L =>
    let n := L.dAxis e r.loop
    if r.shared then leDup e r L
    else if L.names n e r.loop && !L.dPrompt e r.loop then
      let L := L.setSig (axisSig n 0x30) (wordI (r.qv (leA w)))
      let onTime := r.period == L.pnum &&
        decide (stamp.toNat < (r.period * L.tServo + L.get (R.axpSched1_loop_end n)) * 64)
      .go (if onTime then L.mapAx n (fun A => { A with ownDone := true }) else L) { r with shared := true } 2
    else .fault L 7 2)

/-- COMMIT writes the result of a PROMPT loop that its axis names, to be committed 200 ns (40 coarse ticks) after its
completion at lane time `stamp` (R75), or the signal out_id of a loop that no axis names (R213). -/
def execLeCommit (l : Lane) (e : Fin 2) (ecc : Ecc) (stamp : BitVec 64) (s : State) : Out :=
  leRow l e 0x23 ecc s (fun r w L =>
    let n := L.dAxis e r.loop
    let v := wordI (r.qv (leA w))
    if r.shared then leDup e r L
    else if L.names n e r.loop && L.dPrompt e r.loop then
      .go ((L.setSig (axisSig n 0x30) v).mapAx n (fun A => { A with
        prompt := some (v, (stamp.toNat + 63) / 64 + 40), ownDone := true })) { r with shared := true } 2
    else if !L.named e r.loop then
      .go (L.masterSig (leReq e) (L.dOutId e r.loop) v) { r with shared := true } 2
    else .fault L 7 2)

/-- Whether the condition of a WAIT holds at a period offset in coarse ticks (R214). -/
def LaneState.waitDone (L : LaneState) (e : Nat) (r : LeRun) (m t off : Nat) : Bool :=
  let n := L.dAxis e r.loop
  if m = 1 then (L.ax n).medDone || decide (L.get (R.axpSched1_share_dl n) + 100 ≤ off)
  else decide (4 * t ≤ off)

/-- WAIT issued at lane time `stamp`: one cycle where its condition holds, else the run holds (R214). -/
def execLeWait (l : Lane) (e : Fin 2) (ecc : Ecc) (stamp : BitVec 64) (s : State) : Out :=
  leRow l e 0x24 ecc s (fun r w L =>
    let m := leA w
    let t := leImm14 w
    if L.waitDone e r m t (stamp.toNat / 64 - r.period * L.tServo) then .go L r 1
    else .go L { r with wait := some (m, t) } 1)

/-- The condition of a WAIT becomes true at lane time `stamp`; the run goes on after `waited` cycles, which count toward
its budget (R214). -/
def execLeWaitRelease (l : Lane) (e : Fin 2) (stamp : BitVec 64) (waited : BitVec 16) (s : State) : Out :=
  onLane s l (fun L =>
    match (L.le e).run with
    | some r =>
      match r.wait with
      | some (m, t) =>
        L.when (L.waitDone e r m t (stamp.toNat / 64 - r.period * L.tServo) &&
            decide (r.cycles + waited.toNat ≤ L.dBudget e r.loop))
          (fun L => L.mapLe e (fun E => { E with
            run := some { r with wait := none, cycles := r.cycles + waited.toNat } }))
      | none => L
    | none => L)

/-- PRE presets a section: s1 = s1_prev = qa in state format, s2 = s2_prev = 0; a section outside nsec is MISUSE. The
packed format holds qa shifted right by one (assumption 16). -/
def execLePre (l : Lane) (e : Fin 2) (ecc : Ecc) (s : State) : Out :=
  leRow l e 0x25 ecc s (fun r w L =>
    let j := bits w 13 9
    if L.dNsec e r.loop ≤ j then .fault L 7 2
    else if !L.secOk e r.loop j then .fault L 3 2
    else
      let a := L.secAddr e r.loop j
      let v := if L.dPacked e r.loop then r.qv (leA w) / 2 else r.qv (leA w) * 2 ^ 15
      .go ((((L.st64 e a v).st64 e (a + 8) 0).st64 e (a + 16) v).st64 e (a + 24) 0) r 2)

/-- RDS reads s1 of a section in Q1.31 (assumption 16). -/
def execLeRds (l : Lane) (e : Fin 2) (ecc : Ecc) (s : State) : Out :=
  leRow l e 0x26 ecc s (fun r w L =>
    let a := L.secAddr e r.loop (bits w 13 9)
    if leReadable a && decide (a + 8 ≤ 0x4000) then
      let v := L.ld64 e a
      .go L (r.setQ (leD w) (if L.dPacked e r.loop then satS 32 (v * 2) else toSignal 32 v)) 1
    else .fault L 3 1)

/-! ## Gain schedule (R201, R202) -/

/-- The value of a scheduling dimension: the signal, its magnitude if asked, shifted and saturated to 16 bits. -/
def LaneState.dimValue (L : LaneState) (cfg : Nat) : Int :=
  let s := L.sigS (bits cfg 17 0)
  satS 16 ((if bit cfg 23 then (s.natAbs : Int) else s) / (2 ^ bits cfg 22 18 : Nat))

/-- Moves a region up, then down, past the boundaries with hysteresis. -/
def regionUp (b : Nat → Int) (h v : Int) : Nat → Nat → Nat
  | 0, r => r
  | fuel + 1, r => if r < 15 ∧ b (r + 1) + h ≤ v then regionUp b h v fuel (r + 1) else r
def regionDown (b : Nat → Int) (h v : Int) : Nat → Nat
  | 0 => 0
  | r + 1 => if v < b (r + 1) - h then regionDown b h v r else r + 1

/-- The region of one dimension of a schedule record. -/
def LaneState.region (L : LaneState) (e bank rec_ dim old : Nat) (first : Bool) : Nat :=
  let base := leBank e bank
  let v := L.dimValue (L.load (base + 0x28 + 8 * rec_ + 4 * dim) 4)
  let tab := base + 0xC0 + 0x140 * rec_ + 0x20 * dim
  let b (i : Nat) : Int := sext 16 (L.load (tab + 2 * (i - 1)) 2)
  let h := sext 16 (L.load (tab + 30) 2)
  if first then ((List.range' 1 15).filter (fun i => decide (b i ≤ v))).length
  else regionDown b h v (regionUp b h v 15 old)

/-- The set that a bank's map gives for two regions. -/
def LaneState.mapSet (L : LaneState) (e bank rec_ r0 r1 : Nat) : Nat :=
  L.load (leBank e bank + 0xC0 + 0x140 * rec_ + 0x40 + r0 + 16 * r1) 1

/-- Whether a SWAP is ready: its period reached and the bank SEALED (R207). -/
def LaneState.swapReady (L : LaneState) (e : Nat) : Bool :=
  L.is (R.leBankStat_swap_pend e) && L.get (R.leBankStat_ibs e) == 2 && decide ((L.le e).swapAt ≤ L.pnum)

/-- REG evaluates the schedule: the first REG after enabling selects a set at once; later the regions move where no
blend is in progress and no swap is ready, and a change of set starts a blend (R202). `w` is the wait of R212. -/
def execLeReg (l : Lane) (e : Fin 2) (ecc : Ecc) (w : Fin 7) (s : State) : Out :=
  leRow l e 0x1D ecc s (fun r _ L =>
    let k := r.loop
    let cost := 12 + w.val
    if L.dSched e k = 0 then .fault L 7 cost
    else
      let rc := L.dSched e k - 1
      let bank := r.view.bank
      let first := !decide (k ∈ (L.le e).inited)
      let hold := !first && (L.is (R.leLoopStat_blending e k) || L.swapReady e || bank != L.activeBank e)
      if hold then .go L r cost
      else
        let r0 := L.region e bank rc 0 (L.get (R.leLoopStat_r0 e k)) first
        let r1 := L.region e bank rc 1 (L.get (R.leLoopStat_r1 e k)) first
        let n := L.mapSet e bank rc r0 r1
        let old := L.get (R.leLoopStat_set e k)
        let L := (L.put (R.leLoopStat_r0 e k) r0).put (R.leLoopStat_r1 e k) r1
        let L := L.put (R.leLoopStat_set e k) n
        if first then
          .go (L.mapLe e (fun E => { E with inited := addTo k E.inited }))
            { r with view := { r.view with set := n, m := 0 } } cost
        else if n = old then .go L r cost
        else
          let L := (L.setF (R.leLoopStat_blending e k) true).put (R.leLoopStat_m e k) 1
          let L := L.mapLe e (fun E => { E with fromSet := E.fromSet.set k old, fromBank := E.fromBank.set k bank })
          .go (L.leBlendUpdate e) { r with view := ⟨bank, n, bank, old, 1⟩ } cost)

/-! ## Coefficient banks (R205 to R209) -/

/-- Whether a bank's CRC-32 over all its bytes but 0x00BC to 0x00BF is the one it holds (R206). -/
def LaneState.bankOk (L : LaneState) (e b : Nat) : Bool :=
  let a := leBank e b
  crc32 (L.bytesFrom a 0xBC ++ L.bytesFrom (a + 0xC0) 0xBF40) == L.word (a + 0xBC)

/-- A write of LE_BANK_CMD (R206, R207). UNSEAL drops a pending swap in CHECKING too (assumption 17). -/
def LaneState.wLeBankCmd (L : LaneState) (e : Nat) (w : Word) : LaneState :=
  let op := bits w.toNat 3 0
  let ibs := L.get (R.leBankStat_ibs e)
  if op = 1 then if ibs = 0 then L.put (R.leBankStat_ibs e) 1 else L.flag (R.leStat_bank_refused e)
  else if op = 2 then
    if ibs = 1 ∨ ibs = 2 then (L.put (R.leBankStat_ibs e) 0).setF (R.leBankStat_swap_pend e) false else L
  else if op = 3 then
    if ibs = 3 then L.flag (R.leStat_bank_refused e)
    else
      let d := (bits w.toNat 15 8 + 256 - L.pnum % 256) % 256
      let at_ : Int := if d ≤ 128 then (L.pnum + d : Nat) else (L.pnum : Int) + d - 256
      (L.setF (R.leBankStat_swap_pend e) true).mapLe e (fun E => { E with swapAt := at_ })
  else L

/-- A command written to LE_BANK_CMD by a master. -/
def leBankCommand (l : Lane) (e : Fin 2) (q : Req) (op : Nat) (at8 : BitVec 8) (s : State) : Out :=
  let w := wordN (op + 256 * at8.toNat)
  onLane s l (fun L => L.guardW q (R.leBankCmd e) w (fun L => L.wLeBankCmd e w))

def execSeal (l : Lane) (e : Fin 2) (q : Req) (s : State) : Out := leBankCommand l e q 1 0 s
def execUnseal (l : Lane) (e : Fin 2) (q : Req) (s : State) : Out := leBankCommand l e q 2 0 s
def execSwap (l : Lane) (e : Fin 2) (q : Req) (at8 : BitVec 8) (s : State) : Out := leBankCommand l e q 3 at8 s

/-- The check of the inactive bank completes, or (`atLock`) the check of bank A at LE_LOCK; a passed check of bank A
shows its sequence number (R205, R206, R209, assumption 18). -/
def execBankCheckComplete (l : Lane) (e : Fin 2) (atLock : Bool) (s : State) : Out :=
  onLane s l (fun L =>
    if atLock then
      L.when ((L.le e).check == 1) (fun L =>
        if L.bankOk e 0 then
          (L.mapLe e (fun E => { E with check := 2 })).put (R.leBankStat_seq e) (L.load (leBank e 0 + 4) 2)
        else (L.mapLe e (fun E => { E with check := 3 })).flag (R.leStat_crc_fail e))
    else
      L.when (L.get (R.leBankStat_ibs e) == 1) (fun L =>
        if L.bankOk e (1 - L.activeBank e) then L.put (R.leBankStat_ibs e) 2
        else ((L.put (R.leBankStat_ibs e) 0).flag (R.leStat_crc_fail e)).setF (R.leBankStat_swap_pend e) false))

/-- A ready swap takes effect at a period boundary at which no loop of the engine blends: from there every loop that
has a set blends from it in the old bank to the set that the new bank gives for its region; the old bank is HELD until
those blends end (R206 to R208, assumption 19). -/
def execSwapTakeEffect (l : Lane) (e : Fin 2) (s : State) : Out :=
  onLane s l (fun L =>
    L.when (L.swapReady e && !L.is (R.leBankStat_blending e) && L.coarse % L.tServo == 0) (fun L =>
      let old := L.activeBank e
      let new := 1 - old
      let L := (L.put (R.leBankStat_active e) new).put (R.leBankStat_seq e) (L.load (leBank e new + 4) 2)
      let L := (L.setF (R.leBankStat_swap_pend e) false).put (R.leSwapPnum_pnum e) L.pnum
      let L := (L.flagIf (decide ((L.le e).swapAt < L.pnum)) (R.leStat_swap_def e)).put (R.leBankStat_ibs e) 3
      let L := (L.le e).inited.foldl (fun M k =>
        let set0 := M.get (R.leLoopStat_set e k)
        let set1 := if M.dSched e k = 0 then 0
          else M.mapSet e new (M.dSched e k - 1) (M.get (R.leLoopStat_r0 e k)) (M.get (R.leLoopStat_r1 e k))
        let M := M.mapLe e (fun E => { E with fromSet := E.fromSet.set k set0, fromBank := E.fromBank.set k old })
        ((M.put (R.leLoopStat_set e k) set1).put (R.leLoopStat_m e k) 0).setF (R.leLoopStat_blending e k) true) L
      L.leBlendUpdate e))

/-! ## Control registers -/

/-- A write of LE_LOCK: the key applies the after-lock access and starts the check of bank A (R209). -/
def LaneState.wLeLock (L : LaneState) (e : Nat) (w : Word) : LaneState :=
  if bits w.toNat 15 0 = 0xC1A5 ∧ !L.locked (R.leLock e) then
    { L with locks := addTo (R.leLock e) L.locks }.mapLe e (fun E => { E with check := 1 })
  else L

def execLeLock (l : Lane) (e : Fin 2) (q : Req) (w : Word) (s : State) : Out :=
  onLane s l (fun L => L.guardW q (R.leLock e) w (fun L => L.wLeLock e w))

/-- LE_CTL.run enables or stops the start of runs (R190). -/
def execLeCtlRun (l : Lane) (e : Fin 2) (q : Req) (run : Bool) (s : State) : Out :=
  let w := wordN (b2n run)
  onLane s l (fun L => L.guardW q (R.leCtl e) w (fun L => L.busWrite q.secure (R.leCtl e) w))

/-- A write of LE_LOOP_EN: a loop that becomes enabled starts afresh: first run, region not initialised, no blend, set
0 (R191, R202). -/
def LaneState.wLeLoopEn (L : LaneState) (e : Nat) (w : Word) : LaneState :=
  let new := bits w.toNat 15 0
  let L := (List.range 16).foldl (fun M k =>
    if bit new k && !M.bitOf (R.leLoopEn_en e) k then
      let M := M.mapLe e (fun E => { E with ran := dropFrom k E.ran, inited := dropFrom k E.inited })
      M.setReg (R.leLoopStat e k) 0
    else M) L
  (L.put (R.leLoopEn_en e) new).leBlendUpdate e

/-- A write of LE_CMD: clr_cnt clears LE_CNT and every LE_LOOP_TIME_k.max (R12). -/
def LaneState.wLeCmd (L : LaneState) (e : Nat) (w : Word) : LaneState :=
  if bit w.toNat 0 then (List.range 16).foldl (fun M k => M.put (R.leLoopTime_max e k) 0) (L.setReg (R.leCnt e) 0)
  else L

def execLeClrCnt (l : Lane) (e : Fin 2) (q : Req) (s : State) : Out :=
  onLane s l (fun L => L.guardW q (R.leCmd e) 1 (fun L => L.wLeCmd e 1))

end Sys2Proof.Machine
end

