-- ==== Sys2Proof/Machine/Cordee.lean ====
section
/-! DEFINITION. The Cordee controller of a lane: frames, the schedule, the star and its guardian, the node and its network
time, and the signals of three networks (R382 to R420). -/

namespace Sys2Proof.Machine

/-- Changes what the Cordee controller keeps beside its registers. -/
def LaneState.mapC (L : LaneState) (f : CdeSt → CdeSt) : LaneState := { L with cde := f L.cde }

/-! ## Frames (R385 to R387) -/

/-- The fields of a Cordee frame. -/
structure Frame where
  etype : Nat
  version : Nat
  ftype : Nat
  sender : Nat
  net : Nat
  fid : Nat
  cycle : Nat
  matrix : Nat
  plen : Nat
  anchor : Bool
  payload : List Byte
deriving DecidableEq, Repr

/-- Byte `i` of a list, 0 past its end. -/
def byteAt (bs : List Byte) (i : Nat) : Nat := (bs.getD i 0).toNat

/-- The fields of a frame from its bytes: addresses 12, EtherType 2, header 8, payload; header fields are sent
most-significant byte first (R385, R386). -/
def parseFrame (bs : List Byte) : Frame :=
  let h (i : Nat) : Nat := byteAt bs (14 + i)
  { etype := 256 * byteAt bs 12 + byteAt bs 13
    version := bits (h 0) 3 0, ftype := bits (h 0) 7 4, sender := bits (h 1) 5 0, net := bits (h 1) 7 6
    fid := 256 * h 2 + h 3
    cycle := bits (256 * h 4 + h 5) 5 0, matrix := bits (256 * h 4 + h 5) 15 6
    plen := h 6, anchor := bit (h 7) 0, payload := (bs.drop 22).take (h 6) }

/-- The bytes of a frame of this node, without preamble and FCS (R385, R386). -/
def buildFrame (etype ftype sender net fid cycle matrix plen : Nat) (anchor : Bool) (payload : List Byte) : List Byte :=
  let b (n : Nat) : Byte := BitVec.ofNat 8 n
  let w := cycle + 64 * (matrix % 1024)
  let body := payload ++ List.replicate (max plen 38 - payload.length) 0
  [b 3, 0, 0, 0, 0, b net, b 2, 0, 0, 0, b net, b sender, b (etype / 256), b etype, b (1 + 16 * ftype),
    b (sender + 64 * net), b (fid / 256), b fid, b (w / 256), b w, b plen, b (b2n anchor)] ++ body

/-- The time from the SFD to the end of a frame in fine steps: 80 ns for each byte, FCS included (R387). -/
def frameSpan (bs : List Byte) : Nat := 1024 * (bs.length + 4)

/-- A word of a payload, little-endian (R385). -/
def payloadWord (p : List Byte) (i : Nat) : Word :=
  wordN (byteAt p (4 * i) + 256 * byteAt p (4 * i + 1) + 65536 * byteAt p (4 * i + 2) + 16777216 * byteAt p (4 * i + 3))

/-- A 64-bit little-endian number of a payload. -/
def payload64 (p : List Byte) (i : Nat) : Nat := (payloadWord p i).toNat + 2 ^ 32 * (payloadWord p (i + 1)).toNat

/-- The little-endian bytes of a number. -/
def leBytes : Nat → Nat → List Byte
  | 0, _ => []
  | n + 1, v => BitVec.ofNat 8 v :: leBytes n (v / 256)

/-! ## Configuration and network time (R389, R390, R400) -/

/-- The network of the node; 3 acts as 0. -/
def LaneState.cdeNet (L : LaneState) : Nat := if L.get R.cdeCfg_net = 3 then 0 else L.get R.cdeCfg_net

/-- The guard in units of 20 ns, clamped to 25 to 250. -/
def LaneState.cdeGuard (L : LaneState) : Nat := max 25 (min 250 (L.get R.cdeGuard_guard))

/-- T_bc in units of 20 ns, and M. -/
def LaneState.cdeBc (L : LaneState) : Nat := L.get R.cdeCycle_bc
def LaneState.cdeM (L : LaneState) : Nat := L.get R.cdeCycle_m

/-- Network time minus lane time in fine steps, CDE_NTOFS. -/
def LaneState.ntOfs (L : LaneState) : Int :=
  sext 64 ((L.reg R.cdeNtofsLo).toNat + 2 ^ 32 * (L.reg R.cdeNtofsHi).toNat)

/-- Sets CDE_NTOFS. -/
def LaneState.setNtOfs (L : LaneState) (v : Int) : LaneState :=
  let n := wrapTo 64 v
  (L.setReg R.cdeNtofsLo (wordN n)).setReg R.cdeNtofsHi (wordN (n / 2 ^ 32))

/-- The network time of a lane time, in fine steps. -/
def LaneState.netTime (L : LaneState) (t : Nat) : Nat := wrapTo 64 ((t : Int) + L.ntOfs)

/-- Basic-cycle index, matrix count and offset in the basic cycle (in fine steps) of a lane time (R389). -/
def LaneState.cycleOf (L : LaneState) (t : Nat) : Nat := L.netTime t / (256 * L.cdeBc) % atLeast1 L.cdeM
def LaneState.matrixOf (L : LaneState) (t : Nat) : Nat := L.netTime t / (256 * L.cdeBc) / atLeast1 L.cdeM % 1024
def LaneState.inCycle (L : LaneState) (t : Nat) : Nat := L.netTime t % (256 * L.cdeBc)

/-- Word `i` of a window entry, and of a receive-map entry. -/
def LaneState.winW (L : LaneState) (w i : Nat) : Nat := (L.word (0x20340000 + 16 * w + 4 * i)).toNat
def LaneState.rxW (L : LaneState) (e i : Nat) : Nat := (L.word (0x20340800 + 16 * e + 4 * i)).toNat

def LaneState.wStart (L : LaneState) (w : Nat) : Nat := bits (L.winW w 0) 15 0
def LaneState.wLen (L : LaneState) (w : Nat) : Nat := bits (L.winW w 0) 31 16
def LaneState.wArb (L : LaneState) (w : Nat) : Bool := bit (L.winW w 1) 0
def LaneState.wEn (L : LaneState) (w : Nat) : Bool := bit (L.winW w 1) 1
def LaneState.wSender (L : LaneState) (w : Nat) : Nat := bits (L.winW w 1) 7 2
def LaneState.wSync (L : LaneState) (w : Nat) : Bool := bit (L.winW w 1) 17
def LaneState.wTx (L : LaneState) (w : Nat) : Bool := bit (L.winW w 1) 18
def LaneState.wAlways (L : LaneState) (w : Nat) : Bool := bit (L.winW w 1) 19
def LaneState.wFid (L : LaneState) (w : Nat) : Nat := bits (L.winW w 2) 15 0
def LaneState.wPlen (L : LaneState) (w : Nat) : Nat := bits (L.winW w 2) 23 16
def LaneState.wSrc (L : LaneState) (w : Nat) : Nat := bits (L.winW w 3) 17 0
def LaneState.wNw (L : LaneState) (w : Nat) : Nat := bits (L.winW w 3) 23 18

/-- Whether a window is active in basic cycle `i` (R390). -/
def LaneState.wActive (L : LaneState) (w i : Nat) : Bool :=
  L.wEn w && i % 2 ^ bits (L.winW w 1) 16 14 == bits (L.winW w 1) 13 8

def windows : List Nat := List.range 128

/-- The identifiers listed in CDE_COLD and in CDE_SYNCN; 0 lists none. -/
def idsOf (w : Word) : List Nat :=
  [bits w.toNat 5 0, bits w.toNat 13 8, bits w.toNat 21 16, bits w.toNat 29 24].filter (· ≠ 0)
def LaneState.coldIds (L : LaneState) : List Nat := idsOf (L.reg R.cdeCold)
def LaneState.syncIds (L : LaneState) : List Nat := idsOf (L.reg R.cdeSyncn)

/-- The node of a port: CDE_PORTMAP, and on P6 the lane's node (R382, R384). -/
def LaneState.portNode (L : LaneState) (p : Nat) : Nat :=
  if p < 4 then bits (L.reg R.cdePortmap0).toNat (8 * p + 5) (8 * p)
  else if p < 6 then bits (L.reg R.cdePortmap1).toNat (8 * (p - 4) + 5) (8 * (p - 4))
  else L.get R.cdeCfg_node_id

/-- The delay of a port in fine steps; 0 on P6. -/
def LaneState.portDelay (L : LaneState) (p : Nat) : Nat :=
  if 6 ≤ p then 0
  else
    let w := (L.reg (if p < 2 then R.cdePdly0 else if p < 4 then R.cdePdly1 else R.cdePdly2)).toNat
    if p % 2 = 0 then bits w 15 0 else bits w 31 16

/-- The uplink port; 6 and 7 act as 0. -/
def LaneState.uplink (L : LaneState) : Nat := if 6 ≤ L.get R.cdeCfg_uplink then 0 else L.get R.cdeCfg_uplink

/-! ## Node and star states (R403, R405) -/

def nodeOff : Nat := 0
def nodeListen : Nat := 1
def nodeCold : Nat := 2
def nodeIntegrate : Nat := 3
def nodeSynced : Nat := 4
def nodeOut : Nat := 5
def nodeAnchor : Nat := 6
def starQuiet : Nat := 1
def starStartup : Nat := 2
def starRun : Nat := 3

def LaneState.node (L : LaneState) : Nat := L.get R.cdeState_node
def LaneState.star (L : LaneState) : Nat := L.get R.cdeState_star

/-- The node changes its state; SYNCED and ANCHOR start the star's schedule, LISTEN returns it to QUIET (R405). -/
def LaneState.setNode (L : LaneState) (n : Nat) : LaneState :=
  let L := (L.put R.cdeState_node n).mapC (fun C => { C with coldSent := false })
  let L := if n = nodeListen then L.mapC (fun C => { C with listenAt := L.coarse, hold := 0, okRun := 0 }) else L
  if L.star = 0 then L
  else if n = nodeListen then L.put R.cdeState_star starQuiet
  else if n = nodeAnchor then L.put R.cdeState_star starRun
  else if n = nodeSynced && L.star == starStartup then L.put R.cdeState_star starRun
  else L

/-- The listen timeout t_L in coarse ticks: the greater of two matrix cycles and 50 ms (R403). -/
def LaneState.tListen (L : LaneState) : Nat := max (8 * L.cdeM * L.cdeBc) 10000000

/-! ## Copies and the receive map (R413 to R415) -/

def LaneState.rxFid (L : LaneState) (e : Nat) : Nat := bits (L.rxW e 0) 15 0
def LaneState.rxNets (L : LaneState) (e : Nat) : Nat := bits (L.rxW e 0) 18 16
def LaneState.rxMode (L : LaneState) (e : Nat) : Nat := bits (L.rxW e 0) 20 19
def LaneState.rxW0 (L : LaneState) (e : Nat) : Nat := bits (L.rxW e 0) 26 21
def LaneState.rxDst (L : LaneState) (e : Nat) : Nat := bits (L.rxW e 1) 17 0
def LaneState.rxNw (L : LaneState) (e : Nat) : Nat := bits (L.rxW e 1) 24 18
def LaneState.rxDec (L : LaneState) (e : Nat) : Nat := bits (L.rxW e 2) 15 0

/-- Whether an entry is due in basic cycle `i`. -/
def LaneState.rxDue (L : LaneState) (e i : Nat) : Bool := i % 2 ^ bits (L.rxW e 2) 24 22 == bits (L.rxW e 2) 21 16

/-- The entries that a frame of a network concerns in basic cycle `i`. -/
def LaneState.rxEntries (L : LaneState) (net fid i : Nat) : List Nat :=
  (List.range 512).filter (fun e =>
    L.rxMode e != 3 && L.rxFid e == fid && bit (L.rxNets e) net && L.rxDue e i)

/-- The state of an entry in this cycle. -/
def CdeSt.rxSt (C : CdeSt) (e : Nat) : RxSt := (C.rx.find? (fun r => r.entry == e)).getD { entry := e }

/-- Replaces the state of an entry. -/
def CdeSt.setRx (C : CdeSt) (r : RxSt) : CdeSt := { C with rx := C.rx.filter (fun s => s.entry != r.entry) ++ [r] }

/-- A copy of an entry arrives: it is compared with the others, and the entry is written once per cycle by its mode
(R415). -/
def LaneState.rxCopy (L : LaneState) (e net : Nat) (payload : List Byte) : LaneState :=
  let r := L.cde.rxSt e
  if r.copies.any (fun c => c.1 == net) then L
  else
    let ws := (List.range (L.rxNw e)).map (fun i => payloadWord payload (L.rxW0 e + i))
    let differs := r.copies.any (fun c => c.2 != ws)
    let agrees := r.copies.any (fun c => c.2 == ws)
    let write := !r.written && !r.decided && (L.rxMode e == 0 || agrees)
    let L := L.flagIf differs R.cdeStat_rx_mismatch
    let L := if write then L.setSigs (L.rxDst e) ws else L
    L.mapC (fun C => C.setRx { r with
      copies := r.copies ++ [(net, ws)], written := r.written || write, mismatch := r.mismatch || differs })

/-- The copies of a DATA frame of a network in a basic cycle. -/
def LaneState.rxFrame (L : LaneState) (net fid i : Nat) (payload : List Byte) : LaneState :=
  (L.rxEntries net fid i).foldl (fun (M : LaneState) e => M.rxCopy e net payload) L

/-! ## Reception by the node (R388, R399, R403, R412) -/

/-- Whether a frame is valid at the node (R388). While it listens the node has no network time of its own, and the cycle
fields are not compared (assumption 46). -/
def LaneState.frameValid (L : LaneState) (f : Frame) (fcsOk : Bool) (sfd : Nat) : Bool :=
  let n := L.node
  let t := L.inCycle sfd
  let i := L.cycleOf sfd
  let timed := !(n == nodeListen || n == nodeCold)
  fcsOk && f.version == 1 && decide (f.ftype ≤ 2) && decide (8 ≤ f.plen ∧ f.plen ≤ 254) &&
    f.etype == L.get R.cdeEtype_etype && f.net == L.cdeNet &&
    (!timed || (f.cycle == i && f.matrix == L.matrixOf sfd)) &&
    (f.ftype != 0 || windows.any (fun w =>
      L.wActive w i && L.wFid w == f.fid && (L.wArb w || L.wSender w == f.sender) &&
        decide (256 * L.wStart w ≤ t + 256 * L.cdeGuard ∧ t ≤ 256 * (L.wStart w + L.wLen w))))

/-- The node integrates on a frame: its network time steps to the frame's origin time plus its correction (R403). -/
def LaneState.integrate (L : LaneState) (f : Frame) (corr : Int) (arr : Nat) : LaneState :=
  let origin : Int := payload64 f.payload 0
  ((L.setNtOfs (origin + corr - arr)).setNode nodeIntegrate).mapC (fun C => { C with
    syncs := [], hold := 0, okRun := 0, rate := 0, stepBy := none })

/-- A frame reaches the lane's node. `sfd`: at the star's input; `arr`: at the node, its receive delay taken off;
`added`: what the star adds to the correction (R398). Invalid frames are discarded and counted. -/
def LaneState.nodeReceive (L : LaneState) (bytes : List Byte) (fcsOk : Bool) (sfd arr added : Nat) (relay : Bool) :
    LaneState :=
  let f := parseFrame bytes
  let n := L.node
  if n = nodeOff then L
  else if !L.frameValid f fcsOk sfd then L.count R.cdeCnt_rx_inv
  else
    let i := L.cycleOf sfd
    let L := L.mapC (fun C => { C with seen := addTo L.cdeNet C.seen, listenAt := L.coarse })
    if f.ftype = 0 then
      let L := L.rxFrame L.cdeNet f.fid i f.payload
      if relay && L.is R.cdeCfg_relay_en && f.sender != L.get R.cdeCfg_node_id &&
          !(L.rxEntries L.cdeNet f.fid i).isEmpty then
        L.queueMsg rankRelay (.relay L.cdeNet f.fid i f.payload)
      else L
    else
      let corr : Int := (payloadWord f.payload 2).toInt + added
      if n = nodeListen then L.integrate f corr arr
      else if n = nodeCold then
        if f.ftype = 2 && f.sender != L.get R.cdeCfg_node_id then (L.integrate f corr arr).flag R.cdeStat_cs_lost else L
      else if f.ftype = 1 && n != nodeAnchor then
        let origin : Int := payload64 f.payload 0
        let d : Int := sext 64 (wrapTo 64 ((L.netTime arr : Int) - origin - corr))
        L.mapC (fun C => { C with syncs := C.syncs ++ [(f.anchor, d)] })
      else L

/-! ## The star (R394, R395, R405, R407 to R409) -/

/-- Whether a window lets a port send: an exclusive one only the port of its sender (R407). -/
def LaneState.wAllows (L : LaneState) (w p : Nat) : Bool := L.wArb w || (L.portNode p != 0 && L.wSender w == L.portNode p)

/-- The windows of basic cycle `i` that let a port send. -/
def LaneState.portWindows (L : LaneState) (p i : Nat) : List Nat := windows.filter (fun w => L.wActive w i && L.wAllows w p)

/-- A violation of a port: the third in a row isolates it (R409). -/
def LaneState.violation (L : LaneState) (p : Nat) : LaneState :=
  let n := L.cde.viol.get p + 1
  let L := L.mapC (fun C => { C with viol := C.viol.set p n, bad := addTo p C.bad })
  if 3 ≤ n && !L.bitOf R.cdeState_iso p then
    ((L.setBit R.cdeState_iso p true).flag R.cdeStat_isolate).mapC (fun C => { C with clean := C.clean.set p 0 })
  else L

/-- Whether the nearest acceptance interval of a port lies after a time of the cycle: EARLY, else LATE (R407). -/
def LaneState.isEarly (L : LaneState) (p i t : Nat) : Bool :=
  let g := 256 * L.cdeGuard
  let bc := 256 * L.cdeBc
  let next := (i + 1) % atLeast1 L.cdeM
  let ahead := ((L.portWindows p i).filterMap (fun w =>
      if t + g < 256 * L.wStart w then some (256 * L.wStart w - g - t) else none)) ++
    (L.portWindows p next).map (fun w => bc + 256 * L.wStart w - g - t)
  let behind := (L.portWindows p i).filterMap (fun w =>
    if 256 * L.wStart w + g < t then some (t - (256 * L.wStart w + g)) else none)
  match ahead with
  | [] => false
  | a :: as => match behind with
    | [] => true
    | b :: bs => decide (as.foldl min a < bs.foldl min b)

/-- A frame leaves the star toward the other ports; on P6 the lane's node receives it. -/
def LaneState.starForward (L : LaneState) (F : StarFrame) (toSource : Bool) (arr : Nat) : LaneState :=
  if F.port = 6 && !toSource then L
  else L.nodeReceive F.bytes F.fcsOk F.sfd arr (15360 + L.portDelay F.port) true

/-- The guardian in RUN (R384, R394, R395, R407): a frame of another sender than the port's node, or outside every
acceptance interval, is blocked and counted; an accepted frame of an exclusive window is forwarded cut-through, one of an
arbitrating window opens the gap or is held in it. -/
def LaneState.guardian (L : LaneState) (F : StarFrame) (arr : Nat) : LaneState :=
  let f := parseFrame F.bytes
  let p := F.port
  let i := L.cycleOf F.sfd
  let t := L.inCycle F.sfd
  let g := 256 * L.cdeGuard
  if f.sender != L.portNode p || L.portNode p == 0 then (L.count (R.cdePcnt_late p)).violation p
  else match (L.portWindows p i).find? (fun w => decide (256 * L.wStart w ≤ t + g ∧ t ≤ 256 * L.wStart w + g)) with
    | none =>
      let L := if L.isEarly p i t then L.count (R.cdePcnt_early p) else L.count (R.cdePcnt_late p)
      L.violation p
    | some w =>
      let F := { F with window := w }
      if L.wArb w && L.cde.gap == some (w, false) then L.count (R.cdePcnt_arb_late p)
      else
        let L := L.mapC (fun C => { C with viol := C.viol.set p 0, sent := addTo (p, w) C.sent })
        if L.bitOf R.cdeState_iso p then L
        else if L.wArb w then
          L.mapC (fun C => { C with
            held := (if C.gap = some (w, true) then C.held else []) ++ [F], gap := some (w, true) })
        else if t + frameSpan F.bytes ≤ 256 * (L.wStart w + L.wLen w) then L.starForward F false arr
        else L.mapC (fun C => { C with running := some F })

/-- The star outside RUN (R405): QUIET forwards a COLDSTART of a listed port, one per 10 ms, and passes to STARTUP;
STARTUP forwards SYNC and COLDSTART of listed ports, one per port and basic cycle. -/
def LaneState.starIdle (L : LaneState) (F : StarFrame) (arr : Nat) : LaneState :=
  let f := parseFrame F.bytes
  let p := F.port
  let node := L.portNode p
  let now := F.sfd / 64
  if f.sender != node || node == 0 then (L.count (R.cdePcnt_late p)).violation p
  else if L.star = starQuiet then
    if f.ftype != 2 || !decide (node ∈ L.coldIds) then L
    else if L.cde.lastCold.any (fun q => q.1 == p && decide (now < q.2 + 2000000)) then L.count (R.cdePcnt_babble p)
    else
      let L := (L.put R.cdeState_star starStartup).mapC (fun C => { C with
        lastCold := C.lastCold.set p now, startupAt := L.coarse, startupSeen := [p], coldStamp := some (F.sfd / 128) })
      let L := L.flagIf (p == 6) R.cdeStat_cs_won
      L.starForward F false arr
  else
    let listed := (f.ftype == 2 && decide (node ∈ L.coldIds)) || (f.ftype == 1 && decide (node ∈ L.syncIds))
    if !listed || L.cde.coldStamp == some (F.sfd / 128) then L
    else if p ∈ L.cde.startupSeen then (if f.ftype = 2 then L.count (R.cdePcnt_babble p) else L)
    else
      let L := L.mapC (fun C => { C with startupSeen := addTo p C.startupSeen })
      let L := L.flagIf (p == 6 && f.ftype == 2) R.cdeStat_cs_won
      L.starForward F false arr

/-- A frame enters the star at a port, by the state of the star. -/
def LaneState.starReceive (L : LaneState) (F : StarFrame) (arr : Nat) : LaneState :=
  if L.star = starRun then L.guardian F arr
  else if L.star = starQuiet ∨ L.star = starStartup then L.starIdle F arr
  else L

/-- A frame is received at a port: by the star, or by the node of a lane without a star at its uplink (R388, R420).
`sfd`: its SFD at the port; `arr`: at the node's receive path. -/
def execCordeeFrameReceived (l : Lane) (port : Fin 6) (bytes : List Byte) (fcsOk : Bool) (sfd arr : BitVec 64)
    (s : State) : Out :=
  onLane s l (fun L =>
    if L.is R.cdeCfg_star_en then L.starReceive ⟨port, bytes, fcsOk, sfd.toNat, 0⟩ arr.toNat
    else if port.val = L.uplink then
      L.nodeReceive bytes fcsOk (sfd.toNat - L.portDelay port) (arr.toNat - L.portDelay port) 0 true
    else L)

/-- A forwarded frame that still runs at its window's end is truncated: invalid at every receiver, and BABBLE of its
port (R408). -/
def execWindowEndTruncate (l : Lane) (s : State) : Out :=
  onLane s l (fun L => match L.cde.running with
    | some F =>
      let L := ((L.mapC (fun C => { C with running := none })).count (R.cdePcnt_babble F.port)).violation F.port
      if F.port = 6 then L else L.count R.cdeCnt_rx_inv
    | none => L)

/-- The arbitration gap closes 2.0 µs after its first frame (R395). -/
def execArbGapClose (l : Lane) (s : State) : Out :=
  onLane s l (fun L => match L.cde.gap with
    | some (w, true) => L.mapC (fun C => { C with gap := some (w, false) })
    | _ => L)

/-- The held frame that wins: the lowest frame ID, then the lower sender (R395). -/
def arbWinner : List StarFrame → Option StarFrame
  | [] => none
  | F :: rest =>
    match arbWinner rest with
    | none => some F
    | some G =>
      let f := parseFrame F.bytes
      let g := parseFrame G.bytes
      if g.fid < f.fid ∨ (g.fid = f.fid ∧ g.sender < f.sender) then some G else some F

/-- The star forwards the winner to every port, its source included; the others are discarded. The node removes its
frame when the echo shows that it won, and keeps it when it lost (R395, R396). -/
def execArbForward (l : Lane) (arr : BitVec 64) (s : State) : Out :=
  onLane s l (fun L => match L.cde.gap, arbWinner L.cde.held with
    | some (_, false), some F =>
      let own := F.port == 6
      let L := match L.cde.offered with
        | some fid =>
          let L := L.flagIf (!own) R.cdeStat_arb_lost
          L.mapC (fun C => { C with queue := if own then C.queue.filter (fun q => q.1 != fid) else C.queue })
        | none => L
      (L.mapC (fun C => { C with held := [], offered := none })).starForward F true arr.toNat
    | _, _ => L)

/-! ## Sending (R392, R393, R396, R398, R404) -/

/-- Whether the node sends: SYNCED or ANCHOR, and for a DATA frame in a lane state that drives or serves, or always
(R393, R403, R410). -/
def LaneState.nodeSends (L : LaneState) (w : Nat) : Bool :=
  (L.node == nodeSynced || L.node == nodeAnchor) &&
    (L.wSync w || L.wAlways w || driving L.belay || L.belay == bsService)

/-- The node samples the source signals of a tx window in one transaction; a frame of an arbitrating window joins the
queue of 8 (R392, R396). `start`: lane time of the window's start. -/
def execTxSample (l : Lane) (w : Fin 128) (start : BitVec 64) (s : State) : Out :=
  onLane s l (fun L =>
    L.when (L.wTx w && L.wActive w (L.cycleOf start.toNat) && L.nodeSends w && !L.wSync w) (fun L =>
      let ws := L.sigsFrom (L.wSrc w) (L.wNw w)
      let body := (ws.flatMap wordBytes) ++ List.replicate (L.wPlen w - 4 * L.wNw w) 0
      if !L.wArb w then L.mapC (fun C => { C with sampled := some (w.val, body) })
      else
        let fid := L.wFid w
        if L.cde.queue.any (fun q => q.1 == fid) then
          (L.flag R.cdeStat_arb_repl).mapC (fun C => { C with
            queue := C.queue.map (fun q => if q.1 = fid then (fid, body) else q) })
        else if 8 ≤ L.cde.queue.length then L.flag R.cdeStat_arb_drop
        else L.mapC (fun C => { C with queue := C.queue ++ [(fid, body)] })))

/-- The payload of a SYNC or COLDSTART frame: origin time, correction 0, node state (R398, R404). -/
def LaneState.syncPayload (L : LaneState) (sfd : Nat) : List Byte :=
  leBytes 8 (L.netTime sfd) ++ leBytes 4 0 ++ leBytes 4 L.node

/-- The bytes of a frame of this node. -/
def LaneState.ownFrame (L : LaneState) (ftype fid plen sfd : Nat) (payload : List Byte) : List Byte :=
  buildFrame (L.get R.cdeEtype_etype) ftype (L.get R.cdeCfg_node_id) L.cdeNet fid (L.cycleOf sfd) (L.matrixOf sfd) plen
    (L.node == nodeAnchor) payload

/-- The pending frame of lowest frame ID. -/
def lowestFid : List (Nat × List Byte) → Option (Nat × List Byte)
  | [] => none
  | q :: qs =>
    match lowestFid qs with
    | none => some q
    | some r => if r.1 < q.1 then some r else some q

/-- A frame of the node goes to its star at P6, or out of its uplink. -/
def LaneState.nodeEmit (L : LaneState) (bytes : List Byte) (sfd arr : Nat) : LaneState :=
  if L.is R.cdeCfg_star_en then L.starReceive ⟨6, bytes, true, sfd, 0⟩ arr else L

/-- The node sends its frame so that its SFD reaches the star at the window's start `start` (R392, R396, R398). -/
def execFrameSend (l : Lane) (w : Fin 128) (start arr : BitVec 64) (s : State) : Out :=
  onLane s l (fun L =>
    let t := start.toNat
    L.when (L.wTx w && L.wActive w (L.cycleOf t) && L.nodeSends w) (fun L =>
      if L.wSync w then L.nodeEmit (L.ownFrame 1 (L.wFid w) 16 t (L.syncPayload t)) t arr.toNat
      else if L.wArb w then
        match lowestFid L.cde.queue with
        | some (fid, body) =>
          (L.mapC (fun C => { C with offered := some fid })).nodeEmit (L.ownFrame 0 fid body.length t body) t arr.toNat
        | none => L
      else match L.cde.sampled with
        | some (v, body) =>
          if v = w.val then
            (L.mapC (fun C => { C with sampled := none })).nodeEmit (L.ownFrame 0 (L.wFid w) (L.wPlen w) t body) t arr.toNat
          else L
        | none => L))

/-- The node sends one COLDSTART frame if it is listed in CDE_COLD (R403, R404). -/
def execColdstartSend (l : Lane) (sfd : BitVec 64) (s : State) : Out :=
  onLane s l (fun L =>
    L.when (L.node == nodeCold && !L.cde.coldSent && decide (L.get R.cdeCfg_node_id ∈ L.coldIds)) (fun L =>
      let t := sfd.toNat
      (L.nodeEmit (L.ownFrame 2 0 16 t (L.syncPayload t)) t t).mapC (fun C => { C with coldSent := true })))

/-! ## Network time at a basic-cycle boundary (R399, R403, R409, R410) -/

/-- D of the finished cycle: the anchor's, else the fault-tolerant middle of the valid ones. -/
def cycleD (syncs : List (Bool × Int)) : Option Int :=
  match syncs.find? (fun p => p.1) with
  | some p => some p.2
  | none =>
    match sortBy (fun a b => a ≤ b) (syncs.map (·.2)) with
    | [] => none
    | [a] => some a
    | [a, b] => some (divOpen (a + b) 2)
    | [_, b, _] => some b
    | _ :: b :: c :: _ => some (divOpen (b + c) 2)

/-- A network time of 500 ppm in units of 2^−32. -/
def cdeRateMax : Int := 2147484

/-- The correction of the network time of a node that synchronises. -/
def LaneState.ntCorrect (L : LaneState) : LaneState :=
  let bc : Nat := 256 * L.cdeBc
  let L := L.setNtOfs (L.ntOfs + divOpen (L.cde.rate * bc) (2 ^ 32))
  let L := match L.cde.stepBy with
    | some d => (L.setNtOfs (L.ntOfs - d)).mapC (fun C => { C with stepBy := none })
    | none => L
  match cycleD L.cde.syncs with
  | none =>
    let h := L.cde.hold + 1
    let L := L.mapC (fun C => { C with hold := h, okRun := 0 })
    if atLeast1 (L.get R.cdeSync_hold) ≤ h then L.setNode nodeListen else L
  | some d =>
    let L := (L.setReg R.cdeDev (wordI d)).mapC (fun C => { C with hold := 0 })
    if 128 * L.cdeGuard < d.natAbs then
      ((L.setNode nodeOut).flag R.cdeStat_node_out_of_sync).mapC (fun C => { C with okRun := 0, stepBy := some d })
    else
      let slew : Int := 64 * L.get R.cdeSync_slew
      let L := L.setNtOfs (L.ntOfs - clampI (-slew) slew (divOpen d 2))
      let L := L.mapC (fun C => { C with
        okRun := C.okRun + 1
        rate := clampI (-cdeRateMax) cdeRateMax (C.rate - divOpen (d * 2 ^ 32) (4 * bc)) })
      if L.node != nodeSynced && 2 ≤ L.cde.okRun then L.setNode nodeSynced else L

/-- The end of a basic cycle at the guardian: an isolated port whose node has sent in all its windows of 2 consecutive
cycles without a violation is no longer isolated (R409). -/
def LaneState.isoUpdate (L : LaneState) (i : Nat) : LaneState :=
  (List.range 7).foldl (fun (M : LaneState) p =>
    let own := windows.filter (fun w => M.wActive w i && !M.wArb w && M.wSender w == M.portNode p)
    let ok := own.all (fun w => decide ((p, w) ∈ M.cde.sent)) && !decide (p ∈ M.cde.bad)
    let run := if ok then M.cde.clean.get p + 1 else 0
    let M := M.mapC (fun C => { C with clean := C.clean.set p run })
    if M.bitOf R.cdeState_iso p && 2 ≤ run then
      (M.setBit R.cdeState_iso p false).mapC (fun C => { C with viol := C.viol.set p 0 })
    else M) L

/-- A basic-cycle boundary at lane time `now`: the runs of the networks, the guardian's cycle, the node's D and its
correction, and the entries of the finished cycle (R399, R409, R417). -/
def execBasicCycleBoundary (l : Lane) (now : BitVec 64) (s : State) : Out :=
  onLane s l (fun L => L.when (L.node != nodeOff) (fun L =>
    let t := now.toNat
    let i := L.cycleOf (t - 256 * L.cdeBc)
    let L := L.mapC (fun C => { C with
      lostRun := [0, 1, 2].foldl (fun (m : NMap) y => m.set y (if y ∈ C.seen then 0 else m.get y + 1)) C.lostRun
      seenRun := [0, 1, 2].foldl (fun (m : NMap) y => m.set y (if y ∈ C.seen then m.get y + 1 else 0)) C.seenRun
      seen := [] })
    let L := L.isoUpdate i
    let n := L.node
    let L := if n == nodeIntegrate || n == nodeSynced || n == nodeOut then L.ntCorrect else L
    L.mapC (fun C => { C with
      syncs := [], sent := [], bad := [], startupSeen := [], rx := [], gap := none, held := [], offered := none })))

/-- t_L without a valid frame in LISTEN starts a coldstart where cs_en is 1 (R403). -/
def execListenTimeout (l : Lane) (s : State) : Out :=
  onLane s l (fun L =>
    L.when (L.node == nodeListen && L.is R.cdeCfg_cs_en && decide (L.cde.listenAt + L.tListen ≤ L.coarse))
      (fun L => L.setNode nodeCold))

/-- 20 µs after its COLDSTART without a foreign one the node enters SYNCED (R403). -/
def execColdstartWindowEnd (l : Lane) (s : State) : Out :=
  onLane s l (fun L => L.when (L.node == nodeCold && L.cde.coldSent) (fun L => L.setNode nodeSynced))

/-- The anchor of a network enters ANCHOR while its lane is neither in BOOT nor in SYNC; it holds CDE_NTOFS = 0. A network
that ran on another time is re-anchored (R397, R400, R406). -/
def execAnchorEnter (l : Lane) (s : State) : Out :=
  onLane s l (fun L =>
    L.when (L.node != nodeOff && L.node != nodeAnchor && L.is R.cdeCfg_anchor && L.belay != bsBoot && L.belay != bsSync)
      (fun L =>
        let ran := L.node == nodeIntegrate || L.node == nodeSynced || L.node == nodeOut
        (((L.flagIf ran R.cdeStat_reanchor).setNtOfs 0).setNode nodeAnchor).mapC (fun C => { C with
          rate := 0, stepBy := none, syncs := [], hold := 0 })))

/-- 2 × t_L in STARTUP without the node reaching SYNCED or ANCHOR returns the star to QUIET (R405). -/
def execStarStartupTimeout (l : Lane) (s : State) : Out :=
  onLane s l (fun L =>
    L.when (L.star == starStartup && decide (L.cde.startupAt + 2 * L.tListen ≤ L.coarse))
      (fun L => L.put R.cdeState_star starQuiet))

/-! ## Relay, decisions and lost networks (R412, R415 to R417) -/

/-- A relayed copy arrives over Rope; one that fails its CRC is discarded (R412). It counts as a valid frame of its
network and as a copy of its basic cycle. -/
def execRelayReceived (l : Lane) (k : Link) (crcOk : Bool) (now : BitVec 64) (s : State) : Out :=
  match s.arriving (l.peer k) l with
  | .relay net fid cycle payload :: rest =>
    onLane (s.setFlight (l.peer k) l rest) l (fun L =>
      let L := if crcOk then L
        else
          let L := L.mapLink k (fun K => { K with errs := K.errs + 1 })
          let L := match k with
            | .l0 => (L.flag R.ropeStat0_crc_evt).count R.ropeCnt0_crc
            | .l1 => (L.flag R.ropeStat1_crc_evt).count R.ropeCnt1_crc
          (L.flag R.cdeStat_relay_drop).count R.cdeCnt_relay
      if !crcOk || L.node == nodeOff then L
      else
        let L := L.mapC (fun C => { C with seen := addTo net C.seen })
        if cycle = L.cycleOf now.toNat then L.rxFrame net fid cycle payload else L)
  | _ => .next s

/-- The decision of an entry at dec: a single copy of a 2OF3 entry with every other expected copy missing is written, and
the status word is formed (R415, R416). -/
def execRxDecision (l : Lane) (e : Fin 512) (now : BitVec 64) (s : State) : Out :=
  onLane s l (fun L =>
    L.when (L.cde.started && L.rxMode e != 3 && L.rxDue e (L.cycleOf now.toNat)) (fun L =>
      let r := L.cde.rxSt e
      let single := !r.written && L.rxMode e == 1 && r.copies.length == 1
      let L := if single then L.setSigs (L.rxDst e) ((r.copies.map (·.2)).headD []) else L
      let r := { r with written := r.written || single, degraded := single, decided := true }
      let age := if r.written then 0 else min 255 (L.cde.age.get e + 1)
      let copies := r.copies.foldl (fun a c => a + 2 ^ c.1) 0
      let L := L.setSig (0x38400 + e) (wordN (age + 256 * copies + 2048 * b2n r.mismatch + 4096 * b2n r.degraded))
      L.mapC (fun C => { C.setRx r with age := C.age.set e age })))

/-- 3 consecutive basic cycles without a valid frame mark a network lost (R417). -/
def execNetworkLost (l y : Lane) (s : State) : Out :=
  onLane s l (fun L =>
    L.when (decide (3 ≤ L.cde.lostRun.get y.idx) && L.bitOf R.cdeState_net_ok y.idx)
      (fun L => (L.setBit R.cdeState_net_ok y.idx false).flag R.cdeStat_net_lost))

/-- 3 consecutive basic cycles with valid frames restore a network (R417). -/
def execNetworkRestored (l y : Lane) (s : State) : Out :=
  onLane s l (fun L =>
    L.when (decide (3 ≤ L.cde.seenRun.get y.idx)) (fun L => L.setBit R.cdeState_net_ok y.idx true))

/-! ## CDE_CMD and CDE_LOCK (R12, R391, R414) -/

/-- A write of CDE_CMD: clr_cnt clears the counters. -/
def LaneState.wCdeCmd (L : LaneState) (w : Word) : LaneState :=
  if bit w.toNat 0 then (List.range 7).foldl (fun (M : LaneState) k => M.setReg (R.cdePcnt k) 0) (L.setReg R.cdeCnt 0)
  else L

def execCdeClrCnt (l : Lane) (q : Req) (s : State) : Out :=
  onLane s l (fun L => L.guardW q R.cdeCmd 1 (fun L => L.wCdeCmd 1))

/-- t_frame of a payload length in units of 20 ns (R387). -/
def tFrame (plen : Nat) : Nat := 4 * (34 + max plen 38)

/-- Whether a window passes the check of R391 on its own. -/
def LaneState.winLegal (L : LaneState) (w : Nat) : Bool :=
  let g := L.cdeGuard
  let need := g + (if L.wArb w then 220 else 0) + tFrame (L.wPlen w)
  decide (g ≤ L.wStart w) && decide (L.wStart w + L.wLen w ≤ L.cdeBc) && decide (need ≤ L.wLen w) &&
    (!L.wSync w || (!L.wArb w && decide (L.wSender w ∈ L.syncIds)))

/-- Whether the windows of basic cycle `i` do not overlap, guards included (R391). -/
def LaneState.cycleLegal (L : LaneState) (i : Nat) : Bool :=
  let ws := sortBy (fun v w => L.wStart v ≤ L.wStart w) (windows.filter (fun w => L.wActive w i))
  (ws.zip (ws.drop 1)).all (fun p => decide (L.wStart p.1 + L.wLen p.1 + L.cdeGuard ≤ L.wStart p.2))

/-- Whether a receive-map entry is legal (R414). -/
def LaneState.rxLegal (L : LaneState) (e : Nat) : Bool :=
  L.rxMode e == 3 ||
    (decide (0x10000 ≤ L.rxDst e ∧ L.rxDst e + L.rxNw e ≤ 0x20000 ∧ 1 ≤ L.rxNw e) &&
      decide (L.rxW0 e + L.rxNw e ≤ 64) && decide (L.rxDec e ≤ L.cdeBc) &&
      (L.rxMode e != 2 || decide (2 ≤ ([0, 1, 2].filter (fun y => bit (L.rxNets e) y)).length)))

/-- The check at CDE_LOCK (R389, R391). -/
def LaneState.cdeLegal (L : LaneState) : Bool :=
  decide (1 ≤ L.cdeM ∧ L.cdeM ≤ 64) && decide (5000 ≤ L.cdeBc ∧ L.cdeBc ≤ 50000) &&
    decide (4 * L.cdeBc % L.tServo = 0) &&
    (!L.is R.cdeCfg_anchor || L.is R.cdeCfg_star_en) &&
    windows.all (fun w => !L.wEn w || L.winLegal w) &&
    (List.range L.cdeM).all L.cycleLegal &&
    (List.range 512).all L.rxLegal

/-- A write of CDE_LOCK: the key locks CDE and its tables, checks the schedule and starts the node and the star; a
failure leaves both OFF until reset (R391, R403, R405). -/
def LaneState.wCdeLock (L : LaneState) (w : Word) : LaneState :=
  if bits w.toNat 15 0 ≠ 0xC1A5 ∨ L.locked R.cdeLock then L
  else
    let L := { L with locks := addTo R.cdeLock L.locks }
    if !L.cdeLegal then L.flag R.cdeStat_cfg_err
    else
      let L := L.mapC (fun C => { C with started := true })
      let L := L.put R.cdeState_star (if L.is R.cdeCfg_star_en then starQuiet else 0)
      if L.is R.cdeCfg_node_id then L.setNode nodeListen else L

def execCdeLock (l : Lane) (q : Req) (w : Word) (s : State) : Out :=
  onLane s l (fun L => L.guardW q R.cdeLock w (fun L => L.wCdeLock w))

end Sys2Proof.Machine
end

