-- ==== Sys2Proof/Machine/LaneReset.lean ====
section
/-! DEFINITION. A lane reset: what the lane die loses and what its always-on domain, Cairn memory, eNVM and fuses, and the
bridge die keep (R16, R186, R273, R340, R348, R355, R467, R517, R527, R529, R531, R533, R570, R604). -/

namespace Sys2Proof.Machine

/-- Whether a register keeps its value over a lane reset: SYS_ID, the bridge die's BRG and TRIP, PWR and CAIRN of the
always-on domain, the kept part of MBOX, the last records of TRIAD, the results of BIST, and what SEC and LCS read from
fuses and eNVM. -/
def keptReg (a : Nat) : Bool :=
  a == R.sysId || (0x400E0000 ≤ a && a < 0x40100000) || (0x40140000 ≤ a && a < 0x40160000) ||
    a == R.mboxFull || a == R.mboxColl || a == R.mboxEpoch0 || a == R.mboxEpoch1 ||
    a == R.triadLastMis || a == R.triadLastPc || a == R.triadLastTime ||
    (0x40180100 ≤ a && a < 0x40180158) || a == R.lcsFail || a == R.lcsLog ||
    (0x40170040 ≤ a && a < 0x40170070) || (0x40160014 ≤ a && a < 0x40160020)

/-- Whether a byte of memory keeps its value: eNVM and Cairn memory. -/
def keptByte (a : Nat) : Bool := a < 0x00810000 || (0x28000000 ≤ a && a < 0x28040000)

/-- The registers whose reset value differs from lane to lane: SYS_ID.lane and CDE_CFG (R5, chapter 12). -/
def LaneState.laneRegs (L : LaneState) : LaneState :=
  let i := L.id.idx
  (L.put R.sysId_lane i).setReg R.cdeCfg (wordN (0x100 + 0x40 * i))

/-- The epochs of the triad and the split cores advance (R527). -/
def LaneState.stepEpochs (L : LaneState) : LaneState :=
  ((L.count R.mboxEpoch0_lo).count R.mboxEpoch1_lo).count R.mboxEpoch1_hi

/-- The lane die after a lane reset or a wake. -/
def LaneState.lossReset (L : LaneState) : LaneState :=
  let B := L.bridge
  let M : LaneState :=
    { id := L.id
      regs := L.regs.filter (fun p => keptReg p.1)
      mem := L.mem.filter (fun c => keptByte c.1)
      locks := L.locks.filter (fun a => 0x400E0000 ≤ a && a < 0x40100000)
      time := { oscOk := L.time.oscOk, onRc := L.time.onRc, cairnLatch := L.time.cairnLatch }
      gate := L.gate
      aon := L.aon
      bridge := { B with wire := [], known := [], lathDown := false }
      memSt := { box := L.memSt.box, serial := L.memSt.serial, remap := L.memSt.remap.filter (fun p => p.1 == 5) }
      lcs := { chalCount := L.lcs.chalCount }
      nv := L.nv
      pwr := { L.pwr with waking := [], stalled := [], armedAt := 0, sleepStep := 0, sleepOk := false, avsAt := [], readyAt := [] }
      svc := L.svc }
  let M := M.laneRegs.stepEpochs
  let M := (M.put R.lcsState_lc L.nv.lc).put R.lcsState_reentry (L.get R.lcsState_reentry)
  let M := (M.put R.lcsState_log_full (L.get R.lcsState_log_full)).put R.lcsStat_log_warn (L.get R.lcsStat_log_warn)
  let M := (M.setF R.triadStat_lockstep_broken (L.is R.triadStat_lockstep_broken)).setF R.triadStat_triad3
    (L.get R.triadLastMis_rec % 16 != 0)
  let M := (List.range 8).foldl (fun (N : LaneState) r => N.put (R.nvmcSrCnt_used r)
    (if r = 5 then L.get (R.nvmcSrCnt_used 5) else 0)) M
  let M := ((M.put R.pwrSleep_armed 0).put R.pwrGate_req 0).put R.pwrState_state 0
  let M := M.setF R.triadStat_split (L.is R.triadStat_split)
  { M with
    triadCore := { pc := 0x10000000 }
    core1 := { pc := 0x10000000 }
    core2 := { pc := 0x10000000 } }.driveGates

end Sys2Proof.Machine
end

