-- ==== Sys2Proof/Machine/Power.lean ====
section
/-! DEFINITION. Supply inputs, PMIC link, core voltage, power states and domains, sleep and wake, budget (chapter 15,
R466 to R497, R502). Voltages are operands in mV. -/

namespace Sys2Proof.Machine

/-- Changes what the power controller keeps. -/
def LaneState.mapP (L : LaneState) (f : PwrSt → PwrSt) : LaneState := { L with pwr := f L.pwr }

/-- Raises a line of the SVC (R502). -/
def LaneState.svcLine (L : LaneState) (i : Nat) : LaneState := L.mapP (fun P => { P with svcLines := addTo i P.svcLines })

/-! ## Budget (R496, R497) -/

/-- The selected input: 0 main, 1 backup, 2 none. -/
def LaneState.supSel (L : LaneState) : Nat := L.get R.pwrSupStat_sel

/-- The level of the supply input. -/
def LaneState.levelSup (L : LaneState) : Nat :=
  let v := if L.supSel = 0 then L.pwr.vMain else L.pwr.vBack
  if L.supSel = 2 ∨ v < 100 * L.get R.pwrBud0_v_surv then 3
  else if v < 100 * L.get R.pwrBud0_v_min then 2
  else if L.supSel = 1 || !L.is R.pwrSupStat_main_ok || !L.is R.pwrSupStat_back_ok then 1
  else 0

/-- The level of the PMIC current. -/
def LaneState.levelCur (L : LaneState) : Nat :=
  let i := L.pwr.iin
  if 10 * L.get R.pwrBud1_i_surv ≤ i then 3
  else if 10 * L.get R.pwrBud1_i_min ≤ i then 2
  else if 10 * L.get R.pwrBud1_i_red ≤ i || L.pwr.frozen then 1
  else 0

/-- The highest temperature in °C + 64: the bridge-die junction and the NTCs of PWR_BUD2.ntc. -/
def LaneState.budTemp (L : LaneState) : Nat :=
  let ntc (j : Nat) : Nat := (sext 16 (Config.ntcTemp (L.adc.hk.get (20 + j))).toNat / 16 + 64).toNat
  ((List.range 8).filter (fun j => L.bitOf R.pwrBud2_ntc j)).foldl (fun a j => max a (ntc j)) (L.get R.brgMeas_tj)

/-- The level of the temperature. -/
def LaneState.levelTemp (L : LaneState) : Nat :=
  let t := L.budTemp
  if L.get R.pwrBud2_t_surv ≤ t then 3
  else if L.get R.pwrBud2_t_min ≤ t then 2
  else if L.get R.pwrBud2_t_red ≤ t then 1
  else 0

/-- Evaluates the budget level: it worsens at once and improves by one after every input has stayed better for the hold
time; RIDGE_STAT, PWR_BUD_STAT and S:0x3_8003 show it (R497). -/
def LaneState.budget (L : LaneState) : LaneState :=
  let s := L.levelSup
  let c := L.levelCur
  let t := L.levelTemp
  let want := max s (max c t)
  let lvl := L.get R.pwrBudStat_level
  let hold := 2000000 * atLeast1 (L.get R.pwrBud0_hold)
  let since := if want < lvl then some (L.pwr.betterAt.getD L.coarse) else none
  let rise := match since with
    | some a => decide (a + hold ≤ L.coarse)
    | none => false
  let new := if lvl < want then want else if rise then lvl - 1 else lvl
  let L := L.mapP (fun P => { P with betterAt := if rise then (if want < lvl - 1 then some L.coarse else none) else since })
  let L := (((L.put R.pwrBudStat_sup s).put R.pwrBudStat_cur c).put R.pwrBudStat_temp t).put R.pwrBudStat_tmax
    (satU 8 L.budTemp)
  let L := (L.put R.pwrBudStat_level new).put R.ridgeStat_level new
  let L := if new = lvl then L else L.svcLine 14
  L.setSig 0x38003 (L.reg R.pwrBudStat)

def execBudgetEval (l : Lane) (vm vb : BitVec 17) (s : State) : Out :=
  onLane s l (fun L => (L.mapP (fun P => { P with vMain := vm.toNat, vBack := vb.toNat })).budget)

/-! ## Supply inputs (R468, R469) -/

/-- The under-voltage threshold in mV, 5.0 V to 10.0 V; the over-voltage threshold, 60 V to 68 V. -/
def LaneState.uvMv (L : LaneState) : Nat := 100 * min 100 (max 50 (L.get R.pwrSup_uv))
def LaneState.ovMv (L : LaneState) : Nat := 500 * min 136 (max 120 (L.get R.pwrSup_ov))

/-- Takes the voltages of both inputs and what they make of the presence bits. -/
def LaneState.seeInputs (L : LaneState) (vm vb : Nat) : LaneState :=
  let ok (v : Nat) (ov : Bool) : Bool := decide (L.uvMv ≤ v) && decide (v < L.ovMv) && !ov
  let P := L.pwr
  ((L.setF R.pwrSupStat_main_ok (ok vm P.ovMain)).setF R.pwrSupStat_back_ok (ok vb P.ovBack)).mapP (fun P => { P with
    vMain := vm, vBack := vb })

/-- Selects an input; without one the lane runs on its hold-up charge. The budget is evaluated at once. -/
def LaneState.selectInput (L : LaneState) (sel : Nat) : LaneState :=
  if L.supSel = sel then L.budget
  else
    let L := ((L.put R.pwrSupStat_sel sel).flag R.pwrStat_sw_over).svcLine 6
    let L := if sel = 2 then (L.flag R.pwrStat_hold_up).svcLine 7 else L
    L.budget

/-- Main below backup − 0.3 V or below uv selects the backup. -/
def execSupplySwitchToBackup (l : Lane) (vm vb : BitVec 17) (s : State) : Out :=
  onLane s l (fun L =>
    let L := L.seeInputs vm.toNat vb.toNat
    L.when (L.supSel == 0 && (decide (vm.toNat + 300 < vb.toNat) || decide (vm.toNat < L.uvMv)) &&
        L.is R.pwrSupStat_back_ok)
      (fun L => (L.count R.pwrCnt_swo).selectInput 1))

/-- Main at uv + 0.4 V and at backup − 0.1 V for ret selects main again. -/
def execSupplyReturnMain (l : Lane) (vm vb : BitVec 17) (s : State) : Out :=
  onLane s l (fun L =>
    let L := L.seeInputs vm.toNat vb.toNat
    L.when (L.supSel == 1 && decide (L.uvMv + 400 ≤ vm.toNat) && decide (vb.toNat ≤ vm.toNat + 100) &&
        L.is R.pwrSupStat_main_ok)
      (fun L => L.selectInput 0))

/-- What an input that is no longer driven leaves: the other one if present, else none. -/
def LaneState.otherInput (L : LaneState) (main : Bool) : LaneState :=
  if main then L.selectInput (if L.is R.pwrSupStat_back_ok then 1 else 2)
  else L.selectInput (if L.is R.pwrSupStat_main_ok then 0 else 2)

/-- An input reaches ov: its MOSFET is off and it counts as absent. -/
def execInputOvervoltage (l : Lane) (main : Bool) (s : State) : Out :=
  onLane s l (fun L =>
    let L := if main then (L.setF R.pwrSupStat_main_ok false).mapP (fun P => { P with ovMain := true })
      else (L.setF R.pwrSupStat_back_ok false).mapP (fun P => { P with ovBack := true })
    if L.supSel = (if main then 0 else 1) then L.otherInput main else L.budget)

/-- The selected input falls 20 mV below VSUP_x. -/
def execInputReverse (l : Lane) (s : State) : Out :=
  onLane s l (fun L => if L.supSel = 2 then L else L.otherInput (L.supSel == 0))

/-- Both inputs below uv or absent: none is selected, and the lane runs on its hold-up charge. -/
def execBothInputsLost (l : Lane) (s : State) : Out :=
  onLane s l (fun L => ((L.setF R.pwrSupStat_main_ok false).setF R.pwrSupStat_back_ok false).selectInput 2)

/-- No input returns within 20 µs: SUP_MON, and the lane excludes itself (R469). -/
def execHoldUpTimeout (l : Lane) (s : State) : Out :=
  onLane s l (fun L => L.when (L.supSel == 2) (fun L => (L.raiseOwn 0x0B).selfExclude 0x0B))

/-- An input becomes present again; it is selected when none is (R468, R469). -/
def execSupplyInputReturn (l : Lane) (main : Bool) (v : BitVec 17) (s : State) : Out :=
  onLane s l (fun L =>
    let L := if main then (L.setF R.pwrSupStat_main_ok true).mapP (fun P => { P with ovMain := false, vMain := v.toNat })
      else (L.setF R.pwrSupStat_back_ok true).mapP (fun P => { P with ovBack := false, vBack := v.toNat })
    if L.supSel = 2 then L.selectInput (if main then 0 else 1) else L.budget)

/-! ## The PMIC link (R471 to R476) -/

/-- CRC-8 of SAE J1850 over bits [31:8] of a frame, most significant bit first (R472). -/
def crc8 (w : Nat) : Nat :=
  let bitStep (c : Nat) (b : Bool) : Nat :=
    let top := bit c 7 != b
    let c := c * 2 % 256
    if top then c ^^^ 0x1D else c
  ((List.range 24).foldl (fun c i => bitStep c (bit w (31 - i))) 0xFF) ^^^ 0xFF

/-- A frame of seq, type, register and data with its CRC. -/
def pmicFrame (seq type reg data : Nat) : Word :=
  let w := seq % 4 * 2 ^ 30 + type % 4 * 2 ^ 28 + reg % 16 * 2 ^ 24 + data % 65536 * 256
  wordN (w + crc8 w)

/-- The frame of a request. -/
def PmicReq.frame (r : PmicReq) (seq : Nat) : Word :=
  pmicFrame seq (if r.write then 1 else 2) r.reg (if r.write then r.data else 0)

/-- Queues a request behind those of its class and before later classes (R475). -/
def LaneState.pmicQueue (L : LaneState) (r : PmicReq) : LaneState :=
  L.mapP (fun P => { P with
    queue := P.queue.filter (fun x => decide (x.cls ≤ r.cls)) ++ [r] ++ P.queue.filter (fun x => decide (r.cls < x.cls)) })

def reqRails : PmicReq := { cls := 0, write := true, reg := 2, data := 7 }
def reqSleep : PmicReq := { cls := 0, write := true, reg := 5, data := 0x00A5 }
def reqVcore (code : Nat) : PmicReq := { cls := 1, write := true, reg := 1, data := code }
def reqIin : PmicReq := { cls := 3, write := false, reg := 3, data := 0 }

/-- The next request is sent with a new seq; one request is outstanding at a time. -/
def execPmicRequest (l : Lane) (s : State) : Out :=
  onLane s l (fun L => match L.pwr.cur, L.pwr.queue with
    | none, r :: rest =>
      let seq := (L.pwr.seq + 1) % 4
      L.mapP (fun P => { P with cur := some (r, seq, 0), queue := rest, seq := seq, frame := r.frame seq })
    | _, _ => L)

/-- A POLL frame is clocked out while a request is outstanding. -/
def execPmicPoll (l : Lane) (s : State) : Out :=
  onLane s l (fun L => match L.pwr.cur with
    | some (r, seq, _) => L.mapP (fun P => { P with frame := pmicFrame seq 0 r.reg 0 })
    | none => L)

/-- Changes the core-voltage code, with a VCORE request where it changes (R478); a frozen code stays (R476). -/
def LaneState.setVcore (L : LaneState) (code : Nat) : LaneState :=
  if code = L.get R.pwrAvsStat_code ∨ L.pwr.frozen then L else (L.put R.pwrAvsStat_code code).pmicQueue (reqVcore code)

/-- The sequence of a power-on or a wake begins: RAILS is requested, and the core voltage code is 40 (R478, R480, R493). -/
def LaneState.beginWake (L : LaneState) : LaneState :=
  ((L.put R.pwrAvsStat_code 40).mapP (fun P => { P with bootStep := 1, cur := none, queue := [] })).pmicQueue reqRails

/-- A response to a sleep command: PWR_SLEEP.code and S:0x3_8002 (R487). -/
def LaneState.sleepAnswer (L : LaneState) (code cnt : Nat) : LaneState :=
  (L.put R.pwrSleep_code code).setSig 0x38002 (wordN (code + 16 * L.id.idx + 65536 * (cnt % 65536)))

/-- A wake source is recorded and the wake starts (R492, R493). -/
def LaneState.wakeBy (L : LaneState) (srcs : List Nat) : LaneState :=
  (srcs.foldl (fun (M : LaneState) i => (M.setBit R.pwrWakeSrc_src i true).svcLine i) L).beginWake

/-- The PMIC has acknowledged SLEEP: the core rails are off, every domain but the always-on one loses its state, and a
source that was held starts the wake (R488, R489). -/
def LaneState.enterSleep (L : LaneState) : LaneState :=
  let held := L.pwr.heldSrc
  let L := L.lossReset
  let L := ((L.put R.pwrState_state 3).put R.pwrState_pwr 1).setF R.pwrSupStat_pgood false
  let L := { L with time := { L.time with oscOk := false } }
  let L := L.mapP (fun P => { P with heldSrc := [], bootStep := 0 })
  if held.isEmpty then L else L.wakeBy held

/-- A request ends with success or failure (R473, R476, R490). A failed RAILS request is judged by WAKE_FAIL. -/
def LaneState.pmicEnd (L : LaneState) (r : PmicReq) (ok : Bool) (value retries status : Nat) : LaneState :=
  let L := L.mapP (fun P => { P with cur := none })
  let L := if ok then L else (L.flag R.pwrStat_pmic_fail).svcLine 9
  let L := if r.cls = 1 ∨ r.cls = 3 then L.mapP (fun P => { P with frozen := !ok }) else L
  if r.cls = 2 then
    ((L.put R.pwrPmicRsp_status status).put R.pwrPmicRsp_retries retries).put R.pwrPmicRsp_data (if ok then value else 0)
  else if r.cls = 3 then
    if ok then (L.put R.pwrBudStat_iin (satU 8 (value / 10))).mapP (fun P => { P with iin := value }) else L
  else if r.reg = 2 then if ok && L.pwr.bootStep == 1 then L.mapP (fun P => { P with bootStep := 2 }) else L
  else if r.reg = 5 then
    if ok then L.enterSleep
    else ((L.sleepAnswer 5 L.aon.sleepCnt).lossReset).beginWake
  else L

/-- A response frame: used if its CRC, seq and register fit the request and its status is ACK or NACK; anything else is
ignored (R473). -/
def execPmicResponse (l : Lane) (frame : Word) (s : State) : Out :=
  onLane s l (fun L => match L.pwr.cur with
    | none => L
    | some (r, seq, k) =>
      let w := frame.toNat
      let st := bits w 29 28
      L.when (bits w 7 0 == crc8 w && bits w 31 30 == seq && bits w 27 24 == r.reg && (st == 1 || st == 2)) (fun L =>
        (L.svcLine 8).pmicEnd r (st == 1) (bits w 23 8) k st))

/-- 500 µs without an answer: the frame is sent again, at most 3 times; a fourth timeout fails the request (R473). -/
def execPmicRetryTimeout (l : Lane) (s : State) : Out :=
  onLane s l (fun L => match L.pwr.cur with
    | none => L
    | some (r, seq, k) =>
      if k < 3 then
        ((L.flag R.pwrStat_pmic_retry).count R.pwrCnt_retry).mapP (fun P => { P with
          cur := some (r, seq, k + 1), frame := r.frame seq })
      else L.pmicEnd r false 0 3 3)

/-- The IIN read is requested, unless one waits or is outstanding (R475). -/
def execIinPoll (l : Lane) (s : State) : Out :=
  onLane s l (fun L =>
    let there := L.pwr.queue.any (fun r => r.cls == 3) || (L.pwr.cur.map (fun p => p.1.cls == 3)).getD false
    if there then L else L.pmicQueue reqIin)

/-- A write of PWR_PMIC_REQ: a firmware request to registers 0x0, 0x4 and 0x8 to 0xF; another register, or a request while
one is pending, is discarded with pmic_busy; a type other than WRITE and READ is discarded (R475). -/
def LaneState.wPwrPmicReq (L : LaneState) (w : Word) : LaneState :=
  let reg := bits w.toNat 3 0
  let type := bits w.toNat 5 4
  let pending := L.pwr.queue.any (fun r => r.cls == 2) || (L.pwr.cur.map (fun p => p.1.cls == 2)).getD false
  if type != 1 && type != 2 then L
  else if pending || !(reg == 0 || reg == 4 || decide (8 ≤ reg)) then L.flag R.pwrStat_pmic_busy
  else
    (L.setReg R.pwrPmicRsp 0).pmicQueue { cls := 2, write := type == 1, reg := reg, data := bits w.toNat 31 16 }

def execPmicFwRequest (l : Lane) (q : Req) (w : Word) (s : State) : Out :=
  onLane s l (fun L => L.guardW q R.pwrPmicReq w (fun L => L.wPwrPmicReq w))

/-- PGOOD_x low for more than 2 µs in RUN, DOZE and STANDBY (R476). -/
def execPgoodDrop (l : Lane) (s : State) : Out :=
  onLane s l (fun L => L.when (L.is R.pwrSupStat_pgood && L.get R.pwrState_state != 3) (fun L =>
    (((L.setF R.pwrSupStat_pgood false).flag R.pwrStat_pgood_drop).svcLine 5).raiseOwn 0x0B))

/-- PGOOD_x rises. -/
def execPgoodRise (l : Lane) (s : State) : Out :=
  onLane s l (fun L =>
    let L := (L.setF R.pwrSupStat_pgood true).svcLine 5
    if L.pwr.bootStep = 2 then L.mapP (fun P => { P with bootStep := 3 }) else L)

/-- OSC_x is ready and the PLLs lock; at the end of a power-on or wake every domain is powered and the triad leaves reset
at the boot ROM. A failure code on WAKE_OUT_x ends with the wake's success (R480, R493, R495). -/
def execOscReady (l : Lane) (s : State) : Out :=
  onLane s l (fun L =>
    let L := { L with time := { L.time with oscOk := true, onRc := false } }
    if L.pwr.bootStep = 3 then
      (((L.put R.pwrState_pwr 0xFFF).put R.pwrState_state 0).setF R.cairnWout_code_on false).mapP (fun P => { P with
        bootStep := 4 })
    else L)

/-! ## Core voltage (R477 to R479) -/

/-- The margin of a group in 1/1024. -/
def LaneState.avsMargin (L : LaneState) (g count : Nat) : Int :=
  let tgt := L.get (R.pwrAvsTgt_tgt g)
  if tgt = 0 then Config.avsMargin count else divOpen (((count : Int) - tgt) * 1024) tgt

/-- AVSMON: the group's oscillations over 1 µs; status 1 for a margin below lo. -/
def execAvsmon (l : Lane) (j : Fin 16) (count : BitVec 24) (s : State) : Out :=
  onLane s l (fun L => L.skimRun j jkAvsmon (fun L =>
    let g := L.get (R.skimJobCfg_target j) % 8
    let L := L.mapP (fun P => { P with avs := P.avs.set g count.toNat, avsAt := P.avsAt.set g (L.coarse + 1) })
    L.skimEnd j (b2n (decide (L.avsMargin g count.toNat < (L.get R.pwrAvs_lo : Int)))) count.toNat))

/-- A run of the adaptive voltage loop (R478, R479). -/
def execAvsRun (l : Lane) (s : State) : Out :=
  onLane s l (fun L => L.when (L.is R.pwrAvs_en) (fun L =>
    let P := L.pwr
    let L := L.svcLine 10
    let per := 200000 * atLeast1 (L.get R.pwrAvs_per)
    let stale := (List.range 8).any (fun g => P.avsAt.get g == 0 || decide (P.avsAt.get g + 4 * per < L.coarse + 1))
    let ms := (List.range 8).map (fun g => (L.avsMargin g (P.avs.get g), g))
    let best := ms.foldl (fun (a : Int × Nat) x => if x.1 < a.1 then x else a) (ms.headD (0, 0))
    let m := best.1
    let code := L.get R.pwrAvsStat_code
    let lo : Int := L.get R.pwrAvs_lo
    let new := if stale then 40
      else if m < L.getS R.pwrAvs_emg then min (code + 4) 40
      else if m < lo then min (code + 1) 40
      else if (L.get R.pwrAvs_hi : Int) < m ∧ 10 ≤ P.upAge then code - 1
      else code
    let low := !stale && decide (m < lo) && code == 40
    let L := L.flagIf stale R.pwrStat_avs_stale
    let L := if stale then L else (L.put R.pwrAvsStat_grp best.2).putS R.pwrAvsStat_m (satS 16 m)
    let L := L.mapP (fun P => { P with
      upAge := if code < new then 0 else P.upAge + 1, lowRuns := if low then P.lowRuns + 1 else 0 })
    let L := if L.pwr.lowRuns = 3 then (L.flag R.pwrStat_avs_lim).raiseOwn 0x0B else L
    L.setVcore new))

/-! ## Domains (R482 to R485) -/

/-- The domains that a request can gate. -/
def gateable (d : Nat) : Bool := (2 ≤ d && d ≤ 6) || d == 10 || d == 11

/-- Whether a domain is in use: 4 to 6 while an axis is not OFF, and the engine that such an axis names (R483). -/
def LaneState.domainBusy (L : LaneState) (d : Nat) : Bool :=
  (List.range 4).any (fun n => L.axis n != axOff && (decide (4 ≤ d ∧ d ≤ 6) || d == 2 + L.get (R.axpLoopsel_le n)))

/-- A write of PWR_GATE: requests on domains in use are refused for now (R483). -/
def LaneState.wPwrGate (L : LaneState) (w : Word) : LaneState :=
  let L := L.put R.pwrGate_req (bits w.toNat 11 0)
  L.flagIf ((List.range 12).any (fun d => bit w.toNat d && gateable d && L.domainBusy d)) R.pwrStat_gate_refused

def execGateRequest (l : Lane) (q : Req) (w : Word) (s : State) : Out :=
  onLane s l (fun L => L.guardW q R.pwrGate w (fun L => L.wPwrGate w))

/-- A requested domain that is idle and no longer in use is gated. -/
def execDomainGate (l : Lane) (d : Fin 12) (s : State) : Out :=
  onLane s l (fun L => L.when (L.bitOf R.pwrGate_req d && gateable d && !L.domainBusy d && L.domainOn d &&
    !decide (d.val ∈ L.pwr.waking)) (fun L => L.setBit R.pwrState_pwr d false))

/-- A domain starts to power up, and its request bit is cleared. -/
def LaneState.wakeDomain (L : LaneState) (d : Nat) : LaneState :=
  let L := L.setBit R.pwrGate_req d false
  if L.domainOn d then L else L.mapP (fun P => { P with waking := addTo d P.waking })

/-- An access to a gated domain powers it up and stalls the requester; Skim never wakes a domain (R56, R484). -/
def LaneState.stallOn (L : LaneState) (d m : Nat) : LaneState :=
  (L.wakeDomain d).mapP (fun P => { P with stalled := addTo (d, m) P.stalled })

def execDomainWakeOnAccess (l : Lane) (d : Fin 12) (m : Master) (s : State) : Out :=
  onLane s l (fun L => L.when (!L.domainOn d && m != .skim) (fun L => L.stallOn d m.id))

/-- A waking domain is ready, and the accesses that stalled on it proceed. -/
def execDomainReady (l : Lane) (d : Fin 12) (s : State) : Out :=
  onLane s l (fun L => L.when (decide (d.val ∈ L.pwr.waking)) (fun L =>
    (L.setBit R.pwrState_pwr d true).mapP (fun P => { P with
      waking := dropFrom d.val P.waking, stalled := P.stalled.filter (fun p => p.1 != d.val) })))

def pwrDlReg (k : Nat) : Nat := if k = 0 then R.pwrDl0 else R.pwrDl1

/-- The stall bound of a domain in coarse ticks (R482). -/
def wakeStall (d : Nat) : Nat := if d = 5 then 8000 else 2400

/-- The deadline's power-up starts: its armed bit clears (R485). -/
def LaneState.startDeadline (L : LaneState) (k : Nat) : LaneState :=
  let w := (L.reg (pwrDlReg k)).toNat
  (L.setReg (pwrDlReg k) (wordN (setBits w 4 4 0))).wakeDomain (bits w 3 0)

/-- A write of PWR_DL_k: a deadline that has passed, or whose power-up instant has passed, starts at once (R485). -/
def LaneState.wPwrDl (L : LaneState) (k : Nat) (w : Word) : LaneState :=
  let L := L.setReg (pwrDlReg k) (wordN (bits w.toNat 4 0 + 256 * bits w.toNat 15 8))
  let d := (bits w.toNat 15 8 + 256 - L.pnum % 256) % 256
  let late := d == 0 || decide (129 ≤ d) ||
    decide ((L.pnum + d) * L.tServo < L.coarse + wakeStall (bits w.toNat 3 0))
  if bit w.toNat 4 && late then (L.flag R.pwrStat_dl_late).startDeadline k else L

/-- The power-up instant of an armed deadline. -/
def execDeadlineWake (l : Lane) (k : Fin 2) (s : State) : Out :=
  onLane s l (fun L => L.when (bit (L.reg (pwrDlReg k)).toNat 4) (fun L => L.startDeadline k))

/-! ## Sleep (R486 to R491) -/

/-- The key of a sleep command's tag covers words 0 and 1 and SYS_ID without its lane field (R486). -/
def LaneState.sleepTagOk (L : LaneState) (i : Nat) : Bool :=
  match L.nv.sleepKey with
  | none => false
  | some key =>
    let msg := wordBytes (L.sig i) ++ wordBytes (L.sig (i + 1)) ++ wordBytes L.ident.1
    let tag := (hmacSha384 key msg).take 16
    tag == (List.range 4).flatMap (fun k => wordBytes (L.sig (i + 2 + k)))

/-- A written sleep command is checked: it arms sleep or is refused (R487). -/
def execSleepCommand (l : Lane) (s : State) : Out :=
  onLane s l (fun L => L.when L.pwr.sleepOk (fun L =>
    let i := L.get R.pwrSleepSrc_id
    let cnt := (L.sig (i + 1)).toNat
    if bits (L.sig i).toNat 31 16 == 1 && L.sleepTagOk i && decide (L.aon.sleepCnt < cnt) && L.allOff then
      let L := { L with aon := { L.aon with sleepCnt := cnt } }
      let L := ((L.setF R.pwrSleep_armed true).put R.pwrSleep_cnt (cnt % 65536)).svcLine 11
      (L.mapP (fun P => { P with armedAt := L.coarse })).sleepAnswer 1 cnt
    else (L.flag R.pwrStat_sleep_refused).sleepAnswer 2 cnt))

/-- No PARK with mode 3 within 100 ms: the arm lapses. -/
def execSleepArmExpire (l : Lane) (s : State) : Out :=
  onLane s l (fun L =>
    L.when (L.is R.pwrSleep_armed && L.pwr.sleepStep == 0 && decide (L.pwr.armedAt + 20000000 ≤ L.coarse))
      (fun L => (L.setF R.pwrSleep_armed false).sleepAnswer 4 L.aon.sleepCnt))

/-- The 23 words that the retention record's CRC covers (R491). -/
def LaneState.retentionWords (L : LaneState) : List Word :=
  [wordN (1 + 24 * 65536), L.reg R.sysTick, wordN L.compat, wordN (L.get R.pwrAvsStat_code), L.reg R.sysRate] ++
    (List.range 4).flatMap (fun n => [L.reg (R.fldRs n), L.reg (R.fbEqOfs n), L.reg (R.fbEqGain n), L.reg (R.fbEqPh n)]) ++
    [0, 0]

/-- Writes the retention record to Cairn memory. -/
def LaneState.writeRetention (L : LaneState) : LaneState :=
  let ws := L.retentionWords
  let all := ws ++ [crc32 (ws.flatMap wordBytes)]
  (L.storeBytes 0x2803FF00 (all.flatMap wordBytes)).setF R.cairnRet_valid true

/-- The power side of a PARK in a mode: DOZE, STANDBY with domains 2 to 6 gated, or the entry into SLEEP, which first
writes the retention record (R377, R481, R488). -/
def LaneState.parkPower (L : LaneState) (mode : Nat) : LaneState :=
  if mode = 1 then L.put R.pwrState_state 1
  else if mode = 2 then
    [2, 3, 4, 5, 6].foldl (fun (M : LaneState) d => M.setBit R.pwrState_pwr d false) (L.put R.pwrState_state 2)
  else if mode = 3 then L.writeRetention.mapP (fun P => { P with sleepStep := 1 })
  else L

/-- A step of the sleep entry ends: first domain down, TC10 requests sent, PHYs down with the SLEEP request queued (R418,
R488). -/
def execSleepStepComplete (l : Lane) (s : State) : Out :=
  onLane s l (fun L =>
    let k := L.pwr.sleepStep
    let next (M : LaneState) : LaneState := (M.mapP (fun P => { P with sleepStep := k + 1 })).svcLine 12
    let down (ds : List Nat) (M : LaneState) : LaneState :=
      ds.foldl (fun (N : LaneState) d => N.setBit R.pwrState_pwr d false) M
    if k = 1 then next (down [2, 3, 4, 5, 6] L)
    else if k = 2 then next (down [7, 9, 10, 11] L)
    else if k = 3 then next ((down [8] L).pmicQueue reqSleep)
    else L)

/-- An enabled source that fires: it aborts a sleep entry up to the first domain's power-down, is held until the rails
are off after it, and wakes a sleeping lane (R489, R492). -/
def LaneState.wakeFire (L : LaneState) (i : Nat) : LaneState :=
  if !L.bitOf R.pwrWakeEn_en i then L
  else
    let L := if i = 3 then L.setF R.cairnWakeHi_arm false else L
    if L.get R.pwrState_state = 3 then
      if L.pwr.bootStep = 0 then L.wakeBy [i] else L.setBit R.pwrWakeSrc_src i true
    else if 2 ≤ L.pwr.sleepStep then L.mapP (fun P => { P with heldSrc := addTo i P.heldSrc })
    else if L.is R.pwrSleep_armed then
      let L := ((L.setBit R.pwrWakeSrc_src i true).svcLine i).flag R.pwrStat_sleep_aborted
      let L := (L.setF R.pwrSleep_armed false).mapP (fun P => { P with sleepStep := 0 })
      let L := { L with triadCore := { L.triadCore with parked := false } }
      L.sleepAnswer 3 L.aon.sleepCnt
    else L

/-- A wake source fires; `cairn` is the count of the Cairn clock, by which the always-on time goes on in SLEEP. The
Cairn timer fires only while armed (R492). -/
def execWakeSourceFire (l : Lane) (src : Fin 5) (cairn : BitVec 48) (s : State) : Out :=
  onLane s l (fun L =>
    let L := if L.get R.pwrState_state = 3 then
        { L with aon := { L.aon with now := max L.aon.now (cairn.toNat * 200000000 / 32768) } }
      else L
    L.when (src.val != 3 || L.is R.cairnWakeHi_arm) (fun L => L.wakeFire src))

/-- A TC10 wake-up on a port sets CDE_STAT.wake, is recorded, and acts as wake source 0 (R419). -/
def execTc10Wake (l : Lane) (port : Fin 6) (s : State) : Out :=
  onLane s l (fun L =>
    let L := (L.flag R.cdeStat_wake).setBit R.pwrWakeSrc_src 0 true
    if port.val < 6 then L.wakeFire 0 else L)

/-- The rails (1), PGOOD_x (2) or the oscillator (3) fail during a wake (R494). After an oscillator failure the lane runs
from the RC reference and is EXCLUDED with WAKE_FAIL. -/
def execWakeFail (l : Lane) (code : Fin 4) (s : State) : Out :=
  onLane s l (fun L => L.when (code.val != 0 && L.pwr.bootStep == code.val) (fun L =>
    let L := (((L.put R.cairnFail_code code).count R.cairnFail_n).flag R.pwrStat_wake_fail).svcLine 13
    let L := L.noteAttempt.mapP (fun P => { P with bootStep := 0, cur := none, queue := [] })
    if code.val = 3 then
      let L := { L with time := { L.time with oscOk := false, onRc := true } }
      let L := ((L.put R.pwrState_pwr 0xFFF).put R.pwrState_state 0).mapP (fun P => { P with bootStep := 4 })
      (L.raiseOwn 0x13).selfExclude 0x13
    else L))

/-- The SVC retries a failed wake 1 s later (R494). -/
def execWakeRetry (l : Lane) (s : State) : Out :=
  onLane s l (fun L => L.when (L.is R.cairnFail_code && (L.pwr.bootStep == 0 || L.time.onRc)) (fun L => L.beginWake))

/-- A lane whose wake failed and that sees no Rope link returns to SLEEP and drives its failure code (R495). -/
def execWakeFailSleep (l : Lane) (s : State) : Out :=
  onLane s l (fun L =>
    L.when (L.is R.cairnFail_code && (L.pwr.bootStep == 0 || L.time.onRc) && !L.linkUp .l0 && !L.linkUp .l1)
      (fun L => L.enterSleep.setF R.cairnWout_code_on true))

/-- Restores the retention record: after FLD_LOCK, FB_LOCK and SYS_LOCK of every axis, if its CRC is right and SYS_TICK
and the compatibility class match; else ret_crc (R491). -/
def LaneState.restore (L : LaneState) : LaneState :=
  let w (i : Nat) : Word := L.word (0x2803FF00 + 4 * i)
  let crcOk := crc32 (L.bytesFrom 0x2803FF00 92) == w 23
  let locked := L.locked R.sysLock && (List.range 4).all (fun n => L.locked (R.fldLock n) && L.locked (R.fbLock n))
  if crcOk && locked && L.is R.cairnRet_valid && w 1 == L.reg R.sysTick && (w 2).toNat == L.compat then
    let L := L.forAxes (fun n M =>
      (((M.wFldRs n (w (5 + 4 * n))).wFbEq n 0 (w (6 + 4 * n))).wFbEq n 1 (w (7 + 4 * n))).wFbEq n 2 (w (8 + 4 * n)))
    ((L.setReg R.sysRate (w 4)).setVcore (bits (w 3).toNat 5 0)).setF R.cairnRet_restored true
  else (L.setF R.cairnRet_restored false).flag R.pwrStat_ret_crc

/-- A write of PWR_CMD. -/
def LaneState.wPwrCmd (L : LaneState) (w : Word) : LaneState :=
  let L := if bit w.toNat 0 then L.restore else L
  let L := if bit w.toNat 1 then L.setReg R.pwrCnt 0 else L
  if bit w.toNat 2 then L.svcLine 31 else L

def execRestore (l : Lane) (q : Req) (s : State) : Out :=
  onLane s l (fun L => L.guardW q R.pwrCmd 1 (fun L => L.wPwrCmd 1))

def execPwrClrCnt (l : Lane) (q : Req) (s : State) : Out :=
  onLane s l (fun L => L.guardW q R.pwrCmd 2 (fun L => L.wPwrCmd 2))

def execSvcIrq (l : Lane) (q : Req) (s : State) : Out :=
  onLane s l (fun L => L.guardW q R.pwrCmd 4 (fun L => L.wPwrCmd 4))

/-- A write of PWR_LOCK: the key locks PWR; the sleep path starts only with an entry of mode 2AGREE and at least two
networks (R486). -/
def LaneState.wPwrLock (L : LaneState) (w : Word) : LaneState :=
  if bits w.toNat 15 0 ≠ 0xC1A5 ∨ L.locked R.pwrLock then L
  else
    let L := { L with locks := addTo R.pwrLock L.locks }
    let e := L.get R.pwrSleepSrc_entry
    if L.rxMode e == 2 && decide (2 ≤ ([0, 1, 2].filter (fun y => bit (L.rxNets e) y)).length) then
      L.mapP (fun P => { P with sleepOk := true })
    else L.flag R.pwrStat_cfg_err

def execPwrLock (l : Lane) (q : Req) (w : Word) (s : State) : Out :=
  onLane s l (fun L => L.guardW q R.pwrLock w (fun L => L.wPwrLock w))

end Sys2Proof.Machine
end

