-- ==== Sys2Proof/Machine/Ridge.lean ====
section
/-! DEFINITION. The Ridge: which firmware task the triad runs next (chapter 15, R498 to R501). -/

namespace Sys2Proof.Machine

/-- Whether a task is ready. -/
def LaneState.taskReady (L : LaneState) (n : Nat) : Bool :=
  if n < 32 then L.bitOf R.ridgeRdy0_rdy n else L.bitOf R.ridgeRdy1_rdy (n - 32)

/-- Sets whether a task is ready, in RIDGE_RDY0, RIDGE_RDY1 and RIDGE_TASK_STAT_n. -/
def LaneState.setReady (L : LaneState) (n : Nat) (b : Bool) : LaneState :=
  let L := if n < 32 then L.setBit R.ridgeRdy0_rdy n b else L.setBit R.ridgeRdy1_rdy (n - 32) b
  L.setF (R.ridgeTaskStat_ready n) b

/-- Whether a task is urgent: its age is at least its threshold, and the threshold is not 0 (R500). -/
def LaneState.taskUrgent (L : LaneState) (n : Nat) : Bool :=
  L.is (R.ridgeTaskCfg_urg n) && decide (L.get (R.ridgeTaskCfg_urg n) ≤ L.get (R.ridgeTaskStat_age n))

/-- Sets the age of a task, which saturates at 255, and its urgent bit. -/
def LaneState.setAge (L : LaneState) (n a : Nat) : LaneState :=
  let L := L.put (R.ridgeTaskStat_age n) (min 255 a)
  L.setF (R.ridgeTaskStat_urgent n) (L.taskUrgent n)

/-- A task becomes ready; one that is ready or running is not queued twice (R498). -/
def LaneState.taskTrigger (L : LaneState) (n : Nat) : LaneState :=
  if L.taskReady n || (L.is R.ridgeStat_running && L.get R.ridgeStat_task == n) then L.flag R.ridgeStat_overrun
  else
    ((L.setReady n true).mapP (fun P => { P with readyAt := P.readyAt.set n (L.coarse + 1) })).flagIf
      (!L.is R.ridgeStat_running) R.ridgeStat_ready_evt

/-- Whether a task is described and its trig selects posts, or period boundaries (a trig of 3 acts as 0). -/
def LaneState.taskOn (L : LaneState) (n : Nat) (post : Bool) : Bool :=
  let t := L.get (R.ridgeTaskCfg_trig n)
  L.is R.ridgeCtl_en && L.is (R.ridgeTaskCfg_en n) && (if post then t != 1 else t == 1 || t == 2)

/-- A periodic task becomes ready at a boundary whose period number is a whole multiple of its period. -/
def execRidgeTaskTrigger (l : Lane) (n : Fin 64) (s : State) : Out :=
  onLane s l (fun L =>
    L.when (L.taskOn n false && L.pnum % atLeast1 (L.get (R.ridgeTaskCfg_period n)) == 0) (fun L => L.taskTrigger n))

/-- A write of RIDGE_POST. -/
def LaneState.wRidgePost (L : LaneState) (w : Word) : LaneState :=
  let n := bits w.toNat 5 0
  if L.taskOn n true then L.taskTrigger n else L

def execRidgePost (l : Lane) (q : Req) (task : BitVec 6) (s : State) : Out :=
  onLane s l (fun L => L.guardW q R.ridgePost (task.setWidth 32) (fun L => L.wRidgePost (task.setWidth 32)))

/-- Whether the level in force admits a task by its classes and its urgency (R499). -/
def LaneState.admits (L : LaneState) (n : Nat) : Bool :=
  let e := L.get (R.ridgeTaskCfg_e n)
  let h := L.get (R.ridgeTaskCfg_h n)
  let u := L.taskUrgent n
  match L.get R.ridgeStat_level with
  | 0 => true
  | 1 => u || decide (e ≤ 2 ∧ h ≤ 2)
  | 2 => u || decide (e ≤ 1 ∧ h ≤ 1)
  | _ => decide (e ≤ 1) && (u || decide (h ≤ 1))

/-- The effective priority of a task. -/
def LaneState.taskPri (L : LaneState) (n : Nat) : Nat := if L.taskUrgent n then 7 else L.get (R.ridgeTaskCfg_pri n)

/-- Whether task a goes before task b: higher effective priority, then earlier ready time, then lower index. -/
def LaneState.taskBefore (L : LaneState) (a b : Nat) : Bool :=
  let pa := L.taskPri a
  let pb := L.taskPri b
  let ta := L.pwr.readyAt.get a
  let tb := L.pwr.readyAt.get b
  decide (pb < pa) || (pa == pb && (decide (ta < tb) || (ta == tb && decide (a ≤ b))))

/-- One selection (R500, R501): the running task ends, the best admitted ready task is returned, and every other ready
task ages. -/
def LaneState.ridgeSelect (L : LaneState) : LaneState :=
  let ready := if L.is R.ridgeCtl_en then (List.range 64).filter (fun n => L.taskReady n) else []
  let cand := ready.filter (fun n => L.admits n)
  let pick := match cand with
    | [] => none
    | x :: xs => some (xs.foldl (fun a n => if L.taskBefore a n then a else n) x)
  let surv := ready.any (fun n => L.taskUrgent n && !L.admits n && L.get R.ridgeStat_level == 3)
  let urgent := (pick.map (fun n => L.taskUrgent n)).getD false
  let M := (ready.filter (fun n => pick != some n)).foldl
    (fun (M : LaneState) n => M.setAge n (M.get (R.ridgeTaskStat_age n) + 1)) L
  let M := M.flagIf surv R.ridgeStat_surv_block
  match pick with
  | none => (M.setF R.ridgeStat_running false).setReg R.ridgeNext 0x80000000
  | some n =>
    let M := ((M.setReady n false).setAge n 0).count (R.ridgeTaskStat_runs n)
    ((M.setF R.ridgeStat_running true).put R.ridgeStat_task n).setReg R.ridgeNext (wordN (n + 64 * b2n urgent))

/-- A read of RIDGE_NEXT: one by the triad selects, one by any other master returns the last selection. -/
def LaneState.readRidgeNext (L : LaneState) (m : Master) : Word × LaneState :=
  let L := if m = .triad then L.ridgeSelect else L
  (L.reg R.ridgeNext, L)

def execRidgeNext (l : Lane) (q : Req) (s : State) : Out :=
  onLane s l (fun L => L.guardR q R.ridgeNext (fun L => L.readRidgeNext q.m))

end Sys2Proof.Machine
end

