-- ==== Sys2Proof/Machine/Rope.lean ====
section
/-! DEFINITION. The Rope links: blocks, idle frames and link health (R51, R321, R322, R601). -/

namespace Sys2Proof.Machine

/-- The first waiting block of a link that is up is sent; share records go first, then Belay records (R71, R601). -/
def execRopeBlockSend (l : Lane) (k : Link) (s : State) : Out :=
  let L := s.lane l
  match (L.link k).waiting with
  | b :: rest =>
    if L.linkUp k then
      .next ((s.setLane l (L.mapLink k (fun K => { K with waiting := rest }))).send l k b.msg)
    else .next s
  | [] => .next s

/-- A link with nothing queued sends an idle frame (R321). -/
def execIdleFrameSend (l : Lane) (k : Link) (s : State) : Out :=
  if (s.lane l).link k |>.waiting |>.isEmpty then .next (s.send l k .idle) else .next s

/-- The error limit of a link, 0 acting as 1. -/
def LaneState.ropeErrLim (L : LaneState) : Nat := atLeast1 (L.get R.ropeCfg_err_lim)

/-- A link without a CRC-clean frame for 2 µs (`silent`), or with more CRC errors in a period than err_lim, is
declared down; while it is down nothing uses it (R322). Its loss is classified by the peer's vote (R292). -/
def execRopeLinkDown (l : Lane) (k : Link) (silent : Bool) (s : State) : Out :=
  onLane s l (fun L =>
    L.when (L.linkUp k && (silent || L.ropeErrLim < (L.link k).errs)) (fun L =>
      let L := L.mapLink k (fun K => { K with waiting := [], cleanRun := 0, ownTx := none, ownRx := none })
      let L := match k with
        | .l0 => ((L.setF R.ropeStat0_up false).flag R.ropeStat0_down_evt).count R.ropeCnt0_down
        | .l1 => ((L.setF R.ropeStat1_up false).flag R.ropeStat1_down_evt).count R.ropeCnt1_down
      L.refreshViews.classifyLink k))

/-- A down link is declared up after up_n consecutive error-free periods (R322). -/
def execRopeLinkUp (l : Lane) (k : Link) (s : State) : Out :=
  onLane s l (fun L =>
    L.when (!L.linkUp k && atLeast1 (L.get R.ropeCfg_up_n) ≤ (L.link k).cleanRun) (fun L =>
      ((L.setF (linkUpF k) true).mapB (fun B => { B with linkClass := B.linkClass.set k.idx 0 })).refreshViews))

/-- A write of ROPE_CMD: clr_cnt clears both counters (R12). -/
def LaneState.wRopeCmd (L : LaneState) (w : Word) : LaneState :=
  if bit w.toNat 0 then (L.setReg R.ropeCnt0 0).setReg R.ropeCnt1 0 else L

def execRopeClrCnt (l : Lane) (q : Req) (s : State) : Out :=
  onLane s l (fun L => L.guardW q R.ropeCmd 1 (fun L => L.wRopeCmd 1))

/-- The periods of a link's health: a period without a CRC error counts toward up (R322). -/
def LinkSt.endPeriod (K : LinkSt) : LinkSt :=
  { K with cleanRun := if K.errs = 0 then K.cleanRun + 1 else 0, errs := 0, ownTx := none, ownRx := none,
           meas := none }

end Sys2Proof.Machine
end

