-- ==== Sys2Proof/Machine/Memory.lean ====
section
/-! DEFINITION. Memories, eNVM programming, the world table's count, mailboxes and semaphores (chapter 16, R512 to
R532). -/

namespace Sys2Proof.Machine

/-- Changes what memories and messaging keep. -/
def LaneState.mapM (L : LaneState) (f : MemSt → MemSt) : LaneState := { L with memSt := f L.memSt }

/-- `n` free words of a failed operation: nothing constrains them (assumption 2). -/
def freeWords (draw : Nat) : Nat → List Word
  | 0 => []
  | n + 1 => Config.freeValue draw :: freeWords (draw + 1) n

/-! ## ECC, SCRUB and REPAIR (R512 to R517) -/

/-- The rows and the spare rows of a region (R514). -/
def regionRows (r : Nat) : Nat := [4096, 2048, 256, 256, 768, 512, 128, 128].getD r 0
def regionSpares (r : Nat) : Nat := [82, 41, 6, 6, 16, 11, 3, 3].getD r 0

/-- An uncorrectable word of a region has been read: its ecc_u bit, and for system SRAM and signal memory the cause ECC_U
(R512). -/
def LaneState.eccBad (L : LaneState) (r : Nat) : LaneState :=
  let L := L.setBit R.nvmcSrStat_ecc_u r true
  if r ≤ 1 then L.raiseOwn 0x09 else L

/-- The oldest corrected word is written back. -/
def execEccWriteback (l : Lane) (s : State) : Out :=
  onLane s l (fun L => L.mapM (fun M => { M with writeBack := M.writeBack.drop 1 }))

/-- A row joins its region's repair queue of up to 4 rows; a full queue sets q_full (R515). -/
def LaneState.queueRepair (L : LaneState) (r row : Nat) : LaneState :=
  if (r, row) ∈ L.memSt.queue then L
  else if 4 ≤ (L.memSt.queue.filter (fun p => p.1 == r)).length then L.setBit R.nvmcSrStat_q_full r true
  else L.mapM (fun M => { M with queue := M.queue ++ [(r, row)] })

/-- A job whose target names nothing does not run (assumption 64). -/
def LaneState.skimNoTarget (L : LaneState) (j : Nat) : LaneState :=
  { L.put (R.skimJobLast_status j) 3 with skim := { L.skim with due := dropFrom j L.skim.due } }

/-- SCRUB: one row of the region, with its corrected words and whether a word was uncorrectable; at the end of the pass
the value is the corrected words of the pass, and the status 1 if it met an uncorrectable word. -/
def execScrub (l : Lane) (j : Fin 16) (cor : BitVec 8) (bad : Bool) (s : State) : Out :=
  onLane s l (fun L => L.skimRun j jkScrub (fun L =>
    let r := L.get (R.skimJobCfg_target j)
    if 8 ≤ r then L.skimNoTarget j
    else
      let row := L.memSt.scrubRow.get r
      let n := min cor.toNat 128
      let L := L.count (R.nvmcSrCnt_cor r) n
      let L := if bad then (L.eccBad r).mapM (fun M => { M with scrubBad := addTo r M.scrubBad }) else L
      let L := if atLeast1 (L.get R.nvmcSrLim_thr) ≤ n then L.queueRepair r row else L
      let total := L.memSt.scrubCor.get r + n
      if row + 1 < regionRows r then
        L.mapM (fun M => { M with scrubRow := M.scrubRow.set r (row + 1), scrubCor := M.scrubCor.set r total })
      else
        let failed := decide (r ∈ L.memSt.scrubBad)
        (L.mapM (fun M => { M with
          scrubRow := M.scrubRow.set r 0, scrubCor := M.scrubCor.set r 0, scrubBad := dropFrom r M.scrubBad })).skimEnd j
          (b2n failed) (satU 24 total)))

/-- REPAIR: the oldest queued row of the region moves to a free spare row; `bad` says that the row holds an
uncorrectable word. With no queued row the job passes. -/
def execRepair (l : Lane) (j : Fin 16) (bad : Bool) (s : State) : Out :=
  onLane s l (fun L => L.skimRun j jkRepair (fun L =>
    let r := L.get (R.skimJobCfg_target j)
    if 8 ≤ r then L.skimNoTarget j
    else match L.memSt.queue.find? (fun p => p.1 == r) with
      | none => L.skimEnd j 0 0
      | some p =>
        let L := L.mapM (fun M => { M with queue := dropFrom p M.queue })
        if regionSpares r ≤ L.get (R.nvmcSrCnt_used r) then (L.setBit R.nvmcSrStat_spare_out r true).skimEnd j 1 0
        else if bad then ((L.eccBad r).setBit R.nvmcSrStat_rep_fail r true).skimEnd j 1 0
        else
          let L := L.mapM (fun M => { M with remap := addTo p M.remap })
          (((L.count (R.nvmcSrCnt_used r)).put R.nvmcSrLast_region r).put R.nvmcSrLast_row p.2).skimEnd j 0 0))

/-! ## NVSCRUB (R518) -/

/-- The bus address and the size in bytes of an eNVM target: banks 0 and 1, configuration eNVM. -/
def nvBase (t : Nat) : Nat := 0x400000 * t
def nvSize (t : Nat) : Nat := if t < 2 then 0x400000 else if t = 2 then 0x10000 else 0

/-- Whether NVMC works on a target. -/
def LaneState.nvBusyOn (L : LaneState) (t : Nat) : Bool :=
  match L.memSt.nvOp with
  | some p => decide (nvBase t ≤ p.2 ∧ p.2 < nvBase t + nvSize t)
  | none => false

/-- NVSCRUB: one 64-line group of the target, with its corrected lines, the index of the last of them, and whether a line
was uncorrectable; skipped while NVMC works on the target. -/
def execNvscrub (l : Lane) (j : Fin 16) (cor : BitVec 7) (line : BitVec 6) (bad : Bool) (s : State) : Out :=
  onLane s l (fun L => L.skimRun j jkNvscrub (fun L =>
    let t := L.get (R.skimJobCfg_target j)
    if 3 ≤ t then L.skimNoTarget j
    else if L.nvBusyOn t then L
    else
      let g := L.memSt.nvPos.get t
      let n := min cor.toNat 64
      let L := L.count R.nvmcCnt_cor n
      let L := if n = 0 then L
        else (L.flag R.nvmcStat_weak).put R.nvmcWeak_addr (t * 2 ^ 24 + g * 1024 + 16 * line.toNat)
      let L := if bad then (L.flag R.nvmcStat_ecc_u).mapM (fun M => { M with nvBad := addTo t M.nvBad }) else L
      let total := L.memSt.nvCor.get t + n
      if (g + 1) * 1024 < nvSize t then
        L.mapM (fun M => { M with nvPos := M.nvPos.set t (g + 1), nvCor := M.nvCor.set t total })
      else
        let failed := decide (t ∈ L.memSt.nvBad)
        ((L.mapM (fun M => { M with
          nvPos := M.nvPos.set t 0, nvCor := M.nvCor.set t 0, nvBad := dropFrom t M.nvBad })).count R.nvmcCnt_pass).skimEnd j
          (b2n failed) (satU 24 total)))

/-! ## eNVM programming (R519, R520, R546, R549, R559) -/

def nvProgram : Nat := 1
def nvErase : Nat := 2
def nvBlank : Nat := 3

/-- Whether an NVMC command is refused (R519). A target in the record sector needs an Installer or Maker session (R538),
and PROGRAM and ERASE of it a staged argument and room in the log (R549, R550); no other sector of configuration eNVM may
be a target (R546); an address beyond the target is refused (assumption 65). -/
def LaneState.nvRefused (L : LaneState) (op : Nat) : Bool :=
  let t := L.get R.nvmcAddr_tgt
  let a := L.get R.nvmcAddr_addr
  L.is R.nvmcStat_busy || decide (nvSize t ≤ a) ||
    (op == nvProgram && a % 256 != 0) || (op == nvErase && a % 8192 != 0) ||
    (decide (t < 2) && (t == L.get R.nvmcStat_boot_bank || !(L.belay == bsBoot || L.belay == bsService) ||
      (op == nvProgram && decide (0x3FE000 ≤ a)))) ||
    (t == 2 && (decide (L.get R.lcsState_role < 2) || !decide (0x2000 ≤ a ∧ a < 0x4000) ||
      (op != nvBlank && (!L.is R.lcsLogSub_staged || L.is R.lcsState_log_full))))

/-- A role-gated action restarts the session's idle time (R539). -/
def LaneState.roleAct (L : LaneState) : LaneState := { L with lcs := { L.lcs with actAt := L.aon.now } }

/-- An NVMC write to a bank clears that bank's check result (R556). -/
def LaneState.dropCheck (L : LaneState) (b : Nat) : LaneState :=
  let L := { L with lcs := { L.lcs with checked := dropFrom b L.lcs.checked } }
  if L.lcs.imgBank = b then L.setF R.secImg_valid false else L

/-- A write of NVMC_CMD; an op without a meaning does nothing. -/
def LaneState.wNvmcCmd (L : LaneState) (w : Word) : LaneState :=
  let op := bits w.toNat 3 0
  if op = 0 ∨ 3 < op then L
  else if L.nvRefused op then L.flag R.nvmcStat_refused
  else
    let t := L.get R.nvmcAddr_tgt
    let L := if t = 2 then L.roleAct else if op = nvBlank then L else L.dropCheck t
    (L.setF R.nvmcStat_busy true).mapM (fun M => { M with nvOp := some (op, nvBase t + L.get R.nvmcAddr_addr) })

def execProgram (l : Lane) (q : Req) (s : State) : Out :=
  onLane s l (fun L => L.guardW q R.nvmcCmd 1 (fun L => L.wNvmcCmd 1))

def execErase (l : Lane) (q : Req) (s : State) : Out :=
  onLane s l (fun L => L.guardW q R.nvmcCmd 2 (fun L => L.wNvmcCmd 2))

def execBlank (l : Lane) (q : Req) (s : State) : Out :=
  onLane s l (fun L => L.guardW q R.nvmcCmd 3 (fun L => L.wNvmcCmd 3))

/-- A write of NVMC_BUF_k, ignored while NVMC is busy (R520). -/
def LaneState.wNvmcBuf (L : LaneState) (k : Nat) (w : Word) : LaneState :=
  if L.is R.nvmcStat_busy then L.flag R.nvmcStat_refused else L.setReg (R.nvmcBuf k) w

/-- The kind of the entry that an op on the record sector appends (R546, R548). -/
def recordKind (op a : Nat) : Nat :=
  if op = nvErase then 0x0035
  else if a % 0x10000 < 0x2400 then 0x0031
  else if a % 0x10000 < 0x2800 then 0x0032
  else 0x0033

/-- An NVMC operation ends. `ok` says whether a PROGRAM read back rightly, or an ERASE left its sector blank; what a failed
one leaves in its page or sector is free. BLANK passes if every byte of the sector is erased. -/
def execNvmcOpComplete (l : Lane) (ok : Bool) (s : State) : Out :=
  let L := s.lane l
  match L.memSt.nvOp with
  | none => .next s
  | some (op, a) =>
    let sector := a / 8192 * 8192
    let blank := (L.bytesFrom sector 8192).all (fun b => b == Config.erasedByte)
    let done := if op = nvBlank then L.flagIf (!blank) R.nvmcStat_err
      else
        let at0 := if op = nvProgram then a else sector
        let n := if op = nvProgram then 64 else 2048
        let new := if !ok then (freeWords s.draws n).flatMap wordBytes
          else if op = nvProgram then (List.range 64).flatMap (fun k => wordBytes (L.reg (R.nvmcBuf k)))
          else List.replicate 8192 Config.erasedByte
        (L.storeBytes at0 new).flagIf (!ok) R.nvmcStat_err
    let done := ((done.setF R.nvmcStat_busy false).flag R.nvmcStat_done).mapM (fun M => { M with nvOp := none })
    let done := if 0x802000 ≤ a ∧ op ≠ nvBlank then
        { done with lcs := { done.lcs with logDue := done.lcs.logDue ++ [(recordKind op a, L.get R.lcsLogSub_sub,
          L.reg R.lcsLogArg0, L.reg R.lcsLogArg1)] } }
      else done
    .next { s.setLane l done with draws := s.draws + (if ok then 0 else 2048) }

/-- A write of NVMC_CLR: clr_cnt clears NVMC_CNT and the cor fields of every region. -/
def LaneState.wNvmcClr (L : LaneState) (w : Word) : LaneState :=
  if bit w.toNat 0 then
    (List.range 8).foldl (fun (M : LaneState) r => M.put (R.nvmcSrCnt_cor r) 0) (L.setReg R.nvmcCnt 0)
  else L

def execNvmcClrCnt (l : Lane) (q : Req) (s : State) : Out :=
  onLane s l (fun L => L.guardW q R.nvmcClr 1 (fun L => L.wNvmcClr 1))

/-- A write of WAT_CNT: clr clears n. Every WAT field is written only from the secure world (R524). -/
def LaneState.wWatCnt (L : LaneState) (secure : Bool) (w : Word) : LaneState :=
  if secure && bit w.toNat 16 && !L.is R.watStat_locked then L.put R.watCnt_n 0 else L

def execWatCntClr (l : Lane) (q : Req) (s : State) : Out :=
  onLane s l (fun L => L.guardW q R.watCnt 0x10000 (fun L => L.wWatCnt q.secure 0x10000))

/-! ## Mailboxes (R525 to R529) -/

/-- The reset epoch of a master by its ID; the debug port's is 0 (R527). -/
def LaneState.epoch (L : LaneState) (m : Nat) : Nat :=
  if m = 1 then L.get R.mboxEpoch0_lo
  else if m = 2 then L.get R.mboxEpoch1_lo
  else if m = 3 then L.get R.mboxEpoch1_hi
  else if m = 4 then L.get R.mboxEpoch0_hi
  else 0

/-- Whether an epoch reads as changed: it differs from the stored one, or is saturated (R527). -/
def LaneState.epochChanged (L : LaneState) (m stored : Nat) : Bool := L.epoch m != stored || L.epoch m == 0xFFFF

/-- An access to a mailbox with sec = 1 is judged as one to secure memory (R529). -/
def LaneState.boxGuard (L : LaneState) (q : Req) (n a : Nat) (write : Bool) (f : LaneState → LaneState) : LaneState :=
  if q.m.isCore && !q.secure && L.is (R.mboxCfg_sec n) then L.recordViol q a write 1 else f L

/-- The message of a mailbox. -/
def LaneState.msgOf (L : LaneState) (n : Nat) : Option MboxMsg := L.memSt.box.find? (fun b => b.box == n)

/-- A write of MBOX_STAGE: the tag of the writer's next post. -/
def LaneState.wMboxStage (L : LaneState) (m : Master) (w : Word) : LaneState :=
  L.mapM (fun M => { M with stage := M.stage.set m.id (bits w.toNat 15 0) })

def execMboxStageWrite (l : Lane) (q : Req) (tag : BitVec 16) (s : State) : Out :=
  onLane s l (fun L => L.guardW q R.mboxStage (tag.setWidth 32) (fun L => L.wMboxStage q.m (tag.setWidth 32)))

/-- A write of MBOX_POST_n: the message is stored over any that is there; a full mailbox records a collision. Only the
masters 0x01 to 0x05 post. -/
def LaneState.wMboxPost (L : LaneState) (q : Req) (n : Nat) (w : Word) : LaneState :=
  if !q.m.isCore then L
  else L.boxGuard q n (R.mboxPost n) true (fun L =>
    let L := if L.bitOf R.mboxFull_full n then L.setBit R.mboxColl_coll n true else L
    let L := L.setBit R.mboxFull_full n true
    let L := if L.is (R.mboxCfg_irq_en n) then L.setBit R.mboxNew_new n true else L
    let e := L.epoch (L.get (R.mboxCfg_rcv n))
    let f := L.epoch q.m.id
    let msg : MboxMsg := { box := n, ptr := w, tag := L.memSt.stage.get q.m.id, sender := q.m.id, rcvEpoch := e,
                           sndEpoch := f, serial := L.memSt.serial + 1 }
    L.mapM (fun M => { M with box := M.box.filter (fun b => b.box != n) ++ [msg], serial := M.serial + 1 }))

def execMboxPost (l : Lane) (q : Req) (n : Fin 32) (ptr : Word) (s : State) : Out :=
  onLane s l (fun L => L.guardW q (R.mboxPost n) ptr (fun L => L.wMboxPost q n ptr))

/-- The header of a mailbox. An empty one has full 0; its tag and sender read 0 until a first message has been posted, and
are free after that (assumption 66). -/
def LaneState.mboxHeader (L : LaneState) (n : Nat) : Word :=
  match L.msgOf n with
  | some b =>
    wordN (b.tag + 2 ^ 16 + 2 ^ 17 * b2n (L.epochChanged (L.get (R.mboxCfg_rcv n)) b.rcvEpoch) +
      2 ^ 18 * b2n (L.epochChanged b.sender b.sndEpoch) + 2 ^ 24 * b.sender)
  | none =>
    if L.memSt.serial = 0 then 0
    else
      let e := (Config.emptyHeader n L.memSt.serial).toNat
      wordN (e % 2 ^ 16 + 2 ^ 24 * (e / 2 ^ 16))

/-- Captures the pointer of a mailbox for a master; an empty mailbox gives pointer 0. -/
def LaneState.mboxCapture (L : LaneState) (m : Master) (n : Nat) : LaneState :=
  let c := match L.msgOf n with
    | some b => (b.ptr, b.serial)
    | none => (0, 0)
  L.mapM (fun M => { M with
    cap := M.cap.filter (fun x => !(x.master == m.id && x.box == n)) ++
      [{ master := m.id, box := n, ptr := c.1, serial := c.2 }] })

/-- A read of MBOX_MSG_n: the header, and the pointer captured for the reader. -/
def LaneState.readMboxMsg (L : LaneState) (q : Req) (n : Nat) : Word × LaneState :=
  if q.m.isCore && !q.secure && L.is (R.mboxCfg_sec n) then (0, L.recordViol q (R.mboxMsg n) false 1)
  else (L.mboxHeader n, L.mboxCapture q.m n)

def execMboxMsgRead (l : Lane) (q : Req) (n : Fin 32) (s : State) : Out :=
  onLane s l (fun L => L.guardR q (R.mboxMsg n) (fun L => L.readMboxMsg q n))

/-- A read of MBOX_PTR_n: the captured pointer, captured first if none is held. The receiver's read consumes the message,
unless it was posted after the capture. -/
def LaneState.readMboxPtr (L : LaneState) (q : Req) (n : Nat) : Word × LaneState :=
  if q.m.isCore && !q.secure && L.is (R.mboxCfg_sec n) then (0, L.recordViol q (R.mboxPtr n) false 1)
  else
    let held (M : MemSt) : Option MboxCap := M.cap.find? (fun x => x.master == q.m.id && x.box == n)
    let L := if (held L.memSt).isSome then L else L.mboxCapture q.m n
    match held L.memSt with
    | none => (0, L)
    | some c =>
      let L := L.mapM (fun M => { M with cap := dropFrom c M.cap })
      let same := (L.msgOf n).any (fun b => b.serial == c.serial)
      if q.m.id = L.get (R.mboxCfg_rcv n) ∧ same then
        (c.ptr, (L.setBit R.mboxFull_full n false).mapM (fun M => { M with box := M.box.filter (fun b => b.box != n) }))
      else (c.ptr, L)

def execMboxPtrRead (l : Lane) (q : Req) (n : Fin 32) (s : State) : Out :=
  onLane s l (fun L => L.guardR q (R.mboxPtr n) (fun L => L.readMboxPtr q n))

/-! ## Semaphores (R530 to R532) -/

/-- Whether a semaphore is secure. -/
def LaneState.semaSecure (L : LaneState) (n : Nat) : Bool :=
  if n < 32 then L.bitOf R.semaSec0_sec n else L.bitOf R.semaSec1_sec (n - 32)

/-- A read of SEMA_n: a free semaphore is acquired and reads 0, else it reads its owner; a non-secure read of a secure one
reads 0x3F and is recorded. -/
def LaneState.readSema (L : LaneState) (q : Req) (n : Nat) : Word × LaneState :=
  if q.m.isCore && !q.secure && L.semaSecure n then
    (0x3F, (L.flag R.semaStat_denied).recordViol q (R.sema n) false 1)
  else if L.get (R.sema_owner n) = 0 then (0, L.put (R.sema_owner n) q.m.id)
  else (wordN (L.get (R.sema_owner n)), L)

def execSemaAcquire (l : Lane) (q : Req) (n : Fin 64) (s : State) : Out :=
  onLane s l (fun L => L.guardR q (R.sema n) (fun L => L.readSema q n))

/-- A write of SEMA_n: 0 by the owner releases; any other master's write sets bad_rel. -/
def LaneState.wSema (L : LaneState) (q : Req) (n : Nat) (w : Word) : LaneState :=
  if L.get (R.sema_owner n) = q.m.id then (if bits w.toNat 5 0 = 0 then L.put (R.sema_owner n) 0 else L)
  else L.flag R.semaStat_bad_rel

def execSemaRelease (l : Lane) (q : Req) (n : Fin 64) (s : State) : Out :=
  onLane s l (fun L => L.guardW q (R.sema n) 0 (fun L => L.wSema q n 0))

/-- A write of SEMA_FREE from the secure world releases a semaphore; a non-secure one has no effect. -/
def LaneState.wSemaFree (L : LaneState) (secure : Bool) (w : Word) : LaneState :=
  if secure then L.put (R.sema_owner (bits w.toNat 5 0)) 0 else L

def execSemaFree (l : Lane) (q : Req) (idx : BitVec 6) (s : State) : Out :=
  onLane s l (fun L => L.guardW q R.semaFree (idx.setWidth 32) (fun L => L.wSemaFree q.secure (idx.setWidth 32)))

end Sys2Proof.Machine
end

