-- ==== Sys2Proof/Machine/LifeCycle.lean ====
section
/-! DEFINITION. Life cycle, roles and sessions, lockouts, and the change log (chapter 17, R533 to R550). -/

namespace Sys2Proof.Machine

/-- A minute, and 60 s, of the Cairn timer in coarse ticks. -/
def minuteTicks : Nat := 12000000000

/-- The first `n` bytes, filled up with zeros. -/
def padBytes (n : Nat) (bs : List Byte) : List Byte := (bs ++ List.replicate n 0).take n

/-- The little-endian word at a byte offset of a list. -/
def wordAt (bs : List Byte) (o : Nat) : Word :=
  wordN ((List.range 4).foldl (fun a k => a + (bs.getD (o + k) 0).toNat * 256 ^ k) 0)

/-- Writes the words of a list of bytes into consecutive registers. -/
def LaneState.putBytes (L : LaneState) (reg : Nat → Nat) (n : Nat) (bs : List Byte) : LaneState :=
  (List.range n).foldl (fun (M : LaneState) k => M.setReg (reg k) (wordAt bs (4 * k))) L

/-- The bytes of consecutive registers. -/
def LaneState.regBytes (L : LaneState) (reg : Nat → Nat) (n : Nat) : List Byte :=
  (List.range n).flatMap (fun k => wordBytes (L.reg (reg k)))

/-- Clears consecutive registers: the security engine zeroises a buffer. -/
def LaneState.zeroise (L : LaneState) (reg : Nat → Nat) (n : Nat) : LaneState :=
  (List.range n).foldl (fun (M : LaneState) k => M.setReg (reg k) 0) L

/-! ## The change log (R547 to R550) -/

/-- The bus address of log entry n. -/
def logAddr (n : Nat) : Nat := 0x00804000 + 12 * n

/-- The log head as bytes. -/
def LaneState.logHead (L : LaneState) : List Byte := L.regBytes R.lcsHead 12

/-- Shows the number of entries: LCS_LOG.n, log_warn from 3,840 and log_full at 4,096. -/
def LaneState.showLog (L : LaneState) (n : Nat) : LaneState :=
  ((L.put R.lcsLog_n n).setF R.lcsStat_log_warn (decide (3840 ≤ n))).setF R.lcsState_log_full (decide (4096 ≤ n))

/-- Appends an entry and extends the chain; nothing is appended while the log is full. -/
def LaneState.appendLog (L : LaneState) (role kind sub : Nat) (w1 w2 : Word) : LaneState :=
  let n := L.get R.lcsLog_n
  if 4096 ≤ n then L
  else
    let w0 := wordN (kind + role % 4 * 2 ^ 16 + L.id.idx * 2 ^ 18 + sub % 4096 * 2 ^ 20)
    let e := wordBytes w0 ++ wordBytes w1 ++ wordBytes w2
    let h := sha384 (L.logHead ++ e)
    ((L.storeBytes (logAddr n) e).putBytes R.lcsHead 12 h).showLog (n + 1)

/-- Whether a log entry is fully erased. -/
def LaneState.entryErased (L : LaneState) (n : Nat) : Bool :=
  (L.bytesFrom (logAddr n) 12).all (fun b => b == Config.erasedByte)

/-- At boot the head is formed again over the written entries; a written entry behind an erased one sets log_err (R547). -/
def LaneState.readLog (L : LaneState) : LaneState :=
  let n := ((List.range 4096).takeWhile (fun i => !L.entryErased i)).length
  let gap := (List.range 4096).any (fun i => n < i && !L.entryErased i)
  let h := (List.range n).foldl (fun (h : List Byte) i => sha384 (h ++ L.bytesFrom (logAddr i) 12)) L.nv.logBase
  ((L.putBytes R.lcsHead 12 h).showLog n).flagIf gap R.lcsStat_log_err

/-- A write of LCS_LOG_SUB stages the argument of the next record entry (R549). -/
def LaneState.wLcsLogSub (L : LaneState) (w : Word) : LaneState :=
  (L.put R.lcsLogSub_sub (bits w.toNat 11 0)).setF R.lcsLogSub_staged true

def execLcsLogSubWrite (l : Lane) (q : Req) (sub : BitVec 12) (s : State) : Out :=
  onLane s l (fun L => L.guardW q R.lcsLogSub (sub.setWidth 32) (fun L => L.wLcsLogSub (sub.setWidth 32)))

/-- The security engine appends the entry of a record operation that has ended, and clears staged (R549). -/
def execLogAppend (l : Lane) (s : State) : Out :=
  onLane s l (fun L => match L.lcs.logDue with
    | [] => L
    | (kind, sub, w1, w2) :: rest =>
      ((L.appendLog (L.get R.lcsState_role) kind sub w1 w2).setF R.lcsLogSub_staged false).mapK (fun C => { C with
        logDue := rest }))

/-! ## Sessions (R538, R539, R544) -/

/-- The session role: 0 none, 1 Operator, 2 Installer, 3 Maker. -/
def LaneState.role (L : LaneState) : Nat := L.get R.lcsState_role

/-- Closes the calibration grant with its CAL_SESSION entry (R544). -/
def LaneState.closeGrant (L : LaneState) : LaneState :=
  if L.get R.lcsState_cal_grant = 0 then L
  else
    let crc := crc32 ((L.sigsFrom 0 0x10000).flatMap wordBytes)
    let L := L.appendLog L.role 0x0034 0 (wordN (satU 32 L.lcs.calWrites)) crc
    (L.put R.lcsState_cal_grant 0).mapK (fun C => { C with calWrites := 0 })

/-- The session ends: its grant closes, dbg_open falls, and its image checks are void; debug access stays (R539, R556). -/
def LaneState.endSession (L : LaneState) : LaneState :=
  let L := L.closeGrant
  ((L.put R.lcsState_role 0).setF R.lcsState_dbg_open false).mapK (fun C => { C with checked := [] })

/-- A session of a role opens and replaces any session in force. -/
def LaneState.openSession (L : LaneState) (r : Nat) : LaneState := (L.endSession.put R.lcsState_role r).roleAct

/-- No role-gated action for LCS_CFG.idle minutes ends the session. -/
def execSessionIdleTimeout (l : Lane) (s : State) : Out :=
  onLane s l (fun L =>
    L.when (L.role != 0 && decide (L.lcs.actAt + atLeast1 (L.get R.lcsCfg_idle) * minuteTicks ≤ L.aon.now))
      (fun L => L.endSession))

/-! ## Failures and lockouts (R542) -/

/-- The failure count of a role. -/
def failF (r : Nat) : RF := if r = 1 then R.lcsFail_f_op else if r = 2 then R.lcsFail_f_inst else R.lcsFail_f_mkr

/-- The lockout of a failure count in minutes; 0 below five failures. -/
def lockMinutes (f : Nat) : Nat := if f < 5 then 0 else 10 * 2 ^ (min f 15 - 5)

/-- Whether a role is locked. -/
def LaneState.lockedOut (L : LaneState) (r : Nat) : Bool := L.aon.lockEnd.get r != 0

/-- The field that shows the lockout left of a role. -/
def lockleftF (r : Nat) : RF :=
  if r = 1 then R.lcsLockleft0_lo else if r = 2 then R.lcsLockleft0_hi else R.lcsLockleft1_lo

/-- Shows the minutes left of every lockout, rounded up. -/
def LaneState.showLockouts (L : LaneState) : LaneState :=
  [1, 2, 3].foldl (fun (M : LaneState) r =>
    let e := M.aon.lockEnd.get r
    M.put (lockleftF r) (if e = 0 then 0 else satU 16 ((e - 1 - M.aon.now + (minuteTicks - 1)) / minuteTicks))) L

/-- A failed attempt of a role: its count rises, and from the fifth failure on it is locked, with a LOCKOUT entry. -/
def LaneState.failAttempt (L : LaneState) (r : Nat) : LaneState :=
  let L := (L.count (failF r)).flag R.lcsStat_auth_fail
  let f := L.get (failF r)
  let m := lockMinutes f
  if m = 0 then L
  else
    let L := { L with aon := { L.aon with lockEnd := L.aon.lockEnd.set r (L.aon.now + m * minuteTicks + 1) } }
    (L.appendLog 0 0x0003 r (wordN f) (wordN m)).showLockouts

/-- A lockout ends. -/
def execLockoutExpire (l : Lane) (role : Fin 4) (s : State) : Out :=
  onLane s l (fun L =>
    let e := L.aon.lockEnd.get role
    L.when (e != 0 && decide (e ≤ L.aon.now + 1)) (fun L =>
      { L with aon := { L.aon with lockEnd := L.aon.lockEnd.set role 0 } }.showLockouts))

/-! ## LCS operations (R534, R540 to R545) -/

def opAuth : Nat := 1
def opChallenge : Nat := 2
def opMakerAuth : Nat := 3
def opClose : Nat := 4
def opPwSet : Nat := 5
def opCalOpen : Nat := 6
def opCalClose : Nat := 7
def opDbgOpen : Nat := 8
def opLcAdvance : Nat := 9
def opLcReenter : Nat := 10
def opRetire : Nat := 11
def opLogReset : Nat := 12

/-- The password in SEC_PW, and whether its length and bytes are legal (R540). -/
def LaneState.secPw (L : LaneState) : List Byte := (L.regBytes R.secPw 8).take (L.get R.secPwLen_len)
def LaneState.secPwOk (L : LaneState) : Bool :=
  decide (8 ≤ L.get R.secPwLen_len ∧ L.get R.secPwLen_len ≤ 32) &&
    L.secPw.all (fun b => decide (0x20 ≤ b.toNat ∧ b.toNat ≤ 0x7E))

/-- Whether the password in SEC_PW is that of a role; a role without one cannot be authorised (R541). -/
def LaneState.pwMatches (L : LaneState) (r : Nat) : Bool :=
  match L.nv.passwords.find? (fun p => p.1 == r) with
  | some p => sha384 (p.2.1 ++ L.secPw) == p.2.2
  | none => false

/-- Whether a challenge is open. -/
def LaneState.chalLive (L : LaneState) : Bool :=
  match L.lcs.chalAt with
  | some t => decide (L.aon.now < t + minuteTicks)
  | none => false

/-- Whether the signature in SEC_SIG is the Maker's over the challenge (R543). -/
def LaneState.makerOk (L : LaneState) : Bool :=
  Config.ecdsaVerify Config.makerKey (sha384 (L.regBytes R.secChal 11)) (L.regBytes R.secSig 24)

/-- Whether the lane may change its life cycle now: every axis OFF, not in break mode (R535). -/
def LaneState.lcQuiet (L : LaneState) : Bool := L.allOff && !L.is R.triadStat_break

/-- Whether an op is accepted: its role and life-cycle conditions, and room in the log for an entry that it would append
(R534, R538, R541, R550). -/
def LaneState.lcsAccepts (L : LaneState) (op role : Nat) : Bool :=
  let r := L.role
  let lc := L.get R.lcsState_lc
  let room := !L.is R.lcsState_log_full
  let ends := room || L.get R.lcsState_cal_grant == 0
  if op = opAuth then role != 0 && ends
  else if op = opChallenge then true
  else if op = opMakerAuth then L.chalLive && ends
  else if op = opClose ∨ op = opCalClose then ends
  else if op = opPwSet then
    room && L.secPwOk && ((role == 1 && r != 0) || (role == 2 && (r == 2 || r == 3)))
  else if op = opCalOpen then r != 0
  else if op = opDbgOpen then room && ((r == 2 && lc == 2) || (r == 3 && (lc == 2 || lc == 3)))
  else if op = opLcAdvance then room && L.lcQuiet && ((lc == 1 && r == 3) || (lc == 2 && (r == 2 || r == 3)))
  else if op = opLcReenter then
    room && L.lcQuiet && lc == 3 && r == 3 && decide (L.get R.lcsState_reentry < 7)
  else if op = opRetire then room && L.lcQuiet && r == 3 && (lc == 1 || lc == 2 || lc == 3)
  else op == opLogReset && r == 3

/-- A write of LCS_CMD other than LANE_RESET: discarded while busy; an attempt of a locked role is refused without
evaluation; a refused op that reads SEC_PW zeroises it. -/
def LaneState.lcsStart (L : LaneState) (op role : Nat) : LaneState :=
  let reads := op == opAuth || op == opPwSet
  let who := if op = opAuth then role else if op = opMakerAuth then 3 else 0
  if L.is R.lcsStat_busy then L.flag R.lcsStat_refused
  else if L.lockedOut who then
    let L := (L.flag R.lcsStat_refused).flag R.lcsStat_locked_out
    if reads then L.zeroise R.secPw 8 else L
  else if !L.lcsAccepts op role then
    let L := L.flag R.lcsStat_refused
    if reads then L.zeroise R.secPw 8 else L
  else
    let ok := if op = opAuth then L.pwMatches role else if op = opMakerAuth then L.makerOk else true
    let gated := op == opPwSet || decide (opCalOpen ≤ op)
    let L := if gated then L.roleAct else L
    (L.setF R.lcsStat_busy true).mapK (fun C => { C with
      op := some { op := op, role := role, ok := ok, pw := L.secPw }
      chalAt := if op = opMakerAuth then none else C.chalAt })

/-- A life-cycle command blows its fuses: the new state awaits the next lane reset, with an LC_CHANGE entry, and the
session ends (R535, R539). -/
def LaneState.changeLc (L : LaneState) (new : Nat) : LaneState :=
  let old := L.get R.lcsState_lc
  let L := { L with nv := { L.nv with lc := new } }.setF R.lcsState_pend true
  (L.appendLog L.role 0x0002 new (wordN old) (wordN (L.get R.lcsState_reentry))).endSession

/-- What RETIRE erases: role records, sleep key and image key slots (R537). -/
def LaneState.eraseKeys (L : LaneState) : LaneState :=
  let L := { L with nv := { L.nv with passwords := [], imageKeys := [], sleepKey := none } }
  ((L.setReg R.lcsFail 0).put R.secRevoke_fill 0).put R.secRevoke_sleep 0

/-- LOG_RESET: the closing head becomes H_0, and LOG_RESET is the first entry of the new log (R550). -/
def LaneState.logReset (L : LaneState) : LaneState :=
  let n := L.get R.lcsLog_n
  let h := L.logHead
  let L := { L with nv := { L.nv with logBase := h } }
  let L := (L.storeBytes 0x00804000 (List.replicate 0xC000 Config.erasedByte)).showLog 0
  L.appendLog L.role 0x0001 0 (wordN n) (wordAt h 0)

/-- The 44 bytes of a challenge over a nonce (R543). -/
def LaneState.challenge (L : LaneState) (nonce : List Word) : List Byte :=
  let last := wordN (L.id.idx + 4 * L.get R.lcsState_lc + L.lcs.chalCount % 2 ^ 24 * 2 ^ 8)
  nonce.flatMap wordBytes ++ wordBytes (L.reg R.secSerialLo) ++ wordBytes (L.reg R.secSerialHi) ++ wordBytes last

/-- The effect of an op at its end; `rnd` are eight words of the random source. -/
def LaneState.lcsEffect (L : LaneState) (o : LcsOp) (rnd : List Word) : LaneState :=
  let lc := L.get R.lcsState_lc
  if o.op = opAuth then
    (if o.ok then (L.put (failF o.role) 0).openSession o.role else L.failAttempt o.role).zeroise R.secPw 8
  else if o.op = opChallenge then
    let L := L.mapK (fun C => { C with chalCount := C.chalCount + 1, chalAt := some L.aon.now })
    L.putBytes R.secChal 11 (L.challenge rnd)
  else if o.op = opMakerAuth then
    if o.ok then (L.put R.lcsFail_f_mkr 0).openSession 3 else L.failAttempt 3
  else if o.op = opClose then L.endSession
  else if o.op = opPwSet then
    let salt := (rnd.take 4).flatMap wordBytes
    let rest := L.nv.passwords.filter (fun p => p.1 != o.role)
    let L := { L with nv := { L.nv with passwords := rest ++ [(o.role, salt, sha384 (salt ++ o.pw))] } }
    (L.appendLog L.role 0x0004 o.role 0 0).zeroise R.secPw 8
  else if o.op = opCalOpen then L.put R.lcsState_cal_grant (if L.role = 1 then 1 else 2)
  else if o.op = opCalClose then L.closeGrant
  else if o.op = opDbgOpen then
    ((L.setF R.lcsState_dbg_open true).mapK (fun C => { C with debugOpen := true })).appendLog L.role 0x0021 0 0 0
  else if o.op = opLcAdvance then L.changeLc (lc + 1)
  else if o.op = opLcReenter then (L.count R.lcsState_reentry).changeLc 2
  else if o.op = opRetire then L.eraseKeys.changeLc 4
  else if o.op = opLogReset then L.logReset
  else L

/-- An LCS op ends: its effect, and done. -/
def execLcsOpComplete (l : Lane) (s : State) : Out :=
  match (s.lane l).lcs.op with
  | none => .next s
  | some o =>
    let L := ((s.lane l).mapK (fun C => { C with op := none })).lcsEffect o (freeWords s.draws 8)
    .next { s.setLane l ((L.setF R.lcsStat_busy false).flag R.lcsStat_done) with draws := s.draws + 8 }

/-- A challenge lapses 60 s after its issue. -/
def execChallengeExpire (l : Lane) (s : State) : Out :=
  onLane s l (fun L => L.when (L.lcs.chalAt.isSome && !L.chalLive) (fun L => L.mapK (fun C => { C with chalAt := none })))

/-- A write of LCS_CMD by an op of R534 to R550, as one word. -/
def lcsWord (op role : Nat) : Word := wordN (op + 16 * role)

def execAuth (l : Lane) (q : Req) (role : BitVec 2) (s : State) : Out :=
  onLane s l (fun L => L.guardW q R.lcsCmd (lcsWord 1 role.toNat) (fun L => L.lcsStart opAuth role.toNat))

def execChallenge (l : Lane) (q : Req) (s : State) : Out :=
  onLane s l (fun L => L.guardW q R.lcsCmd (lcsWord 2 0) (fun L => L.lcsStart opChallenge 0))

def execMakerAuth (l : Lane) (q : Req) (s : State) : Out :=
  onLane s l (fun L => L.guardW q R.lcsCmd (lcsWord 3 0) (fun L => L.lcsStart opMakerAuth 0))

def execClose (l : Lane) (q : Req) (s : State) : Out :=
  onLane s l (fun L => L.guardW q R.lcsCmd (lcsWord 4 0) (fun L => L.lcsStart opClose 0))

def execPwSet (l : Lane) (q : Req) (role : BitVec 2) (s : State) : Out :=
  onLane s l (fun L => L.guardW q R.lcsCmd (lcsWord 5 role.toNat) (fun L => L.lcsStart opPwSet role.toNat))

def execCalOpen (l : Lane) (q : Req) (s : State) : Out :=
  onLane s l (fun L => L.guardW q R.lcsCmd (lcsWord 6 0) (fun L => L.lcsStart opCalOpen 0))

def execCalClose (l : Lane) (q : Req) (s : State) : Out :=
  onLane s l (fun L => L.guardW q R.lcsCmd (lcsWord 7 0) (fun L => L.lcsStart opCalClose 0))

def execDbgOpen (l : Lane) (q : Req) (s : State) : Out :=
  onLane s l (fun L => L.guardW q R.lcsCmd (lcsWord 8 0) (fun L => L.lcsStart opDbgOpen 0))

def execLcAdvance (l : Lane) (q : Req) (s : State) : Out :=
  onLane s l (fun L => L.guardW q R.lcsCmd (lcsWord 9 0) (fun L => L.lcsStart opLcAdvance 0))

def execLcReenter (l : Lane) (q : Req) (s : State) : Out :=
  onLane s l (fun L => L.guardW q R.lcsCmd (lcsWord 10 0) (fun L => L.lcsStart opLcReenter 0))

def execRetire (l : Lane) (q : Req) (s : State) : Out :=
  onLane s l (fun L => L.guardW q R.lcsCmd (lcsWord 11 0) (fun L => L.lcsStart opRetire 0))

def execLogReset (l : Lane) (q : Req) (s : State) : Out :=
  onLane s l (fun L => L.guardW q R.lcsCmd (lcsWord 12 0) (fun L => L.lcsStart opLogReset 0))

end Sys2Proof.Machine
end

