-- ==== Sys2Proof/Machine/Security.lean ====
section
/-! DEFINITION. Images, bank trailers, secure boot, updates, attestation and keys (chapter 17, R551 to R564). -/

namespace Sys2Proof.Machine

/-! ## Bank trailers (R559) -/

def lineActivate : Nat := 0
def lineConfirm : Nat := 1
def lineReject : Nat := 2

/-- The bus address of trailer line k of a bank, and the code of a line. -/
def lineAddr (b k : Nat) : Nat := nvBase b + 0x3FE000 + 16 * k
def lineCode (k : Nat) : Nat := if k < 8 then 0xA5C1 + k else 0xA5D1 + (k - 8)

/-- Whether a line is erased, and whether it holds its code with the complement. -/
def LaneState.lineErased (L : LaneState) (b k : Nat) : Bool :=
  (L.bytesFrom (lineAddr b k) 16).all (fun x => x == Config.erasedByte)
def LaneState.lineValid (L : LaneState) (b k : Nat) : Bool :=
  let a := lineAddr b k
  L.word (a + 4) == wordN (lineCode k) && L.word (a + 8) == ~~~ L.word a && L.word (a + 12) == ~~~ L.word (a + 4)

/-- Programs an erased line; a line is programmed once. -/
def LaneState.programLine (L : LaneState) (b k : Nat) (arg : Word) : LaneState :=
  if L.lineErased b k then
    let a := lineAddr b k
    (((L.setWord a arg).setWord (a + 4) (wordN (lineCode k))).setWord (a + 8) (~~~ arg)).setWord (a + 12)
      (~~~ wordN (lineCode k))
  else L

/-- The activation sequence of a bank; 0 without a valid ACTIVATE. -/
def LaneState.activation (L : LaneState) (b : Nat) : Nat :=
  if L.lineValid b lineActivate then (L.word (lineAddr b lineActivate)).toNat else 0

/-- Whether a bank is a candidate: its ACTIVATE is valid and its REJECT erased. -/
def LaneState.candidate (L : LaneState) (b : Nat) : Bool := L.lineValid b lineActivate && L.lineErased b lineReject

/-- The bank that the trailers select, and whether it is on trial. -/
def LaneState.selectBank (L : LaneState) : Nat × Bool :=
  let sel :=
    if L.candidate 0 && L.candidate 1 then (if L.activation 0 < L.activation 1 then 1 else 0)
    else if L.candidate 1 then 1 else 0
  (sel, (L.candidate 0 || L.candidate 1) && !L.lineValid sel lineConfirm)

/-- REJECT of a bank clears the warm record (R554). -/
def LaneState.reject (L : LaneState) (b : Nat) : LaneState :=
  { L.programLine b lineReject 0 with aon := { L.aon with warm := none } }

/-! ## Images (R551, R552) -/

/-- A header word of the image of a bank. -/
def LaneState.hdr (L : LaneState) (b o : Nat) : Nat := (L.word (nvBase b + o)).toNat

def LaneState.imgClass (L : LaneState) (b : Nat) : Nat := bits (L.hdr b 8) 15 0
def LaneState.imgSver (L : LaneState) (b : Nat) : Nat := bits (L.hdr b 8) 23 16
def LaneState.imgSlot (L : LaneState) (b : Nat) : Nat := bits (L.hdr b 8) 25 24
def LaneState.imgLen (L : LaneState) (b : Nat) : Nat := L.hdr b 0x0C

/-- Whether the header of a bank is well formed. -/
def LaneState.headerOk (L : LaneState) (b : Nat) : Bool :=
  L.hdr b 0 == 0x01000001 && decide (L.imgSver b ≤ 63) && bits (L.hdr b 8) 31 26 == 0 &&
    L.imgLen b % 256 == 0 && decide (L.imgLen b ≤ 4186112) && L.hdr b 0x10 % 4 == 0 &&
    decide (L.hdr b 0x18 ≤ 65536) && (L.bytesFrom (nvBase b + 0x1C) 0x84).all (fun x => x == 0)

/-- The digest that the signature of a bank's image covers. -/
def LaneState.imgDigest (L : LaneState) (b : Nat) : List Byte :=
  sha384 (L.bytesFrom (nvBase b) 0xA0 ++ L.bytesFrom (nvBase b + 0x100) (L.imgLen b - 0x100))

/-- The tests of R553 step 2: key slot filled and not revoked, signature, security version. -/
def LaneState.keyOk (L : LaneState) (b : Nat) : Bool :=
  L.bitOf R.secRevoke_fill (L.imgSlot b) && !L.bitOf R.secRevoke_rev (L.imgSlot b)
def LaneState.sigOk (L : LaneState) (b : Nat) : Bool :=
  L.headerOk b && (match L.nv.imageKeys.find? (fun p => p.1 == L.imgSlot b) with
    | some p => Config.ecdsaVerify p.2 (L.imgDigest b) (L.bytesFrom (nvBase b + 0xA0) 96)
    | none => false)
def LaneState.sverOk (L : LaneState) (b : Nat) : Bool := decide (L.nv.minSver ≤ L.imgSver b)

/-- Whether a bank passes. -/
def LaneState.bankPasses (L : LaneState) (b : Nat) : Bool := L.headerOk b && L.keyOk b && L.sigOk b && L.sverOk b

/-! ## The records of the record sector (R546, R560) -/

/-- Applies a word of the repair record: a valid one remaps its row, another one that is not erased sets rec_err. -/
def LaneState.applyRepair (L : LaneState) (i : Nat) : LaneState :=
  let a := 0x00802400 + 4 * i
  let w := (L.word a).toNat
  let r := bits w 2 0
  let row := bits w 15 4
  if bits w 31 16 = 65535 - bits w 15 0 ∧ row < regionRows r then L.remapRow r row
  else L.flagIf (!(L.bytesFrom a 4).all (fun x => x == Config.erasedByte)) R.lcsStat_rec_err

/-- Word 2 of the latest CAL_REC entry of the log that names a page. -/
def LaneState.pageCrc (L : LaneState) (page : Nat) : Option Word :=
  (List.range (L.get R.lcsLog_n)).foldl (fun (r : Option Word) i =>
    if bits (L.word (logAddr i)).toNat 15 0 = 0x0033 ∧ (L.word (logAddr i + 4)).toNat = page then
      some (L.word (logAddr i + 8))
    else r) none

/-- Applies the pairs of a page of the calibration override record up to its end word; the flag says whether the record
goes on. IDs outside the calibration range are ignored (R553). -/
def LaneState.applyPairs (L : LaneState) (a : Nat) : Nat → LaneState × Bool
  | 0 => (L, true)
  | n + 1 =>
    let id := L.word a
    if id = 0xFFFFFFFF#32 then (L, false)
    else
      let i := bits id.toNat 17 0
      (if i < 0x10000 then L.setSig i (L.word (a + 4)) else L).applyPairs (a + 8) n

/-- Applies the calibration override record page by page: a page is applied only with a matching CRC-32; a skipped page
that is not erased sets rec_err. -/
def LaneState.applyOverrides (L : LaneState) : LaneState :=
  ((List.range 24).foldl (fun (p : LaneState × Bool) i =>
    if !p.2 then p
    else
      let a := 0x00802800 + 256 * i
      let bs := p.1.bytesFrom a 256
      if p.1.pageCrc a = some (crc32 bs) then p.1.applyPairs a 32
      else (p.1.flagIf (!bs.all (fun x => x == Config.erasedByte)) R.lcsStat_rec_err, true)) (L, true)).1

/-! ## Secure boot (R553 to R555, R558) -/

/-- Whether the warm record is valid: it names the selected bank, and no trial runs (R554). -/
def LaneState.warmValid (L : LaneState) : Bool :=
  match L.aon.warm with
  | some p => p.1 == L.selectBank.1 && !L.selectBank.2
  | none => false

/-- Steps 4 and 5: the calibration block and the override record are applied, the warm record is stored unless on trial,
and the cores jump to the entry point. A failed boot set keeps the lane in BOOT (R567). -/
def LaneState.startImage (L : LaneState) (b : Nat) (trial : Bool) : LaneState :=
  let n := min (L.hdr b 0x18) 65536
  let L := (List.range n).foldl (fun (M : LaneState) i =>
    M.setSig i (M.word (nvBase b + M.hdr b 0x14 + 4 * i))) L
  let L := L.applyOverrides
  let L := ((L.put R.secStat_boot_bank b).put R.nvmcStat_boot_bank b).setF R.secStat_trial trial
  let L := L.setReg R.secRun (wordN (L.imgClass b + L.imgSver b * 2 ^ 16 + L.nv.minSver % 256 * 2 ^ 24))
  let L := if trial then L else { L with aon := { L.aon with warm := some (b, L.imgDigest b) } }
  let entry := wordN (nvBase b + L.hdr b 0x10)
  if L.lcs.bootFail then L
  else
    { L.mapK (fun C => { C with imageOk := true }) with
      triadCore := { L.triadCore with pc := entry }
      core1 := { L.core1 with pc := entry }
      core2 := { L.core2 with pc := entry } }

/-- The boot ROM's choice of a bank: a trial bank whose three boots are used up is rejected with an IMAGE_FALLBACK entry,
another trial boot is counted; the result is the bank, trial, and whether the fallback of R558 happened (R559). -/
def LaneState.romSelect (L : LaneState) : LaneState × Nat × Bool × Bool :=
  let go (M : LaneState) (fb : Bool) : LaneState × Nat × Bool × Bool :=
    let (b, t) := M.selectBank
    if t then
      match [8, 9, 10].find? (fun k => M.lineErased b k) with
      | some k => (M.programLine b k 0, b, true, fb)
      | none =>
        let R1 := M.reject b
        let (b2, t2) := R1.selectBank
        let R2 := R1.appendLog 0 0x0011 b2 (wordN (R1.hdr b 4)) 2
        if t2 then
          match [8, 9, 10].find? (fun k => R2.lineErased b2 k) with
          | some k => (R2.programLine b2 k 0, b2, true, true)
          | none =>
            let R3 := R2.reject b2
            (R3.appendLog 0 0x0011 R3.selectBank.1 (wordN (R3.hdr b2 4)) 2, R3.selectBank.1, false, true)
        else (R2, b2, false, true)
    else (M, b, false, fb)
  go L false

/-- Steps 2 to 5 of R553: verify the selected bank, then the other one; with neither the lane stays in BOOT. -/
def LaneState.romBoot (L : LaneState) : LaneState :=
  let (M, b, trial, fb) := L.romSelect
  let M := M.setF R.secStat_fallback fb
  if M.bankPasses b then M.startImage b trial
  else
    let o := 1 - b
    let N := M.reject b
    if N.bankPasses o then
      ((N.appendLog 0 0x0011 o (wordN (N.hdr b 4)) 1).setF R.secStat_fallback true).startImage o false
    else N.flag R.secStat_img_fail

/-- Whether the boot ROM may run its verification now: the triad has left reset and the boot set has released the
memories (R567). -/
def LaneState.romReady (L : LaneState) : Bool :=
  L.belay == bsBoot && L.pwr.bootStep == 4 && L.lcs.bootDone && !L.lcs.booted && L.get R.lcsState_lc != 0 &&
    L.get R.lcsState_lc != 4

/-- The boot ROM forms the log head and applies the repair record (R547, R553 step 1). -/
def LaneState.romStart (L : LaneState) : LaneState :=
  let L := (L.mapK (fun C => { C with booted := true })).readLog
  (List.range 256).foldl (fun (M : LaneState) i => M.applyRepair i) L

/-- A boot without a valid warm record. -/
def execSecureBoot (l : Lane) (s : State) : Out :=
  onLane s l (fun L => L.when (L.romReady && !L.warmValid) (fun L => L.romStart.romBoot))

/-- A boot with a valid warm record: the recorded bank's digest is compared; a mismatch clears the record and the boot
goes on with step 2 (R554). -/
def execWarmCheck (l : Lane) (s : State) : Out :=
  onLane s l (fun L => L.when (L.romReady && L.warmValid) (fun L =>
    let L := L.romStart
    match L.aon.warm with
    | some (b, d) =>
      if L.imgDigest b == d then (L.setF R.secStat_fallback false).startImage b false
      else { L with aon := { L.aon with warm := none } }.romBoot
    | none => L.romBoot))

/-! ## SEC operations (R551, R556 to R558, R563, R564) -/

def secImgCheck : Nat := 1
def secImgActivate : Nat := 2
def secImgConfirm : Nat := 3
def secAttest : Nat := 4
def secKeySet : Nat := 5
def secKeyRevoke : Nat := 6

/-- Whether an op is accepted. -/
def LaneState.secAccepts (L : LaneState) (op bank slot : Nat) : Bool :=
  let r := L.role
  let room := !L.is R.lcsState_log_full
  if op = secImgCheck then r == 2 || r == 3
  else if op = secImgActivate then
    room && (r == 2 || r == 3) && decide (bank ∈ L.lcs.checked) &&
      (L.belay == bsService || (!driving L.belay && L.allOff)) &&
      (L.imgClass bank == L.compat || L.viewAllOff)
  else if op = secImgConfirm then L.is R.secStat_trial
  else if op = secAttest then true
  else if op = secKeySet then
    room && r == 3 && (slot == 8 || (decide (slot < 4) && !L.bitOf R.secRevoke_fill slot))
  else room && r == 3 && (decide (slot < 4) || slot == 8)

/-- A write of SEC_CMD; an op without a meaning does nothing. -/
def LaneState.wSecCmd (L : LaneState) (w : Word) : LaneState :=
  let op := bits w.toNat 3 0
  let bank := bits w.toNat 4 4
  let slot := bits w.toNat 11 8
  if op = 0 ∨ 6 < op then L
  else if L.is R.secStat_busy || !L.secAccepts op bank slot then L.flag R.secStat_refused
  else
    let L := if op = secImgConfirm ∨ op = secAttest then L else L.roleAct
    (L.setF R.secStat_busy true).mapK (fun C => { C with secOp := some (op, bank, slot) })

/-- The result of IMG_CHECK in SEC_IMG and SEC_IMG_VER. -/
def LaneState.showImage (L : LaneState) (b : Nat) : LaneState :=
  let L := ((L.setF R.secImg_sig_ok (L.sigOk b)).setF R.secImg_key_ok (L.keyOk b)).setF R.secImg_sver_ok (L.sverOk b)
  let L := (L.setF R.secImg_class_eq (L.imgClass b == L.compat)).setF R.secImg_valid true
  let L := ((L.put R.secImg_sver (L.imgSver b)).put R.secImg_class (L.imgClass b)).setReg R.secImgVer (wordN (L.hdr b 4))
  let ok := L.bankPasses b
  (L.flagIf (!ok) R.secStat_fail).mapK (fun C => { C with
    imgBank := b, checked := if ok then addTo b C.checked else dropFrom b C.checked })

/-- Bytes 0x000 to 0x19F of an attestation report; the word at 0x08C, which the spec does not name, is free. -/
def LaneState.report (L : LaneState) (free : Word) : List Byte :=
  let f (b : Bool) (i : Nat) : Nat := b2n b * 2 ^ i
  let flags := L.get R.lcsState_lc + f (L.is R.triadStat_split) 3 + f (L.is R.triadStat_lockstep_broken) 4 +
    f L.lcs.debugOpen 5 + L.get R.lcsState_reentry * 2 ^ 8 + f (L.is R.secStat_boot_bank) 16 +
    f (L.is R.secStat_fallback) 17 + f (L.is R.secStat_trial) 18 + f (L.is R.lcsState_log_full) 19
  let b := L.get R.secStat_boot_bank
  let mask (g : Nat → RF) : Nat := (List.range 11).foldl (fun a t => a + b2n (L.is (g t)) * 2 ^ t) 0
  let bist := mask R.bistRes_pass + mask R.bistRes_run * 2 ^ 16
  [wordN (1 + 512 * 65536), L.reg R.sysId, L.reg R.secSerialLo, L.reg R.secSerialHi, wordN flags,
      wordN (L.hdr b 4), L.reg R.secRun, wordN (L.get R.lcsLog_n)].flatMap wordBytes ++
    padBytes 48 (L.imgDigest b) ++ padBytes 48 L.logHead ++
    [wordN bist, L.aon.setEnd, L.reg R.triadLastMis, free].flatMap wordBytes ++ L.regBytes R.secNonce 8 ++
    padBytes 48 (Config.identityKeyDigest L.id.idx) ++ List.replicate 192 0

/-- ATTEST signs the report with the identity key. -/
def LaneState.attest (L : LaneState) (free : Word) : LaneState :=
  let r := L.report free
  L.putBytes R.secRpt 128 (r ++ padBytes 96 (Config.identitySign L.id.idx (sha384 r)))

/-- KEY_SET: SEC_KEYIN becomes the key of an image slot or the sleep key, and is zeroised (R551, R564). -/
def LaneState.keySet (L : LaneState) (slot : Nat) : LaneState :=
  let key := L.regBytes R.secKeyin 12
  let L := if slot = 8 then { L with nv := { L.nv with sleepKey := some key } }.setF R.secRevoke_sleep true
    else { L with nv := { L.nv with imageKeys := L.nv.imageKeys ++ [(slot, key)] } }.setBit R.secRevoke_fill slot true
  (L.appendLog L.role 0x0005 slot 1 0).zeroise R.secKeyin 12

/-- KEY_REVOKE: the revocation fuse of an image slot; a revoked sleep key is no longer set (assumption 76). -/
def LaneState.keyRevoke (L : LaneState) (slot : Nat) : LaneState :=
  let L := if slot = 8 then { L with nv := { L.nv with sleepKey := none } }.setF R.secRevoke_sleep false
    else L.setBit R.secRevoke_rev slot true
  L.appendLog L.role 0x0005 slot 2 0

/-- IMG_ACTIVATE programs ACTIVATE with the sequence of the running bank plus 1; a line that is not erased cannot be
programmed, and the op fails (assumption 74). -/
def LaneState.imgActivate (L : LaneState) (b : Nat) : LaneState :=
  if L.lineErased b lineActivate then
    let seq := L.activation (L.get R.secStat_boot_bank) + 1
    let L := { L.programLine b lineActivate (wordN seq) with aon := { L.aon with warm := none } }
    L.appendLog L.role 0x0010 b (wordN (L.hdr b 4)) (wordN (L.imgClass b + L.imgSver b * 2 ^ 16))
  else L.flag R.secStat_fail

/-- IMG_CONFIRM programs CONFIRM, clears trial and raises the fused minimum sver (R558). -/
def LaneState.imgConfirm (L : LaneState) : LaneState :=
  let b := L.get R.secStat_boot_bank
  let m := max L.nv.minSver (L.imgSver b)
  let L := { L.programLine b lineConfirm 0 with aon := { L.aon with warm := none }, nv := { L.nv with minSver := m } }
  (L.setF R.secStat_trial false).setReg R.secRun (wordN (setBits (L.reg R.secRun).toNat 31 24 m))

/-- A SEC op ends: its effect, and done. -/
def execSecOpComplete (l : Lane) (s : State) : Out :=
  onLaneFree s l (fun free L => match L.lcs.secOp with
    | none => L
    | some (op, bank, slot) =>
      let L := L.mapK (fun C => { C with secOp := none })
      let L :=
        if op = secImgCheck then L.showImage bank
        else if op = secImgActivate then L.imgActivate bank
        else if op = secImgConfirm then L.imgConfirm
        else if op = secAttest then L.attest free
        else if op = secKeySet then L.keySet slot
        else L.keyRevoke slot
      (L.setF R.secStat_busy false).flag R.secStat_done)

/-- A word of SEC_CMD. -/
def secWord (op bank slot : Nat) : Word := wordN (op + 16 * bank + 256 * slot)

def execImgCheck (l : Lane) (q : Req) (bank : Fin 2) (s : State) : Out :=
  onLane s l (fun L => L.guardW q R.secCmd (secWord 1 bank 0) (fun L => L.wSecCmd (secWord 1 bank 0)))

def execImgActivate (l : Lane) (q : Req) (bank : Fin 2) (s : State) : Out :=
  onLane s l (fun L => L.guardW q R.secCmd (secWord 2 bank 0) (fun L => L.wSecCmd (secWord 2 bank 0)))

def execImgConfirm (l : Lane) (q : Req) (s : State) : Out :=
  onLane s l (fun L => L.guardW q R.secCmd (secWord 3 0 0) (fun L => L.wSecCmd (secWord 3 0 0)))

def execAttest (l : Lane) (q : Req) (s : State) : Out :=
  onLane s l (fun L => L.guardW q R.secCmd (secWord 4 0 0) (fun L => L.wSecCmd (secWord 4 0 0)))

def execKeySet (l : Lane) (q : Req) (slot : BitVec 4) (s : State) : Out :=
  onLane s l (fun L => L.guardW q R.secCmd (secWord 5 0 slot.toNat) (fun L => L.wSecCmd (secWord 5 0 slot.toNat)))

def execKeyRevoke (l : Lane) (q : Req) (slot : BitVec 4) (s : State) : Out :=
  onLane s l (fun L => L.guardW q R.secCmd (secWord 6 0 slot.toNat) (fun L => L.wSecCmd (secWord 6 0 slot.toNat)))

end Sys2Proof.Machine
end

