-- ==== Sys2Proof/Machine/Siu.lean ====
section
/-! DEFINITION. The safety input unit: test pulses, channels, functions, records and published words (chapter 14,
R445 to R463). The samples of a pulse window, and the expiry of a filter, are operands or events from outside. -/

namespace Sys2Proof.Machine

/-- Changes what the safety input unit keeps. -/
def LaneState.mapU (L : LaneState) (f : SiuSt → SiuSt) : LaneState := { L with siu := f L.siu }

/-! ## Channels and functions -/

/-- The filtered state of a channel: true when closed. -/
def LaneState.chan (L : LaneState) (c : Nat) : Bool := bit (L.get R.siuState_ch) c

/-- The source code of a channel (R445). -/
def LaneState.chSrc (L : LaneState) (c : Nat) : Nat :=
  if c % 2 = 0 then L.get (R.siuPair_src_a (c / 2)) else L.get (R.siuPair_src_b (c / 2))

/-- Whether test-pulse output j is enabled. -/
def LaneState.tpOn (L : LaneState) (j : Nat) : Bool := L.bitOf R.siuTp_en j

def fnEstop : Nat := 1
def fnInterlock : Nat := 2
def fnJog : Nat := 3
def fnOssd : Nat := 4

/-- The type and the owner of a function. -/
def LaneState.fnType (L : LaneState) (f : Nat) : Nat := L.get (R.siuFn_type f)
def LaneState.fnOwner (L : LaneState) (f : Nat) : Lane := Lane.ofIdx (L.get (R.siuFn_owner f))

/-- The pairs of a function. -/
def LaneState.fnPairs (L : LaneState) (f : Nat) : List Nat :=
  let k := L.get (R.siuFn_pair f)
  if L.fnType f = fnJog then [k, k + 1] else [k]

/-- The channels of a function. -/
def LaneState.fnChans (L : LaneState) (f : Nat) : List Nat := (L.fnPairs f).flatMap (fun k => [2 * k, 2 * k + 1])

/-- The functions that this lane evaluates: those it owns, once SIU_LOCK has passed its check (R458, R459). -/
def LaneState.evaluated (L : LaneState) : List Nat :=
  if L.is R.siuState_locked then (List.range 8).filter (fun f => bit (L.get R.siuState_owned) f) else []

/-- The evaluated functions that use a channel. -/
def LaneState.fnsOf (L : LaneState) (c : Nat) : List Nat := L.evaluated.filter (fun f => c ∈ L.fnChans f)

/-- Hand h of a JOG, or the one pair of another function: its channels A and B. -/
def LaneState.hand (L : LaneState) (f h : Nat) : Bool × Bool :=
  let k := (L.fnPairs f).getD h 0
  (L.chan (2 * k), L.chan (2 * k + 1))
def LaneState.actuated (L : LaneState) (f h : Nat) : Bool := L.hand f h == (false, true)
def LaneState.letGo (L : LaneState) (f h : Nat) : Bool := L.hand f h == (true, false)

/-- The released state of R450; of a JOG, both hands actuated. -/
def LaneState.released (L : LaneState) (f : Nat) : Bool :=
  let t := L.fnType f
  if t = fnInterlock then L.hand f 0 == (true, false)
  else if t = fnJog then L.actuated f 0 && L.actuated f 1
  else L.hand f 0 == (true, true)

/-- The demand state of R456. -/
def LaneState.demand (L : LaneState) (f : Nat) : Bool :=
  let t := L.fnType f
  if t = fnInterlock then L.hand f 0 == (false, true)
  else if t = fnJog then L.letGo f 0 && L.letGo f 1
  else L.hand f 0 == (false, false)

/-- Whether hand h is in a combination that the type counts as a discrepancy (R451 to R453). -/
def LaneState.differs (L : LaneState) (f h : Nat) : Bool :=
  let p := L.hand f h
  if L.fnType f = fnInterlock ∨ L.fnType f = fnJog then p.1 == p.2 else p.1 != p.2

/-- A latched fault of R456 is set. -/
def LaneState.faulted (L : LaneState) (f : Nat) : Bool := bits (L.reg (R.siuFst f)).toNat 3 0 != 0

/-- Every TP-sourced channel has passed its own-window check; that of an NO channel is waived until it first closes
(R455). -/
def LaneState.checked (L : LaneState) (f : Nat) : Bool :=
  let no (c : Nat) : Bool := c % 2 == 1 && (L.fnType f == fnInterlock || L.fnType f == fnJog)
  (L.fnChans f).all (fun c => decide (4 ≤ L.chSrc c) || decide (c ∈ L.siu.passed) ||
    (no c && !decide (c ∈ L.siu.closedOnce)))

/-- Whether a function may give permit 1 at all: checked, fault-free, its demand state seen since the last fault, and not
waiting for a manual reset. -/
def LaneState.mayPermit (L : LaneState) (f : Nat) : Bool :=
  L.checked f && !L.faulted f && !decide (f ∈ L.siu.needDemand) && !decide (f ∈ L.siu.waitReset)

/-- t_sim in coarse ticks: units of 10 ms, 1 to 50. -/
def LaneState.tSim (L : LaneState) : Nat := 2000000 * min 50 (atLeast1 (L.get R.siuFilt_t_sim))

/-- t_disc in coarse ticks. -/
def LaneState.tDisc (L : LaneState) (f : Nat) : Nat := 2000000 * min 50 (atLeast1 (L.get (R.siuFn_disc f)))

/-- The first instants at which the hands of a JOG were actuated since it was armed: first and second. -/
def LaneState.jogTimes (L : LaneState) (f : Nat) : Nat × Nat × Nat :=
  let a := L.siu.jogAt.get (2 * f)
  let b := L.siu.jogAt.get (2 * f + 1)
  (a, b, if a = 0 then b else if b = 0 then a else min a b)

/-- The permit of a JOG by R453. -/
def LaneState.jogStep (L : LaneState) (f : Nat) : LaneState :=
  let now := L.coarse + 1
  let both := L.released f
  let L := if L.demand f then
      L.mapU (fun U => { U with jogArmed := addTo f U.jogArmed, jogAt := (U.jogAt.set (2 * f) 0).set (2 * f + 1) 0 })
    else L
  let note (h : Nat) (M : LaneState) : LaneState :=
    if decide (f ∈ M.siu.jogArmed) && M.actuated f h && M.siu.jogAt.get (2 * f + h) == 0 then
      M.mapU (fun U => { U with jogAt := U.jogAt.set (2 * f + h) now })
    else M
  let L := note 1 (note 0 L)
  let t := L.jogTimes f
  let inTime := t.1 != 0 && t.2.1 != 0 && decide (max t.1 t.2.1 - t.2.2 ≤ L.tSim)
  let armed := decide (f ∈ L.siu.jogArmed)
  let L := if armed && t.2.2 != 0 && decide (L.tSim < now - t.2.2) && !both then
      (L.mapU (fun U => { U with jogArmed := dropFrom f U.jogArmed })).flag (R.siuFst_sim_late f)
    else L
  if !both then
    if f ∈ L.siu.permit then L.mapU (fun U => { U with jogArmed := dropFrom f U.jogArmed, permit := dropFrom f U.permit })
    else L
  else if armed && inTime && L.mayPermit f then L.mapU (fun U => { U with permit := addTo f U.permit })
  else if L.mayPermit f then L
  else L.mapU (fun U => { U with permit := dropFrom f U.permit })

/-- One evaluation of a function after a change: discrepancy times, the demand state after a fault, permit and
wait_reset (R451 to R457). -/
def LaneState.evalFn (L : LaneState) (f : Nat) : LaneState :=
  let was := decide (f ∈ L.siu.permit)
  let L := (List.range (L.fnPairs f).length).foldl (fun (M : LaneState) h =>
    M.mapU (fun U => { U with
      discAt := if !L.differs f h then U.discAt.set (2 * f + h) 0
      else if U.discAt.get (2 * f + h) = 0 then U.discAt.set (2 * f + h) (L.coarse + 1)
      else U.discAt })) L
  let L := if L.faulted f then L.mapU (fun U => { U with needDemand := addTo f U.needDemand })
    else if L.demand f then L.mapU (fun U => { U with needDemand := dropFrom f U.needDemand })
    else L
  let L := if L.fnType f = fnJog then L.jogStep f
    else if L.released f && L.mayPermit f then L.mapU (fun U => { U with permit := addTo f U.permit })
    else L.mapU (fun U => { U with permit := dropFrom f U.permit, resetPend := dropFrom f U.resetPend })
  if was && !decide (f ∈ L.siu.permit) then
    let L := L.count R.siuCnt_demand
    if L.is (R.siuFn_rst f) && L.fnType f != fnJog then L.mapU (fun U => { U with waitReset := addTo f U.waitReset }) else L
  else L

/-- Latches a fault in functions and evaluates them (R456). -/
def LaneState.siuFault (L : LaneState) (fs : List Nat) (flag : Nat → RF) : LaneState :=
  fs.foldl (fun (M : LaneState) f =>
    ((if M.is (flag f) then M else (M.flag (flag f)).count R.siuCnt_fault)).evalFn f) L

/-! ## Test pulses and channels (R446 to R449) -/

/-- The low pulse of an enabled output starts. -/
def execTestPulseStart (l : Lane) (j : Fin 4) (s : State) : Out :=
  onLane s l (fun L => L.when (L.tpOn j) (fun L => L.mapU (fun U => { U with pulsing := addTo j.val U.pulsing })))

/-- A check of a channel in the window of output j: passed or failed. -/
def LaneState.pulseCheck (L : LaneState) (c j : Nat) (ok : Bool) : LaneState :=
  let own := L.chSrc c == j
  if ok then
    let L := L.mapU (fun U => { U with
      dirty := dropFrom (c, j) U.dirty, passed := if own then addTo c U.passed else U.passed })
    (L.fnsOf c).foldl (fun (M : LaneState) f => M.evalFn f) L
  else
    let L := L.mapU (fun U => { U with dirty := addTo (c, j) U.dirty })
    L.siuFault (L.fnsOf c) (if own then R.siuFst_own_miss else R.siuFst_foreign_seen)

/-- The pulse of output j ends. For each channel, `low` and `high` say whether every sample of the check window was low or
high, `opened` whether the input stays low for more than 100 µs after it, and `readback` whether the output followed its
command. Closed TP-sourced channels are checked (R449). -/
def execTestPulseEnd (l : Lane) (j : Fin 4) (low high opened : BitVec 16) (readback : Bool) (s : State) : Out :=
  onLane s l (fun L => L.when (decide (j.val ∈ L.siu.pulsing)) (fun L =>
    let L := L.mapU (fun U => { U with
      pulsing := dropFrom j.val U.pulsing, tpBad := if readback then dropFrom j.val U.tpBad else U.tpBad })
    (List.range 16).foldl (fun (M : LaneState) c =>
      let src := M.chSrc c
      if !M.chan c || 4 ≤ src then M
      else if src = j.val then M.pulseCheck c j (low.getLsbD c)
      else if !M.tpOn src then M
      else M.pulseCheck c j (high.getLsbD c || opened.getLsbD c)) L))

/-- The read-back of an output differs for more than 10 µs (R447). -/
def execTpReadbackFail (l : Lane) (j : Fin 4) (s : State) : Out :=
  onLane s l (fun L =>
    let L := (L.setBit R.siuStat_tp_fail j true).mapU (fun U => { U with tpBad := addTo j.val U.tpBad })
    L.siuFault (L.evaluated.filter (fun f => (L.fnChans f).any (fun c => L.chSrc c == j.val))) R.siuFst_tp_fail)

/-- A channel's filtered state changes; the functions of the lane that use it are evaluated in the same sample (R448,
R451 to R454). -/
def execChannelFilterChange (l : Lane) (c : Fin 16) (closed : Bool) (s : State) : Out :=
  onLane s l (fun L =>
    let L := L.setBit R.siuState_ch c closed
    let L := if closed then L.mapU (fun U => { U with closedOnce := addTo c.val U.closedOnce }) else L
    (L.fnsOf c).foldl (fun (M : LaneState) f => M.evalFn f) L)

/-- A discrepancy that has lasted t_disc and still stands raises disc (R451 to R453). -/
def execDiscrepancyFault (l : Lane) (f : Fin 8) (s : State) : Out :=
  onLane s l (fun L =>
    let due (h : Nat) : Bool :=
      let t := L.siu.discAt.get (2 * f.val + h)
      t != 0 && decide (t + L.tDisc f ≤ L.coarse + 1)
    L.when (decide (f.val ∈ L.evaluated) && (due 0 || due 1)) (fun L => L.siuFault [f.val] R.siuFst_disc))

/-- The second hand of an armed JOG is later than t_sim: no permit until both hands are released (R453). -/
def execJogSimTimeout (l : Lane) (f : Fin 8) (s : State) : Out :=
  onLane s l (fun L => L.when (decide (f.val ∈ L.evaluated) && L.fnType f == fnJog) (fun L => L.evalFn f))

/-! ## Resets and clears (R12, R456, R457) -/

/-- A write of SIU_CMD: manual resets and clr_cnt. -/
def LaneState.wSiuCmd (L : LaneState) (w : Word) : LaneState :=
  let L := (List.range 8).foldl (fun (M : LaneState) f =>
    if !bit w.toNat f then M
    else if M.fnNone f || M.fnOwner f != M.id then M.flag R.siuStat_cmd_refused
    else if decide (f ∈ M.siu.waitReset) && M.released f && !M.faulted f && M.checked f && !decide (f ∈ M.siu.needDemand) then
      M.mapU (fun U => { U with resetPend := addTo f U.resetPend })
    else M.flag (R.siuFst_reset_refused f)) L
  if bit w.toNat 8 then L.setReg R.siuCnt 0 else L

def execSiuManualReset (l : Lane) (q : Req) (f : BitVec 8) (s : State) : Out :=
  onLane s l (fun L => L.guardW q R.siuCmd (wordN f.toNat) (fun L => L.wSiuCmd (wordN f.toNat)))

/-- Accepted resets take effect at a period boundary. -/
def LaneState.siuResets (L : LaneState) : LaneState :=
  L.siu.resetPend.foldl (fun (M : LaneState) f =>
    (M.mapU (fun U => { U with waitReset := dropFrom f U.waitReset, resetPend := dropFrom f U.resetPend })).evalFn f) L

def execSiuResetEffect (l : Lane) (s : State) : Out := onLane s l (fun L => L.when L.atPeriod (fun L => L.siuResets))

def execSiuClrCnt (l : Lane) (q : Req) (s : State) : Out :=
  onLane s l (fun L => L.guardW q R.siuCmd 0x100 (fun L => L.wSiuCmd 0x100))

/-- Whether the condition of a latched fault persists (bit 0 own_miss, 1 foreign_seen, 2 disc, 3 tp_fail). -/
def LaneState.faultStands (L : LaneState) (f i : Nat) : Bool :=
  let chans := L.fnChans f
  if i = 0 then L.siu.dirty.any (fun p => decide (p.1 ∈ chans) && L.chan p.1 && L.chSrc p.1 == p.2)
  else if i = 1 then L.siu.dirty.any (fun p => decide (p.1 ∈ chans) && L.chan p.1 && L.chSrc p.1 != p.2)
  else if i = 2 then (List.range (L.fnPairs f).length).any (fun h => L.differs f h)
  else if i = 3 then chans.any (fun c => decide (L.chSrc c ∈ L.siu.tpBad))
  else false

/-- A write of SIU_FST_f clears flags; a fault whose condition persists stays, with clr_refused (R456). -/
def LaneState.wSiuFst (L : LaneState) (f : Nat) (w : Word) : LaneState :=
  let L := (List.range 6).foldl (fun (M : LaneState) i =>
    if !bit w.toNat i || !bit (M.reg (R.siuFst f)).toNat i then M
    else if M.faultStands f i then M.flag R.siuStat_clr_refused
    else M.setReg (R.siuFst f) (wordN (setBits (M.reg (R.siuFst f)).toNat i i 0))) L
  if f ∈ L.evaluated then L.evalFn f else L

def execSiuFaultClear (l : Lane) (q : Req) (f : Fin 8) (w : BitVec 6) (s : State) : Out :=
  onLane s l (fun L => L.guardW q (R.siuFst f) (wordN w.toNat) (fun L => L.wSiuFst f (wordN w.toNat)))

/-! ## Lock, records and published words (R459 to R463) -/

/-- The configuration words of R459 in ascending address order. -/
def LaneState.siuWords (L : LaneState) : List Word :=
  [L.reg R.siuTp, L.reg R.siuFilt] ++ (List.range 8).map (fun k => L.reg (R.siuPair k)) ++
    (List.range 8).map (fun f => L.reg (R.siuFn f))

/-- Whether a pair has two different enabled test-pulse sources. -/
def LaneState.twoTps (L : LaneState) (k : Nat) : Bool :=
  let a := L.chSrc (2 * k)
  let b := L.chSrc (2 * k + 1)
  decide (a < 4) && decide (b < 4) && a != b && L.tpOn a && L.tpOn b

/-- The source rules of a function (R450), and no JOG on pair 7. -/
def LaneState.fnLegal (L : LaneState) (f : Nat) : Bool :=
  if L.fnNone f then true
  else if L.fnType f = fnOssd then (L.fnChans f).all (fun c => L.chSrc c == 4)
  else (L.fnPairs f).all (fun k => decide (k < 8) && L.twoTps k)

/-- The check of R459. -/
def LaneState.siuLegal (L : LaneState) : Bool :=
  let used := (List.range 8).filter (fun f => !L.fnNone f)
  used.all L.fnLegal &&
    used.all (fun f => used.all (fun g => f == g || L.fnOwner f != L.fnOwner g ||
      (L.fnPairs f).all (fun k => !decide (k ∈ L.fnPairs g)))) &&
    (List.range 16).all (fun c => decide (4 ≤ L.chSrc c) || L.tpOn (L.chSrc c))

/-- The safe word of a function at a period (R461). -/
def LaneState.safeWord (L : LaneState) (f p : Nat) : Word :=
  wordN (8 + 256 * L.fnType f + 4096 * L.get (R.siuFn_owner f) + 65536 * (p % 65536))

/-- The word of an owned function (R460); a lane with cfg_err gives the safe word. -/
def LaneState.fnWord (L : LaneState) (f p : Nat) : Word :=
  if !L.is R.siuState_locked then L.safeWord f p
  else wordN (b2n (decide (f ∈ L.siu.permit)) + 2 * b2n (L.demand f) + 4 * b2n (L.faulted f) +
    16 * b2n (decide (f ∈ L.siu.waitReset)) + 256 * L.fnType f + 4096 * L.get (R.siuFn_owner f) + 65536 * (p % 65536))

/-- Publishes a function's word and its mirror in SIU_RES (R462). -/
def LaneState.publishFn (L : LaneState) (f : Nat) (w : Word) : LaneState :=
  ((L.setSig (0x38010 + f) w).setBit R.siuRes_permit f (bit w.toNat 0)).setBit R.siuRes_safe_forced f (bit w.toNat 3)

/-- The published word of one function for the evaluation at period P (R461, R463). -/
def LaneState.siuPublish (L : LaneState) (p f : Nat) : LaneState :=
  if L.fnNone f then L.publishFn f 0
  else
    let o := L.fnOwner f
    let v := L.view o
    let rec0 := (L.sig (segBase o + 0x60)).toNat
    if v != bsActive && v != bsSuspect && v != bsService then L.publishFn f (L.safeWord f p)
    else if o = L.id then L.publishFn f (Sparse.get 0 L.siu.latched f)
    else if bits rec0 15 0 = p % 65536 then
      if L.sig (segBase o + 0x61) = L.reg R.siuCfgCrc then
        (L.publishFn f (L.sig (segBase o + 0x62 + f))).mapU (fun U => { U with misses := U.misses.set f 0 })
      else (L.publishFn f (L.safeWord f p)).flag R.siuStat_cfg_mismatch
    else
      let L := (L.mapU (fun U => { U with misses := U.misses.inc f })).flag R.siuStat_rec_miss
      if L.siu.misses.get f = 1 then L else L.publishFn f (L.safeWord f p)

/-- The functions that this lane owns, whether or not its check passed. -/
def LaneState.ownedFns (L : LaneState) : List Nat := (List.range 8).filter (fun f => !L.fnNone f && L.fnOwner f == L.id)

/-- A period boundary: the words of the period before are published, resets take effect, and the owned functions are
latched and posted as the SIU record (R457, R460, R461). Nothing is done before SIU_LOCK. -/
def LaneState.siuPeriod (L : LaneState) : LaneState :=
  if !L.locked R.siuLock then L
  else
    let p := L.pnum
    let L := (List.range 8).foldl (fun (M : LaneState) f => M.siuPublish (p - 1) f) L
    let L := L.siuResets
    let own := L.ownedFns
    let word (f : Nat) : Word := if f ∈ own then L.fnWord f p else 0
    let ws := (List.range 8).map word
    let L := L.mapU (fun U => { U with
      latched := (List.range 8).foldl (fun (m : WMap) f => Sparse.set (fun _ => 0) m f (word f)) U.latched })
    L.publish rankBelay 0x60
      ([wordN (p % 65536 + 65536 * own.foldl (fun a f => a + 2 ^ f) 0), L.reg R.siuCfgCrc] ++ ws)

/-- A write of SIU_LOCK: the key locks the SIU, forms the configuration CRC, runs the check and starts evaluation; the
functions that act as NONE publish 0 (R459, R463). A function with a manual reset waits for it (assumption 55). -/
def LaneState.wSiuLock (L : LaneState) (w : Word) : LaneState :=
  if bits w.toNat 15 0 ≠ 0xC1A5 ∨ L.locked R.siuLock then L
  else
    let L := { L with locks := addTo R.siuLock L.locks }
    let L := L.setReg R.siuCfgCrc (crc32 (L.siuWords.flatMap wordBytes))
    let L := (List.range 8).foldl (fun (M : LaneState) f => if M.fnNone f then M.publishFn f 0 else M) L
    let L := L.put R.siuState_owned (L.ownedFns.foldl (fun a f => a + 2 ^ f) 0)
    if !L.siuLegal then L.flag R.siuStat_cfg_err
    else
      let L := (L.setF R.siuState_locked true).mapU (fun U => { U with
        waitReset := L.ownedFns.filter (fun f => L.is (R.siuFn_rst f) && L.fnType f != fnJog)
        closedOnce := (List.range 16).filter L.chan })
      L.ownedFns.foldl (fun (M : LaneState) f => M.evalFn f) L

def execSiuLock (l : Lane) (q : Req) (w : Word) (s : State) : Out :=
  onLane s l (fun L => L.guardW q R.siuLock w (fun L => L.wSiuLock w))

end Sys2Proof.Machine
end

