-- ==== Sys2Proof/Machine/Tether.lean ====
section
/-! DEFINITION. The Tether link and the pair controller: mirror records, installation, verdicts, pair states, failback
(chapter 13, R421 to R443). -/

namespace Sys2Proof.Machine

/-! ## The mirror record (R424 to R426) -/

/-- A 48-bit position near the own one from its low word. -/
def nearPos (own : Int) (lo : Word) : Int := sext 48 (wrapTo 48 (own + (lo - wordI own).toInt))

/-- A 48-bit position signal pair. -/
def LaneState.posSig (L : LaneState) (i : Nat) : Int := sext 48 ((L.sig i).toNat + 2 ^ 32 * bits (L.sig (i + 1)).toNat 15 0)

/-- A position as words lo and hi (R14). -/
def posWords (p : Int) : List Word := [wordI p, wordI (p / 2 ^ 32)]

/-- The agreed measured position of an axis. -/
def LaneState.agreedMeas (L : LaneState) (n : Nat) : Int := nearPos (L.posSig (axisSig n 4)) (L.sig (0x36002 + 0x10 * n))

/-- Bytes of words, little-endian. -/
def bytesOfWords (ws : List Word) : List Byte := ws.flatMap wordBytes

/-- Whether the target that PROFILE keeps is a velocity. -/
def LaneState.velTarget (L : LaneState) (n : Nat) : Bool :=
  let m := L.get (R.profState_mode n)
  m == 2 || ((m == 4 || m == 5) && (L.pr n).beforeHold == 2)

/-- Axis block n of the record (R426): 240 bytes. -/
def LaneState.axisBlock (L : LaneState) (n : Nat) : List Byte :=
  let sp := nearPos (L.posSig (axisSig n 0x20)) (L.sig (0x36001 + 0x10 * n))
  let vt := L.velTarget n
  let tgt := (L.pr n).target
  let e := L.get (R.axpLoopsel_le n)
  let k := L.get (R.axpLoopsel_loop n)
  let loop := bits (L.reg (R.leLoopStat e k)).toNat 23 0 + 2 ^ 24 * b2n (decide (k ∈ (L.le e).inited))
  bytesOfWords ([L.sig (axisSig n 0x31)] ++ posWords sp ++ posWords (L.agreedMeas n) ++
    [L.sig (0x36003 + 0x10 * n), L.sig (axisSig n 7),
      wordN (L.get (R.profState_mode n) + 8 * L.get (R.profState_plan n) + 16 * L.get (R.profState_at_target n))] ++
    posWords (if vt then 0 else tgt) ++ [L.sig (axisSig n 0x22), L.sig (axisSig n 0x23), wordI (if vt then tgt else 0),
      0, 0, 0, L.sig (axisSig n 0x33), L.sig (axisSig n 0x32), L.sig (axisSig n 0x10), L.sig (axisSig n 0x11),
      L.reg (R.fldRs n), L.sig (axisSig n 0x13), 0, 0, wordN loop, wordN (L.dNsec e k)]) ++
    L.bytesFrom (leData e (L.dState e k)) 128 ++ List.replicate 8 0

/-- The driving lanes as bits C, B, A. -/
def LaneState.drivingBits (L : LaneState) : Nat := laneBits L.pairDrivers

/-- The verdict in force names this module, or the partner (R432). -/
def LaneState.verdictHeld (L : LaneState) : Bool := L.is R.tetherState_vvalid && L.is R.tetherState_exp_left
def LaneState.namedActive (L : LaneState) : Bool := L.verdictHeld && L.get R.tetherState_v_active == L.pairMod
def LaneState.partnerActive (L : LaneState) : Bool := L.verdictHeld && L.get R.tetherState_v_active == 3 - L.pairMod
def LaneState.namedIncoming (L : LaneState) : Bool := L.verdictHeld && L.get R.tetherState_v_incoming == L.pairMod
def LaneState.partnerIncoming (L : LaneState) : Bool :=
  L.verdictHeld && L.get R.tetherState_v_incoming == 3 - L.pairMod

/-- The quiet point, which the primary holds in STANDBY (R441). -/
def LaneState.quietPoint (L : LaneState) : Bool :=
  L.pairMod == 1 && L.pstate == psStandby && L.is R.tetherCfg_failback_en &&
    lanes.all (fun y => L.view y == bsActive) &&
    decide (L.get R.tetherQuiet0_coh ≤ L.get R.tetherCoh_count) &&
    decide (atLeast1 (L.get R.tetherQuiet0_win) ≤ L.tether.quietRun) && !L.is R.tetherState_v_inhibit

/-- Yield: the active module has too few driving lanes, a mirrored axis in LIMP, or DISAGREE_2 (R443). -/
def LaneState.yields (L : LaneState) : Bool :=
  (L.pstate == psDriving || L.pstate == psOut) &&
    (decide (L.pairDrivers.length ≤ L.get R.tetherCfg_yield_lanes) || L.is R.belayStat_disagree_2 ||
      L.mirroredAxes.any (fun n => L.axis n == axLimp))

/-- The mirror record of the period: header, axis blocks and the digest over the own record (R425). -/
def LaneState.mirrorRecord (L : LaneState) : List Byte :=
  let w0 := 1 + 256 * L.pairMod + 4096 * L.id.idx + 65536 * L.pstate + 2 ^ 19 * L.drivingBits +
    2 ^ 22 * b2n L.quietPoint + 2 ^ 23 * b2n L.yields + 2 ^ 24 * b2n L.quietPoint
  let start := L.pnum * L.tServo * 64
  let two (v : Nat) : List Word := [wordN v, wordN (v / 2 ^ 32)]
  let blocks := (List.range 4).map L.axisBlock
  let digest := crc32 (L.mirroredAxes.flatMap (fun n =>
    let b := blocks.getD n []
    b.take 24 ++ (b.drop 28).take 24))
  bytesOfWords ([wordN w0, wordN L.pnum] ++ two start ++ two L.time.now.toNat ++ two L.tether.partnerSend ++
    two L.tether.partnerArrive ++ [wordN (L.get R.tetherCoh_count + 65536 * L.tether.vseq.getD 0), digest,
      wordN ((List.range 4).foldl (fun a n => a + L.axis n * 256 ^ n) 0), L.reg R.tetherShare, L.reg R.sysTick,
      wordN L.compat]) ++ blocks.flatten

/-- Every lane sends its record at the pair's commit tick over its Tether link, and keeps a copy at 0x2039_F400 (R424). -/
def execMirrorRecordSend (l : Lane) (s : State) : Out :=
  onLane s l (fun L =>
    L.when (L.pairMode && L.is R.tetherState_link_up && L.tickIdx == L.get (R.axpSched2_commit_tick L.pairAxis))
      (fun L => L.storeBytes 0x2039F400 L.mirrorRecord))

/-- Whether the record shows no mirrored axis in LIMP, STOPPING or HOLDING and no large acceleration (R441). -/
def LaneState.recQuiet (L : LaneState) : Bool :=
  L.mirroredAxes.all (fun n =>
    let mode := bits (L.recWord (0x5C + 0xF0 * n)) 2 0
    L.load (0x2039F030 + n) 1 != axLimp && mode != 4 && mode != 5 &&
      decide ((sext 32 (L.recWord (0x6C + 0xF0 * n))).natAbs ≤ L.get R.tetherQuiet1_acc))

/-- The 64-bit partner offset in TETHER_POFS. -/
def LaneState.setPofs (L : LaneState) (d : Int) : LaneState :=
  (L.setReg R.tetherPofsLo (wordI d)).setReg R.tetherPofsHi (wordI (d / 2 ^ 32))
def LaneState.pofs (L : LaneState) : Int :=
  sext 64 ((L.reg R.tetherPofsLo).toNat + 2 ^ 32 * (L.reg R.tetherPofsHi).toNat)

/-- A valid record arrives: it is kept, the partner's state is shown, the pair offset is measured by the formula of R30
(valid from 50 ns to 1 µs of delay), and the configuration is compared (R424, R428, R430). -/
def LaneState.takeRecord (L : LaneState) (bytes : List Byte) (stamp : Nat) : LaneState :=
  let L := (L.storeBytes 0x2039F000 bytes).mapT (fun T => { T with recValid := true, partnerArrive := stamp })
  let L := L.mapT (fun T => { T with partnerSend := L.recWord64 0x10 })
  let L := L.put R.tetherState_partner (bits (L.recWord 0) 18 16)
  let m := pairMeasure (L.recWord64 0x18) stamp (L.recWord64 0x10) (L.recWord64 0x20)
  let L := if 1280 ≤ m.2 ∧ m.2 ≤ 25600 then L.setPofs m.1 else L
  let L := L.flagIf (L.recWord 0x38 != (L.reg R.sysTick).toNat || bits (L.recWord 0x3C) 15 0 != L.compat)
    R.tetherStat_cfg_mismatch
  L.mapT (fun T => { T with quietRun := if L.recQuiet then T.quietRun + 1 else 0 })

/-- `bytes` is the record of 1,024 bytes, `stamp` the arrival of its SFD. A frame that fails its CRC is counted. -/
def execMirrorRecordReceived (l : Lane) (bytes : List Byte) (stamp : BitVec 64) (crcOk : Bool) (s : State) : Out :=
  onLane s l (fun L =>
    if !crcOk then
      ((L.flag R.tetherStat_crc_evt).count R.tetherCnt_crc).mapT (fun T => { T with errs := T.errs + 1 })
    else L.when (L.pairMode && L.is R.tetherState_link_up) (fun L => L.takeRecord bytes stamp.toNat))

/-! ## Installation (R435) -/

/-- The pair controller's START, which WAIT and STANDBY do not refuse. -/
def LaneState.pairStart (L : LaneState) (n : Nat) (skip : Bool) (profile : LaneState → LaneState) : LaneState :=
  let st := L.axis n
  if (st == axArmed || st == axFree || st == axAsc) && L.startReady n then
    profile (((L.setAxis n axDrive).beginStart n).mapFl n (fun X => { X with skipRamp := skip }))
  else L.flag (R.axpStat_cmd_refused n)

/-- PROFILE takes the record's mode and targets, translated, and replans from the state carried on to B. -/
def LaneState.installProfile (L : LaneState) (n : Nat) (x : Traj) (o : Int) : LaneState :=
  let b := 0x40 + 0xF0 * n
  let mode := bits (L.recWord (b + 0x1C)) 2 0
  let tgt := sext 48 (L.recWord (b + 0x20) + 2 ^ 32 * (L.recWord (b + 0x24) % 65536)) + o
  let vt := sext 32 (L.recWord (b + 0x30))
  if mode = 1 then L.planPos n x tgt
  else if mode = 2 then L.planVel n x vt
  else if mode = 3 then (((L.put (R.profState_mode n) 3).put (R.profState_plan n) 0).put (R.profState_at_target n) 0).mapPr
    n (fun P => { P with plan := none })
  else if mode = 4 then (L.mapPr n (fun P => { P with target := tgt })).planStop n 4 x (L.stopLimits n)
  else if mode = 5 then (L.mapPr n (fun P => { P with target := tgt, beforeHold := 1 })).planStop n 5 x (L.limits n)
  else L.planRest n x

/-- The named loop takes the record's section states, region, set and blend; its first run has F = 0. -/
def LaneState.installNamed (L : LaneState) (n : Nat) : LaneState :=
  let b := 0x40 + 0xF0 * n
  let e := L.get (R.axpLoopsel_le n)
  let k := L.get (R.axpLoopsel_loop n)
  let w := L.recWord (b + 0x60)
  let bytes := L.bytesFrom (0x2039F000 + b + 0x68) (min 128 (32 * L.dNsec e k))
  if bit w 24 then
    let L := L.storeBytes (leData e (L.dState e k)) bytes
    let L := L.setReg (R.leLoopStat e k) (wordN (setBits (L.reg (R.leLoopStat e k)).toNat 23 0 w))
    L.mapLe e (fun E => { E with ran := addTo k E.ran, inited := addTo k E.inited })
  else L

/-- Installs the record on one mirrored axis at B; `num` over `den` is δ in servo periods. -/
def LaneState.installMirror (L : LaneState) (n : Nat) (num : Int) (den : Nat) (skip : Bool) : LaneState :=
  let b := 0x40 + 0xF0 * n
  let st := L.load (0x2039F030 + n) 1
  if st = axDrive ∨ st = axHold ∨ st = axLimp then
    let pos (o : Nat) : Int := sext 48 (L.recWord (b + o) + 2 ^ 32 * (L.recWord (b + o + 4) % 65536))
    let v := sext 32 (L.recWord (b + 0x14))
    let acc := sext 32 (L.recWord (b + 0x18))
    let vs := sext 32 (L.recWord (b + 0x28))
    let as := sext 32 (L.recWord (b + 0x2C))
    let o := L.agreedMeas n - (pos 8 + divOpen (v * num) (256 * den))
    let x : Traj :=
      { p := trajP (pos 4 + o) + divOpen (trajP vs * num) (256 * den) + divOpen (trajP as * num * num) (8192 * den * den)
        v := trajV vs + divOpen (trajV (as * num)) (16 * den)
        a := trajA as }
    let N : Nat := L.nTicks
    let L := L.pairStart n skip (fun M => M.installProfile n x o)
    let L := (L.obsStart n).mapFb n (fun F => { F with
      vHat := divOpen (v * 2 ^ 24) N
      aHat := divOpen (acc * 2 ^ 28) (N * N) })
    L.installNamed n
  else L

/-- On entry to DRIVING from STANDBY and on entry to IN, the latest valid record is installed and the pair controller
starts the axes; without one they start under R166, and rec_miss is set. -/
def execInstallation (l : Lane) (s : State) : Out :=
  onLane s l (fun L => match L.tether.install with
    | none => L
    | some skip =>
      let L := L.mapT (fun T => { T with install := none })
      if L.tether.recValid && L.is R.tetherState_link_up then
        let num : Int := (L.time.now.toNat : Int) - ((L.recWord64 8 : Int) - L.pofs)
        L.mirroredAxes.foldl (fun (M : LaneState) n => M.installMirror n num (64 * L.tServo) skip) L
      else
        L.mirroredAxes.foldl (fun (M : LaneState) n => M.pairStart n skip (fun N => N.profStart n))
          (L.flag R.tetherStat_rec_miss))

/-! ## Verdicts (R437, R439) -/

/-- The verdict at the dec of its entry: a valid one is held for exp basic cycles; an unchanged sequence is stale. `now`
is the instant of dec. -/
def execVerdictRead (l : Lane) (now : BitVec 64) (s : State) : Out :=
  onLane s l (fun L =>
    let e := L.get R.tetherVsrc_entry
    L.when (L.pairMode && L.cde.started && L.rxMode e != 3 && L.rxDue e (L.cycleOf now.toNat)) (fun L =>
      let w := (L.sig (L.get R.tetherVsrc_id)).toNat
      let act := bits w 3 0
      let inc := bits w 7 4
      let seq := bits w 31 16
      let written := (L.cde.rxSt e).written
      let good := (act == 1 || act == 2) && (inc == 0 || inc == 3 - act)
      if written && good && L.tether.vseq != some seq then
        let L := ((L.put R.tetherState_v_active act).put R.tetherState_v_incoming inc).put R.tetherState_v_inhibit (bits w 8 8)
        let L := (L.setF R.tetherState_vvalid true).put R.tetherState_exp_left (atLeast1 (L.get R.tetherCfg_exp))
        (L.setF R.tetherState_own_auth false).mapT (fun T => { T with vseq := some seq, decAt := now.toNat / 64 })
      else
        (L.flagIf (written && L.tether.vseq == some seq) R.tetherStat_seq_stale).put R.tetherState_exp_left
          (L.get R.tetherState_exp_left - 1)))

/-- The verdict expires; a module that drives continues on its own authority until the next boundary judges it. -/
def execVerdictExpire (l : Lane) (s : State) : Out :=
  onLane s l (fun L => L.when (L.is R.tetherState_vvalid && !L.is R.tetherState_exp_left) (fun L =>
    let L := (L.setF R.tetherState_vvalid false).flag R.tetherStat_expired
    L.flagIf (L.pstate == psDriving || L.pstate == psOut) R.tetherState_own_auth))

/-! ## Pair states (R432, R439) -/

/-- Whether sequence b is later than sequence a. -/
def seqLater (a b : Nat) : Bool := let d := (b + 65536 - a % 65536) % 65536; 1 ≤ d && d ≤ 32767

/-- A module without a verdict goes on while a pair word shows the partner in WAIT or STANDBY. It stops for a partner in
DRIVING or IN with a later sequence; where the partner's is not later both run on their own authority, and the secondary
stops (R439, assumption 51). -/
def LaneState.ownAuthority (L : LaneState) : LaneState :=
  let ws := L.pairDrivers.map (fun y => L.pairWord y 2)
  let rival := ws.filter (fun w => bits w 2 0 == psDriving || bits w 2 0 == psIn)
  if rival.any (fun w => seqLater (L.tether.vseq.getD 0) (bits w 31 16)) || (rival != [] && L.pairMod != 1) then
    (L.flag R.tetherStat_conflict_stop).setPstate psStandby
  else if rival == [] && !ws.any (fun w => bits w 2 0 == psWait || bits w 2 0 == psStandby) then
    (L.flag R.tetherStat_expired).setPstate psStandby
  else L.setF R.tetherState_own_auth true

/-- The entry of DRIVING or IN from STANDBY, with its installation. -/
def LaneState.enterPair (L : LaneState) (st : Nat) : LaneState :=
  let L := L.setPstate st
  let L := if st = psDriving then (L.flag R.tetherStat_takeover).count R.tetherCnt_xfer else L
  L.mapT (fun T => { T with install := some (st == psIn) })

/-- The evaluation of the pair state at a period boundary; `mism` says that a driving lane of the module reports
cfg_mismatch. A verdict takes effect at the first boundary at least 1 µs after its dec (R430, R432). -/
def LaneState.evalPair (L : LaneState) (mism : Bool) : LaneState :=
  let st := L.pstate
  let ripe := decide (L.tether.decAt + 200 ≤ L.coarse)
  let alone := L.get R.tetherState_v_incoming == 0
  let abort (M : LaneState) : LaneState := M.flag R.tetherStat_handover_abort
  if st = psWait then
    if ripe && L.namedActive && !mism then L.setPstate psDriving
    else if ripe && L.partnerActive then L.setPstate psStandby
    else L
  else if st = psStandby then
    if ripe && L.namedActive && alone && !mism then L.enterPair psDriving
    else if ripe && L.namedIncoming && L.quietPoint && !mism then L.enterPair psIn
    else L
  else if st = psDriving then
    if ripe && L.namedActive && L.partnerIncoming then L.setPstate psOut
    else if ripe && L.partnerActive && alone then L.setPstate psStandby
    else if !L.verdictHeld then L.ownAuthority
    else L
  else if st = psIn then
    if L.namedActive && alone then L.mapT (fun T => { T with toDriving := true })
    else if !L.namedIncoming || decide (L.pairDrivers.length ≤ L.get R.tetherCfg_yield_lanes) then
      (abort L).setPstate psStandby
    else L
  else if st = psOut then
    let seesIn := L.pairDrivers.any (fun y => bits (L.pairWord y 2) 2 0 == psIn)
    let L := L.mapT (fun T => { T with notIn := if seesIn then 0 else T.notIn + 1 })
    if 16 ≤ L.get R.tetherState_k then L.setPstate psStandby
    else if (L.namedActive && alone) || decide (2 ≤ L.tether.notIn) then
      (abort L).mapT (fun T => { T with toDriving := true })
    else if !L.verdictHeld then L.ownAuthority
    else L
  else L

/-- The health block at TETHER_HSRC.id (R436). -/
def LaneState.healthBlock (L : LaneState) : List Word :=
  let anyUp := L.is R.tetherState_link_up || lanes.any (fun y => bit (L.pairWord y 2) 3)
  [ wordN (L.pairMod + 16 * L.pstate + 256 * L.drivingBits + 2048 * b2n L.yields + 4096 * b2n L.quietPoint +
      8192 * b2n L.quietPoint + 16384 * b2n L.tether.coherent + 32768 * b2n anyUp + 65536 * (L.pnum % 65536)),
    wordN (L.get R.tetherCoh_count + 65536 * L.get R.belayState_limp_axes + 2 ^ 20 * bits (L.reg R.belayReq).toNat 2 0),
    wordN (L.get R.tetherState_v_active + 16 * L.get R.tetherState_v_incoming + 65536 * L.tether.vseq.getD 0), 0 ]

/-- What the pair controller does at every period boundary: link health, pair state, yield and takeback, health block
(R423, R432, R436, R441, R443). -/
def LaneState.tetherPeriod (L : LaneState) (mism : Bool) : LaneState :=
  let L := L.mapT (fun T => { T with cleanRun := if T.errs = 0 then T.cleanRun + 1 else 0, errs := 0 })
  if !L.pairMode then L
  else
    let L := L.evalPair mism
    let L := (L.flagIf L.yields R.tetherStat_yield_evt).flagIf L.quietPoint R.tetherStat_takeback_evt
    let i := L.get R.tetherHsrc_id
    (L.healthBlock.zip (List.range 4)).foldl (fun (M : LaneState) p => M.masterSig ⟨.pipe, true⟩ (i + p.2) p.1) L

/-! ## Lock, counters and link (R12, R423, R432) -/

/-- A write of TETHER_LOCK: the key locks TETHER and enters SINGLE or WAIT; an illegal module ID sets cfg_mismatch. -/
def LaneState.wTetherLock (L : LaneState) (w : Word) : LaneState :=
  if bits w.toNat 15 0 ≠ 0xC1A5 ∨ L.locked R.tetherLock then L
  else
    let L := { L with locks := addTo R.tetherLock L.locks }
    let L := L.flagIf (L.pairMod == 0 || L.pairMod == 3) R.tetherStat_cfg_mismatch
    L.setPstate (if L.is R.tetherCfg_pair_en then psWait else psSingle)

def execTetherLock (l : Lane) (q : Req) (w : Word) (s : State) : Out :=
  onLane s l (fun L => L.guardW q R.tetherLock w (fun L => L.wTetherLock w))

/-- A write of TETHER_CMD: clr_cnt clears TETHER_CNT (R12). -/
def LaneState.wTetherCmd (L : LaneState) (w : Word) : LaneState := if bit w.toNat 0 then L.setReg R.tetherCnt 0 else L

def execTetherClrCnt (l : Lane) (q : Req) (s : State) : Out :=
  onLane s l (fun L => L.guardW q R.tetherCmd 1 (fun L => L.wTetherCmd 1))

/-- The Tether link is declared down after 2 µs without a CRC-clean frame (`silent`) or above its error limit. -/
def execTetherLinkDown (l : Lane) (silent : Bool) (s : State) : Out :=
  onLane s l (fun L =>
    L.when (L.is R.tetherState_link_up && (silent || decide (atLeast1 (L.get R.tetherLink_err_lim) < L.tether.errs)))
      (fun L =>
        let L := ((L.setF R.tetherState_link_up false).put R.tetherState_partner 7).flag R.tetherStat_link_down
        L.mapT (fun T => { T with cleanRun := 0 })))

/-- It is up again after up_n consecutive error-free periods. -/
def execTetherLinkUp (l : Lane) (s : State) : Out :=
  onLane s l (fun L =>
    L.when (!L.is R.tetherState_link_up && decide (atLeast1 (L.get R.tetherLink_up_n) ≤ L.tether.cleanRun))
      (fun L => L.setF R.tetherState_link_up true))

end Sys2Proof.Machine
end

