-- ==== Sys2Proof/Machine/Bus.lean ====
section
/-! DEFINITION. The bus of a lane: which effect a write or a read of each register has (R8 to R12), and the loads and
stores of each memory region (R503 to R523). -/

namespace Sys2Proof.Machine

/-! ## Lane reset (R16, R273, R529, R539) -/

/-- What an NVMC operation that a reset cuts short leaves in its page or sector: free bytes (R520, R560). -/
def LaneState.cutNv (L : LaneState) : LaneState :=
  match L.memSt.nvOp with
  | some (op, a) =>
    if op = nvBlank then L
    else
      let at0 := if op = nvProgram then a else a / 8192 * 8192
      L.storeBytes at0 ((List.range (if op = nvProgram then 256 else 8192)).map (fun i => Config.cutByte (at0 + i) L.aon.now))
  | none => L

/-- A lane reset: the session ends, the lane die loses its state and the lane enters BOOT (R273). The SVC goes on. -/
def LaneState.laneReset (L : LaneState) : LaneState :=
  L.endSession.cutNv.lossReset

/-! ## Lock registers (R8, R524) -/

/-- The plain LOCK registers. -/
def plainLock (a : Nat) : Bool :=
  a == R.sysLock || a == R.skimLock || a == R.ropeLock || a == R.triadLock || a == R.belayLock || a == R.ridgeLock ||
    a == R.nvmcLock || a == R.mboxLock || a == R.lcsLock || a == R.bistLock ||
    (List.range 4).any (fun n => a == R.axpLock n)

/-- A write of the key locks a plain block until reset; WAT_LOCK takes the key only from the secure world. -/
def LaneState.wLock (L : LaneState) (secure : Bool) (a : Nat) (w : Word) : LaneState :=
  if bits w.toNat 15 0 ≠ 0xC1A5 then L
  else if a = R.watLock then (if secure then L.setF R.watStat_locked true else L)
  else if plainLock a then { L with locks := addTo a L.locks }
  else L

/-! ## Register writes -/

/-- A write of BELAY_CMD: the op, and clr_cnt. REVIVE is accepted in DEAD in an Installer or Maker session with room in
the log: it clears the attempt record with a REVIVE entry, and the lane reboots (R273, R308, R538, R548). -/
def LaneState.wBelayCmd (L : LaneState) (w : Word) : LaneState :=
  let op := bits w.toNat 3 0
  let L := if bit w.toNat 8 then L.put R.belayCnt_excl 0 else L
  if op ≠ 4 then L.belayOp op
  else if L.belay == bsDead && 2 ≤ L.role && !L.is R.lcsState_log_full then
    let L := L.appendLog L.role 0x0020 0 (wordN L.aon.attempts.length) 0
    let L := { L with aon := { L.aon with attempts := [] } }
    (L.put R.belayCnt_attempts 0).laneReset
  else L.flag R.belayStat_cmd_refused

/-- A write of LCS_CMD. LANE_RESET is accepted in SERVICE, BOOT, SYNC and EXCLUDED in an Installer or Maker session; the
REJOIN after it out of SERVICE is not counted (R556, R558). -/
def LaneState.wLcsCmd (L : LaneState) (w : Word) : LaneState :=
  let op := bits w.toNat 3 0
  let st := L.belay
  if op = 0 ∨ 13 < op then L
  else if op < 13 then L.lcsStart op (bits w.toNat 5 4)
  else if !L.is R.lcsStat_busy && 2 ≤ L.role && (st == bsService || st == bsBoot || st == bsSync || st == bsExcluded) then
    let L := if st = bsService then { L with aon := { L.aon with uncounted := true } } else L
    L.laneReset
  else L.flag R.lcsStat_refused

/-- Whether the first two conditions of R345 hold: the life cycle permits break mode for the variant (R3), in a Maker
session. -/
def LaneState.splitAllowed (L : LaneState) : Bool :=
  L.get R.lcsState_lc == 1 || (L.get R.lcsState_lc == 2 && L.get R.sysId_variant == 2)
def LaneState.breakAllowed (L : LaneState) : Bool := L.splitAllowed && L.role == 3

/-- A write of TRIAD_DBG (R345, R346, R348): force_abstain is only set, and only where allowed; brk_req enters break
mode, logged as DEBUG_OPEN with sub 1, or is refused. -/
def LaneState.wTriadDbg (L : LaneState) (w : Word) : LaneState :=
  let L := if bit w.toNat 0 && L.breakAllowed && !L.is R.triadDbg_force_abstain then
      let L := (L.setF R.triadDbg_force_abstain true).roleAct
      { L with triad := { L.triad with abstainAt := some L.coarse } }.driveVotes
    else L
  if !bit w.toNat 1 then L
  else
    let st := L.belay
    let held := match L.triad.abstainAt with
      | some t => decide (t + 5000 ≤ L.coarse)
      | none => false
    if L.breakAllowed && held && (st == bsBoot || st == bsSync || st == bsExcluded || st == bsService) then
      let L := ((L.setF R.triadStat_break true).setF R.triadStat_lockstep_broken true).roleAct
      let L := (L.setF R.triadStat_resync false).put R.triadStat_odd 3
      { L with triad := { L.triad with rsStep := 0, testDue := none } }.appendLog L.role 0x0021 1 0 0
    else L.flag R.triadStat_brk_refused

/-- A write of TRIAD_STAT: lockstep_broken is not cleared in break mode (R348). -/
def LaneState.wTriadStat (L : LaneState) (q : Req) (w : Word) : LaneState :=
  let keep := L.is R.triadStat_break && L.is R.triadStat_lockstep_broken
  let L := L.busWrite q.secure R.triadStat w
  if keep then L.setF R.triadStat_lockstep_broken true else L

/-- A write of TRIAD_CMD: clr_cnt clears TRIAD_CNT; tst_now makes a comparator test due (R332). -/
def LaneState.wTriadCmd (L : LaneState) (w : Word) : LaneState :=
  let L := if bit w.toNat 0 then L.setReg R.triadCnt 0 else L
  if bit w.toNat 1 then { L with triad := { L.triad with testDue := some L.coarse } } else L

/-- A write of SKIM_JOB_CFG_n: a job whose en is newly set counts its period from here and may run once (R52, R53). -/
def LaneState.wSkimJobCfg (L : LaneState) (q : Req) (j : Nat) (w : Word) : LaneState :=
  let was := L.is (R.skimJobCfg_en j)
  let L := L.busWrite q.secure (R.skimJobCfg j) w
  if !was && L.is (R.skimJobCfg_en j) then
    { L with skim := { L.skim with since := L.skim.since.set j 0, ranOnce := dropFrom j L.skim.ranOnce } }
  else if L.is (R.skimJobCfg_en j) then L
  else { L with skim := { L.skim with due := dropFrom j L.skim.due } }

/-- A write of a WAT register: nothing after WAT_LOCK but the clears of WAT_STAT; the bits of WAT, SEC and LCS in WAT_BLK
stay 0 (R521, R524). -/
def LaneState.wWat (L : LaneState) (q : Req) (a : Nat) (w : Word) : LaneState :=
  if !q.secure then L
  else if a = R.watCnt then L.wWatCnt q.secure w
  else if a = R.watLock then L.wLock q.secure a w
  else if a = R.watStat then L.busWrite q.secure a w
  else if L.is R.watStat_locked then L
  else if a = R.watBlk then (L.busWrite q.secure a w).put R.watBlk_ns (bits w.toNat 27 0 &&& 0xF3FFF7F)
  else L.busWrite q.secure a w

/-- The effect of a register write by a master that the world table allows, by block and register (R8 to R12). -/
def LaneState.regWrite (L : LaneState) (q : Req) (a : Nat) (w : Word) : LaneState :=
  let plain := if plainLock a then L.wLock q.secure a w else L.busWrite q.secure a w
  let n4 := a % 0x10000 / 0x400
  let n10 := a % 0x10000 / 0x1000
  match a / 0x10000 with
  | 0x4000 => if a = R.sysTick then L.wSysTick q w else plain
  | 0x4001 =>
    if a = R.belayKick then L.wBelayKick w
    else if a = R.belayCmd then L.wBelayCmd w
    else plain
  | 0x4002 => if a = R.ropeCmd then L.wRopeCmd w else plain
  | 0x4003 =>
    if a = R.triadDbg then L.wTriadDbg w
    else if a = R.triadCmd then L.wTriadCmd w
    else if a = R.triadStat then L.wTriadStat q w
    else plain
  | 0x4004 => if a = R.ridgePost then L.wRidgePost w else plain
  | 0x4005 =>
    if a = R.mboxStage then L.wMboxStage q.m w
    else if 0x40050100 ≤ a ∧ a < 0x40050300 ∧ a % 16 = 12 then L.wMboxPost q ((a - 0x40050100) / 16) w
    else plain
  | 0x4006 =>
    if a < 0x40060100 ∧ a % 4 = 0 then L.wSema q ((a - 0x40060000) / 4) w
    else if a = R.semaFree then L.wSemaFree q.secure w
    else plain
  | 0x4007 => L.wWat q a w
  | 0x4008 =>
    if n10 < 4 ∧ a = R.axpCmd n10 then L.wAxpCmd n10 w
    else if n10 < 4 ∧ a = R.axpCntClr n10 then L.wAxpCntClr n10 w
    else plain
  | 0x4009 =>
    if 4 ≤ n4 then plain
    else if a = R.fbCmpLo n4 then L.wFbCmpLo n4 w
    else if a = R.fbCmpHi n4 then L.wFbCmpHi n4 w
    else if a = R.fbEofs n4 then L.wFbEofs n4 w
    else if a = eqReg n4 0 then L.wFbEq n4 0 w
    else if a = eqReg n4 1 then L.wFbEq n4 1 w
    else if a = eqReg n4 2 then L.wFbEq n4 2 w
    else if a = R.fbCmd n4 then L.wFbCmd n4 w
    else if a = R.fbLock n4 then L.wFbLock n4 w
    else plain
  | 0x400A =>
    if 4 ≤ n4 then plain
    else if a = R.fldCmd n4 then L.wFldCmd n4 w
    else if a = R.fldRs n4 then L.wFldRs n4 w
    else if a = R.fldLock n4 then L.wFldLock n4 w
    else plain
  | 0x400B =>
    if 4 ≤ n4 then plain
    else if a = R.profCmd n4 then L.wProfCmd n4 w
    else if a = R.profLock n4 then L.wProfLock n4 w
    else plain
  | 0x400C =>
    if 2 ≤ n10 then plain
    else if a = R.leBankCmd n10 then L.wLeBankCmd n10 w
    else if a = R.leLock n10 then L.wLeLock n10 w
    else if a = R.leLoopEn n10 then L.wLeLoopEn n10 w
    else if a = R.leCmd n10 then L.wLeCmd n10 w
    else plain
  | 0x400D =>
    let u := (a - 0x400D0100) / 16
    if a = R.edgeTb0 then L.wEdgeTb q 0 w
    else if a = R.edgeTb1 then L.wEdgeTb q 1 w
    else if a = R.edgeTb2 then L.wEdgeTb q 2 w
    else if a = R.edgeLock then L.wEdgeLock w
    else if 0x400D0100 ≤ a ∧ a < 0x400D0200 then
      if a = R.edgeEuCfg u then L.wEdgeCfg q u w
      else if a = R.edgeEuOn u then L.wEdgeCmp q u false w
      else if a = R.edgeEuOff u then L.wEdgeCmp q u true w
      else if a = R.edgeEuLvl u then L.wEdgeLvl q u w
      else plain
    else plain
  | 0x400E =>
    if a = R.brgOvrEn then L.wBrgOvrEn q w
    else if a = R.brgOvrGate then L.wBrgOvrGate q w
    else if a = R.brgCmd then L.wBrgCmd w
    else if a = R.brgLock then L.wBrgLock w
    else if (R.findRow a).isSome then plain.driveGates
    else plain
  | 0x400F =>
    if a = R.tripFlag0 then L.wTripFlag false w
    else if a = R.tripFlag1 then L.wTripFlag true w
    else if a = R.tripLock then L.wTripLock w
    else if 0x400F0100 ≤ a ∧ a < 0x400F0100 + 4 * 39 ∧ a % 4 = 0 then L.wTripMap q ((a - 0x400F0100) / 4) w
    else plain
  | 0x4011 =>
    if a = R.cdeCmd then L.wCdeCmd w
    else if a = R.cdeLock then L.wCdeLock w
    else plain
  | 0x4012 =>
    if a = R.tetherCmd then L.wTetherCmd w
    else if a = R.tetherLock then L.wTetherLock w
    else plain
  | 0x4013 =>
    if a = R.siuCmd then L.wSiuCmd w
    else if a = R.siuLock then L.wSiuLock w
    else match (List.range 8).find? (fun f => a == R.siuFst f) with
      | some f => L.wSiuFst f w
      | none => plain
  | 0x4014 =>
    if a = R.pwrPmicReq then L.wPwrPmicReq w
    else if a = R.pwrCmd then L.wPwrCmd w
    else if a = R.pwrGate then L.wPwrGate w
    else if a = R.pwrDl0 then L.wPwrDl 0 w
    else if a = R.pwrDl1 then L.wPwrDl 1 w
    else if a = R.pwrLock then L.wPwrLock w
    else plain
  | 0x4016 =>
    if a = R.secCmd then L.wSecCmd w
    else if a = R.secPwLen then L.setReg a (w &&& 0x3F)
    else if (R.secPw 0 ≤ a ∧ a < R.secPw 8) ∨ (R.secSig 0 ≤ a ∧ a < R.secSig 24) ∨ (R.secNonce 0 ≤ a ∧ a < R.secNonce 8) ∨
        (R.secKeyin 0 ≤ a ∧ a < R.secKeyin 12) then L.setReg a w
    else plain
  | 0x4017 =>
    if a = R.lcsCmd then L.wLcsCmd w
    else if a = R.lcsLogSub then L.wLcsLogSub w
    else plain
  | 0x4018 => if a = R.bistCmd then L.wBistCmd w else plain
  | 0x4019 =>
    if a = R.nvmcCmd then L.wNvmcCmd w
    else if a = R.nvmcClr then L.wNvmcClr w
    else if 0x40190100 ≤ a ∧ a < 0x40190200 then L.wNvmcBuf ((a - 0x40190100) / 4) w
    else plain
  | 0x401B =>
    if a = R.skimCtl then L.wSkimCtl w
    else if 0x401B0100 ≤ a ∧ a < 0x401B0200 ∧ a % 16 = 0 then L.wSkimJobCfg q ((a - 0x401B0100) / 16) w
    else plain
  | _ => plain

/-- A write to a register that has no row of its own, judged by the table (R8, R523). -/
def execRegisterWrite (l : Lane) (q : Req) (a w : Word) (s : State) : Out :=
  onLane s l (fun L => L.when (decide (0x40000000 ≤ a.toNat ∧ a.toNat < 0x401C0000 ∧ a.toNat % 4 = 0)) (fun L =>
    L.guardW q a.toNat w (fun L => L.regWrite q a.toNat w)))

/-- A write to a plain LOCK register. -/
def execBlockLock (l : Lane) (q : Req) (a w : Word) (s : State) : Out :=
  onLane s l (fun L => L.when (plainLock a.toNat || a.toNat == R.watLock) (fun L =>
    L.guardW q a.toNat w (fun L => L.wLock q.secure a.toNat w)))

def execRevive (l : Lane) (q : Req) (s : State) : Out :=
  onLane s l (fun L => L.guardW q R.belayCmd 4 (fun L => L.wBelayCmd 4))

def execLcsLaneReset (l : Lane) (q : Req) (s : State) : Out :=
  onLane s l (fun L => L.guardW q R.lcsCmd 13 (fun L => L.wLcsCmd 13))

def execTriadClrCnt (l : Lane) (q : Req) (s : State) : Out :=
  onLane s l (fun L => L.guardW q R.triadCmd 1 (fun L => L.wTriadCmd 1))

def execTstNow (l : Lane) (q : Req) (s : State) : Out :=
  onLane s l (fun L => L.guardW q R.triadCmd 2 (fun L => L.wTriadCmd 2))

def execForceAbstain (l : Lane) (q : Req) (s : State) : Out :=
  onLane s l (fun L => L.guardW q R.triadDbg 1 (fun L => L.wTriadDbg 1))

def execBreakModeRequest (l : Lane) (q : Req) (s : State) : Out :=
  onLane s l (fun L => L.guardW q R.triadDbg 2 (fun L => L.wTriadDbg 2))

/-! ## Register reads -/

/-- CAIRN_TIME: 48 bits of the 32.768 kHz count (chapter 15). -/
def LaneState.cairnTime (L : LaneState) : Nat := L.aon.now * 32768 / 200000000 % 2 ^ 48

/-- The value that a read of a register returns and what the read does (R8, R29). -/
def LaneState.regRead (L : LaneState) (q : Req) (a : Nat) : Word × LaneState :=
  let n := a % 0x10000 / 0x400
  let keep (m : WMap) (w : Word) : WMap := Sparse.set (fun _ => 0) m q.m.id w
  if a = R.sysTimeLo then L.rSysTimeLo q
  else if a = R.sysTimeHi then L.rSysTimeHi q
  else if a / 0x10000 = 0x4009 ∧ n < 4 ∧ a = R.fbPosLo n then L.rFbPosLo n q
  else if a / 0x10000 = 0x4009 ∧ n < 4 ∧ a = R.fbPosHi n then L.rFbPosHi n q
  else if a = R.cdeNtofsLo then (L.reg a, { L with cde := { L.cde with latch := keep L.cde.latch (L.reg R.cdeNtofsHi) } })
  else if a = R.cdeNtofsHi then (Sparse.get 0 L.cde.latch q.m.id, L)
  else if a = R.tetherPofsLo then
    (L.reg a, { L with tether := { L.tether with latch := keep L.tether.latch (L.reg R.tetherPofsHi) } })
  else if a = R.tetherPofsHi then (Sparse.get 0 L.tether.latch q.m.id, L)
  else if a = R.cairnTimeLo then
    (wordN L.cairnTime, { L with time := { L.time with cairnLatch := keep L.time.cairnLatch (wordN (L.cairnTime / 2 ^ 32)) } })
  else if a = R.cairnTimeHi then (Sparse.get 0 L.time.cairnLatch q.m.id, L)
  else if a = R.ridgeNext then L.readRidgeNext q.m
  else if 0x40050100 ≤ a ∧ a < 0x40050300 ∧ a % 16 = 4 then L.readMboxMsg q ((a - 0x40050100) / 16)
  else if 0x40050100 ≤ a ∧ a < 0x40050300 ∧ a % 16 = 8 then L.readMboxPtr q ((a - 0x40050100) / 16)
  else if 0x40060000 ≤ a ∧ a < 0x40060100 ∧ a % 4 = 0 then L.readSema q ((a - 0x40060000) / 4)
  else if 0x40060100 ≤ a ∧ a < 0x40060200 ∧ a % 4 = 0 then (wordN (L.get (R.sema_owner ((a - 0x40060100) / 4))), L)
  else (L.busRead q.secure a, L)

/-! ## Lath (R19, R20, R507) -/

/-- A BRG or TRIP access is sent over Lath when none is in progress; the requester stalls until its reply. -/
def LaneState.lathSend (L : LaneState) (m : Master) (write : Bool) (a : Nat) (w : Word) : LaneState :=
  if L.lath.pending.isSome then L
  else { L with lath := { L.lath with pending := some (m.id + (if write then 64 else 0), write, a, w), fails := 0 } }

/-- The master of an ID. -/
def masterOf (i : Nat) : Master :=
  if i = 2 then .tc1 else if i = 3 then .tc2 else if i = 4 then .svc else if i = 5 then .dbg else .triad

def execLathRequest (l : Lane) (q : Req) (write : Bool) (addr w : Word) (s : State) : Out :=
  onLane s l (fun L =>
    L.when (decide (0x400E0000 ≤ addr.toNat ∧ addr.toNat < 0x40100000)) (fun L =>
      match L.judge q addr.toNat write w with
      | some k => (L.recordViol q addr.toNat write k).answer q.m 0
      | none => L.lathSend q.m write addr.toNat w))

/-- The frames of an access arrive: the bridge die's register is written or read and the reply reaches the requester. A
frame that fails its CRC is repeated; the third failure ends the access with a bus error and raises LATH. -/
def execLathFrameReceived (l : Lane) (crcOk : Bool) (s : State) : Out :=
  onLane s l (fun L => match L.lath.pending with
    | none => L
    | some (i, write, a, w) =>
      let m := masterOf (i % 64)
      let q : Req := ⟨m, true⟩
      if crcOk then
        let r := if write then (0, L.regWrite q a w) else L.regRead q a
        { r.2 with lath := { r.2.lath with
          pending := none, fails := 0, done := addTo m.id r.2.lath.done
          reply := Sparse.set (fun _ => 0) r.2.lath.reply m.id r.1 } }
      else if L.lath.fails + 1 < 3 then { L with lath := { L.lath with fails := L.lath.fails + 1 } }
      else
        { L with lath := { L.lath with pending := none, fails := 3, busErr := addTo m.id L.lath.busErr } }.raiseOwn 0x0C)

/-! ## Regions (R503, R504) -/

/-- The regions of the lane address map. -/
inductive Region where
  | envm (t : Nat) | rom | sram | sig | le (e : Nat) | net | cairn | trace | block (b : Nat) | none
deriving DecidableEq, Repr

/-- The region of an address. -/
def regionAt (a : Nat) : Region :=
  if a < 0x00810000 then .envm (a / 0x400000)
  else if 0x10000000 ≤ a ∧ a < 0x10010000 then .rom
  else if 0x20000000 ≤ a ∧ a < 0x20200000 then .sram
  else if 0x20200000 ≤ a ∧ a < 0x20300000 then .sig
  else if 0x20300000 ≤ a ∧ a < 0x20340000 then .le ((a - 0x20300000) / 0x20000)
  else if 0x20340000 ≤ a ∧ a < 0x203A0000 then .net
  else if 0x28000000 ≤ a ∧ a < 0x28040000 then .cairn
  else if 0x2C000000 ≤ a ∧ a < 0x2C010000 then .trace
  else if 0x40000000 ≤ a ∧ a < 0x401C0000 then .block ((a - 0x40000000) / 0x10000)
  else .none

/-- The SRAM region index of R514. -/
def Region.sramIdx : Region → Option Nat
  | .sram => some 0
  | .sig => some 1
  | .le e => some (2 + e)
  | .net => some 4
  | .cairn => some 5
  | .trace => some 7
  | _ => Option.none

/-- The power domain that an access to an address needs (R45, R482). -/
def accessDomain (a : Nat) : Nat :=
  match regionAt a with
  | .le e => 2 + e
  | .trace => 11
  | .block b =>
    if b = 0x0C then 2 + a % 0x10000 / 0x1000 % 2
    else if b = 0x08 ∨ b = 0x0A ∨ b = 0x0B then 4
    else if b = 0x10 then 5
    else if b = 0x09 then 6
    else if b = 0x16 then 10
    else 1
  | _ => 1

/-- Whether an access must wait for its domain. -/
def LaneState.gated (L : LaneState) (a : Nat) : Bool :=
  let d := accessDomain a
  decide (2 ≤ d) && !L.domainOn d

/-- What ECC makes of a memory access (R512, R513): counts and write-back of a corrected word, flags and cause of an
uncorrectable one. -/
def LaneState.eccAccess (L : LaneState) (a : Nat) (e : Ecc) : LaneState :=
  match regionAt a, e with
  | _, .ok => L
  | .envm _, .corrected => L.count R.nvmcCnt_cor
  | .envm _, .bad => (L.flag R.nvmcStat_ecc_u)
  | r, .corrected => match r.sramIdx with
    | some i => (L.count (R.nvmcSrCnt_cor i)).mapM (fun M => { M with writeBack := addTo (a / 4 * 4) M.writeBack })
    | Option.none => L
  | r, .bad => match r.sramIdx with
    | some i => L.eccBad i
    | Option.none => L

/-- A word of memory as a bus master reads it; a master other than a core that reads a busy eNVM target gets 0 with
busy_rd (R520). -/
def LaneState.memWord (L : LaneState) (a : Nat) : Word :=
  match regionAt a with
  | .sig => L.sig ((a - 0x20200000) / 4)
  | _ => L.word (a / 4 * 4)

/-- A store of `n` bytes at an address of memory by a master, as byte enables select them in their word: signals follow
R49 and R50, engine memories R186, network tables are frozen by CDE_LOCK (R391), and a word that waited for its
write-back no longer does (R512). -/
def LaneState.memStore (L : LaneState) (q : Req) (a n v : Nat) : LaneState :=
  let L := L.mapM (fun M => { M with writeBack := dropFrom (a / 4 * 4) M.writeBack })
  match regionAt a with
  | .sig =>
    let i := (a - 0x20200000) / 4
    let o := a % 4 * 8
    let w := setBits (L.sig i).toNat (o + 8 * n - 1) o v
    let L := if i < 0x10000 then L.mapK (fun C => { C with calWrites := C.calWrites + 1 }) else L
    L.masterSig q i (wordN w)
  | .le e =>
    if L.leWritable e (a - leMem e) then L.store a n v else L.flag (R.leStat_wr_ro e)
  | .net => if L.locked R.cdeLock && decide (a < 0x20342800) then L else L.store a n v
  | .sram => L.store a n v
  | .cairn => L.store a n v
  | _ => L

end Sys2Proof.Machine
end

