-- ==== Sys2Proof/Machine/CoreOps.lean ====
section
/-! DEFINITION. The lane cores: registers, control registers, exceptions, fetch, accesses, costs and the voter (chapters
10 and 11, R323 to R341 and R353 to R381). -/

namespace Sys2Proof.Machine

/-! ## Cores (R350, R353, R380) -/

/-- The state of a core. -/
def LaneState.core (L : LaneState) : Core → CoreSt
  | .tc0 => L.triadCore
  | .tc1 => L.core1
  | .tc2 => L.core2
  | .svc => L.svc

/-- Changes the state of a core. -/
def LaneState.mapCore (L : LaneState) (c : Core) (f : CoreSt → CoreSt) : LaneState :=
  match c with
  | .tc0 => { L with triadCore := f L.triadCore }
  | .tc1 => { L with core1 := f L.core1 }
  | .tc2 => { L with core2 := f L.core2 }
  | .svc => { L with svc := f L.svc }

/-- The number of a core (R350), and its master (R505). -/
def Core.num : Core → Nat
  | .tc0 => 0
  | .tc1 => 1
  | .tc2 => 2
  | .svc => 3
def Core.master : Core → Master
  | .tc0 => .triad
  | .tc1 => .tc1
  | .tc2 => .tc2
  | .svc => .svc

/-- Split mode and break mode (R347, R349). -/
def LaneState.split (L : LaneState) : Bool := L.is R.triadStat_split
def LaneState.breakMode (L : LaneState) : Bool := L.is R.triadStat_break

/-- Whether the voter compares: neither split nor break mode (R347, R350). -/
def LaneState.voting (L : LaneState) : Bool := !L.split && !L.breakMode

/-- Whether a core issues instructions: not parked or stopped by a double fault, out of reset, not frozen by TRIAD_3 or
stalled by a resynchronisation, and not halted except for a single step (R333, R338, R342, R375). -/
def LaneState.coreRuns (L : LaneState) (c : Core) : Bool :=
  let C := L.core c
  let T := L.triad
  !C.parked && !C.stopped &&
    match c with
    | .svc => true
    | _ => L.pwr.bootStep == 4 && !T.stuck && T.rsStep != 5 && (c == .tc0 || L.split) &&
        (!decide (c.num ∈ T.halted) || T.stepping)

/-! ## General registers and predicates (R353) -/

/-- g0 reads 0. -/
def CoreSt.gr (C : CoreSt) (i : Nat) : Word := if i = 0 then 0 else Sparse.get 0 C.g i

/-- A write to g0 is discarded. -/
def CoreSt.setG (C : CoreSt) (i : Nat) (w : Word) : CoreSt :=
  if i = 0 then C else { C with g := Sparse.set (fun _ => 0) C.g i w }

/-- Consecutive registers, and a write of them (R365). -/
def CoreSt.grs (C : CoreSt) (i n : Nat) : List Word := (List.range n).map (fun k => C.gr (i + k))
def CoreSt.setGs (C : CoreSt) (i : Nat) : List Word → CoreSt
  | [] => C
  | w :: ws => (C.setG i w).setGs (i + 1) ws

/-! ## Control registers (R379) -/

def crCid : Nat := 0x000
def crStatus : Nat := 0x001
def crEpc : Nat := 0x002
def crEcause : Nat := 0x003
def crEaddr : Nat := 0x004
def crVbaseN : Nat := 0x005
def crVbaseS : Nat := 0x006
def crImask : Nat := 0x007
def crIpend : Nat := 0x008
def crIworld : Nat := 0x009
def crPmode : Nat := 0x00A
def crPred : Nat := 0x00B
def crCycleLo : Nat := 0x00C
def crCycleHi : Nat := 0x00D
def crScr0 : Nat := 0x00E
def crScr1 : Nat := 0x00F
def crEsave : Nat := 0x010

/-- The reset values of the control registers. -/
def crReset (n : Nat) : Word :=
  if n = crStatus then 3 else if n = crIworld then 0xFFFFFFFF else if n = crPred ∨ n = crEsave then 1 else 0

/-- A control register as it is held. -/
def CoreSt.crw (C : CoreSt) (n : Nat) : Word := Sparse.get (crReset n) C.cr n

/-- Writes a control register as hardware does. -/
def CoreSt.setCr (C : CoreSt) (n : Nat) (w : Word) : CoreSt := { C with cr := Sparse.set crReset C.cr n w }

/-- Writes bits [hi:lo] of a control register. -/
def CoreSt.putCr (C : CoreSt) (n hi lo v : Nat) : CoreSt :=
  C.setCr n (wordN (setBits (C.crw n).toNat hi lo v))

/-- A bit of a control register. -/
def CoreSt.crBit (C : CoreSt) (n i : Nat) : Bool := bit (C.crw n).toNat i

/-- The privilege and the world of a core (R354). -/
def CoreSt.priv (C : CoreSt) : Bool := C.crBit crStatus 0
def CoreSt.secure (C : CoreSt) : Bool := C.crBit crStatus 1

/-- Predicate k; p0 reads 1 (R353). -/
def CoreSt.pr (C : CoreSt) (k : Nat) : Bool := k == 0 || C.crBit crPred k

/-- A write to p0 is discarded. -/
def CoreSt.setP (C : CoreSt) (k : Nat) (b : Bool) : CoreSt := if k = 0 then C else C.putCr crPred k k (b2n b)

/-- The request of a core: its master and its world (R354). -/
def LaneState.coreReq (L : LaneState) (c : Core) : Req := ⟨c.master, (L.core c).secure⟩

/-! ## Interrupt lines (R374, R502) -/

/-- Whether any W1C flag of a register is set. -/
def hasFlag (a : Nat) (w : Word) : Bool :=
  match R.findRow a with
  | some r => r.fields.any (fun f => f.acc == .w1c && bits w.toNat f.hi f.lo != 0)
  | none => false

/-- Whether any W1C flag is set in a register whose address meets a condition. No W1C field has a reset value other than
0, so that an unlisted register has none set. -/
def LaneState.flagIn (L : LaneState) (p : Nat → Bool) : Bool := L.regs.any (fun x => p x.1 && hasFlag x.1 x.2)

/-- Interrupt line i of the triad, 0 to 29. -/
def LaneState.lineHigh (L : LaneState) (i : Nat) : Bool :=
  if i = 15 then !L.bridge.known.isEmpty
  else if 6 ≤ i ∧ i ≤ 9 then L.flagIn (fun a => a / 0x1000 == 0x40080 + (i - 6))
  else
    let b := [1, 2, 4, 5, 6, 7, 8, 8, 8, 8, 9, 10, 11, 12, 13, 15, 16, 17, 18, 19, 20, 21, 22, 23, 24, 25, 26, 27, 0, 3].getD i 0
    L.flagIn (fun a => a / 0x10000 == 0x4000 + b)

/-- IPEND: the lines, and the bits tick and soft. The lines of the SVC are its events (R380, R502). -/
def LaneState.ipend (L : LaneState) (c : Core) : Nat :=
  let line (i : Nat) : Bool :=
    match c with
    | .svc => decide (i ∈ L.pwr.svcLines)
    | _ => if i < 30 then L.lineHigh i else (L.core c).crBit crIpend i
  (List.range 32).foldl (fun a i => a + b2n (line i) * 2 ^ i) 0

/-- Lines that are pending and enabled. -/
def LaneState.qualifying (L : LaneState) (c : Core) : Nat := L.ipend c &&& ((L.core c).crw crImask).toNat

/-- The lowest line that may be taken; in the SVC every line is secure (R374, R380). -/
def LaneState.takeable (L : LaneState) (c : Core) : Option Nat :=
  let C := L.core c
  let sec (i : Nat) : Bool := c == .svc || C.crBit crIworld i
  (List.range 32).find? (fun i => bit (L.qualifying c) i &&
    (if sec i then C.crBit crStatus 3 else C.crBit crStatus 2 && !C.secure))

/-! ## Entry to an exception or interrupt (R371, R372, R375) -/

/-- What raises an exception: vector, detail, code, EADDR, and whether EPC is the next instruction. -/
structure Exc where
  v : Nat
  detail : Nat := 0
  code : Nat := 0
  eaddr : Nat := 0
  next : Bool := false

/-- A synchronous exception of an instruction at its own address: ILLEGAL 1, PRIV 2. -/
def excAt (v pc : Nat) : Exc := { v := v, eaddr := pc }

/-- The cycles of a branch, a jump or an entry: 3 fewer in split mode, where there is no vote delay (R368). -/
def LaneState.voteDelay (L : LaneState) (c : Core) : Nat := if L.split && c != .svc then 3 else 0

/-- The core goes on at an address after a number of cycles; a single step has been taken. -/
def LaneState.coreAt (L : LaneState) (c : Core) (pc : Nat) (cost : Nat) : LaneState :=
  let L := L.mapCore c (fun C => { C with pc := wordN pc, cycles := C.cycles + cost })
  if c == .svc then L else { L with triad := { L.triad with stepping := false } }

/-- Entry to a vector, in one step: EPC, ECAUSE, EADDR, ESAVE and the saved fields of STATUS; privileged, interrupts
disabled, exc set; `toS` forces the secure world. -/
def CoreSt.enter (C : CoreSt) (x : Exc) (epc : Nat) (toS : Bool) : CoreSt :=
  let st := (C.crw crStatus).toNat
  let sec := toS || C.secure
  let C := C.setCr crEpc (wordN (epc / 4 * 4))
  let C := C.setCr crEcause (wordN (x.v % 256 + 256 * (x.detail % 256) + 65536 * (x.code % 1024)))
  let C := (C.setCr crEaddr (wordN x.eaddr)).setCr crEsave (wordN (setBits (C.crw crPred).toNat 0 0 1))
  let C := C.setCr crStatus (wordN (1 + 2 * b2n sec + 16 + 256 * bits st 3 0))
  let base := (C.crw (if sec then crVbaseS else crVbaseN)).toNat
  { C with pc := wordN (base / 2048 * 2048 + 0x20 * x.v) }

/-- An exception or interrupt of a core whose instruction stands at `pc`. A synchronous exception while exc is set is a
double fault: the core stops, and ECAUSE.vector reads 0xFF. -/
def LaneState.coreExc (L : LaneState) (c : Core) (x : Exc) (toS : Bool := false) : LaneState :=
  let C := L.core c
  let pc := C.pc.toNat
  let epc := if x.next then (pc + 4) % 2 ^ 32 else pc
  let L := if x.v < 16 && C.crBit crStatus 4 then
      L.mapCore c (fun C => { C.putCr crEcause 7 0 0xFF with stopped := true })
    else
      L.mapCore c (fun C => { C.enter x epc (toS || c == .svc) with cycles := C.cycles + (12 - L.voteDelay c) })
  if c == .svc then L else { L with triad := { L.triad with stepping := false } }

/-! ## Instruction words (R356, R358, R359) -/

/-- The instructions. -/
inductive CoreOp where
  | add | sub | and | or | xor | andn | shl | shr | sar | min | max | minu | maxu | clz | sextb | sexth
  | mul | mulh | mulhu | div | divu | rem | remu
  | adds | subs | negs | abss | mulq | shls | clmp | rndh
  | cmp | pand | por | pxor | pandn
  | addi | andi | ori | xori | shiShl | shiShr | shiSar | shiShls | cmpi | lui | movi
  | ldw | ldh | ldhu | ldb | ldbu | stw | sth | stb | swp | sld | sst | sget | spub
  | br | call | jr | jalr | crr | crw | crs | crc | trap | scall | eret | park | bkpt
deriving DecidableEq, Repr

/-- The fields of a word. -/
def fD (w : Nat) : Nat := bits w 22 18
def fA (w : Nat) : Nat := bits w 17 13
def fB (w : Nat) : Nat := bits w 12 8
def fImm13 (w : Nat) : Nat := bits w 12 0
def fImm18 (w : Nat) : Nat := bits w 17 0

/-- The instruction that a word encodes; none for a word that raises ILLEGAL. -/
def coreOp (w : Nat) : Option CoreOp :=
  let func := bits w 7 0
  match bits w 31 27 with
  | 0x00 => [.add, .sub, .and, .or, .xor, .andn, .shl, .shr, .sar, .min, .max, .minu, .maxu, .clz, .sextb, .sexth][func]?
  | 0x01 => if func < 3 then [.mul, .mulh, .mulhu][func]? else if func < 8 then none else [.div, .divu, .rem, .remu][func - 8]?
  | 0x02 => [.adds, .subs, .negs, .abss, .mulq, .shls, .clmp, .rndh][func]?
  | 0x03 => if bits w 7 3 = 0 then some .cmp else none
  | 0x04 =>
    if bits w 22 21 = 0 ∧ bits w 17 16 = 0 ∧ bits w 12 11 = 0 then [.pand, .por, .pxor, .pandn][func]? else none
  | 0x05 => some .addi
  | 0x06 => some .andi
  | 0x07 => some .ori
  | 0x08 => some .xori
  | 0x09 => if bits w 12 7 = 0 then [.shiShl, .shiShr, .shiSar, .shiShls][bits w 6 5]? else none
  | 0x0A => some .cmpi
  | 0x0B => some .lui
  | 0x0C => some .movi
  | 0x0D => some .ldw
  | 0x0E => some .ldh
  | 0x0F => some .ldhu
  | 0x10 => some .ldb
  | 0x11 => some .ldbu
  | 0x12 => some .stw
  | 0x13 => some .sth
  | 0x14 => some .stb
  | 0x15 => if func = 0 then some .swp else none
  | 0x16 => some .sld
  | 0x17 => some .sst
  | 0x18 => [.sget, .spub][bits w 7 4]?
  | 0x19 => some .br
  | 0x1A => some .call
  | 0x1B => [.jr, .jalr][func]?
  | 0x1C => [.crr, .crw, .crs, .crc][bits w 12 11]?
  | 0x1D => if func = 0 then none else [.trap, .scall, .eret, .park, .bkpt][func - 1]?
  | _ => none

/-- Instructions that the SVC lacks (R380). -/
def CoreOp.svcLacks (o : CoreOp) : Bool :=
  o ∈ [CoreOp.div, .divu, .rem, .remu, .adds, .subs, .negs, .abss, .mulq, .shls, .clmp, .rndh, .swp, .sld, .sst, .sget,
    .spub, .scall]

/-- Instructions that access memory. -/
def CoreOp.isMem (o : CoreOp) : Bool :=
  o ∈ [CoreOp.ldw, .ldh, .ldhu, .ldb, .ldbu, .stw, .sth, .stb, .swp, .sld, .sst, .sget, .spub]

/-- Whether an instruction is squashed: p[p] XOR n is 0 (R357). -/
def CoreSt.squashes (C : CoreSt) (w : Nat) : Bool := C.pr (bits w 25 23) == bit w 26

/-! ## Costs (R368, R369, R380) -/

/-- The address of a memory instruction (R358, R365). -/
def CoreSt.memAddr (C : CoreSt) (o : CoreOp) (w : Nat) : Nat :=
  match o with
  | .swp => (C.gr (fA w)).toNat
  | .sld | .sst => 0x20200000 + 4 * fImm18 w
  | .sget | .spub => 0x20200000 + 4 * bits (C.gr (fA w)).toNat 17 0
  | _ => wrapTo 32 ((C.gr (fA w)).toNat + sext 13 (fImm13 w))

/-- Base cost and maximum wait of an access of `n` signals or one word at an address. -/
def targetCost (a n : Nat) (write : Bool) : Nat × Nat :=
  match regionAt a with
  | .sram => (12, 3)
  | .sig => (14 + (n - 1), if write then 16 else 4)
  | .le _ => (12, 3)
  | .net => (14, 4)
  | .cairn => (20, 4)
  | .envm _ => (20, 0)
  | .rom => (20, 0)
  | .block b => if b = 0x0E ∨ b = 0x0F then (Config.openCost a, 1200) else (16, 4)
  | .trace => (Config.openCost a, 0xFFFF)
  | .none => (Config.openCost a, 0)

/-- Whether an address lies in the always-on domain: Cairn memory, PWR and CAIRN. -/
def alwaysOnAddr (a : Nat) : Bool :=
  match regionAt a with
  | .cairn => true
  | .block b => b == 0x14 || b == 0x15
  | _ => false

/-- The base cost of an instruction. -/
def LaneState.baseCost (L : LaneState) (c : Core) (o : CoreOp) (w : Nat) : Nat :=
  let dag := L.voteDelay c
  if o.isMem then
    let a := (L.core c).memAddr o w
    if c == .svc then (if alwaysOnAddr a then 2 else 4)
    else
      let n := if o == .sget || o == .spub then bits w 3 0 + 1 else 1
      let t := targetCost a n (o ∈ [CoreOp.stw, .sth, .stb, .sst, .spub])
      (if o == .swp then t.1 + 2 else t.1) - dag
  else match o with
    | .mul | .mulh | .mulhu | .mulq => 3
    | .div | .divu | .rem | .remu => 34
    | .br | .call | .trap | .scall | .bkpt | .eret => 12 - dag
    | .jr | .jalr => 13 - dag
    | .crr | .park => 2
    | .crw | .crs | .crc => 3
    | _ => 1

/-- The wait of an access: at most the maximum of its target, which is three times as long in split mode (R508), and the
wake stall of a domain that can be gated; the SVC's accesses have fixed costs but for Lath. -/
def LaneState.waitOf (L : LaneState) (c : Core) (o : CoreOp) (a n : Nat) (wait : Nat) : Nat :=
  let t := targetCost a n (o ∈ [CoreOp.stw, .sth, .stb, .sst, .spub])
  let d := accessDomain a
  let lath := match regionAt a with
    | .block b => b == 0x0E || b == 0x0F
    | _ => false
  if c == .svc && !lath then 0
  else
    let top := t.2 * (if o == .swp then 2 else 1) * (if L.split then 3 else 1)
    min wait (top + (if 2 ≤ d then wakeStall d * 5 / 2 else 0))

/-! ## Fetch (R367, R370, R380) -/

/-- Whether a core may fetch from an address: the eNVM banks and the boot ROM, in the SVC the boot ROM and Cairn memory. -/
def fetchable (c : Core) (a : Nat) : Bool :=
  match regionAt a with
  | .envm t => c != .svc && decide (t < 2)
  | .rom => true
  | .cairn => c == .svc
  | _ => false

/-- The violation of a fetch: its world, or the attribute nx of its region (R521, R523). -/
def LaneState.fetchViol (L : LaneState) (q : Req) (a : Nat) : Option Nat :=
  match L.judge q a false 0 with
  | some k => some k
  | none => match L.regionOf a with
    | some n => if L.is (R.watRgn_nx n) && !(decide (0x10000000 ≤ a) && decide (a < 0x10010000)) then some 3 else none
    | none => none

/-- The fetch of a core's next word: vector 3 for FETCH, 6 for ECC, 0 where the word has been fetched. -/
def LaneState.coreFetch (L : LaneState) (c : Core) (ecc : Ecc) : Nat × LaneState :=
  let a := (L.core c).pc.toNat
  let q := L.coreReq c
  if !fetchable c a then (3, L)
  else match L.fetchViol q a with
    | some k => (3, L.recordViol q a false k)
    | none =>
      if (match regionAt a with | .envm t => L.nvBusyOn t | _ => false) then (3, L)
      else
        let L := L.eccAccess a ecc
        if ecc = .bad then (6, L.raiseOwn 0x09) else (0, L)

/-! ## Accesses of a core (R363 to R367, R381, R507, R523) -/

/-- What an access ends in: its data, an exception, or a stall, after which the core issues the access again. -/
inductive AccRes where
  | ok (L : LaneState) (w : Nat)
  | exc (L : LaneState) (x : Exc)
  | stall (L : LaneState)

/-- The blocks to which the SVC has no write access (R381). -/
def driveBlock (b : Nat) : Bool := b ∈ [8, 9, 10, 11, 12, 13, 14, 15, 1, 2, 0x13, 0x12]

/-- The detail of the BUSERR that an access raises before it issues a request; 0: none (R364, R367, R381). -/
def LaneState.busDetail (L : LaneState) (c : Core) (a : Nat) (write swap : Bool) : Nat :=
  match regionAt a with
  | .none => 3
  | .block b => if swap then 3 else if c == .svc && write && driveBlock b then 4 else 0
  | .envm t => if swap then 3 else if write then 6 else if L.nvBusyOn t then 5 else 0
  | .rom => if swap then 3 else if write then 6 else 0
  | .sig | .le _ | .trace => if swap then 3 else 0
  | _ => 0

/-- The word that a store of fewer than four bytes presents to a register: the bytes outside its enables keep RW, RWL and
RWS fields and give 0 to the others (assumption 81). -/
def LaneState.keepWord (L : LaneState) (a : Nat) : Nat :=
  match R.findRow a with
  | none => 0
  | some r => r.fields.foldl (fun acc f =>
      match f.acc with
      | .rw | .rwl | .rws => setBits acc f.hi f.lo (bits (L.reg a).toNat f.hi f.lo)
      | _ => acc) 0

/-- The word of a store of `n` bytes in its lanes. -/
def LaneState.laneWord (L : LaneState) (a n v : Nat) : Nat :=
  let o := 8 * (a % 4)
  if n = 4 then v
  else if 0x40000000 ≤ a then setBits (L.keepWord (a / 4 * 4)) (o + 8 * n - 1) o v
  else v % 2 ^ (8 * n) * 2 ^ o

/-- The bytes of a word that a load of `n` bytes reads. -/
def loadBytes (a n w : Nat) : Nat := bits w (8 * (a % 4) + 8 * n - 1) (8 * (a % 4))

/-- An access to a block behind Lath: sent, and ended by its reply or its third failure (R19, R367). -/
def LaneState.lathAccess (L : LaneState) (m : Master) (a n : Nat) (write : Bool) (w : Nat) : AccRes :=
  if m.id ∈ L.lath.busErr then
    .exc { L with lath := { L.lath with busErr := dropFrom m.id L.lath.busErr } } { v := 5, detail := 1, eaddr := a }
  else if m.id ∈ L.lath.done then
    .ok { L with lath := { L.lath with done := dropFrom m.id L.lath.done } }
      (if write then 0 else loadBytes a n (Sparse.get (0 : Word) L.lath.reply m.id).toNat)
  else .stall (L.lathSend m write (a / 4 * 4) (wordN w))

/-- A load (`st` none) or a store of `n` bytes: ALIGN, BUSERR, the world table, a gated domain, and then the access and
its ECC. An access that breaks the table is not performed and reads 0. -/
def LaneState.coreAccess (L : LaneState) (c : Core) (a n : Nat) (st : Option Nat) (ecc : Ecc) : AccRes :=
  let q := L.coreReq c
  let write := st.isSome
  let v := st.getD 0
  let w := L.laneWord a n v
  let detail := L.busDetail c a write false
  if a % n ≠ 0 then .exc L { v := 4, eaddr := a }
  else if detail ≠ 0 then .exc L { v := 5, detail := detail, eaddr := a }
  else if q.m.id ∈ L.bus.errors then
    .exc { L with bus := { L.bus with errors := dropFrom q.m.id L.bus.errors } } { v := 5, detail := 2, eaddr := a }
  else match L.judge q (a / 4 * 4) write (wordN w) with
    | some k => .ok (L.recordViol q a write k) 0
    | none =>
      if L.gated a then .stall (L.stallOn (accessDomain a) q.m.id)
      else match regionAt a with
        | .block b =>
          if b = 0x0E ∨ b = 0x0F then L.lathAccess q.m a n write w
          else if write then .ok (L.regWrite q (a / 4 * 4) (wordN w)) 0
          else
            let r := L.regRead q (a / 4 * 4)
            .ok r.2 (loadBytes a n r.1.toNat)
        | _ =>
          if write then .ok (L.memStore q a n v) 0
          else if ecc = .bad then .exc ((L.eccAccess a .bad).raiseOwn 0x09) { v := 6, eaddr := a }
          else .ok (L.eccAccess a ecc) (loadBytes a n (L.memWord a).toNat)

/-- SWP: the word is read and written with no grant between (R364, R507). -/
def LaneState.coreSwap (L : LaneState) (c : Core) (a v : Nat) (ecc : Ecc) : AccRes :=
  let q := L.coreReq c
  let detail := L.busDetail c a true true
  if a % 4 ≠ 0 then .exc L { v := 4, eaddr := a }
  else if detail ≠ 0 then .exc L { v := 5, detail := detail, eaddr := a }
  else match L.judge q a true (wordN v) with
    | some k => .ok (L.recordViol q a true k) 0
    | none =>
      if ecc = .bad then .exc ((L.eccAccess a .bad).raiseOwn 0x09) { v := 6, eaddr := a }
      else
        let old := (L.memWord a).toNat
        .ok ((L.eccAccess a ecc).memStore q a 4 v) old

/-- Writes consecutive signals for a core in one transaction; what lies in the own exchange segment is sent over Rope as
one block (R51, R365). -/
def LaneState.coreSignals (L : LaneState) (i : Nat) (ws : List Word) : LaneState :=
  let L := L.setSigs i ws
  let n := ((List.range ws.length).filter (fun k => decide (i + k < 0x10000))).length
  let L := L.mapK (fun C => { C with calWrites := C.calWrites + n })
  let own := (List.range ws.length).filter (fun k => inSeg L.id (i + k))
  match own with
  | [] => L
  | k :: _ => L.publish rankOther (i + k - segBase L.id) ((ws.drop k).take own.length)

/-- SGET and SPUB: one access of consecutive signals; the first signal that breaks a rule is recorded, and the access is
not performed (R365, R366, assumption 84). -/
def LaneState.coreGroup (L : LaneState) (c : Core) (i n : Nat) (ws : Option (List Word)) (ecc : Ecc) : AccRes × List Word :=
  let q := L.coreReq c
  let a := 0x20200000 + 4 * i
  let bad := (List.range n).findSome? (fun k =>
    (L.judge q (a + 4 * k) ws.isSome ((ws.getD []).getD k 0)).map (fun v => (a + 4 * k, v)))
  if 0x40000 < i + n then (.exc L { v := 5, detail := 3, eaddr := a }, [])
  else match bad with
    | some (b, v) => (.ok (L.recordViol q b ws.isSome v) 0, List.replicate n 0)
    | none => match ws with
      | some l => (.ok (L.coreSignals i l) 0, [])
      | none =>
        if ecc = .bad then (.exc ((L.eccAccess a .bad).raiseOwn 0x09) { v := 6, eaddr := a }, [])
        else (.ok (L.eccAccess a ecc) 0, L.sigsFrom i n)

/-! ## The voter (R328 to R341) -/

/-- The code of a category. -/
def MisCat.code : MisCat → Nat
  | .bus => 1
  | .rf => 2
  | .pc => 3
  | .cr => 4
  | .exc => 5
  | .par => 6

/-- The index that a record shows for a category (TRIAD_MIS.idx). -/
def MisCat.idxOf (k : MisCat) (idx : Nat) : Nat :=
  match k with
  | .rf | .cr | .exc => idx
  | _ => 0

/-- The record of a mismatch (R341). -/
def LaneState.misRecord (L : LaneState) (cat odd : Nat) (rs : Bool) (idx pc : Nat) : LaneState :=
  ((L.setReg R.triadMis (wordN (cat + 16 * odd + 64 * b2n rs + 256 * idx))).setReg R.triadMisPc (wordN pc)).setReg
    R.triadMisTime (wordN L.coarse)

/-- TRIAD_3: the cores are frozen, the record is written and copied into the always-on domain, and the Belay excludes the
lane (R338 to R341). -/
def LaneState.triad3 (L : LaneState) (cat odd : Nat) (rs : Bool) (idx pc : Nat) : LaneState :=
  let L := if L.is R.triadStat_mis_evt && L.is R.triadMis_cat then L.count R.triadCnt_ovw else L
  let L := (L.misRecord cat odd rs idx pc).flag R.triadStat_triad3
  let L := ((L.setReg R.triadLastMis (L.reg R.triadMis)).setReg R.triadLastPc (L.reg R.triadMisPc)).setReg
    R.triadLastTime (L.reg R.triadMisTime)
  let L := { L with triad := { L.triad with stuck := true, rsStep := 0 } }
  (L.raiseOwn 0x07).selfExclude 0x07

/-- One core is odd: recorded, TRIAD_1 raised, and its resynchronisation begins (R328, R333). -/
def LaneState.oddCore (L : LaneState) (k : Nat) (cat : MisCat) (idx pc : Nat) : LaneState :=
  let first := !L.is R.triadStat_mis_evt && !L.is R.triadStat_triad3
  let L := if first then L.misRecord cat.code k false (cat.idxOf idx) pc else L
  let L := (L.flag R.triadStat_mis_evt).flagIf (cat == .par) R.triadStat_par
  let L := (L.setF R.triadStat_resync true).put R.triadStat_odd k
  let T := L.triad
  { L with triad := { T with rsStep := 1, rsAt := L.coarse, history := T.history ++ [(k, L.coarse)] } }.raiseOwn 0x08

/-- How often a core has been odd within the window of TRIAD_CFG (R337). -/
def LaneState.oddCount (L : LaneState) (k : Nat) : Nat :=
  (L.triad.history.filter (fun p => p.1 == k &&
    decide (L.coarse < p.2 + 200000 * atLeast1 (L.get R.triadCfg_rs_window)))).length

/-- The verdict on an item of the triad in lock-step, at the retire address `pc`; `after` is the lane where the item
takes effect. During a resynchronisation the pair is compared: any difference is unresolvable (R336). -/
def LaneState.judged (L : LaneState) (c : Core) (v : Verdict) (pc : Nat) (after : LaneState) : LaneState :=
  let rs := L.triad.rsStep != 0
  if c != .tc0 || !L.voting then after
  else match v with
    | .agree => after
    | .odd k cat idx =>
      if rs then
        if k.val = L.get R.triadStat_odd then after
        else (L.flagIf (cat == .par) R.triadStat_par).triad3 cat.code 3 true (cat.idxOf idx.toNat) pc
      else if L.get R.triadCfg_rs_limit ≤ L.oddCount k then
        ((L.triad3 10 k false 0 pc).flag R.triadStat_mis_evt).flagIf (cat == .par) R.triadStat_par
      else after.oddCore k cat idx.toNat pc
    | .noMajority cat idx => (L.flagIf (cat == .par) R.triadStat_par).triad3 cat.code 3 rs (cat.idxOf idx.toNat) pc
    | .compare named => L.triad3 8 named rs 0 pc

/-! ## Debug (R342, R347, R533) -/

/-- Whether debug operations are open: in the life-cycle states that allow them, after DBG_OPEN, or in break mode. -/
def LaneState.debugAllowed (L : LaneState) : Bool :=
  L.get R.lcsState_lc ≤ 1 || L.lcs.debugOpen || L.breakMode

/-- A halt of the triad: the three cores at one boundary; TC_0 alone in split and break mode. -/
def LaneState.debugHalt (L : LaneState) : LaneState :=
  let cores := if L.voting then [0, 1, 2] else [0]
  { L.setF R.triadStat_dbg_halt true with triad := { L.triad with halted := cores, stepping := false } }

/-! ## Issue (R357, R368, R375) -/

/-- What an instruction does: it retires after a wait, transfers control, raises an exception, or stalls. -/
inductive CoreRes where
  | next (L : LaneState) (wait : Nat)
  | jump (L : LaneState) (pc : Nat)
  | exc (L : LaneState) (x : Exc) (toS : Bool)
  | stall (L : LaneState)

/-- What an instruction leaves, from its result; `cost` is its base cost. -/
def CoreRes.finish (c : Core) (pc cost : Nat) : CoreRes → LaneState
  | .next L wait => L.coreAt c (pc + 4) (cost + wait)
  | .jump L t => L.coreAt c t cost
  | .exc L x toS => L.coreExc c x toS
  | .stall L => L

/-- Issues a core's next instruction, if it is `op`: the fetch and its faults, an illegal word, the predicate, and then
its effect `f`, judged by the voter. -/
def LaneState.coreIssue (L : LaneState) (i : Issue) (op : CoreOp) (f : Nat → CoreSt → LaneState → CoreRes) : LaneState :=
  let c := i.core
  if !L.coreRuns c then L
  else
    let C := L.core c
    let pc := C.pc.toNat
    let w := (L.word pc).toNat
    let fetched := L.coreFetch c i.fetchEcc
    let M := fetched.2
    let judge (after : LaneState) : LaneState := L.judged c i.vote pc after
    if fetched.1 ≠ 0 then judge (M.coreExc c { v := fetched.1, eaddr := pc })
    else match coreOp w with
      | none =>
        if C.squashes w then judge (M.coreAt c (pc + 4) (Config.openCost pc)) else judge (M.coreExc c (excAt 1 pc))
      | some o =>
        if o ≠ op then L
        else if C.squashes w then judge (M.coreAt c (pc + 4) (M.baseCost c op w))
        else if c == .svc && op.svcLacks then judge (M.coreExc c (excAt 1 pc))
        else match f w C M with
          | .stall N => N
          | r => judge (r.finish c pc (M.baseCost c op w))

/-- A command that issues an instruction on a lane. -/
def coreRow (l : Lane) (i : Issue) (op : CoreOp) (s : State) (f : Nat → CoreSt → LaneState → CoreRes) : Out :=
  onLane s l (fun L => L.coreIssue i op f)

end Sys2Proof.Machine
end

