-- ==== Sys2Proof/Machine/Boundary.lean ====
section
/-! DEFINITION. The servo-period boundary and the field-tick boundary: what begins, ends or is counted there (R43). Lane
time advances to the boundary. -/

namespace Sys2Proof.Machine

/-- The boundary at which lane time stands or that comes next, in coarse ticks, for a length of `q` coarse ticks. -/
def LaneState.boundaryAt (L : LaneState) (q : Nat) (last : Option Nat) : Nat :=
  if q = 0 then L.coarse
  else if L.time.now.toNat % (64 * q) = 0 ∧ last ≠ some L.coarse then L.coarse
  else (L.coarse / q + 1) * q

/-- Lane time, and the always-on timer with it, advance to an instant in coarse ticks. -/
def LaneState.advanceTo (L : LaneState) (t : Nat) : LaneState :=
  let L := { L with aon := { L.aon with now := L.aon.now + (t - L.coarse) } }
  L.setNow (64 * t)

/-- The line of the servo-period boundary in every core of the triad (IPEND bit 30). -/
def LaneState.tickLine (L : LaneState) : LaneState :=
  [Core.tc0, .tc1, .tc2].foldl (fun (M : LaneState) c =>
    M.mapCore c (fun C => C.setCr crIpend (C.crw crIpend ||| 0x40000000))) L

/-- What lane time and the links do at a period boundary: the correction comes into force, a lane in SYNC may step, held
offsets age, the links count their error-free periods, and SYNC sends the lane's parameters (R31, R33, R38, R40, R44,
R276, R322, R352). -/
def LaneState.timePeriod (L : LaneState) : LaneState :=
  let age (h : Option (Int × Nat)) : Option (Int × Nat) := h.map (fun p => (p.1, p.2 + 1))
  let run := if L.belay == bsSync && L.is R.sysAlignStat_aligned then L.time.syncRun + 1 else 0
  let L := { L with time := { L.time with
    slew := L.time.nextSlew, heldAB := age L.time.heldAB, heldBC := age L.time.heldBC, heldCA := age L.time.heldCA
    syncRun := run } }
  let L := ((L.syncStep).mapLink .l0 LinkSt.endPeriod).mapLink .l1 LinkSt.endPeriod
  if L.belay == bsSync then
    L.queueMsg rankOther (.tickParam (L.reg R.sysTick) (wordN L.basicCycle) L.ident.1 L.ident.2
      (L.is R.triadStat_split))
  else L

/-- What an axis begins anew at a period boundary: AXP_PNUM, the results and records of the period (R74, R79, R213). -/
def LaneState.axisPeriod (L : LaneState) (n : Nat) : LaneState :=
  (L.setReg (R.axpPnum n) (wordN L.pnum)).mapAx n (fun A => { A with ownDone := false, medDone := false, took := [] })

/-- What Skim and the loop engines count at a period boundary: the periods of enabled jobs, and the chained loops
(R53, R190). -/
def LaneState.jobsPeriod (L : LaneState) : LaneState :=
  let since := (List.range 16).foldl (fun (m : NMap) j => if L.is (R.skimJobCfg_en j) then m.inc j else m) L.skim.since
  let L := { L with skim := { L.skim with since := since } }
  (L.mapLe 0 (fun E => { E with chained := [] })).mapLe 1 (fun E => { E with chained := [] })

/-- Whether a driving lane of the module, as a lane sees it, reports a configuration mismatch (assumption 52). -/
def State.pairMismatch (s : State) (l : Lane) : Bool :=
  (s.lane l).drivingLanes.any (fun y => (s.lane y).is R.tetherStat_cfg_mismatch)

/-- A servo-period boundary. -/
def LaneState.periodBoundary (L : LaneState) (mism : Bool) : LaneState :=
  let t := L.boundaryAt L.tServo L.time.lastPeriod
  let L := L.advanceTo t
  let L := { L with time := { L.time with lastPeriod := some t } }
  let L := L.timePeriod
  let L := L.forAxes (fun n M => M.axisPeriod n)
  let L := (L.jobsPeriod.edgePeriod.belayPeriod.tetherPeriod mism).siuPeriod
  L.showLockouts.tickLine

def execPeriodBoundary (l : Lane) (s : State) : Out :=
  let mism := s.pairMismatch l
  onLane s l (fun L => L.when (L.pwr.bootStep == 4) (fun L => L.periodBoundary mism))

/-- What an axis does at a tick boundary: counter C is held, the sequence of the last tick ends in its last vector, and
T_avail is updated (R100, R152, R157). -/
def LaneState.axisTick (L : LaneState) (n : Nat) : LaneState :=
  let L := L.mapFb n (fun F => { F with cSample := F.c })
  let L := L.mapFl n (fun X => { X with
    vec := ((X.seq.bind (fun q => q.getLast?)).map (fun p => p.2)).getD X.vec, seq := none })
  if L.axis n != axOff && participates L.belay then L.setSig (axisSig n 0x33) (wordI (L.availTorque n)) else L

/-- A field-tick boundary: the axes, EDGE, and the tick marker to the bridge die, which needs the edge-timing clock and
the Lath link (R240). -/
def LaneState.tickBoundary (L : LaneState) : LaneState :=
  let t := L.boundaryAt L.tTick L.time.lastTick
  let L := L.advanceTo t
  let L := { L with time := { L.time with lastTick := some t } }
  let L := L.forAxes (fun n M => M.axisTick n)
  let L := L.edgeTick
  if L.edge.forcedLow || L.bridge.lathDown then L else L.tickMarker

def execFieldTickBoundary (l : Lane) (s : State) : Out :=
  onLane s l (fun L => L.when (L.pwr.bootStep == 4) (fun L => L.tickBoundary))

end Sys2Proof.Machine
end

