-- ==== Sys2Proof/Machine/CoreIsa.lean ====
section
/-! DEFINITION. The instructions of the lane cores, one meaning each (chapter 11, R353 to R381). A command issues the
core's next instruction; it takes effect where the fetched word is of that instruction, whose fields are its operands
(assumption 82). -/

namespace Sys2Proof.Machine

/-- An instruction that writes gd from ga, gb and the old gd. -/
def coreAlu (l : Lane) (i : Issue) (op : CoreOp) (s : State) (f : Word → Word → Word → Word) : Out :=
  coreRow l i op s (fun w C L =>
    .next (L.mapCore i.core (fun K => K.setG (fD w) (f (C.gr (fA w)) (C.gr (fB w)) (C.gr (fD w))))) 0)

/-- An instruction that writes gd from ga and its word. -/
def coreImm (l : Lane) (i : Issue) (op : CoreOp) (s : State) (f : Word → Nat → Word) : Out :=
  coreRow l i op s (fun w C L => .next (L.mapCore i.core (fun K => K.setG (fD w) (f (C.gr (fA w)) w))) 0)

/-- A shift count: the low five bits. -/
def shamt (b : Word) : Nat := b.toNat % 32

/-- The count of leading zeros. -/
def clz32 (a : Word) : Nat := ((List.range 32).takeWhile (fun k => !a.getLsbD (31 - k))).length

/-- A Q1.31 value saturated (R360). -/
def sat31 (x : Int) : Word := wordI (satS 32 x)

/-! ## ALU (R359) -/

def execAdd (l : Lane) (i : Issue) (s : State) : Out :=
  coreAlu l i .add s (fun a b _ => a + b)

def execSub (l : Lane) (i : Issue) (s : State) : Out :=
  coreAlu l i .sub s (fun a b _ => a - b)

def execAnd (l : Lane) (i : Issue) (s : State) : Out :=
  coreAlu l i .and s (fun a b _ => a &&& b)

def execOr (l : Lane) (i : Issue) (s : State) : Out :=
  coreAlu l i .or s (fun a b _ => a ||| b)

def execXor (l : Lane) (i : Issue) (s : State) : Out :=
  coreAlu l i .xor s (fun a b _ => a ^^^ b)

def execAndn (l : Lane) (i : Issue) (s : State) : Out :=
  coreAlu l i .andn s (fun a b _ => a &&& ~~~b)

def execShl (l : Lane) (i : Issue) (s : State) : Out :=
  coreAlu l i .shl s (fun a b _ => a <<< shamt b)

def execShr (l : Lane) (i : Issue) (s : State) : Out :=
  coreAlu l i .shr s (fun a b _ => a >>> shamt b)

def execSar (l : Lane) (i : Issue) (s : State) : Out :=
  coreAlu l i .sar s (fun a b _ => a.sshiftRight (shamt b))

def execMin (l : Lane) (i : Issue) (s : State) : Out :=
  coreAlu l i .min s (fun a b _ => if a.toInt ≤ b.toInt then a else b)

def execMax (l : Lane) (i : Issue) (s : State) : Out :=
  coreAlu l i .max s (fun a b _ => if a.toInt ≤ b.toInt then b else a)

def execMinu (l : Lane) (i : Issue) (s : State) : Out :=
  coreAlu l i .minu s (fun a b _ => if a.toNat ≤ b.toNat then a else b)

def execMaxu (l : Lane) (i : Issue) (s : State) : Out :=
  coreAlu l i .maxu s (fun a b _ => if a.toNat ≤ b.toNat then b else a)

def execClz (l : Lane) (i : Issue) (s : State) : Out :=
  coreAlu l i .clz s (fun a _ _ => wordN (clz32 a))

def execSextb (l : Lane) (i : Issue) (s : State) : Out :=
  coreAlu l i .sextb s (fun a _ _ => wordI (sext 8 a.toNat))

def execSexth (l : Lane) (i : Issue) (s : State) : Out :=
  coreAlu l i .sexth s (fun a _ _ => wordI (sext 16 a.toNat))

/-! ## MUL (R359, R360) -/

def execMul (l : Lane) (i : Issue) (s : State) : Out :=
  coreAlu l i .mul s (fun a b _ => a * b)

def execMulh (l : Lane) (i : Issue) (s : State) : Out :=
  coreAlu l i .mulh s (fun a b _ => wordI (a.toInt * b.toInt / 2 ^ 32))

def execMulhu (l : Lane) (i : Issue) (s : State) : Out :=
  coreAlu l i .mulhu s (fun a b _ => wordN (a.toNat * b.toNat / 2 ^ 32))

/-- The quotient truncated toward zero; by 0 it is all ones, and 0x8000_0000 by −1 wraps to itself. -/
def execDiv (l : Lane) (i : Issue) (s : State) : Out :=
  coreAlu l i .div s (fun a b _ => if b = 0 then 0xFFFFFFFF else wordI (a.toInt.tdiv b.toInt))

def execDivu (l : Lane) (i : Issue) (s : State) : Out :=
  coreAlu l i .divu s (fun a b _ => if b = 0 then 0xFFFFFFFF else wordN (a.toNat / b.toNat))

/-- The remainder with the sign of ga; by 0 it is ga. -/
def execRem (l : Lane) (i : Issue) (s : State) : Out :=
  coreAlu l i .rem s (fun a b _ => if b = 0 then a else wordI (a.toInt.tmod b.toInt))

def execRemu (l : Lane) (i : Issue) (s : State) : Out :=
  coreAlu l i .remu s (fun a b _ => if b = 0 then a else wordN (a.toNat % b.toNat))

/-! ## FIX (R359, R360) -/

def execAdds (l : Lane) (i : Issue) (s : State) : Out :=
  coreAlu l i .adds s (fun a b _ => sat31 (a.toInt + b.toInt))

def execSubs (l : Lane) (i : Issue) (s : State) : Out :=
  coreAlu l i .subs s (fun a b _ => sat31 (a.toInt - b.toInt))

def execNegs (l : Lane) (i : Issue) (s : State) : Out :=
  coreAlu l i .negs s (fun a _ _ => sat31 (-a.toInt))

def execAbss (l : Lane) (i : Issue) (s : State) : Out :=
  coreAlu l i .abss s (fun a _ _ => sat31 a.toInt.natAbs)

def execMulq (l : Lane) (i : Issue) (s : State) : Out :=
  coreAlu l i .mulq s (fun a b _ => sat31 ((a.toInt * b.toInt + 2 ^ 30) / 2 ^ 31))

def execShls (l : Lane) (i : Issue) (s : State) : Out :=
  coreAlu l i .shls s (fun a b _ => sat31 (a.toInt * 2 ^ shamt b))

def execClmp (l : Lane) (i : Issue) (s : State) : Out :=
  coreAlu l i .clmp s (fun a b d => if b.toInt < a.toInt then a else wordI (min (max d.toInt a.toInt) b.toInt))

def execRndh (l : Lane) (i : Issue) (s : State) : Out :=
  coreAlu l i .rndh s (fun a _ _ => wordI (satS 16 ((a.toInt + 2 ^ 15) / 2 ^ 16)))

/-! ## Compares and predicate logic (R358, R361) -/

/-- The condition of a compare. -/
def condHolds (cond : Nat) (a b : Word) : Bool :=
  match cond with
  | 0 => a == b
  | 1 => a != b
  | 2 => decide (a.toInt < b.toInt)
  | 3 => decide (b.toInt ≤ a.toInt)
  | 4 => decide (a.toNat < b.toNat)
  | 5 => decide (b.toNat ≤ a.toNat)
  | 6 => a &&& b != 0
  | _ => a &&& b == 0

/-- What a compare writes to its predicate, by comb. -/
def combinePred (comb : Nat) (p c : Bool) : Bool :=
  match comb with
  | 0 => c
  | 1 => p && c
  | 2 => p || c
  | _ => !c

/-- A compare of ga with an operand writes p[d[2:0]] under comb = d[4:3]. -/
def coreCmp (l : Lane) (i : Issue) (op : CoreOp) (s : State) (cond : Nat → Nat) (b : CoreSt → Nat → Word) : Out :=
  coreRow l i op s (fun w C L =>
    let pd := fD w % 8
    let r := combinePred (fD w / 8) (C.pr pd) (condHolds (cond w) (C.gr (fA w)) (b C w))
    .next (L.mapCore i.core (fun K => K.setP pd r)) 0)

def execCmp (l : Lane) (i : Issue) (s : State) : Out :=
  coreCmp l i .cmp s (fun w => bits w 2 0) (fun C w => C.gr (fB w))

def execCmpi (l : Lane) (i : Issue) (s : State) : Out :=
  coreCmp l i .cmpi s (fun w => bits w 12 10) (fun _ w => wordI (sext 10 w))

/-- An operation on predicates. -/
def corePlog (l : Lane) (i : Issue) (op : CoreOp) (s : State) (f : Bool → Bool → Bool) : Out :=
  coreRow l i op s (fun w C L =>
    .next (L.mapCore i.core (fun K => K.setP (fD w % 8) (f (C.pr (fA w % 8)) (C.pr (fB w % 8))))) 0)

def execPand (l : Lane) (i : Issue) (s : State) : Out :=
  corePlog l i .pand s (fun a b => a && b)

def execPor (l : Lane) (i : Issue) (s : State) : Out :=
  corePlog l i .por s (fun a b => a || b)

def execPxor (l : Lane) (i : Issue) (s : State) : Out :=
  corePlog l i .pxor s (fun a b => a != b)

def execPandn (l : Lane) (i : Issue) (s : State) : Out :=
  corePlog l i .pandn s (fun a b => a && !b)

/-! ## Immediates (R358, R362) -/

/-- imm13 sign-extended and zero-extended. -/
def sImm13 (w : Nat) : Word := wordI (sext 13 (fImm13 w))
def zImm13 (w : Nat) : Word := wordN (fImm13 w)

def execAddi (l : Lane) (i : Issue) (s : State) : Out :=
  coreImm l i .addi s (fun a w => a + sImm13 w)

def execAndi (l : Lane) (i : Issue) (s : State) : Out :=
  coreImm l i .andi s (fun a w => a &&& zImm13 w)

def execOri (l : Lane) (i : Issue) (s : State) : Out :=
  coreImm l i .ori s (fun a w => a ||| zImm13 w)

def execXori (l : Lane) (i : Issue) (s : State) : Out :=
  coreImm l i .xori s (fun a w => a ^^^ zImm13 w)

def execShiShl (l : Lane) (i : Issue) (s : State) : Out :=
  coreImm l i .shiShl s (fun a w => a <<< bits w 4 0)

def execShiShr (l : Lane) (i : Issue) (s : State) : Out :=
  coreImm l i .shiShr s (fun a w => a >>> bits w 4 0)

def execShiSar (l : Lane) (i : Issue) (s : State) : Out :=
  coreImm l i .shiSar s (fun a w => a.sshiftRight (bits w 4 0))

def execShiShls (l : Lane) (i : Issue) (s : State) : Out :=
  coreImm l i .shiShls s (fun a w => sat31 (a.toInt * 2 ^ bits w 4 0))

def execMovi (l : Lane) (i : Issue) (s : State) : Out :=
  coreImm l i .movi s (fun _ w => wordI (sext 18 (fImm18 w)))

/-- LUI writes gd[31:14] and keeps gd[13:0]. -/
def execLui (l : Lane) (i : Issue) (s : State) : Out :=
  coreRow l i .lui s (fun w C L =>
    .next (L.mapCore i.core (fun K => K.setG (fD w) (wordN (setBits (C.gr (fD w)).toNat 31 14 (fImm18 w))))) 0)

/-! ## Loads and stores (R363, R366, R367) -/

/-- A load of `n` bytes into gd through an extension. -/
def coreLoad (l : Lane) (i : Issue) (op : CoreOp) (n : Nat) (ext : Nat → Word) (s : State) : Out :=
  coreRow l i op s (fun w C L =>
    let a := C.memAddr op w
    match L.coreAccess i.core a n none i.dataEcc with
    | .ok M v => .next (M.mapCore i.core (fun K => K.setG (fD w) (ext v))) (M.waitOf i.core op a 1 i.wait.toNat)
    | .exc M x => .exc M x false
    | .stall M => .stall M)

/-- A store of the low `n` bytes of gd. -/
def coreStore (l : Lane) (i : Issue) (op : CoreOp) (n : Nat) (s : State) : Out :=
  coreRow l i op s (fun w C L =>
    let a := C.memAddr op w
    match L.coreAccess i.core a n (some ((C.gr (fD w)).toNat % 2 ^ (8 * n))) .ok with
    | .ok M _ => .next M (M.waitOf i.core op a 1 i.wait.toNat)
    | .exc M x => .exc M x false
    | .stall M => .stall M)

def execLdw (l : Lane) (i : Issue) (s : State) : Out := coreLoad l i .ldw 4 wordN s

def execLdh (l : Lane) (i : Issue) (s : State) : Out := coreLoad l i .ldh 2 (fun v => wordI (sext 16 v)) s

def execLdhu (l : Lane) (i : Issue) (s : State) : Out := coreLoad l i .ldhu 2 wordN s

def execLdb (l : Lane) (i : Issue) (s : State) : Out := coreLoad l i .ldb 1 (fun v => wordI (sext 8 v)) s

def execLdbu (l : Lane) (i : Issue) (s : State) : Out := coreLoad l i .ldbu 1 wordN s

def execStw (l : Lane) (i : Issue) (s : State) : Out := coreStore l i .stw 4 s

def execSth (l : Lane) (i : Issue) (s : State) : Out := coreStore l i .sth 2 s

def execStb (l : Lane) (i : Issue) (s : State) : Out := coreStore l i .stb 1 s

/-- SWP: gd takes the word at ga, which becomes gb, atomically (R364). -/
def execSwp (l : Lane) (i : Issue) (s : State) : Out :=
  coreRow l i .swp s (fun w C L =>
    let a := C.memAddr .swp w
    match L.coreSwap i.core a (C.gr (fB w)).toNat i.dataEcc with
    | .ok M v => .next (M.mapCore i.core (fun K => K.setG (fD w) (wordN v))) (M.waitOf i.core .swp a 1 i.wait.toNat)
    | .exc M x => .exc M x false
    | .stall M => .stall M)

/-- SLD loads the signal of its 18-bit ID. -/
def execSld (l : Lane) (i : Issue) (s : State) : Out := coreLoad l i .sld 4 wordN s

/-- SST stores a signal; a write that R49 and R50 refuse completes with its normal cost. -/
def execSst (l : Lane) (i : Issue) (s : State) : Out := coreStore l i .sst 4 s

/-- SGET loads n = 1 to 8 consecutive signals into gd to gd + n − 1 (R365). -/
def execSget (l : Lane) (i : Issue) (s : State) : Out :=
  coreRow l i .sget s (fun w C L =>
    let n := bits w 3 0 + 1
    let id := bits (C.gr (fA w)).toNat 17 0
    if 8 < n ∨ 32 < fD w + n then .exc L (excAt 1 C.pc.toNat) false
    else match L.coreGroup i.core id n none i.dataEcc with
      | (.ok M _, ws) => .next (M.mapCore i.core (fun K => K.setGs (fD w) ws))
          (M.waitOf i.core .sget (0x20200000 + 4 * id) n i.wait.toNat)
      | (.exc M x, _) => .exc M x false
      | (.stall M, _) => .stall M)

/-- SPUB stores gb to gb + n − 1 into n consecutive signals (R365). -/
def execSpub (l : Lane) (i : Issue) (s : State) : Out :=
  coreRow l i .spub s (fun w C L =>
    let n := bits w 3 0 + 1
    let id := bits (C.gr (fA w)).toNat 17 0
    if 8 < n ∨ 32 < fB w + n then .exc L (excAt 1 C.pc.toNat) false
    else match L.coreGroup i.core id n (some (C.grs (fB w) n)) .ok with
      | (.ok M _, _) => .next M (M.waitOf i.core .spub (0x20200000 + 4 * id) n i.wait.toNat)
      | (.exc M x, _) => .exc M x false
      | (.stall M, _) => .stall M)

/-! ## Transfers (R358) -/

/-- The target of a relative transfer: the address of the instruction itself plus 4 × imm23. -/
def relTarget (C : CoreSt) (w : Nat) : Nat := wrapTo 32 (C.pc.toNat + 4 * sext 23 (bits w 22 0))

/-- The target of a register transfer; bits [1:0] are ignored. -/
def regTarget (C : CoreSt) (w : Nat) : Nat := (C.gr (fA w)).toNat / 4 * 4

/-- The return address of a call. -/
def linkOf (C : CoreSt) : Word := C.pc + 4

def execBr (l : Lane) (i : Issue) (s : State) : Out :=
  coreRow l i .br s (fun w C L => .jump L (relTarget C w))

def execCall (l : Lane) (i : Issue) (s : State) : Out :=
  coreRow l i .call s (fun w C L => .jump (L.mapCore i.core (fun K => K.setG 31 (linkOf C))) (relTarget C w))

def execJr (l : Lane) (i : Issue) (s : State) : Out :=
  coreRow l i .jr s (fun w C L => .jump L (regTarget C w))

def execJalr (l : Lane) (i : Issue) (s : State) : Out :=
  coreRow l i .jalr s (fun w C L => .jump (L.mapCore i.core (fun K => K.setG (fD w) (linkOf C))) (regTarget C w))

/-! ## Control registers (R354, R379, R380) -/

/-- The control registers. -/
def crListed (n : Nat) : Bool := decide (n ≤ 0x010)

/-- CID: core, split, svc and lane. -/
def LaneState.cid (L : LaneState) (c : Core) : Nat :=
  (if L.split && c != .svc then c.num else 3) + 4 * b2n (L.split && c != .svc) + 8 * b2n (c == .svc) +
    16 * L.get R.sysId_lane

/-- The bits of a control register that CRW, CRS and CRC may change in a world; RWS fields only in the secure one. -/
def crMask (C : CoreSt) (c : Core) (n : Nat) (secure : Bool) : Word :=
  if n = crStatus then (if c == .svc then 0xF1C else if secure then 0xF1F else 0x515)
  else if n = crEpc then 0xFFFFFFFC
  else if n = crEcause then 0x03FFFFFF
  else if n = crVbaseN then 0xFFFFF800
  else if n = crVbaseS then (if secure then 0xFFFFF800 else 0)
  else if n = crImask then (if secure then 0xFFFFFFFF else ~~~(C.crw crIworld))
  else if n = crIworld then (if secure then 0xFFFFFFFF else 0)
  else if n = crPmode then (if secure then 3 else 0)
  else if n = crPred ∨ n = crEsave then 0xFE
  else if n = crEaddr ∨ n = crScr0 ∨ n = crScr1 then 0xFFFFFFFF
  else 0

/-- What a control register reads in a world: RWS fields read 0 in the non-secure one. -/
def LaneState.crRead (L : LaneState) (c : Core) (n : Nat) (secure : Bool) : Word :=
  let C := L.core c
  let w := C.crw n
  if n = crCid then wordN (L.cid c)
  else if n = crIpend then wordN (L.ipend c)
  else if n = crCycleLo then wordN C.cycles
  else if n = crCycleHi then C.cycHi
  else if secure then w
  else if n = crStatus then w &&& 0x515
  else if n = crVbaseS ∨ n = crIworld then 0
  else if n = crImask then w &&& ~~~(C.crw crIworld)
  else if n = crPmode then w &&& 0x100
  else w

/-- A read of CYCLE_LO captures the upper half for the next read of CYCLE_HI. -/
def LaneState.crCapture (L : LaneState) (c : Core) (n : Nat) : LaneState :=
  if n = crCycleLo then L.mapCore c (fun C => { C with cycHi := wordN (C.cycles / 2 ^ 32) }) else L

/-- Writes the RW and RWS bits of a control register. -/
def LaneState.crWrite (L : LaneState) (c : Core) (n : Nat) (secure : Bool) (w : Word) : LaneState :=
  L.mapCore c (fun C =>
    let m := crMask C c n secure
    C.setCr n ((C.crw n &&& ~~~m) ||| (w &&& m)))

/-- CRS of IPEND sets soft; CRC clears the W1C fields: tick and soft of IPEND, refused of PMODE. -/
def LaneState.crFlags (L : LaneState) (c : Core) (n : Nat) (set : Bool) (w : Word) : LaneState :=
  if n = crIpend then
    if c == .svc then
      let P := L.pwr
      if set then (if w.getLsbD 31 then { L with pwr := { P with svcLines := addTo 31 P.svcLines } } else L)
      else { L with pwr := { P with svcLines := P.svcLines.filter (fun k => !(decide (30 ≤ k) && w.getLsbD k)) } }
    else L.mapCore c (fun C =>
      if set then C.setCr n (C.crw n ||| (w &&& 0x80000000)) else C.setCr n (C.crw n &&& ~~~(w &&& 0xC0000000)))
  else if n = crPmode ∧ !set then L.mapCore c (fun C => C.setCr n (C.crw n &&& ~~~(w &&& 0x100)))
  else L

/-- A control-register instruction: an unlisted number is ILLEGAL; an unprivileged context may only read CID, PRED and
CYCLE; gd takes the old value. -/
def coreCr (l : Lane) (i : Issue) (op : CoreOp) (s : State)
    (f : LaneState → Nat → Bool → Word → Word → LaneState) : Out :=
  coreRow l i op s (fun w C L =>
    let n := bits w 10 0
    let open_ := op == .crr && (n == crCid || n == crPred || n == crCycleLo || n == crCycleHi)
    if !crListed n then .exc L (excAt 1 C.pc.toNat) false
    else if !C.priv && !open_ then .exc L (excAt 2 C.pc.toNat) false
    else
      let old := L.crRead i.core n C.secure
      let M := f (L.crCapture i.core n) n C.secure old (C.gr (fA w))
      .next (M.mapCore i.core (fun K => K.setG (fD w) old)) 0)

def execCrr (l : Lane) (i : Issue) (s : State) : Out :=
  coreCr l i .crr s (fun L _ _ _ _ => L)

def execCrw (l : Lane) (i : Issue) (s : State) : Out :=
  coreCr l i .crw s (fun L n sec _ a => L.crWrite i.core n sec a)

def execCrs (l : Lane) (i : Issue) (s : State) : Out :=
  coreCr l i .crs s (fun L n sec old a => (L.crWrite i.core n sec (old ||| a)).crFlags i.core n true a)

def execCrc (l : Lane) (i : Issue) (s : State) : Out :=
  coreCr l i .crc s (fun L n sec old a => (L.crWrite i.core n sec (old &&& ~~~a)).crFlags i.core n false a)

/-! ## System instructions (R371 to R375) -/

/-- The code of TRAP and SCALL. -/
def sysCode (w : Nat) : Nat := bits w 17 8

def execTrap (l : Lane) (i : Issue) (s : State) : Out :=
  coreRow l i .trap s (fun w C L => .exc L { v := 8, code := sysCode w, eaddr := C.pc.toNat, next := true } false)

def execScall (l : Lane) (i : Issue) (s : State) : Out :=
  coreRow l i .scall s (fun w C L => .exc L { v := 9, code := sysCode w, eaddr := C.pc.toNat, next := true } true)

/-- What ERET restores: priv, world, ie_n and ie_s, the predicates; exc clears. A return from the non-secure into the
secure world stays in the non-secure privileged context (R373). -/
def CoreSt.restored (C : CoreSt) (c : Core) : CoreSt :=
  let st := (C.crw crStatus).toNat
  let low := bits st 11 8
  let low := if c == .svc then setBits low 1 0 3 else if !C.secure && bit st 9 then setBits low 1 0 1 else low
  let C := C.setCr crStatus (wordN (setBits (setBits st 3 0 low) 4 4 0))
  C.setCr crPred (C.crw crEsave)

def execEret (l : Lane) (i : Issue) (s : State) : Out :=
  coreRow l i .eret s (fun _ C L =>
    let st := (C.crw crStatus).toNat
    let M := L.mapCore i.core (fun K => K.restored i.core)
    if !C.priv then .exc L (excAt 2 C.pc.toNat) false
    else if i.core != .svc && !C.secure && bit st 9 then .exc M (excAt 2 C.pc.toNat) false
    else .jump M (C.crw crEpc).toNat)

/-- BKPT: with a debugger attached the core halts before it goes on (R342, assumption 86); else the exception. -/
def execBkpt (l : Lane) (i : Issue) (dbg : Bool) (s : State) : Out :=
  coreRow l i .bkpt s (fun _ C L =>
    if dbg && L.debugAllowed && i.core == .tc0 then .next L.debugHalt 0
    else .exc L { v := 10, eaddr := C.pc.toNat } false)

/-! ## PARK (R377, R378) -/

/-- The mode in which a PARK parks, and whether a mode was refused. -/
def LaneState.parkMode (L : LaneState) (c : Core) : Nat × Bool :=
  let C := L.core c
  let m := bits (C.crw crPmode).toNat 1 0
  if c == .svc || !C.secure then (0, false)
  else if m = 2 && !L.allOff then (0, true)
  else if m = 3 && !L.is R.pwrSleep_armed then (0, true)
  else (m, false)

/-- PARK parks the core in its mode; with a qualifying line it retires at once, and a sleep entry that it would have
begun is recorded as aborted. -/
def execPark (l : Lane) (i : Issue) (s : State) : Out :=
  coreRow l i .park s (fun _ C L =>
    let c := i.core
    let mode := L.parkMode c
    let L' := if mode.2 then L.mapCore c (fun K => K.putCr crPmode 8 8 1) else L
    if !C.priv then .exc L (excAt 2 C.pc.toNat) false
    else if L.qualifying c ≠ 0 then
      if mode.1 = 3 then
        .next (((L.flag R.pwrStat_sleep_aborted).setF R.pwrSleep_armed false).sleepAnswer 3 L.aon.sleepCnt) 0
      else .next L' 0
    else
      let M := L'.mapCore c (fun K => { K with parked := true })
      .next (if c == .svc then M else (M.parkPower mode.1).svcLine 30) 0)

/-- A qualifying line ends a park: execution goes on at the next instruction, and the lane returns to RUN. A SLEEP that is
entered does not retire. `cycles` is the parked time. -/
def execParkWake (l : Lane) (c : Core) (cycles : BitVec 64) (s : State) : Out :=
  onLane s l (fun L =>
    let sleep := c != .svc && (L.pwr.sleepStep != 0 || L.pwr.bootStep != 4 || L.triad.rsStep == 5)
    L.when ((L.core c).parked && L.qualifying c != 0 && !sleep) (fun L =>
      let L := L.mapCore c (fun C => { C with parked := false, cycles := C.cycles + cycles.toNat })
      if c == .svc then L else L.put R.pwrState_state 0))

/-- The lowest line that may be taken is taken at an instruction boundary: vector 16 + i, EPC the next instruction. The
SVC's event is consumed (R374, R375, assumption 57). -/
def execInterruptEntry (l : Lane) (c : Core) (v : Verdict) (s : State) : Out :=
  onLane s l (fun L =>
    match L.takeable c with
    | none => L
    | some i =>
      let C := L.core c
      L.when (L.coreRuns c && !L.triad.stepping) (fun L =>
        let M := L.coreExc c { v := 16 + i } (C.crBit crIworld i)
        let M := if c == .svc then { M with pwr := { M.pwr with svcLines := dropFrom i M.pwr.svcLines } } else M
        L.judged c v C.pc.toNat M))

end Sys2Proof.Machine
end

