-- ==== Sys2Proof/Machine/Receive.lean ====
section
/-! DEFINITION. Signal blocks that arrive over Rope: share records, Belay records, SIU records and other blocks (R51, R79,
R277, R460, R571). -/

namespace Sys2Proof.Machine

/-- What a signal block is, by its offset in the sender's exchange segment. -/
inductive BlockKind where
  | share (n : Nat) | belay | siu | refx | other
deriving DecidableEq, Repr

/-- The kind of a block that starts at an offset. -/
def blockKind (off : Nat) : BlockKind :=
  if off < 0x20 ∧ off % 8 = 0 then .share (off / 8)
  else if off = 0x40 then .belay
  else if off = 0x60 then .siu
  else if off = 0x70 then .refx
  else .other

/-- Receives the next block on a link, if it is of a kind that the row names: a block with a good CRC is written whole in
one transaction, and `f` takes it from there; a block with a bad CRC is discarded whole (R51). -/
def receiveBlock (l : Lane) (k : Link) (crcOk : Bool) (s : State) (p : BlockKind → Bool)
    (f : Lane → Nat → List Word → LaneState → LaneState) : Out :=
  let y := l.peer k
  match s.arriving y l with
  | .block start ws :: rest =>
    if p (blockKind (start - segBase y)) then
      onLane (s.setFlight y l rest) l (fun L => L.ropeFrame k crcOk (fun L =>
        f y (start - segBase y) ws (L.setSigs start ws)))
    else .next s
  | _ => .next s

/-- A block that is no share, Belay or SIU record; a REFX value is kept with its period (R571). -/
def execRopeBlockReceived (l : Lane) (k : Link) (crcOk : Bool) (s : State) : Out :=
  receiveBlock l k crcOk s
    (fun b => match b with
      | .other | .refx => true
      | _ => false)
    (fun y off ws L =>
      if off = 0x70 then L.mapK (fun C => { C with
        refx := C.refx.set y.idx (ws.headD 0).toNat, refxAt := C.refxAt.set y.idx (L.pnum + 1) })
      else L)

/-- A share record; `at5ns` is its arrival in coarse ticks from the boundary (R79). -/
def execShareRecordReceived (l : Lane) (k : Link) (crcOk : Bool) (at5ns : Nat) (s : State) : Out :=
  receiveBlock l k crcOk s
    (fun b => match b with
      | .share _ => true
      | _ => false)
    (fun y off _ L => L.takeShare y (off / 8) at5ns)

def execBelayRecordReceived (l : Lane) (k : Link) (crcOk : Bool) (s : State) : Out :=
  receiveBlock l k crcOk s (fun b => b == .belay) (fun y _ _ L => L.takeBelay y)

/-- A SIU record; it is judged at the next boundary (R461). -/
def execSiuRecordReceived (l : Lane) (k : Link) (crcOk : Bool) (s : State) : Out :=
  receiveBlock l k crcOk s (fun b => b == .siu) (fun _ _ _ L => L)

end Sys2Proof.Machine
end

