-- ==== Sys2Proof/Machine/Reset.lean ====
section
/-! DEFINITION. Power-on reset, brown-out, lane reset, and the end of a rejoin hold-off (R273, R308, R349, R355, R469). -/

namespace Sys2Proof.Machine

/-- Whether a register holds what fuses or configuration eNVM hold: SYS_ID, the failure counts, the log count and head,
the key slots and the serial (R5, R542, R547, R551). -/
def fusedReg (a : Nat) : Bool :=
  a == R.sysId || a == R.lcsFail || a == R.lcsLog || (0x40170040 ≤ a && a < 0x40170070) ||
    (0x40160014 ≤ a && a < 0x40160020)

/-- A running lockout starts again at its full length (R542). -/
def LaneState.restartLockouts (L : LaneState) : LaneState :=
  let ends := [1, 2, 3].foldl (fun (m : NMap) r =>
    let k := lockMinutes (L.get (failF r))
    m.set r (if k = 0 then 0 else k * minuteTicks + 1)) ([] : NMap)
  { L with aon := { L.aon with lockEnd := ends } }.showLockouts

/-- A lane after a power-on reset: everything but eNVM and fuses has its reset value. SPLIT_x is sampled: split mode takes
effect where the life cycle permits it for the variant, and is refused otherwise (R349). -/
def LaneState.powerOn (L : LaneState) (ball : Bool) : LaneState :=
  let K := L.cutNv
  let N := LaneState.fresh L.id
  let M : LaneState := { N with
    regs := K.regs.filter (fun p => fusedReg p.1)
    mem := K.mem.filter (fun c => c.1 < 0x00810000)
    nv := K.nv }
  let M := M.laneRegs
  let M := (M.put R.lcsState_lc K.nv.lc).put R.lcsState_reentry (K.get R.lcsState_reentry)
  let M := (M.put R.lcsState_log_full (K.get R.lcsState_log_full)).put R.lcsStat_log_warn (K.get R.lcsStat_log_warn)
  let M := M.restartLockouts
  if !ball then M else if M.splitAllowed then M.setF R.triadStat_split true else M.flag R.triadStat_split_refused

/-- A lane that has lost its supply: nothing is powered until the next power-on reset (R469, R481). -/
def LaneState.brownOut (L : LaneState) : LaneState :=
  let M := L.powerOn false
  let M := ((M.setF R.pwrSupStat_main_ok false).setF R.pwrSupStat_back_ok false).put R.pwrSupStat_sel 2
  let M := (M.put R.pwrState_pwr 0).mapP (fun P => { P with bootStep := 0, queue := [] })
  M.mapCore .svc (fun C => { C with stopped := true })

/-- A power-on reset; `ball` is the level of SPLIT_x. -/
def execPowerOnReset (l : Lane) (ball : Bool) (s : State) : Out := onLane s l (fun L => L.powerOn ball)

def execLaneReset (l : Lane) (s : State) : Out := onLane s l (fun L => L.laneReset)

/-- VSUP_x falls below 5.0 V. -/
def execBrownOut (l : Lane) (s : State) : Out := onLane s l (fun L => L.brownOut)

/-- The hold-off of an EXCLUDED lane ends: a lane reset, or DEAD with cause REJ_LIMIT once its attempts are exhausted. -/
def execRejoinHoldoffExpire (l : Lane) (s : State) : Out :=
  onLane s l (fun L =>
    let hold := 200000 * atLeast1 (L.get R.belayRej_hold)
    L.when (L.belay == bsExcluded && decide (L.belaySt.exclAt + hold ≤ L.coarse)) (fun L =>
      if L.exhausted then L.setBelay bsDead 0x19 else L.laneReset))

end Sys2Proof.Machine
end

