-- ==== Sys2Proof/Machine/Triad.lean ====
section
/-! DEFINITION. Resynchronisation, comparator tests and debug of the triad (chapter 10, R331 to R344). -/

namespace Sys2Proof.Machine

/-- Changes what the triad keeps beside its registers. -/
def LaneState.mapTri (L : LaneState) (f : TriadSt → TriadSt) : LaneState := { L with triad := f L.triad }

/-- Whether a step of a resynchronisation is in progress; none is while the cores are frozen. -/
def LaneState.rsAtStep (L : LaneState) (k : Nat) : Bool := L.triad.rsStep == k && !L.triad.stuck && L.voting

/-! ## Resynchronisation (R333 to R336, R343) -/

/-- The odd core leaves its reset, and its self-test starts. -/
def execResyncResetEnd (l : Lane) (s : State) : Out :=
  onLane s l (fun L => L.when (L.rsAtStep 1) (fun L => L.mapTri (fun T => { T with rsStep := 2 })))

/-- The self-test ends: the register copy starts, or TRIAD_3 with category SCHK. -/
def execResyncSelftestEnd (l : Lane) (ok : Bool) (s : State) : Out :=
  onLane s l (fun L => L.when (L.rsAtStep 2) (fun L =>
    if ok then L.mapTri (fun T => { T with rsStep := 3 })
    else L.triad3 9 (L.get R.triadStat_odd) true 0 L.triadCore.pc.toNat))

/-- The registers have been copied; the controller waits for a boundary of the pair. -/
def execResyncCopyComplete (l : Lane) (s : State) : Out :=
  onLane s l (fun L => L.when (L.rsAtStep 3) (fun L => L.mapTri (fun T => { T with rsStep := 4 })))

/-- Whether the triad waits for a bus request: a Lath access, or an access to a domain that wakes. -/
def LaneState.triadWaits (L : LaneState) : Bool :=
  (L.lath.pending.map (fun p => p.1 % 64 == 1)).getD false || L.pwr.stalled.any (fun p => p.2 == 1)

/-- The pair reaches a boundary with no request outstanding and stalls; a park or a debug halt is such a boundary. -/
def execResyncBoundary (l : Lane) (s : State) : Out :=
  onLane s l (fun L => L.when (L.rsAtStep 4 && !L.triadWaits) (fun L => L.mapTri (fun T => { T with rsStep := 5 })))

/-- The three cores leave the boundary and are compared again: the core's count, the duration in 10 ns and the pair stall
in cycles, which is 0 where the pair was parked or halted. -/
def execResyncComplete (l : Lane) (stall : Fin 97) (dur : BitVec 32) (s : State) : Out :=
  onLane s l (fun L => L.when (L.rsAtStep 5) (fun L =>
    let k := L.get R.triadStat_odd
    let st := if L.triadCore.parked || !L.triad.halted.isEmpty then 0 else stall.val
    let L := L.count (if k = 0 then R.triadCnt_rs0 else if k = 1 then R.triadCnt_rs1 else R.triadCnt_rs2)
    let L := (L.put R.triadRsTime_dur (satU 16 dur.toNat)).put R.triadRsTime_stall st
    let L := ((L.setF R.triadStat_resync false).put R.triadStat_odd 3).mapTri (fun T => { T with rsStep := 0 })
    L.mapCore .tc0 (fun C => { C with cycles := C.cycles + st })))

/-! ## Comparator tests (R331, R332) -/

/-- A comparator test runs: a wrong verdict sets tst_fail and raises TRIAD_3 with category TEST. -/
def LaneState.comparatorTest (L : LaneState) (ok : Bool) (stall : Nat) : LaneState :=
  let L := L.mapTri (fun T => { T with testDue := none })
  if ok then L.mapCore .tc0 (fun C => { C with cycles := C.cycles + stall })
  else (L.flag R.triadStat_tst_fail).triad3 7 3 false 0 L.triadCore.pc.toNat

/-- Whether the comparators are in use. -/
def LaneState.comparing (L : LaneState) : Bool := L.voting && !L.triad.stuck && L.pwr.bootStep == 4

/-- A test falls due and runs in an idle run of 4 cycles; one that falls due during a resynchronisation waits for its
end. -/
def execComparatorTestDue (l : Lane) (ok : Bool) (s : State) : Out :=
  onLane s l (fun L => L.when L.comparing (fun L =>
    if L.triad.rsStep ≠ 0 then L.mapTri (fun T => { T with testDue := some (T.testDue.getD L.coarse) })
    else L.comparatorTest ok 0))

/-- Without an idle run within 10 µs of the test's falling due, the cores are stalled for 4 cycles and the test runs. -/
def execComparatorTestForce (l : Lane) (ok : Bool) (s : State) : Out :=
  onLane s l (fun L => L.when (L.comparing && L.triad.rsStep == 0) (fun L => L.comparatorTest ok 4))

/-! ## Debug (R342 to R344, R347) -/

/-- Whether a debug command reaches the triad: debug is open, the triad has left reset and is not frozen or in a pair
stall; a halt that falls due during the stall takes effect after it (R335). -/
def LaneState.debugReaches (L : LaneState) : Bool :=
  L.debugAllowed && L.pwr.bootStep == 4 && !L.triad.stuck && L.triad.rsStep != 5

/-- A halt request; in break mode the debug unit may freeze the pipeline with it (R238). -/
def execDebugHalt (l : Lane) (freeze : Bool) (s : State) : Out :=
  onLane s l (fun L => L.when L.debugReaches (fun L =>
    let L := L.debugHalt
    L.mapTri (fun T => { T with frozen := T.frozen || (freeze && L.breakMode) })))

/-- A breakpoint matches TC_0's program counter, or a watchpoint TC_0's data address (R342). -/
def execBreakpointHit (l : Lane) (watch : Bool) (addr : Word) (s : State) : Out :=
  onLane s l (fun L =>
    let hit := decide ((watch, addr.toNat) ∈ L.triad.breaks) && (watch || L.triadCore.pc == addr)
    L.when (L.debugReaches && hit && L.coreRuns .tc0) LaneState.debugHalt)

/-- Resume; `cycles` is the time that the cores were halted. -/
def execDebugResume (l : Lane) (cycles : BitVec 64) (s : State) : Out :=
  onLane s l (fun L => L.when (L.debugReaches && !L.triad.halted.isEmpty) (fun L =>
    let L := (L.setF R.triadStat_dbg_halt false).mapTri (fun T => { T with halted := [], stepping := false, frozen := false })
    L.mapCore .tc0 (fun C => { C with cycles := C.cycles + cycles.toNat })))

/-- A single step lets one instruction through. -/
def execDebugStep (l : Lane) (s : State) : Out :=
  onLane s l (fun L => L.when (L.debugReaches && !L.triad.halted.isEmpty) (fun L => L.mapTri (fun T => { T with stepping := true })))

/-- The world of the core through which the debugger acts. -/
def LaneState.dbgSecure (L : LaneState) : Bool := L.triadCore.secure

/-- A register read returns TC_0's g register, or its control register as its world reads it. -/
def execDebugRegRead (l : Lane) (cr : Bool) (n : BitVec 11) (s : State) : Out :=
  onLane s l (fun L => L.when L.debugReaches (fun L =>
    let k := n.toNat
    if cr then
      if crListed k then (L.crCapture .tc0 k).answer .dbg (L.crRead .tc0 k L.dbgSecure) else L.busError .dbg
    else L.answer .dbg (L.triadCore.gr (k % 32))))

/-- A register write goes to all three cores and is compared as RF or CR; a core that it leaves odd is handled by the
voter (R343). -/
def execDebugRegWrite (l : Lane) (cr : Bool) (n : BitVec 11) (w : Word) (v : Verdict) (s : State) : Out :=
  onLane s l (fun L => L.when L.debugReaches (fun L =>
    let k := n.toNat
    let M := if cr then (if crListed k then L.crWrite .tc0 k L.dbgSecure w else L)
      else L.mapCore .tc0 (fun C => C.setG (k % 32) w)
    L.judged .tc0 v L.triadCore.pc.toNat M))

/-- The sizes of an access in bytes. -/
def accessSize (k : Fin 3) : Nat := 2 ^ k.val

/-- A memory access through the halted core: one voted request of the triad; an access that raises an exception in a core
ends with an error at the debugger. -/
def execDebugMemAccess (l : Lane) (write : Bool) (a : Word) (size : Fin 3) (w : Word) (ecc : Ecc) (v : Verdict)
    (s : State) : Out :=
  onLane s l (fun L => L.when (L.debugReaches && decide (0 ∈ L.triad.halted)) (fun L =>
    let n := accessSize size
    let st := if write then some (w.toNat % 2 ^ (8 * n)) else none
    match L.coreAccess .tc0 a.toNat n st ecc with
    | .ok M d => L.judged .tc0 v L.triadCore.pc.toNat (if write then M else M.answer .dbg (wordN d))
    | .exc M _ => M.busError .dbg
    | .stall M => M))

/-- A breakpoint or watchpoint is set or cleared; it is held once. -/
def execDebugBreakpointSet (l : Lane) (set watch : Bool) (addr : Word) (s : State) : Out :=
  onLane s l (fun L => L.when L.debugReaches (fun L => L.mapTri (fun T => { T with
    breaks := if set then addTo (watch, addr.toNat) T.breaks else dropFrom (watch, addr.toNat) T.breaks })))

end Sys2Proof.Machine
end

