-- ==== Sys2Proof/Machine/Dispatch.lean ====
section
/-! DEFINITION. What each command does: one arm per constructor, one call of its meaning. -/

namespace Sys2Proof.Machine

def exec (i : Instr) (s : State) : Host.Outcome State Fault Refusal :=
  match i with
  | .powerOnReset l ball => Sys2Proof.Machine.execPowerOnReset l ball s
  | .laneReset l => Sys2Proof.Machine.execLaneReset l s
  | .brownOut l => Sys2Proof.Machine.execBrownOut l s
  | .registerWrite l q a w => Sys2Proof.Machine.execRegisterWrite l q a w s
  | .blockLock l q a w => Sys2Proof.Machine.execBlockLock l q a w s
  | .sysTickWrite l q w => Sys2Proof.Machine.execSysTickWrite l q w s
  | .sysTimeLoRead l q => Sys2Proof.Machine.execSysTimeLoRead l q s
  | .sysTimeHiRead l q => Sys2Proof.Machine.execSysTimeHiRead l q s
  | .lathRequest l q write addr w => Sys2Proof.Machine.execLathRequest l q write addr w s
  | .lathFrameReceived l crcOk => Sys2Proof.Machine.execLathFrameReceived l crcOk s
  | .periodBoundary l => Sys2Proof.Machine.execPeriodBoundary l s
  | .fieldTickBoundary l => Sys2Proof.Machine.execFieldTickBoundary l s
  | .timeFrameSend l stamp0 stamp1 => Sys2Proof.Machine.execTimeFrameSend l stamp0 stamp1 s
  | .timeFrameReceived l k stamp crcOk => Sys2Proof.Machine.execTimeFrameReceived l k stamp crcOk s
  | .timeReportSend l => Sys2Proof.Machine.execTimeReportSend l s
  | .timeReportReceived l k crcOk => Sys2Proof.Machine.execTimeReportReceived l k crcOk s
  | .alignCorrection l => Sys2Proof.Machine.execAlignCorrection l s
  | .pairOffsetLapse l x y => Sys2Proof.Machine.execPairOffsetLapse l x y s
  | .timeSuspectRaise l y => Sys2Proof.Machine.execTimeSuspectRaise l y s
  | .timeSuspectClear l y => Sys2Proof.Machine.execTimeSuspectClear l y s
  | .tickParamReceived l k crcOk => Sys2Proof.Machine.execTickParamReceived l k crcOk s
  | .clockLoss l island => Sys2Proof.Machine.execClockLoss l island s
  | .handshakeTimeout l island m => Sys2Proof.Machine.execHandshakeTimeout l island m s
  | .oscFail l => Sys2Proof.Machine.execOscFail l s
  | .ropeBlockSend l k => Sys2Proof.Machine.execRopeBlockSend l k s
  | .ropeBlockReceived l k crcOk => Sys2Proof.Machine.execRopeBlockReceived l k crcOk s
  | .idleFrameSend l k => Sys2Proof.Machine.execIdleFrameSend l k s
  | .ropeLinkDown l k silent => Sys2Proof.Machine.execRopeLinkDown l k silent s
  | .ropeLinkUp l k => Sys2Proof.Machine.execRopeLinkUp l k s
  | .skimJobDue l j => Sys2Proof.Machine.execSkimJobDue l j s
  | .skimStepPreempt l j => Sys2Proof.Machine.execSkimStepPreempt l j s
  | .dlcal l j n16 => Sys2Proof.Machine.execDlcal l j n16 s
  | .adczero l j code => Sys2Proof.Machine.execAdczero l j code s
  | .scrub l j cor bad => Sys2Proof.Machine.execScrub l j cor bad s
  | .nvscrub l j cor line bad => Sys2Proof.Machine.execNvscrub l j cor line bad s
  | .repair l j bad => Sys2Proof.Machine.execRepair l j bad s
  | .refx l j uv => Sys2Proof.Machine.execRefx l j uv s
  | .avsmon l j count => Sys2Proof.Machine.execAvsmon l j count s
  | .shuntz l j u v w => Sys2Proof.Machine.execShuntz l j u v w s
  | .skimEnable l q en => Sys2Proof.Machine.execSkimEnable l q en s
  | .skimHold l q hold => Sys2Proof.Machine.execSkimHold l q hold s
  | .skimClrCnt l q => Sys2Proof.Machine.execSkimClrCnt l q s
  | .adcConversionComplete l n cu cv cw cs cc onU onV onW => Sys2Proof.Machine.execAdcConversionComplete l n cu cv cw cs cc onU onV onW s
  | .hkConversion l ch code => Sys2Proof.Machine.execHkConversion l ch code s
  | .decode l n => Sys2Proof.Machine.execDecode l n s
  | .estimate l n => Sys2Proof.Machine.execEstimate l n s
  | .profile l n => Sys2Proof.Machine.execProfile l n s
  | .shareRecordQueue l n => Sys2Proof.Machine.execShareRecordQueue l n s
  | .shareRecordReceived l k crcOk at5ns => Sys2Proof.Machine.execShareRecordReceived l k crcOk at5ns s
  | .median l n => Sys2Proof.Machine.execMedian l n s
  | .stateDevRaise l n y => Sys2Proof.Machine.execStateDevRaise l n y s
  | .commitTick l n => Sys2Proof.Machine.execCommitTick l n s
  | .promptCommit l n => Sys2Proof.Machine.execPromptCommit l n s
  | .field l n => Sys2Proof.Machine.execField l n s
  | .edgeLoad l n done => Sys2Proof.Machine.execEdgeLoad l n done s
  | .monitorCheckFire l n k => Sys2Proof.Machine.execMonitorCheckFire l n k s
  | .vlimSet l n => Sys2Proof.Machine.execVlimSet l n s
  | .vlimClear l n => Sys2Proof.Machine.execVlimClear l n s
  | .arm l n q at8 => Sys2Proof.Machine.execArm l n q at8 s
  | .disarm l n q at8 => Sys2Proof.Machine.execDisarm l n q at8 s
  | .start l n q at8 => Sys2Proof.Machine.execStart l n q at8 s
  | .stop l n q at8 => Sys2Proof.Machine.execStop l n q at8 s
  | .hold l n q at8 => Sys2Proof.Machine.execHold l n q at8 s
  | .resume l n q at8 => Sys2Proof.Machine.execResume l n q at8 s
  | .free l n q at8 => Sys2Proof.Machine.execFree l n q at8 s
  | .asc l n q at8 => Sys2Proof.Machine.execAsc l n q at8 s
  | .axpCmdDue l n => Sys2Proof.Machine.execAxpCmdDue l n s
  | .stopReachAsc l n => Sys2Proof.Machine.execStopReachAsc l n s
  | .estopActive l n => Sys2Proof.Machine.execEstopActive l n s
  | .axpCntClr l n q => Sys2Proof.Machine.execAxpCntClr l n q s
  | .quadEdge l n a b stamp => Sys2Proof.Machine.execQuadEdge l n a b stamp s
  | .fbTickUpdate l n => Sys2Proof.Machine.execFbTickUpdate l n s
  | .sensLost l n => Sys2Proof.Machine.execSensLost l n s
  | .indexEdge l n stamp => Sys2Proof.Machine.execIndexEdge l n stamp s
  | .hallFilterAccept l n h => Sys2Proof.Machine.execHallFilterAccept l n h s
  | .speedWindowEnd l n => Sys2Proof.Machine.execSpeedWindowEnd l n s
  | .fbCmpLoWrite l n q w => Sys2Proof.Machine.execFbCmpLoWrite l n q w s
  | .fbEofsWrite l n q w => Sys2Proof.Machine.execFbEofsWrite l n q w s
  | .fbEqWrite l n q r w => Sys2Proof.Machine.execFbEqWrite l n q r w s
  | .fbPosLoRead l n q => Sys2Proof.Machine.execFbPosLoRead l n q s
  | .fbPosHiRead l n q => Sys2Proof.Machine.execFbPosHiRead l n q s
  | .fbClrIdxCnt l n q => Sys2Proof.Machine.execFbClrIdxCnt l n q s
  | .fbClrMiss l n q => Sys2Proof.Machine.execFbClrMiss l n q s
  | .eqReset l n q => Sys2Proof.Machine.execEqReset l n q s
  | .obsReset l n q => Sys2Proof.Machine.execObsReset l n q s
  | .qeoStep l idxLevel => Sys2Proof.Machine.execQeoStep l idxLevel s
  | .startOffTick l n => Sys2Proof.Machine.execStartOffTick l n s
  | .startDecision l n => Sys2Proof.Machine.execStartDecision l n s
  | .startRampEnd l n => Sys2Proof.Machine.execStartRampEnd l n s
  | .fldClrCnt l n q => Sys2Proof.Machine.execFldClrCnt l n q s
  | .rsReset l n q => Sys2Proof.Machine.execRsReset l n q s
  | .fldRsWrite l n q w => Sys2Proof.Machine.execFldRsWrite l n q w s
  | .fbLock l n q w => Sys2Proof.Machine.execFbLock l n q w s
  | .fldLock l n q w => Sys2Proof.Machine.execFldLock l n q w s
  | .pos l n q at8 => Sys2Proof.Machine.execPos l n q at8 s
  | .vel l n q at8 => Sys2Proof.Machine.execVel l n q at8 s
  | .track l n q at8 => Sys2Proof.Machine.execTrack l n q at8 s
  | .replan l n q at8 => Sys2Proof.Machine.execReplan l n q at8 s
  | .profCmdDue l n => Sys2Proof.Machine.execProfCmdDue l n s
  | .streamLost l n => Sys2Proof.Machine.execStreamLost l n s
  | .profCheckFire l n k => Sys2Proof.Machine.execProfCheckFire l n k s
  | .profAction l n => Sys2Proof.Machine.execProfAction l n s
  | .loopTrigger l e k => Sys2Proof.Machine.execLoopTrigger l e k s
  | .loopRunStart l e => Sys2Proof.Machine.execLoopRunStart l e s
  | .leBudgetExpire l e w => Sys2Proof.Machine.execLeBudgetExpire l e w s
  | .leNop l e ecc => Sys2Proof.Machine.execLeNop l e ecc s
  | .leEnd l e ecc stamp => Sys2Proof.Machine.execLeEnd l e ecc stamp s
  | .leLdi l e ecc => Sys2Proof.Machine.execLeLdi l e ecc s
  | .leLui l e ecc => Sys2Proof.Machine.execLeLui l e ecc s
  | .leMov l e ecc => Sys2Proof.Machine.execLeMov l e ecc s
  | .leLdd l e ecc => Sys2Proof.Machine.execLeLdd l e ecc s
  | .leStd l e ecc => Sys2Proof.Machine.execLeStd l e ecc s
  | .leLds l e ecc w => Sys2Proof.Machine.execLeLds l e ecc w s
  | .leSts l e ecc w => Sys2Proof.Machine.execLeSts l e ecc w s
  | .leAdd l e ecc => Sys2Proof.Machine.execLeAdd l e ecc s
  | .leSub l e ecc => Sys2Proof.Machine.execLeSub l e ecc s
  | .leAdds l e ecc => Sys2Proof.Machine.execLeAdds l e ecc s
  | .leSubs l e ecc => Sys2Proof.Machine.execLeSubs l e ecc s
  | .leMulq l e ecc => Sys2Proof.Machine.execLeMulq l e ecc s
  | .leNeg l e ecc => Sys2Proof.Machine.execLeNeg l e ecc s
  | .leAbs l e ecc => Sys2Proof.Machine.execLeAbs l e ecc s
  | .leMin l e ecc => Sys2Proof.Machine.execLeMin l e ecc s
  | .leMax l e ecc => Sys2Proof.Machine.execLeMax l e ecc s
  | .leClmp l e ecc => Sys2Proof.Machine.execLeClmp l e ecc s
  | .leShl l e ecc => Sys2Proof.Machine.execLeShl l e ecc s
  | .leSar l e ecc => Sys2Proof.Machine.execLeSar l e ecc s
  | .leClra l e ecc => Sys2Proof.Machine.execLeClra l e ecc s
  | .leWra l e ecc => Sys2Proof.Machine.execLeWra l e ecc s
  | .leRda l e ecc => Sys2Proof.Machine.execLeRda l e ecc s
  | .leCas l e ecc => Sys2Proof.Machine.execLeCas l e ecc s
  | .leMacw l e ecc => Sys2Proof.Machine.execLeMacw l e ecc s
  | .leMacp l e ecc => Sys2Proof.Machine.execLeMacp l e ecc s
  | .leOut l e ecc => Sys2Proof.Machine.execLeOut l e ecc s
  | .leLut l e ecc => Sys2Proof.Machine.execLeLut l e ecc s
  | .leReg l e ecc w => Sys2Proof.Machine.execLeReg l e ecc w s
  | .leCmp l e ecc => Sys2Proof.Machine.execLeCmp l e ecc s
  | .leSel l e ecc => Sys2Proof.Machine.execLeSel l e ecc s
  | .leBf l e ecc => Sys2Proof.Machine.execLeBf l e ecc s
  | .leJmp l e ecc => Sys2Proof.Machine.execLeJmp l e ecc s
  | .leShare l e ecc stamp => Sys2Proof.Machine.execLeShare l e ecc stamp s
  | .leCommit l e ecc stamp => Sys2Proof.Machine.execLeCommit l e ecc stamp s
  | .leWait l e ecc stamp => Sys2Proof.Machine.execLeWait l e ecc stamp s
  | .leWaitRelease l e stamp waited => Sys2Proof.Machine.execLeWaitRelease l e stamp waited s
  | .lePre l e ecc => Sys2Proof.Machine.execLePre l e ecc s
  | .leRds l e ecc => Sys2Proof.Machine.execLeRds l e ecc s
  | .seal l e q => Sys2Proof.Machine.execSeal l e q s
  | .unseal l e q => Sys2Proof.Machine.execUnseal l e q s
  | .swap l e q at8 => Sys2Proof.Machine.execSwap l e q at8 s
  | .bankCheckComplete l e atLock => Sys2Proof.Machine.execBankCheckComplete l e atLock s
  | .swapTakeEffect l e => Sys2Proof.Machine.execSwapTakeEffect l e s
  | .leLock l e q w => Sys2Proof.Machine.execLeLock l e q w s
  | .leCtlRun l e q run => Sys2Proof.Machine.execLeCtlRun l e q run s
  | .leClrCnt l e q => Sys2Proof.Machine.execLeClrCnt l e q s
  | .edgeCompareFire l u off => Sys2Proof.Machine.execEdgeCompareFire l u off s
  | .timebaseBoundary l tb late => Sys2Proof.Machine.execTimebaseBoundary l tb late s
  | .edgeUpdHoldWrite l q w inReload => Sys2Proof.Machine.execEdgeUpdHoldWrite l q w inReload s
  | .edgeModeWrite l q u w => Sys2Proof.Machine.execEdgeModeWrite l q u w s
  | .edgeLvlWrite l q u w => Sys2Proof.Machine.execEdgeLvlWrite l q u w s
  | .pulseStart l u => Sys2Proof.Machine.execPulseStart l u s
  | .pulseEnd l u => Sys2Proof.Machine.execPulseEnd l u s
  | .edgeHaltEnter l => Sys2Proof.Machine.execEdgeHaltEnter l s
  | .edgeHaltRelease l => Sys2Proof.Machine.execEdgeHaltRelease l s
  | .edgeLock l q w => Sys2Proof.Machine.execEdgeLock l q w s
  | .edgeCalComplete l n0 n1 n2 n3 => Sys2Proof.Machine.execEdgeCalComplete l n0 n1 n2 n3 s
  | .dlStale l g => Sys2Proof.Machine.execDlStale l g s
  | .edgeLoss l => Sys2Proof.Machine.execEdgeLoss l s
  | .gateWireEdge l g together => Sys2Proof.Machine.execGateWireEdge l g together s
  | .turnOnStart l g => Sys2Proof.Machine.execTurnOnStart l g s
  | .gatePrimeEnd l g => Sys2Proof.Machine.execGatePrimeEnd l g s
  | .gateFloatEnd l g confirmed tPa => Sys2Proof.Machine.execGateFloatEnd l g confirmed tPa s
  | .gateWatchFault l g => Sys2Proof.Machine.execGateWatchFault l g s
  | .overrideEnable l q w => Sys2Proof.Machine.execOverrideEnable l q w s
  | .switchNodeCrossing l ph up byWire value => Sys2Proof.Machine.execSwitchNodeCrossing l ph up byWire value s
  | .edgeInstantReport l crcOk => Sys2Proof.Machine.execEdgeInstantReport l crcOk s
  | .refreshPulseStart l ph => Sys2Proof.Machine.execRefreshPulseStart l ph s
  | .refreshPulseEnd l ph => Sys2Proof.Machine.execRefreshPulseEnd l ph s
  | .bsWarnChange l ph low => Sys2Proof.Machine.execBsWarnChange l ph low s
  | .bsLow l ph => Sys2Proof.Machine.execBsLow l ph s
  | .bsLowRelease l ph => Sys2Proof.Machine.execBsLowRelease l ph s
  | .scThresholdUpdate l ph m => Sys2Proof.Machine.execScThresholdUpdate l ph m s
  | .scLs l ph m => Sys2Proof.Machine.execScLs l ph m s
  | .scDc l p m => Sys2Proof.Machine.execScDc l p m s
  | .chopperRequestChange l v => Sys2Proof.Machine.execChopperRequestChange l v s
  | .chopFault l v => Sys2Proof.Machine.execChopFault l v s
  | .hardOv l v => Sys2Proof.Machine.execHardOv l v s
  | .hardOvClear l v => Sys2Proof.Machine.execHardOvClear l v s
  | .vlinkUv l v => Sys2Proof.Machine.execVlinkUv l v s
  | .vgUv l => Sys2Proof.Machine.execVgUv l s
  | .ot l tj => Sys2Proof.Machine.execOt l tj s
  | .extTrip l k => Sys2Proof.Machine.execExtTrip l k s
  | .lathLoss l => Sys2Proof.Machine.execLathLoss l s
  | .tripActionRelease l p => Sys2Proof.Machine.execTripActionRelease l p s
  | .tripFlagClear l q hi w => Sys2Proof.Machine.execTripFlagClear l q hi w s
  | .tripFlagReport l => Sys2Proof.Machine.execTripFlagReport l s
  | .laneLathLoss l => Sys2Proof.Machine.execLaneLathLoss l s
  | .brgClrCnt l q => Sys2Proof.Machine.execBrgClrCnt l q s
  | .primeReset l q => Sys2Proof.Machine.execPrimeReset l q s
  | .brgLock l q w => Sys2Proof.Machine.execBrgLock l q w s
  | .bootExit l => Sys2Proof.Machine.execBootExit l s
  | .identityCheck l => Sys2Proof.Machine.execIdentityCheck l s
  | .syncExit l => Sys2Proof.Machine.execSyncExit l s
  | .powerOnActivate l => Sys2Proof.Machine.execPowerOnActivate l s
  | .soloStart l => Sys2Proof.Machine.execSoloStart l s
  | .suspectEnter l code => Sys2Proof.Machine.execSuspectEnter l code s
  | .suspectClear l => Sys2Proof.Machine.execSuspectClear l s
  | .selfExclusion l code => Sys2Proof.Machine.execSelfExclusion l code s
  | .excludedEnter l => Sys2Proof.Machine.execExcludedEnter l s
  | .peerExclusion l => Sys2Proof.Machine.execPeerExclusion l s
  | .exclusionCauseAction l y code => Sys2Proof.Machine.execExclusionCauseAction l y code s
  | .devMulti l => Sys2Proof.Machine.execDevMulti l s
  | .ownPlaus l n => Sys2Proof.Machine.execOwnPlaus l n s
  | .disagree2 l n => Sys2Proof.Machine.execDisagree2 l n s
  | .rejoinHoldoffExpire l => Sys2Proof.Machine.execRejoinHoldoffExpire l s
  | .rejoinTransferSend l k d => Sys2Proof.Machine.execRejoinTransferSend l k d s
  | .rejoinTransferReceived l k crcOk => Sys2Proof.Machine.execRejoinTransferReceived l k crcOk s
  | .rejoinTransferTimeout l => Sys2Proof.Machine.execRejoinTransferTimeout l s
  | .shadowEnter l => Sys2Proof.Machine.execShadowEnter l s
  | .admission l y => Sys2Proof.Machine.execAdmission l y s
  | .serviceEnter l => Sys2Proof.Machine.execServiceEnter l s
  | .belayRecordSend l => Sys2Proof.Machine.execBelayRecordSend l s
  | .belayRecordReceived l k crcOk => Sys2Proof.Machine.execBelayRecordReceived l k crcOk s
  | .belayKick l q w => Sys2Proof.Machine.execBelayKick l q w s
  | .wdg l => Sys2Proof.Machine.execWdg l s
  | .voteOutputChange l => Sys2Proof.Machine.execVoteOutputChange l s
  | .voteRefreshTimeout l => Sys2Proof.Machine.execVoteRefreshTimeout l s
  | .voteClassChange l y runs still => Sys2Proof.Machine.execVoteClassChange l y runs still s
  | .llArmReceived l => Sys2Proof.Machine.execLlArmReceived l s
  | .lastLaneLatch l => Sys2Proof.Machine.execLastLaneLatch l s
  | .voteReport l => Sys2Proof.Machine.execVoteReport l s
  | .voteLine l y => Sys2Proof.Machine.execVoteLine l y s
  | .limpEnter l => Sys2Proof.Machine.execLimpEnter l s
  | .stopRequest l => Sys2Proof.Machine.execStopRequest l s
  | .limpTimerExpire l => Sys2Proof.Machine.execLimpTimerExpire l s
  | .enterService l q => Sys2Proof.Machine.execEnterService l q s
  | .leaveService l q => Sys2Proof.Machine.execLeaveService l q s
  | .selfExclude l q => Sys2Proof.Machine.execSelfExclude l q s
  | .revive l q => Sys2Proof.Machine.execRevive l q s
  | .belayClrCnt l q => Sys2Proof.Machine.execBelayClrCnt l q s
  | .ropeClrCnt l q => Sys2Proof.Machine.execRopeClrCnt l q s
  | .resyncResetEnd l => Sys2Proof.Machine.execResyncResetEnd l s
  | .resyncSelftestEnd l ok => Sys2Proof.Machine.execResyncSelftestEnd l ok s
  | .resyncCopyComplete l => Sys2Proof.Machine.execResyncCopyComplete l s
  | .resyncBoundary l => Sys2Proof.Machine.execResyncBoundary l s
  | .resyncComplete l stall dur => Sys2Proof.Machine.execResyncComplete l stall dur s
  | .comparatorTestDue l ok => Sys2Proof.Machine.execComparatorTestDue l ok s
  | .comparatorTestForce l ok => Sys2Proof.Machine.execComparatorTestForce l ok s
  | .triadClrCnt l q => Sys2Proof.Machine.execTriadClrCnt l q s
  | .tstNow l q => Sys2Proof.Machine.execTstNow l q s
  | .forceAbstain l q => Sys2Proof.Machine.execForceAbstain l q s
  | .breakModeRequest l q => Sys2Proof.Machine.execBreakModeRequest l q s
  | .debugHalt l freeze => Sys2Proof.Machine.execDebugHalt l freeze s
  | .breakpointHit l watch addr => Sys2Proof.Machine.execBreakpointHit l watch addr s
  | .debugResume l cycles => Sys2Proof.Machine.execDebugResume l cycles s
  | .debugStep l => Sys2Proof.Machine.execDebugStep l s
  | .debugRegRead l cr n => Sys2Proof.Machine.execDebugRegRead l cr n s
  | .debugRegWrite l cr n w v => Sys2Proof.Machine.execDebugRegWrite l cr n w v s
  | .debugMemAccess l write a size w ecc v => Sys2Proof.Machine.execDebugMemAccess l write a size w ecc v s
  | .debugBreakpointSet l set watch addr => Sys2Proof.Machine.execDebugBreakpointSet l set watch addr s
  | .add l iss => Sys2Proof.Machine.execAdd l iss s
  | .sub l iss => Sys2Proof.Machine.execSub l iss s
  | .and l iss => Sys2Proof.Machine.execAnd l iss s
  | .or l iss => Sys2Proof.Machine.execOr l iss s
  | .xor l iss => Sys2Proof.Machine.execXor l iss s
  | .andn l iss => Sys2Proof.Machine.execAndn l iss s
  | .shl l iss => Sys2Proof.Machine.execShl l iss s
  | .shr l iss => Sys2Proof.Machine.execShr l iss s
  | .sar l iss => Sys2Proof.Machine.execSar l iss s
  | .min l iss => Sys2Proof.Machine.execMin l iss s
  | .max l iss => Sys2Proof.Machine.execMax l iss s
  | .minu l iss => Sys2Proof.Machine.execMinu l iss s
  | .maxu l iss => Sys2Proof.Machine.execMaxu l iss s
  | .clz l iss => Sys2Proof.Machine.execClz l iss s
  | .sextb l iss => Sys2Proof.Machine.execSextb l iss s
  | .sexth l iss => Sys2Proof.Machine.execSexth l iss s
  | .mul l iss => Sys2Proof.Machine.execMul l iss s
  | .mulh l iss => Sys2Proof.Machine.execMulh l iss s
  | .mulhu l iss => Sys2Proof.Machine.execMulhu l iss s
  | .div l iss => Sys2Proof.Machine.execDiv l iss s
  | .divu l iss => Sys2Proof.Machine.execDivu l iss s
  | .rem l iss => Sys2Proof.Machine.execRem l iss s
  | .remu l iss => Sys2Proof.Machine.execRemu l iss s
  | .adds l iss => Sys2Proof.Machine.execAdds l iss s
  | .subs l iss => Sys2Proof.Machine.execSubs l iss s
  | .negs l iss => Sys2Proof.Machine.execNegs l iss s
  | .abss l iss => Sys2Proof.Machine.execAbss l iss s
  | .mulq l iss => Sys2Proof.Machine.execMulq l iss s
  | .shls l iss => Sys2Proof.Machine.execShls l iss s
  | .clmp l iss => Sys2Proof.Machine.execClmp l iss s
  | .rndh l iss => Sys2Proof.Machine.execRndh l iss s
  | .cmp l iss => Sys2Proof.Machine.execCmp l iss s
  | .cmpi l iss => Sys2Proof.Machine.execCmpi l iss s
  | .pand l iss => Sys2Proof.Machine.execPand l iss s
  | .por l iss => Sys2Proof.Machine.execPor l iss s
  | .pxor l iss => Sys2Proof.Machine.execPxor l iss s
  | .pandn l iss => Sys2Proof.Machine.execPandn l iss s
  | .addi l iss => Sys2Proof.Machine.execAddi l iss s
  | .andi l iss => Sys2Proof.Machine.execAndi l iss s
  | .ori l iss => Sys2Proof.Machine.execOri l iss s
  | .xori l iss => Sys2Proof.Machine.execXori l iss s
  | .shiShl l iss => Sys2Proof.Machine.execShiShl l iss s
  | .shiShr l iss => Sys2Proof.Machine.execShiShr l iss s
  | .shiSar l iss => Sys2Proof.Machine.execShiSar l iss s
  | .shiShls l iss => Sys2Proof.Machine.execShiShls l iss s
  | .lui l iss => Sys2Proof.Machine.execLui l iss s
  | .movi l iss => Sys2Proof.Machine.execMovi l iss s
  | .ldw l iss => Sys2Proof.Machine.execLdw l iss s
  | .ldh l iss => Sys2Proof.Machine.execLdh l iss s
  | .ldhu l iss => Sys2Proof.Machine.execLdhu l iss s
  | .ldb l iss => Sys2Proof.Machine.execLdb l iss s
  | .ldbu l iss => Sys2Proof.Machine.execLdbu l iss s
  | .stw l iss => Sys2Proof.Machine.execStw l iss s
  | .sth l iss => Sys2Proof.Machine.execSth l iss s
  | .stb l iss => Sys2Proof.Machine.execStb l iss s
  | .swp l iss => Sys2Proof.Machine.execSwp l iss s
  | .sld l iss => Sys2Proof.Machine.execSld l iss s
  | .sst l iss => Sys2Proof.Machine.execSst l iss s
  | .sget l iss => Sys2Proof.Machine.execSget l iss s
  | .spub l iss => Sys2Proof.Machine.execSpub l iss s
  | .br l iss => Sys2Proof.Machine.execBr l iss s
  | .call l iss => Sys2Proof.Machine.execCall l iss s
  | .jr l iss => Sys2Proof.Machine.execJr l iss s
  | .jalr l iss => Sys2Proof.Machine.execJalr l iss s
  | .crr l iss => Sys2Proof.Machine.execCrr l iss s
  | .crw l iss => Sys2Proof.Machine.execCrw l iss s
  | .crs l iss => Sys2Proof.Machine.execCrs l iss s
  | .crc l iss => Sys2Proof.Machine.execCrc l iss s
  | .trap l iss => Sys2Proof.Machine.execTrap l iss s
  | .scall l iss => Sys2Proof.Machine.execScall l iss s
  | .eret l iss => Sys2Proof.Machine.execEret l iss s
  | .park l iss => Sys2Proof.Machine.execPark l iss s
  | .bkpt l iss dbg => Sys2Proof.Machine.execBkpt l iss dbg s
  | .interruptEntry l c v => Sys2Proof.Machine.execInterruptEntry l c v s
  | .parkWake l c cycles => Sys2Proof.Machine.execParkWake l c cycles s
  | .cordeeFrameReceived l port bytes fcsOk sfd arr => Sys2Proof.Machine.execCordeeFrameReceived l port bytes fcsOk sfd arr s
  | .windowEndTruncate l => Sys2Proof.Machine.execWindowEndTruncate l s
  | .arbGapClose l => Sys2Proof.Machine.execArbGapClose l s
  | .arbForward l arr => Sys2Proof.Machine.execArbForward l arr s
  | .txSample l w start => Sys2Proof.Machine.execTxSample l w start s
  | .frameSend l w start arr => Sys2Proof.Machine.execFrameSend l w start arr s
  | .basicCycleBoundary l now => Sys2Proof.Machine.execBasicCycleBoundary l now s
  | .listenTimeout l => Sys2Proof.Machine.execListenTimeout l s
  | .coldstartSend l sfd => Sys2Proof.Machine.execColdstartSend l sfd s
  | .coldstartWindowEnd l => Sys2Proof.Machine.execColdstartWindowEnd l s
  | .anchorEnter l => Sys2Proof.Machine.execAnchorEnter l s
  | .starStartupTimeout l => Sys2Proof.Machine.execStarStartupTimeout l s
  | .relayReceived l k crcOk now => Sys2Proof.Machine.execRelayReceived l k crcOk now s
  | .rxDecision l e now => Sys2Proof.Machine.execRxDecision l e now s
  | .networkLost l y => Sys2Proof.Machine.execNetworkLost l y s
  | .networkRestored l y => Sys2Proof.Machine.execNetworkRestored l y s
  | .tc10Wake l port => Sys2Proof.Machine.execTc10Wake l port s
  | .cdeClrCnt l q => Sys2Proof.Machine.execCdeClrCnt l q s
  | .cdeLock l q w => Sys2Proof.Machine.execCdeLock l q w s
  | .mirrorRecordSend l => Sys2Proof.Machine.execMirrorRecordSend l s
  | .mirrorRecordReceived l bytes stamp crcOk => Sys2Proof.Machine.execMirrorRecordReceived l bytes stamp crcOk s
  | .installation l => Sys2Proof.Machine.execInstallation l s
  | .verdictRead l now => Sys2Proof.Machine.execVerdictRead l now s
  | .verdictExpire l => Sys2Proof.Machine.execVerdictExpire l s
  | .tetherLock l q w => Sys2Proof.Machine.execTetherLock l q w s
  | .tetherClrCnt l q => Sys2Proof.Machine.execTetherClrCnt l q s
  | .testPulseStart l j => Sys2Proof.Machine.execTestPulseStart l j s
  | .testPulseEnd l j low high opened readback => Sys2Proof.Machine.execTestPulseEnd l j low high opened readback s
  | .tpReadbackFail l j => Sys2Proof.Machine.execTpReadbackFail l j s
  | .channelFilterChange l c closed => Sys2Proof.Machine.execChannelFilterChange l c closed s
  | .discrepancyFault l f => Sys2Proof.Machine.execDiscrepancyFault l f s
  | .jogSimTimeout l f => Sys2Proof.Machine.execJogSimTimeout l f s
  | .siuManualReset l q f => Sys2Proof.Machine.execSiuManualReset l q f s
  | .siuResetEffect l => Sys2Proof.Machine.execSiuResetEffect l s
  | .siuClrCnt l q => Sys2Proof.Machine.execSiuClrCnt l q s
  | .siuFaultClear l q f w => Sys2Proof.Machine.execSiuFaultClear l q f w s
  | .siuRecordReceived l k crcOk => Sys2Proof.Machine.execSiuRecordReceived l k crcOk s
  | .siuLock l q w => Sys2Proof.Machine.execSiuLock l q w s
  | .supplySwitchToBackup l vm vb => Sys2Proof.Machine.execSupplySwitchToBackup l vm vb s
  | .supplyReturnMain l vm vb => Sys2Proof.Machine.execSupplyReturnMain l vm vb s
  | .inputOvervoltage l main => Sys2Proof.Machine.execInputOvervoltage l main s
  | .inputReverse l => Sys2Proof.Machine.execInputReverse l s
  | .bothInputsLost l => Sys2Proof.Machine.execBothInputsLost l s
  | .holdUpTimeout l => Sys2Proof.Machine.execHoldUpTimeout l s
  | .pmicRequest l => Sys2Proof.Machine.execPmicRequest l s
  | .pmicPoll l => Sys2Proof.Machine.execPmicPoll l s
  | .pmicResponse l frame => Sys2Proof.Machine.execPmicResponse l frame s
  | .pmicRetryTimeout l => Sys2Proof.Machine.execPmicRetryTimeout l s
  | .iinPoll l => Sys2Proof.Machine.execIinPoll l s
  | .pmicFwRequest l q w => Sys2Proof.Machine.execPmicFwRequest l q w s
  | .pgoodDrop l => Sys2Proof.Machine.execPgoodDrop l s
  | .pgoodRise l => Sys2Proof.Machine.execPgoodRise l s
  | .oscReady l => Sys2Proof.Machine.execOscReady l s
  | .avsRun l => Sys2Proof.Machine.execAvsRun l s
  | .gateRequest l q w => Sys2Proof.Machine.execGateRequest l q w s
  | .domainGate l d => Sys2Proof.Machine.execDomainGate l d s
  | .domainWakeOnAccess l d m => Sys2Proof.Machine.execDomainWakeOnAccess l d m s
  | .domainReady l d => Sys2Proof.Machine.execDomainReady l d s
  | .deadlineWake l k => Sys2Proof.Machine.execDeadlineWake l k s
  | .sleepCommand l => Sys2Proof.Machine.execSleepCommand l s
  | .sleepArmExpire l => Sys2Proof.Machine.execSleepArmExpire l s
  | .sleepStepComplete l => Sys2Proof.Machine.execSleepStepComplete l s
  | .wakeSourceFire l src cairn => Sys2Proof.Machine.execWakeSourceFire l src cairn s
  | .wakeFail l code => Sys2Proof.Machine.execWakeFail l code s
  | .wakeRetry l => Sys2Proof.Machine.execWakeRetry l s
  | .wakeFailSleep l => Sys2Proof.Machine.execWakeFailSleep l s
  | .restore l q => Sys2Proof.Machine.execRestore l q s
  | .svcIrq l q => Sys2Proof.Machine.execSvcIrq l q s
  | .pwrClrCnt l q => Sys2Proof.Machine.execPwrClrCnt l q s
  | .pwrLock l q w => Sys2Proof.Machine.execPwrLock l q w s
  | .budgetEval l vm vb => Sys2Proof.Machine.execBudgetEval l vm vb s
  | .ridgeTaskTrigger l n => Sys2Proof.Machine.execRidgeTaskTrigger l n s
  | .ridgePost l q task => Sys2Proof.Machine.execRidgePost l q task s
  | .ridgeNext l q => Sys2Proof.Machine.execRidgeNext l q s
  | .eccWriteback l => Sys2Proof.Machine.execEccWriteback l s
  | .program l q => Sys2Proof.Machine.execProgram l q s
  | .erase l q => Sys2Proof.Machine.execErase l q s
  | .blank l q => Sys2Proof.Machine.execBlank l q s
  | .nvmcOpComplete l ok => Sys2Proof.Machine.execNvmcOpComplete l ok s
  | .nvmcClrCnt l q => Sys2Proof.Machine.execNvmcClrCnt l q s
  | .watCntClr l q => Sys2Proof.Machine.execWatCntClr l q s
  | .mboxStageWrite l q tag => Sys2Proof.Machine.execMboxStageWrite l q tag s
  | .mboxPost l q n ptr => Sys2Proof.Machine.execMboxPost l q n ptr s
  | .mboxMsgRead l q n => Sys2Proof.Machine.execMboxMsgRead l q n s
  | .mboxPtrRead l q n => Sys2Proof.Machine.execMboxPtrRead l q n s
  | .semaAcquire l q n => Sys2Proof.Machine.execSemaAcquire l q n s
  | .semaRelease l q n => Sys2Proof.Machine.execSemaRelease l q n s
  | .semaFree l q idx => Sys2Proof.Machine.execSemaFree l q idx s
  | .auth l q role => Sys2Proof.Machine.execAuth l q role s
  | .challenge l q => Sys2Proof.Machine.execChallenge l q s
  | .makerAuth l q => Sys2Proof.Machine.execMakerAuth l q s
  | .close l q => Sys2Proof.Machine.execClose l q s
  | .pwSet l q role => Sys2Proof.Machine.execPwSet l q role s
  | .calOpen l q => Sys2Proof.Machine.execCalOpen l q s
  | .calClose l q => Sys2Proof.Machine.execCalClose l q s
  | .dbgOpen l q => Sys2Proof.Machine.execDbgOpen l q s
  | .lcAdvance l q => Sys2Proof.Machine.execLcAdvance l q s
  | .lcReenter l q => Sys2Proof.Machine.execLcReenter l q s
  | .retire l q => Sys2Proof.Machine.execRetire l q s
  | .logReset l q => Sys2Proof.Machine.execLogReset l q s
  | .lcsLaneReset l q => Sys2Proof.Machine.execLcsLaneReset l q s
  | .lcsOpComplete l => Sys2Proof.Machine.execLcsOpComplete l s
  | .lockoutExpire l role => Sys2Proof.Machine.execLockoutExpire l role s
  | .sessionIdleTimeout l => Sys2Proof.Machine.execSessionIdleTimeout l s
  | .challengeExpire l => Sys2Proof.Machine.execChallengeExpire l s
  | .lcsLogSubWrite l q sub => Sys2Proof.Machine.execLcsLogSubWrite l q sub s
  | .logAppend l => Sys2Proof.Machine.execLogAppend l s
  | .imgCheck l q bank => Sys2Proof.Machine.execImgCheck l q bank s
  | .imgActivate l q bank => Sys2Proof.Machine.execImgActivate l q bank s
  | .imgConfirm l q => Sys2Proof.Machine.execImgConfirm l q s
  | .attest l q => Sys2Proof.Machine.execAttest l q s
  | .keySet l q slot => Sys2Proof.Machine.execKeySet l q slot s
  | .keyRevoke l q slot => Sys2Proof.Machine.execKeyRevoke l q slot s
  | .secOpComplete l => Sys2Proof.Machine.execSecOpComplete l s
  | .secureBoot l => Sys2Proof.Machine.execSecureBoot l s
  | .warmCheck l => Sys2Proof.Machine.execWarmCheck l s
  | .bootSelftest l => Sys2Proof.Machine.execBootSelftest l s
  | .bistRun l q mask => Sys2Proof.Machine.execBistRun l q mask s
  | .bistAbort l q => Sys2Proof.Machine.execBistAbort l q s
  | .bistTestComplete l t pass cov detail dur rows => Sys2Proof.Machine.execBistTestComplete l t pass cov detail dur rows s
  | .tetherLinkDown l silent => Sys2Proof.Machine.execTetherLinkDown l silent s
  | .tetherLinkUp l => Sys2Proof.Machine.execTetherLinkUp l s
  | .supplyInputReturn l main v => Sys2Proof.Machine.execSupplyInputReturn l main v s
  | .otClear l tj => Sys2Proof.Machine.execOtClear l tj s
  | .vlinkUvClear l v => Sys2Proof.Machine.execVlinkUvClear l v s
  | .extTripRelease l k => Sys2Proof.Machine.execExtTripRelease l k s
  | .vgUvClear l => Sys2Proof.Machine.execVgUvClear l s

end Sys2Proof.Machine
end

