-- ==== Sys2Proof/Safety.lean ====
section
/-! DEFINITION. The terms in which claims are stated: which lane a command reaches, what a command may change (a
footprint), and the invariants of a state. -/

namespace Sys2Proof

open Sys2Proof.Machine

/-- The lane that a command reaches. -/
def Instr.lane : Instr → Lane
  | .powerOnReset l _ => l
  | .laneReset l => l
  | .brownOut l => l
  | .registerWrite l _ _ _ => l
  | .blockLock l _ _ _ => l
  | .sysTickWrite l _ _ => l
  | .sysTimeLoRead l _ => l
  | .sysTimeHiRead l _ => l
  | .lathRequest l _ _ _ _ => l
  | .lathFrameReceived l _ => l
  | .periodBoundary l => l
  | .fieldTickBoundary l => l
  | .timeFrameSend l _ _ => l
  | .timeFrameReceived l _ _ _ => l
  | .timeReportSend l => l
  | .timeReportReceived l _ _ => l
  | .alignCorrection l => l
  | .pairOffsetLapse l _ _ => l
  | .timeSuspectRaise l _ => l
  | .timeSuspectClear l _ => l
  | .tickParamReceived l _ _ => l
  | .clockLoss l _ => l
  | .handshakeTimeout l _ _ => l
  | .oscFail l => l
  | .ropeBlockSend l _ => l
  | .ropeBlockReceived l _ _ => l
  | .idleFrameSend l _ => l
  | .ropeLinkDown l _ _ => l
  | .ropeLinkUp l _ => l
  | .skimJobDue l _ => l
  | .skimStepPreempt l _ => l
  | .dlcal l _ _ => l
  | .adczero l _ _ => l
  | .scrub l _ _ _ => l
  | .nvscrub l _ _ _ _ => l
  | .repair l _ _ => l
  | .refx l _ _ => l
  | .avsmon l _ _ => l
  | .shuntz l _ _ _ _ => l
  | .skimEnable l _ _ => l
  | .skimHold l _ _ => l
  | .skimClrCnt l _ => l
  | .adcConversionComplete l _ _ _ _ _ _ _ _ _ => l
  | .hkConversion l _ _ => l
  | .decode l _ => l
  | .estimate l _ => l
  | .profile l _ => l
  | .shareRecordQueue l _ => l
  | .shareRecordReceived l _ _ _ => l
  | .median l _ => l
  | .stateDevRaise l _ _ => l
  | .commitTick l _ => l
  | .promptCommit l _ => l
  | .field l _ => l
  | .edgeLoad l _ _ => l
  | .monitorCheckFire l _ _ => l
  | .vlimSet l _ => l
  | .vlimClear l _ => l
  | .arm l _ _ _ => l
  | .disarm l _ _ _ => l
  | .start l _ _ _ => l
  | .stop l _ _ _ => l
  | .hold l _ _ _ => l
  | .resume l _ _ _ => l
  | .free l _ _ _ => l
  | .asc l _ _ _ => l
  | .axpCmdDue l _ => l
  | .stopReachAsc l _ => l
  | .estopActive l _ => l
  | .axpCntClr l _ _ => l
  | .quadEdge l _ _ _ _ => l
  | .fbTickUpdate l _ => l
  | .sensLost l _ => l
  | .indexEdge l _ _ => l
  | .hallFilterAccept l _ _ => l
  | .speedWindowEnd l _ => l
  | .fbCmpLoWrite l _ _ _ => l
  | .fbEofsWrite l _ _ _ => l
  | .fbEqWrite l _ _ _ _ => l
  | .fbPosLoRead l _ _ => l
  | .fbPosHiRead l _ _ => l
  | .fbClrIdxCnt l _ _ => l
  | .fbClrMiss l _ _ => l
  | .eqReset l _ _ => l
  | .obsReset l _ _ => l
  | .qeoStep l _ => l
  | .startOffTick l _ => l
  | .startDecision l _ => l
  | .startRampEnd l _ => l
  | .fldClrCnt l _ _ => l
  | .rsReset l _ _ => l
  | .fldRsWrite l _ _ _ => l
  | .fbLock l _ _ _ => l
  | .fldLock l _ _ _ => l
  | .pos l _ _ _ => l
  | .vel l _ _ _ => l
  | .track l _ _ _ => l
  | .replan l _ _ _ => l
  | .profCmdDue l _ => l
  | .streamLost l _ => l
  | .profCheckFire l _ _ => l
  | .profAction l _ => l
  | .loopTrigger l _ _ => l
  | .loopRunStart l _ => l
  | .leBudgetExpire l _ _ => l
  | .leNop l _ _ => l
  | .leEnd l _ _ _ => l
  | .leLdi l _ _ => l
  | .leLui l _ _ => l
  | .leMov l _ _ => l
  | .leLdd l _ _ => l
  | .leStd l _ _ => l
  | .leLds l _ _ _ => l
  | .leSts l _ _ _ => l
  | .leAdd l _ _ => l
  | .leSub l _ _ => l
  | .leAdds l _ _ => l
  | .leSubs l _ _ => l
  | .leMulq l _ _ => l
  | .leNeg l _ _ => l
  | .leAbs l _ _ => l
  | .leMin l _ _ => l
  | .leMax l _ _ => l
  | .leClmp l _ _ => l
  | .leShl l _ _ => l
  | .leSar l _ _ => l
  | .leClra l _ _ => l
  | .leWra l _ _ => l
  | .leRda l _ _ => l
  | .leCas l _ _ => l
  | .leMacw l _ _ => l
  | .leMacp l _ _ => l
  | .leOut l _ _ => l
  | .leLut l _ _ => l
  | .leReg l _ _ _ => l
  | .leCmp l _ _ => l
  | .leSel l _ _ => l
  | .leBf l _ _ => l
  | .leJmp l _ _ => l
  | .leShare l _ _ _ => l
  | .leCommit l _ _ _ => l
  | .leWait l _ _ _ => l
  | .leWaitRelease l _ _ _ => l
  | .lePre l _ _ => l
  | .leRds l _ _ => l
  | .seal l _ _ => l
  | .unseal l _ _ => l
  | .swap l _ _ _ => l
  | .bankCheckComplete l _ _ => l
  | .swapTakeEffect l _ => l
  | .leLock l _ _ _ => l
  | .leCtlRun l _ _ _ => l
  | .leClrCnt l _ _ => l
  | .edgeCompareFire l _ _ => l
  | .timebaseBoundary l _ _ => l
  | .edgeUpdHoldWrite l _ _ _ => l
  | .edgeModeWrite l _ _ _ => l
  | .edgeLvlWrite l _ _ _ => l
  | .pulseStart l _ => l
  | .pulseEnd l _ => l
  | .edgeHaltEnter l => l
  | .edgeHaltRelease l => l
  | .edgeLock l _ _ => l
  | .edgeCalComplete l _ _ _ _ => l
  | .dlStale l _ => l
  | .edgeLoss l => l
  | .gateWireEdge l _ _ => l
  | .turnOnStart l _ => l
  | .gatePrimeEnd l _ => l
  | .gateFloatEnd l _ _ _ => l
  | .gateWatchFault l _ => l
  | .overrideEnable l _ _ => l
  | .switchNodeCrossing l _ _ _ _ => l
  | .edgeInstantReport l _ => l
  | .refreshPulseStart l _ => l
  | .refreshPulseEnd l _ => l
  | .bsWarnChange l _ _ => l
  | .bsLow l _ => l
  | .bsLowRelease l _ => l
  | .scThresholdUpdate l _ _ => l
  | .scLs l _ _ => l
  | .scDc l _ _ => l
  | .chopperRequestChange l _ => l
  | .chopFault l _ => l
  | .hardOv l _ => l
  | .hardOvClear l _ => l
  | .vlinkUv l _ => l
  | .vgUv l => l
  | .ot l _ => l
  | .extTrip l _ => l
  | .lathLoss l => l
  | .tripActionRelease l _ => l
  | .tripFlagClear l _ _ _ => l
  | .tripFlagReport l => l
  | .laneLathLoss l => l
  | .brgClrCnt l _ => l
  | .primeReset l _ => l
  | .brgLock l _ _ => l
  | .bootExit l => l
  | .identityCheck l => l
  | .syncExit l => l
  | .powerOnActivate l => l
  | .soloStart l => l
  | .suspectEnter l _ => l
  | .suspectClear l => l
  | .selfExclusion l _ => l
  | .excludedEnter l => l
  | .peerExclusion l => l
  | .exclusionCauseAction l _ _ => l
  | .devMulti l => l
  | .ownPlaus l _ => l
  | .disagree2 l _ => l
  | .rejoinHoldoffExpire l => l
  | .rejoinTransferSend l _ _ => l
  | .rejoinTransferReceived l _ _ => l
  | .rejoinTransferTimeout l => l
  | .shadowEnter l => l
  | .admission l _ => l
  | .serviceEnter l => l
  | .belayRecordSend l => l
  | .belayRecordReceived l _ _ => l
  | .belayKick l _ _ => l
  | .wdg l => l
  | .voteOutputChange l => l
  | .voteRefreshTimeout l => l
  | .voteClassChange l _ _ _ => l
  | .llArmReceived l => l
  | .lastLaneLatch l => l
  | .voteReport l => l
  | .voteLine l _ => l
  | .limpEnter l => l
  | .stopRequest l => l
  | .limpTimerExpire l => l
  | .enterService l _ => l
  | .leaveService l _ => l
  | .selfExclude l _ => l
  | .revive l _ => l
  | .belayClrCnt l _ => l
  | .ropeClrCnt l _ => l
  | .resyncResetEnd l => l
  | .resyncSelftestEnd l _ => l
  | .resyncCopyComplete l => l
  | .resyncBoundary l => l
  | .resyncComplete l _ _ => l
  | .comparatorTestDue l _ => l
  | .comparatorTestForce l _ => l
  | .triadClrCnt l _ => l
  | .tstNow l _ => l
  | .forceAbstain l _ => l
  | .breakModeRequest l _ => l
  | .debugHalt l _ => l
  | .breakpointHit l _ _ => l
  | .debugResume l _ => l
  | .debugStep l => l
  | .debugRegRead l _ _ => l
  | .debugRegWrite l _ _ _ _ => l
  | .debugMemAccess l _ _ _ _ _ _ => l
  | .debugBreakpointSet l _ _ _ => l
  | .add l _ => l
  | .sub l _ => l
  | .and l _ => l
  | .or l _ => l
  | .xor l _ => l
  | .andn l _ => l
  | .shl l _ => l
  | .shr l _ => l
  | .sar l _ => l
  | .min l _ => l
  | .max l _ => l
  | .minu l _ => l
  | .maxu l _ => l
  | .clz l _ => l
  | .sextb l _ => l
  | .sexth l _ => l
  | .mul l _ => l
  | .mulh l _ => l
  | .mulhu l _ => l
  | .div l _ => l
  | .divu l _ => l
  | .rem l _ => l
  | .remu l _ => l
  | .adds l _ => l
  | .subs l _ => l
  | .negs l _ => l
  | .abss l _ => l
  | .mulq l _ => l
  | .shls l _ => l
  | .clmp l _ => l
  | .rndh l _ => l
  | .cmp l _ => l
  | .cmpi l _ => l
  | .pand l _ => l
  | .por l _ => l
  | .pxor l _ => l
  | .pandn l _ => l
  | .addi l _ => l
  | .andi l _ => l
  | .ori l _ => l
  | .xori l _ => l
  | .shiShl l _ => l
  | .shiShr l _ => l
  | .shiSar l _ => l
  | .shiShls l _ => l
  | .lui l _ => l
  | .movi l _ => l
  | .ldw l _ => l
  | .ldh l _ => l
  | .ldhu l _ => l
  | .ldb l _ => l
  | .ldbu l _ => l
  | .stw l _ => l
  | .sth l _ => l
  | .stb l _ => l
  | .swp l _ => l
  | .sld l _ => l
  | .sst l _ => l
  | .sget l _ => l
  | .spub l _ => l
  | .br l _ => l
  | .call l _ => l
  | .jr l _ => l
  | .jalr l _ => l
  | .crr l _ => l
  | .crw l _ => l
  | .crs l _ => l
  | .crc l _ => l
  | .trap l _ => l
  | .scall l _ => l
  | .eret l _ => l
  | .park l _ => l
  | .bkpt l _ _ => l
  | .interruptEntry l _ _ => l
  | .parkWake l _ _ => l
  | .cordeeFrameReceived l _ _ _ _ _ => l
  | .windowEndTruncate l => l
  | .arbGapClose l => l
  | .arbForward l _ => l
  | .txSample l _ _ => l
  | .frameSend l _ _ _ => l
  | .basicCycleBoundary l _ => l
  | .listenTimeout l => l
  | .coldstartSend l _ => l
  | .coldstartWindowEnd l => l
  | .anchorEnter l => l
  | .starStartupTimeout l => l
  | .relayReceived l _ _ _ => l
  | .rxDecision l _ _ => l
  | .networkLost l _ => l
  | .networkRestored l _ => l
  | .tc10Wake l _ => l
  | .cdeClrCnt l _ => l
  | .cdeLock l _ _ => l
  | .mirrorRecordSend l => l
  | .mirrorRecordReceived l _ _ _ => l
  | .installation l => l
  | .verdictRead l _ => l
  | .verdictExpire l => l
  | .tetherLock l _ _ => l
  | .tetherClrCnt l _ => l
  | .testPulseStart l _ => l
  | .testPulseEnd l _ _ _ _ _ => l
  | .tpReadbackFail l _ => l
  | .channelFilterChange l _ _ => l
  | .discrepancyFault l _ => l
  | .jogSimTimeout l _ => l
  | .siuManualReset l _ _ => l
  | .siuResetEffect l => l
  | .siuClrCnt l _ => l
  | .siuFaultClear l _ _ _ => l
  | .siuRecordReceived l _ _ => l
  | .siuLock l _ _ => l
  | .supplySwitchToBackup l _ _ => l
  | .supplyReturnMain l _ _ => l
  | .inputOvervoltage l _ => l
  | .inputReverse l => l
  | .bothInputsLost l => l
  | .holdUpTimeout l => l
  | .pmicRequest l => l
  | .pmicPoll l => l
  | .pmicResponse l _ => l
  | .pmicRetryTimeout l => l
  | .iinPoll l => l
  | .pmicFwRequest l _ _ => l
  | .pgoodDrop l => l
  | .pgoodRise l => l
  | .oscReady l => l
  | .avsRun l => l
  | .gateRequest l _ _ => l
  | .domainGate l _ => l
  | .domainWakeOnAccess l _ _ => l
  | .domainReady l _ => l
  | .deadlineWake l _ => l
  | .sleepCommand l => l
  | .sleepArmExpire l => l
  | .sleepStepComplete l => l
  | .wakeSourceFire l _ _ => l
  | .wakeFail l _ => l
  | .wakeRetry l => l
  | .wakeFailSleep l => l
  | .restore l _ => l
  | .svcIrq l _ => l
  | .pwrClrCnt l _ => l
  | .pwrLock l _ _ => l
  | .budgetEval l _ _ => l
  | .ridgeTaskTrigger l _ => l
  | .ridgePost l _ _ => l
  | .ridgeNext l _ => l
  | .eccWriteback l => l
  | .program l _ => l
  | .erase l _ => l
  | .blank l _ => l
  | .nvmcOpComplete l _ => l
  | .nvmcClrCnt l _ => l
  | .watCntClr l _ => l
  | .mboxStageWrite l _ _ => l
  | .mboxPost l _ _ _ => l
  | .mboxMsgRead l _ _ => l
  | .mboxPtrRead l _ _ => l
  | .semaAcquire l _ _ => l
  | .semaRelease l _ _ => l
  | .semaFree l _ _ => l
  | .auth l _ _ => l
  | .challenge l _ => l
  | .makerAuth l _ => l
  | .close l _ => l
  | .pwSet l _ _ => l
  | .calOpen l _ => l
  | .calClose l _ => l
  | .dbgOpen l _ => l
  | .lcAdvance l _ => l
  | .lcReenter l _ => l
  | .retire l _ => l
  | .logReset l _ => l
  | .lcsLaneReset l _ => l
  | .lcsOpComplete l => l
  | .lockoutExpire l _ => l
  | .sessionIdleTimeout l => l
  | .challengeExpire l => l
  | .lcsLogSubWrite l _ _ => l
  | .logAppend l => l
  | .imgCheck l _ _ => l
  | .imgActivate l _ _ => l
  | .imgConfirm l _ => l
  | .attest l _ => l
  | .keySet l _ _ => l
  | .keyRevoke l _ _ => l
  | .secOpComplete l => l
  | .secureBoot l => l
  | .warmCheck l => l
  | .bootSelftest l => l
  | .bistRun l _ _ => l
  | .bistAbort l _ => l
  | .bistTestComplete l _ _ _ _ _ _ => l
  | .tetherLinkDown l _ => l
  | .tetherLinkUp l => l
  | .supplyInputReturn l _ _ => l
  | .otClear l _ => l
  | .vlinkUvClear l _ => l
  | .extTripRelease l _ => l
  | .vgUvClear l => l

namespace Machine

/-- A part of a lane's state beside registers, signals and memory. -/
inductive Part where
  | id | locks | time | skim | lath | bus | belaySt | gate | aon | adc | qeo
  | edge | bridge | cde | tether | siu | pwr | memSt | lcs | nv | triad
  | link (k : Link)
  | ax (n : Axis)
  | fb (n : Axis)
  | fl (n : Axis)
  | pr (n : Axis)
  | le (e : Fin 2)
  | core (c : Core)
deriving DecidableEq, Repr

/-- Whether two lane states agree in a part. -/
def Part.same (L M : LaneState) : Part → Prop
  | .id => M.id = L.id
  | .locks => M.locks = L.locks
  | .time => M.time = L.time
  | .skim => M.skim = L.skim
  | .lath => M.lath = L.lath
  | .bus => M.bus = L.bus
  | .belaySt => M.belaySt = L.belaySt
  | .gate => M.gate = L.gate
  | .aon => M.aon = L.aon
  | .adc => M.adc = L.adc
  | .qeo => M.qeo = L.qeo
  | .edge => M.edge = L.edge
  | .bridge => M.bridge = L.bridge
  | .cde => M.cde = L.cde
  | .tether => M.tether = L.tether
  | .siu => M.siu = L.siu
  | .pwr => M.pwr = L.pwr
  | .memSt => M.memSt = L.memSt
  | .lcs => M.lcs = L.lcs
  | .nv => M.nv = L.nv
  | .triad => M.triad = L.triad
  | .link k => M.link k = L.link k
  | .ax n => M.ax n = L.ax n
  | .fb n => M.fb n = L.fb n
  | .fl n => M.fl n = L.fl n
  | .pr n => M.pr n = L.pr n
  | .le e => M.le e = L.le e
  | .core c => M.core c = L.core c

/-- What a command may change in its lane: parts of the state, registers, signals, bytes of memory. -/
structure Footprint where
  parts : List Part := []
  regs : List Nat := []
  sigs : List Nat := []
  bytes : List Nat := []

/-- What both of two footprints allow. -/
def Footprint.add (F G : Footprint) : Footprint :=
  { parts := F.parts ++ G.parts, regs := F.regs ++ G.regs, sigs := F.sigs ++ G.sigs, bytes := F.bytes ++ G.bytes }

/-- A footprint within another. -/
def Footprint.Has (F G : Footprint) : Prop :=
  (∀ p ∈ G.parts, p ∈ F.parts) ∧ (∀ a ∈ G.regs, a ∈ F.regs) ∧ (∀ i ∈ G.sigs, i ∈ F.sigs) ∧ (∀ a ∈ G.bytes, a ∈ F.bytes)

/-- The record of a violation (R523). -/
def Foot.viol : Footprint := { regs := [R.watCnt, R.watStat, R.watViol, R.watVaddr] }

/-- The axis of an index; the maps of the axes take an index beyond 3 as 3. -/
def axOf (n : Nat) : Axis := ⟨min n 3, by omega⟩

/-- The engine of an index. -/
def leOf (e : Nat) : Fin 2 := ⟨min e 1, by omega⟩

/-- A change of the state of an axis: its state and the mirror of it, the first runs of its loops, its legs, its
profile, its available torque (R92, R93, R170, R191, R225). -/
def Foot.axis (n : Nat) : Footprint :=
  { parts := [.le 0, .le 1, .pr (axOf n), .edge]
    regs := [R.axpState n, R.profState n, R.edgeEuLvl (3 * n), R.edgeEuLvl (3 * n + 1), R.edgeEuLvl (3 * n + 2)]
    sigs := [axisSig n 0x40, axisSig n 0x33] }

/-- A change of the state of any axes, and what each keeps beside its registers. -/
def Foot.axes : Footprint :=
  ((((Foot.axis 0).add (Foot.axis 1)).add (Foot.axis 2)).add (Foot.axis 3)).add
    { parts := [.ax 0, .ax 1, .ax 2, .ax 3] }

/-- A plan of a profile (R170 to R173). -/
def Foot.plan (n : Nat) : Footprint := { parts := [.pr (axOf n)], regs := [R.profState n, R.profStat n] }

/-- A change of the Belay state: with it the axes and the mirrors (R93, R272, R317). -/
def Foot.belay : Footprint :=
  Foot.axes.add { parts := [.belaySt], regs := [R.belayState, R.belayCause], sigs := [0x38000, 0x38001] }

/-- An exclusion, own or of a peer: with it its record in BELAY_STAT and BELAY_CNT (R273, R288, R294). -/
def Foot.excl : Footprint := Foot.belay.add { regs := [R.belayStat, R.belayCnt] }

/-- A change of the trip sources of the bridge die, and what the gates make of it (R265 to R270). -/
def Foot.trip : Footprint :=
  { parts := [.bridge], regs := [R.tripSrc0, R.tripSrc1, R.tripFlag0, R.tripFlag1, R.tripStat] }

/-- TRIAD_3: its record, and the exclusion of the lane (R338 to R341). -/
def Foot.triad3 : Footprint :=
  Foot.excl.add { parts := [.triad], regs := [R.triadStat, R.triadCnt, R.triadMis, R.triadMisPc, R.triadMisTime,
    R.triadLastMis, R.triadLastPc, R.triadLastTime] }

/-- An entry of the change log at index `n`: its bytes, the head of the chain, and the counts of the log (R547, R548). -/
def Foot.log (n : Nat) : Footprint :=
  { regs := [R.lcsLog, R.lcsStat, R.lcsState] ++ (List.range 12).map R.lcsHead, bytes := List.range' (logAddr n) 12 }

/-- `M` differs from `L` at most within a footprint. -/
def Kept (F : Footprint) (L M : LaneState) : Prop :=
  (∀ p, p ∉ F.parts → p.same L M) ∧ (∀ a, a ∉ F.regs → M.reg a = L.reg a) ∧
    (∀ i, i ∉ F.sigs → M.sig i = L.sig i) ∧ (∀ a, a ∉ F.bytes → M.byte a = L.byte a)

/-- A command completes and changes, beside its own lane, what makes `s` into `s0` (a frame put on or taken off a link): the
lane stays within the footprint, and `P` holds between the lane before and after. -/
def DoesOn (s s0 : State) (c : Instr) (F : Footprint) (P : LaneState → LaneState → Prop) : Prop :=
  ∃ M, exec c s = .next (s0.setLane c.lane M) ∧ Kept F (s.lane c.lane) M ∧ P (s.lane c.lane) M

/-- A command completes: it answers a next state in which nothing but its own lane has changed, that lane within the
footprint, and `P` holds between the lane before and after. -/
def Does (s : State) (c : Instr) (F : Footprint) (P : LaneState → LaneState → Prop) : Prop := DoesOn s s c F P

/-- A command that draws a free value completes (assumption 2): as `Does`, with the draw counter advanced. -/
def DoesFree (s : State) (c : Instr) (F : Footprint) (P : LaneState → LaneState → Prop) : Prop :=
  ∃ M, exec c s = .next { s.setLane c.lane M with draws := s.draws + 1 } ∧ Kept F (s.lane c.lane) M ∧
    P (s.lane c.lane) M

/-- A command whose condition fails: the event cannot occur, and the state stays as it is (assumption 1). -/
def Stays (s : State) (c : Instr) : Prop := exec c s = .next s

/-- The change log has grown by an entry (R547, R548). -/
def Appended (L M : LaneState) (role kind sub : Nat) (w1 w2 : Word) : Prop :=
  let n := L.get R.lcsLog_n
  M.get R.lcsLog_n = n + 1 ∧ M.word (logAddr n) = wordN (kind + role * 2 ^ 16 + L.id.idx * 2 ^ 18 + sub * 2 ^ 20) ∧
    M.word (logAddr n + 4) = w1 ∧ M.word (logAddr n + 8) = w2

/-- The bridge die's record of trips agrees with its actions: TRIP_STAT shows the action of each port (R266, R267). -/
def LaneState.ActsShown (L : LaneState) : Prop :=
  ∀ p, p < 4 → bits (L.get R.tripStat_act_p) (2 * p + 1) (2 * p) = L.portAction p

/-- A trip source has been raised: active, and where enabled flagged and on its way to the lane die (R265, R269, R270). -/
def Raised (L M : LaneState) (k : Nat) : Prop :=
  M.tripActive k = true ∧ (bit (L.tripEntry k) 17 = true → M.tripFlagged k = true ∧ k ∈ M.bridge.flagsOut) ∧ M.ActsShown

/-- A trip source has been raised by a single occurrence: flagged as `Raised`, no longer active. -/
def Pulsed (L M : LaneState) (k : Nat) : Prop :=
  M.tripActive k = false ∧ (bit (L.tripEntry k) 17 = true → M.tripFlagged k = true ∧ k ∈ M.bridge.flagsOut) ∧ M.ActsShown

/-- A trip source has become inactive; its flag stays (R266, R269). -/
def Ended (L M : LaneState) (k : Nat) : Prop :=
  M.tripActive k = false ∧ M.tripFlagged k = L.tripFlagged k ∧ M.ActsShown

/-- A lane has been excluded by a cause: EXCLUDED, or DEAD with REJ_LIMIT where its rejoin attempts are exhausted; the
exclusion is recorded and counted, and every axis of a lane that took part is in its safe action (R273, R288, R308). -/
def OwnExcluded (L M : LaneState) (code : Nat) : Prop :=
  M.belay = (if L.exhausted then bsDead else bsExcluded) ∧
    M.get R.belayCause_own = (if L.exhausted then 0x19 else code % 256) ∧ M.is R.belayStat_excl_evt = true ∧
    M.get R.belayCnt_excl = satU 16 (L.get R.belayCnt_excl + 1) ∧
    (participates L.belay = true → ∀ n : Axis, L.axis n ≠ axOff →
      M.axis n = if L.is (R.axpCfg_safe n) then axAsc else axFree)

/-- A driving lane has begun to exclude itself: SUSPECT with the cause, its request posted, its axes as before (R293). -/
def SelfExcluding (L M : LaneState) (code : Nat) : Prop :=
  M.belay = bsSuspect ∧ M.belaySt.selfExcluding = true ∧ L.id.idx ∈ M.belaySt.requests ∧
    M.belaySt.requestCause = code ∧ M.get R.belayCause_own = code % 256 ∧ M.is R.belayStat_self_excl = true ∧
    ∀ n : Axis, M.axis n = L.axis n

/-! ## Loop engines -/

/-- An engine's run is about to issue its next instruction, of opcode `op`, whose cost the budget allows and after which
the program counter stays within program memory (R193, R195, R210). -/
def LaneState.LeReady (L : LaneState) (e : Fin 2) (r : LeRun) (op cost : Nat) : Prop :=
  (L.le e).run = some r ∧ r.wait = none ∧ leOp (L.leWord e r.pc) = op ∧ r.cycles + cost ≤ L.dBudget e r.loop ∧ r.pc < 0xFFF ∧
    r.loop < 16

/-- A run goes on as `r'`, its program counter advanced by one and its cycles by a cost; the engine keeps the rest. -/
def LeRetired (e : Fin 2) (L M : LaneState) (r r' : LeRun) (cost : Nat) : Prop :=
  M.le e = { L.le e with run := some { r' with pc := r.pc + 1, cycles := r.cycles + cost } }

/-- An instruction that writes qd of its run and nothing else (R210). -/
def LeWrites (c : Lane → Fin 2 → Ecc → Instr) (op cost : Nat) (f : LeRun → Nat → Int) : Prop :=
  ∀ (s : State) (l : Lane) (e : Fin 2) (r : LeRun), (s.lane l).LeReady e r op cost →
    Does s (c l e .ok) { parts := [.le e] } fun L M =>
      LeRetired e L M r (r.setQ (leD (L.leWord e r.pc)) (f r (L.leWord e r.pc))) cost

/-- What an engine fault may change (R195). -/
def Foot.leFault (e : Fin 2) (k : Nat) : Footprint :=
  { parts := [.le e, .belaySt]
    regs := [R.leStat e, R.leFlt e, R.leLoopEn e, R.leLoopStat e k, R.leLoopTime e k, R.leBankStat e, R.belayStat] }

/-- An engine fault has ended a run: the loop is disabled, the first fault is recorded, and a loop that an axis names
raises the own cause 0x0D (R195). -/
def LeFaulted (L M : LaneState) (e : Fin 2) (r : LeRun) (cause : Nat) : Prop :=
  (M.le e).run = none ∧ M.is (R.leStat_fault e) = true ∧ M.bitOf (R.leLoopEn_en e) r.loop = false ∧
    (L.is (R.leStat_fault e) = false → M.get (R.leFlt_cause e) = cause ∧ M.get (R.leFlt_loop e) = r.loop % 16) ∧
    (L.named e r.loop = true → M.isRaised 0x0D L.id = true)

/-! ## Loss of state -/

/-- The registers that a loss of the lane die's state sets beside their reset values and what is kept (R273, R529, R604). -/
def Foot.loss : Footprint :=
  { regs := [R.sysId, R.cdeCfg, R.mboxEpoch0, R.mboxEpoch1, R.lcsState, R.lcsStat, R.triadStat, R.pwrSleep, R.pwrGate,
      R.pwrState] ++ (List.range 8).map R.nvmcSrCnt }

/-- The lane die has lost its state, within a footprint: the kept registers and bytes stay, all others have their reset
values; signals, axes, engines, links and units start anew; the always-on domain, the SVC, the fuses and the votes' gate
stay; the triad is at the boot ROM (R16, R273, R348, R355, R527, R529). -/
def Lost (F : Footprint) (L M : LaneState) : Prop :=
  (∀ a, a ∉ F.regs → M.reg a = if keptReg a then L.reg a else R.regReset a) ∧
    (∀ a, a ∉ F.bytes → M.byte a = if keptByte a then L.byte a else memReset a) ∧
    (∀ i, i ∉ F.sigs → M.sig i = 0) ∧ M.id = L.id ∧ M.nv = L.nv ∧ M.gate = L.gate ∧
    M.core .svc = L.core .svc ∧ M.core .tc0 = { pc := 0x10000000 } ∧ M.core .tc1 = { pc := 0x10000000 } ∧
    M.core .tc2 = { pc := 0x10000000 } ∧ M.time.now = 0 ∧ M.belaySt = {} ∧ M.triad = {} ∧ M.skim = {} ∧
    M.lath = {} ∧ M.bus = {} ∧ M.edge = {} ∧ M.cde = {} ∧ M.tether = {} ∧ M.siu = {} ∧
    M.lcs = { chalCount := L.lcs.chalCount } ∧ (∀ k, M.link k = {}) ∧ (∀ e : Fin 2, M.le e = {}) ∧
    (∀ n : Axis, M.ax n = {} ∧ M.fb n = {} ∧ M.fl n = {} ∧ M.pr n = {})

/-- What a run of the boot ROM may change: the log and its head, the trailer lines of both banks, the repairs, the
calibration signals, the results in SEC and the cores (R547, R553, R554, R558, R559). -/
def Foot.rom : Footprint :=
  { parts := [.lcs, .aon, .memSt, .core .tc0, .core .tc1, .core .tc2]
    regs := [R.lcsLog, R.lcsStat, R.lcsState, R.nvmcSrLast, R.nvmcSrStat, R.secStat, R.nvmcStat, R.secRun] ++
      (List.range 12).map R.lcsHead ++ (List.range 8).map R.nvmcSrCnt
    sigs := List.range 0x10000
    bytes := List.range' (lineAddr 0 0) 176 ++ List.range' (lineAddr 1 0) 176 ++ List.range' (logAddr 0) 0xC000 }

/-! ## Lane cores -/

/-- A core is about to issue the word `w` at its pc, which encodes `op`: the core runs, the fetch passes the address map,
the world table and ECC, the core has the instruction, and the cores of the triad agree (R328, R356, R370, R375, R380). -/
def LaneState.Ready (L : LaneState) (i : Issue) (op : CoreOp) (w : Nat) : Prop :=
  L.coreRuns i.core = true ∧ fetchable i.core (L.core i.core).pc.toNat = true ∧
    L.fetchViol (L.coreReq i.core) (L.core i.core).pc.toNat = none ∧
    (match regionAt (L.core i.core).pc.toNat with | .envm t => L.nvBusyOn t | _ => false) = false ∧
    i.fetchEcc = .ok ∧ (L.word (L.core i.core).pc.toNat).toNat = w ∧ coreOp w = some op ∧
    (i.core == .svc && op.svcLacks) = false ∧ i.vote = .agree

/-- The predicate of a word lets it take effect (R357). -/
def LaneState.Fires (L : LaneState) (i : Issue) (op : CoreOp) (w : Nat) : Prop :=
  L.Ready i op w ∧ (L.core i.core).squashes w = false

/-- What an instruction may change beside its core: a single step has been taken. -/
def Foot.core (c : Core) : Footprint := { parts := [.core c, .triad] }

/-- A core has retired an instruction: it holds `D` but for its pc, the next word, and its cycles. -/
def Retired (c : Core) (L M : LaneState) (D : CoreSt) (cost : Nat) : Prop :=
  M.core c = { D with pc := (L.core c).pc + 4, cycles := (L.core c).cycles + cost } ∧
    M.triad = if c == .svc then L.triad else { L.triad with stepping := false }

/-- An access of a core to `n` bytes of lane SRAM passes: aligned, allowed by the world table, no bus error waits, the
data's ECC is correct (R363, R367, R521). -/
def LaneState.Passes (L : LaneState) (i : Issue) (a n : Nat) (write : Bool) (w : Word) : Prop :=
  a % n = 0 ∧ 0x20000000 ≤ a ∧ a < 0x20200000 ∧ i.core.master.id ∉ L.bus.errors ∧
    L.judge (L.coreReq i.core) (a / 4 * 4) write w = none ∧ L.gated a = false ∧ i.dataEcc = .ok

/-- An access of a core to `n` consecutive signals from `id` passes the world table; a write stores `ws` (R49, R50,
R365, R366). -/
def LaneState.SigOpen (L : LaneState) (i : Issue) (id n : Nat) (write : Bool) (ws : List Word) : Prop :=
  i.core.master.id ∉ L.bus.errors ∧ L.gated (0x20200000 + 4 * id) = false ∧ (∀ y, inSeg y id = false) ∧
    ∀ k, k < n → L.judge (L.coreReq i.core) (0x20200000 + 4 * (id + k)) write (ws.getD k 0) = none

/-- An instruction that writes gd and nothing else, in a number of cycles. -/
def CoreWrites (c : Lane → Issue → Instr) (op : CoreOp) (cost : Nat) (f : CoreSt → Nat → Word) : Prop :=
  ∀ (s : State) (l : Lane) (i : Issue) (w : Nat), (s.lane l).Fires i op w →
    Does s (c l i) (Foot.core i.core) fun L M =>
      Retired i.core L M ((L.core i.core).setG (fD w) (f (L.core i.core) w)) cost

/-- An instruction that writes a predicate and nothing else, in one cycle. -/
def CorePredicate (c : Lane → Issue → Instr) (op : CoreOp) (f : CoreSt → Nat → Bool) : Prop :=
  ∀ (s : State) (l : Lane) (i : Issue) (w : Nat), (s.lane l).Fires i op w →
    Does s (c l i) (Foot.core i.core) fun L M =>
      Retired i.core L M ((L.core i.core).setP (fD w % 8) (f (L.core i.core) w)) 1

/-- A core has entered an exception: EPC, ECAUSE, EADDR, ESAVE, STATUS and the pc, all general registers kept (R371,
R372). -/
def Entered (c : Core) (L M : LaneState) (v detail code eaddr : Nat) (epc : Word) (secure : Bool) : Prop :=
  let C := L.core c
  let D := M.core c
  (D.crw crEpc).toNat = epc.toNat / 4 * 4 ∧ (D.crw crEcause).toNat = v + 256 * detail + 65536 * code ∧
    (D.crw crEaddr).toNat = eaddr ∧ (D.crw crEsave).toNat = setBits (C.crw crPred).toNat 0 0 1 ∧
    (D.crw crStatus).toNat = 1 + 2 * b2n secure + 16 + 256 * bits (C.crw crStatus).toNat 3 0 ∧
    D.pc.toNat = ((C.crw (if secure then crVbaseS else crVbaseN)).toNat / 2048 * 2048 + 0x20 * v) % 2 ^ 32 ∧
    D.g = C.g ∧ D.parked = C.parked ∧ D.stopped = C.stopped

/-- The canonical form of a memory: addresses strictly rising, no entry equal to what an unlisted address reads as. -/
def Memory.wf (m : List Host.Cell) : Bool := Sparse.wf memReset m

/-- The canonical form of a lane's maps. -/
def LaneState.wf (L : LaneState) : Bool :=
  Sparse.wf R.regReset L.regs && Sparse.wf (fun _ => 0) L.sigs && Memory.wf L.mem

/-- Every message in flight is one that its sender can send (R30, R50, R51). -/
def State.LinksLegal (s : State) : Prop := ∀ x y, ∀ m ∈ s.flight x y, m.legal x = true

end Machine

end Sys2Proof
end

