-- ==== Sys2Proof/Certificates/Slice0/Obligations.lean ====
section
/-! DEFINITION. The statements of this model for the provers. Each says what a family of commands does, at every state and
operands that meet its hypotheses: the command answers a next state (`Does`), nothing outside the named footprint changes
(`Kept`), and what the rules give holds between the lane before and after. -/

section

open Sys2Proof Sys2Proof.Machine

/-- A step runs the command at the front of the queue. At a state whose queue holds a command c and a rest, step is
exec of c at that state with the rest as its queue; on an empty queue the module idles (the model's choice,
assumption 89). Rests on 00_scope.md. -/
def Obligations.StepRunsFront : Prop :=
  (∀ (s : State) (c : Instr) (rest : List Instr), step { s with pending := c :: rest } = exec c { s with pending := rest }) ∧
  (∀ s : State, s.pending = [] → step s = .next s)

/-- Every command answers a next state and reaches only its own lane. Every command at every state answers a next
state: no command faults or is refused; the queue stays as it is, every lane but the command's is unchanged, and the
free values drawn are not drawn again (assumption 2). Rests on 00_scope.md, R17. -/
def Obligations.EveryCommandCompletes : Prop :=
  ∀ (c : Instr) (s : State), ∃ t, exec c s = .next t ∧ t.pending = s.pending ∧ s.draws ≤ t.draws ∧
    ∀ l, l ≠ c.lane → t.lane l = s.lane l

/-- Every frame in flight on the Rope links is one that its sender can send. From every state in which each frame in
flight is legal for its sender (blocks of 1 to 64 signals of the sender's own segment, period numbers of 16 bits,
transfers that name the sender), a step leads to such a state. Rests on R30, R50, R51, R305. -/
def Obligations.LinksKept : Prop :=
  ∀ s t : State, s.LinksLegal → step s = .next t → t.LinksLegal

/-- Every lane keeps its identity. From every state in which each lane holds its own identity, a step leads to such
a state. Rests on R5, R17. -/
def Obligations.LanesKeepIdentity : Prop :=
  ∀ s t : State, (∀ l, (s.lane l).id = l) → step s = .next t → ∀ l, (t.lane l).id = l

/-- Registers, signals and memory keep their canonical form. From every state in which the registers, signals and
memory of each lane are in canonical form (addresses strictly rising, no entry equal to what an unlisted address
reads as; the form is the model's, assumption 63), a step leads to such a state. Rests on R16, R503. -/
def Obligations.CanonicalFormKept : Prop :=
  ∀ s t : State, (∀ l, (s.lane l).wf = true) → step s = .next t → ∀ l, (t.lane l).wf = true

/-- The state after reset. At reset the queue and the links are empty, the invariants hold, and each lane is in BOOT
with its identity in SYS_ID, its triad at the boot ROM, every axis OFF, every other register at its reset value and
every signal 0. Rests on R5, R273, R355, R480. -/
def Obligations.ResetState : Prop :=
  State.reset.pending = [] ∧ (∀ x y, State.reset.flight x y = []) ∧ State.reset.LinksLegal ∧
    (∀ l, (State.reset.lane l).id = l ∧ (State.reset.lane l).wf = true) ∧
    ∀ l, (State.reset.lane l).belay = bsBoot ∧ (State.reset.lane l).get R.sysId_lane = l.idx ∧
      (∀ n : Axis, (State.reset.lane l).axis n = axOff) ∧ (State.reset.lane l).time.now = 0 ∧
      (∀ c ∈ [Core.tc0, .tc1, .tc2], ((State.reset.lane l).core c).pc = 0x10000000) ∧
      (∀ a, a ≠ R.sysId → a ≠ R.cdeCfg → (State.reset.lane l).reg a = R.regReset a) ∧
      (∀ i, (State.reset.lane l).sig i = 0) ∧ (∀ a, (State.reset.lane l).byte a = memReset a)

/-- Skim: jobs fall due, are preempted, are not run in a gated domain; ADCZERO; the SKIM_CTL commands. A job whose
period has elapsed becomes due unless its domain is gated (then its last status reads 3) or it is still due (then
overrun is set); a preempted step counts and leaves the job due; ADCZERO ends with the signed offset of its ADC as
value, status 1 exactly beyond the limit, and the job is no longer due; the three SKIM_CTL commands change their bit
only, clr_cnt sets every job count to 0. Rests on R53, R54, R55, R56, R67. -/
def Obligations.SkimTable : Prop :=
  (∀ (s : State) (l : Lane) (j : Fin 16), (s.lane l).is R.skimCtl_en = true → (s.lane l).is (R.skimJobCfg_en j) = true →
     (s.lane l).jobKind j ≠ 0 → (s.lane l).get (R.skimJobCfg_period j) ≠ 0 →
     (s.lane l).get (R.skimJobCfg_period j) ≤ (s.lane l).skim.since.get j → j.val ∉ (s.lane l).skim.due →
     (s.lane l).domainOn ((s.lane l).jobDomain j) = true →
     Does s (.skimJobDue l j) { parts := [.skim] } fun L M =>
       M.skim = { L.skim with since := L.skim.since.set j 0, due := L.skim.due ++ [j.val] }) ∧
  (∀ (s : State) (l : Lane) (j : Fin 16), (s.lane l).is R.skimCtl_en = true → (s.lane l).is (R.skimJobCfg_en j) = true →
     (s.lane l).jobKind j ≠ 0 → (s.lane l).get (R.skimJobCfg_period j) ≠ 0 →
     (s.lane l).get (R.skimJobCfg_period j) ≤ (s.lane l).skim.since.get j →
     (s.lane l).domainOn ((s.lane l).jobDomain j) = false →
     Does s (.skimJobDue l j) { parts := [.skim], regs := [R.skimJobLast j] } fun L M =>
       M.get (R.skimJobLast_status j) = 3 ∧ M.skim.due = L.skim.due) ∧
  (∀ (s : State) (l : Lane) (j : Fin 16), (s.lane l).is R.skimCtl_en = true → (s.lane l).is (R.skimJobCfg_en j) = true →
     (s.lane l).jobKind j ≠ 0 → (s.lane l).get (R.skimJobCfg_period j) ≠ 0 →
     (s.lane l).get (R.skimJobCfg_period j) ≤ (s.lane l).skim.since.get j → j.val ∈ (s.lane l).skim.due →
     (s.lane l).domainOn ((s.lane l).jobDomain j) = true →
     Does s (.skimJobDue l j) { parts := [.skim], regs := [R.skimStat] } fun L M =>
       M.is R.skimStat_overrun = true ∧ M.skim.due = L.skim.due) ∧
  (∀ (s : State) (l : Lane) (j : Fin 16), (s.lane l).skimNext j = true →
     Does s (.skimStepPreempt l j) { regs := [R.skimStat, R.skimJobCnt j] } fun L M =>
       M.get (R.skimJobCnt_preempt j) = satU 16 (L.get (R.skimJobCnt_preempt j) + 1) ∧ M.get R.skimStat_job = j) ∧
  (∀ (s : State) (l : Lane) (j : Fin 16) (code : BitVec 14), (s.lane l).skimNext j = true → (s.lane l).jobKind j = jkAdczero →
     Does s (.adczero l j code)
       { parts := [.skim], regs := [R.skimJobLast j, R.skimJobCnt j, R.skimStat, R.adcZstat] } fun L M =>
       M.get (R.skimJobLast_value j) = wrapTo 24 ((code.toNat : Int) - 8192) ∧
       M.get (R.skimJobLast_status j) = b2n (decide (L.get R.adcZlim_lim < ((code.toNat : Int) - 8192).natAbs)) ∧
       M.skim.running = none ∧ j.val ∉ M.skim.due ∧ M.is R.skimStat_busy = false) ∧
  (∀ (s : State) (l : Lane) (q : Req) (en : Bool),
     (s.lane l).judge q R.skimCtl true (skimCtlWord en ((s.lane l).is R.skimCtl_hold) false) = none →
     Does s (.skimEnable l q en) { regs := [R.skimCtl] } fun L M =>
       M.is R.skimCtl_en = en ∧ M.is R.skimCtl_hold = L.is R.skimCtl_hold) ∧
  (∀ (s : State) (l : Lane) (q : Req) (hold : Bool),
     (s.lane l).judge q R.skimCtl true (skimCtlWord ((s.lane l).is R.skimCtl_en) hold false) = none →
     Does s (.skimHold l q hold) { regs := [R.skimCtl] } fun L M =>
       M.is R.skimCtl_hold = hold ∧ M.is R.skimCtl_en = L.is R.skimCtl_en) ∧
  (∀ (s : State) (l : Lane) (q : Req),
     (s.lane l).judge q R.skimCtl true
       (skimCtlWord ((s.lane l).is R.skimCtl_en) ((s.lane l).is R.skimCtl_hold) true) = none →
     Does s (.skimClrCnt l q) { regs := R.skimCtl :: (List.range 16).map R.skimJobCnt } fun L M =>
       (∀ j : Fin 16, M.reg (R.skimJobCnt j) = 0) ∧
       M.is R.skimCtl_en = L.is R.skimCtl_en ∧ M.is R.skimCtl_hold = L.is R.skimCtl_hold)

/-- SYS_TICK and SYS_TIME, the correction of lane time, the timing and clock conditions of a lane. A write of
SYS_TICK takes a legal tick and n, unless its lock is written; an illegal pair changes no field and sets
tick_illegal; a read of SYS_TIME_LO answers the lower half and captures the upper half for that master alone;
SYS_TIME_HI answers what was captured. The correction clamps the slew and the rate and shows holdover and alignment;
a pair offset lapses after its fourth period without a valid one; a lane beyond its limit becomes suspect and one
within it again is cleared; a stopped clock, a handshake timeout and a failed oscillator are recorded and raised as
CLK, the edge-timing clock also forcing the gate wires low. Rests on R29, R31, R33, R35, R36, R37, R41, R42, R47,
R48, R239. -/
def Obligations.LaneTime : Prop :=
  (∀ (s : State) (l : Lane) (q : Req) (w : Word), (s.lane l).judge q R.sysTick true w = none →
     tickLegal (bits w.toNat 11 0) (bits w.toNat 20 16) (s.lane l).basicCycle = true →
     (s.lane l).locked R.sysLock = false →
     Does s (.sysTickWrite l q w) { regs := [R.sysTick] } fun _ M =>
       M.get R.sysTick_tick = bits w.toNat 11 0 ∧ M.get R.sysTick_n = bits w.toNat 20 16) ∧
  (∀ (s : State) (l : Lane) (q : Req) (w : Word), (s.lane l).judge q R.sysTick true w = none →
     tickLegal (bits w.toNat 11 0) (bits w.toNat 20 16) (s.lane l).basicCycle = true →
     (s.lane l).locked R.sysLock = true →
     Does s (.sysTickWrite l q w) { regs := [R.sysTick] } fun L M =>
       M.reg R.sysTick = L.reg R.sysTick) ∧
  (∀ (s : State) (l : Lane) (q : Req) (w : Word), (s.lane l).judge q R.sysTick true w = none →
     tickLegal (bits w.toNat 11 0) (bits w.toNat 20 16) (s.lane l).basicCycle = false →
     Does s (.sysTickWrite l q w) { regs := [R.sysAlignStat] } fun _ M => M.is R.sysAlignStat_tick_illegal = true) ∧
  (∀ (s : State) (l : Lane) (q : Req), (s.lane l).judge q R.sysTimeLo false 0#32 = none →
     Does s (.sysTimeLoRead l q) { parts := [.time, .bus] } fun L M =>
       Sparse.get 0 M.bus.reply q.m.id = L.time.now.extractLsb' 0 32 ∧
       Sparse.get 0 M.time.latch q.m.id = L.time.now.extractLsb' 32 32 ∧
       (∀ i, i ≠ q.m.id → Sparse.get 0 M.time.latch i = Sparse.get 0 L.time.latch i) ∧ M.time.now = L.time.now) ∧
  (∀ (s : State) (l : Lane) (q : Req), (s.lane l).judge q R.sysTimeHi false 0#32 = none →
     Does s (.sysTimeHiRead l q) { parts := [.bus] } fun L M =>
       Sparse.get 0 M.bus.reply q.m.id = Sparse.get 0 L.time.latch q.m.id) ∧
  (∀ (s : State) (l : Lane),
     Does s (.alignCorrection l)
       { parts := [.time, .belaySt], regs := [R.sysAlignStat, R.sysRate, R.sysAlignOfsA, R.sysAlignOfsB, R.sysAlignOfsC,
           R.belayStat] } fun L M =>
       M.time.nextSlew = clampI (-512) 512 (divOpen L.correction2 4) ∧
       M.is R.sysAlignStat_holdover = L.followed.isEmpty ∧
       M.getS R.sysRate_corr = clampI (-rateLimit) rateLimit
         (L.getS R.sysRate_corr + divOpen (L.correction2 * 2 ^ 32) (2 * 8 * L.tServo * 64)) ∧
       M.is R.sysAlignStat_aligned = decide ((M.getS (ofsF L.id)).natAbs ≤ 640)) ∧
  (∀ (s : State) (l x y : Lane) (d : Int) (k : Nat), x ≠ y → 4 ≤ k →
     ((s.lane l).time.heldAB = some (d, k) → (x = .a ∧ y = .b ∨ x = .b ∧ y = .a) →
       Does s (.pairOffsetLapse l x y) { parts := [.time] } fun L M =>
         M.time.heldAB = none ∧ M.time.heldBC = L.time.heldBC ∧ M.time.heldCA = L.time.heldCA) ∧
     ((s.lane l).time.heldBC = some (d, k) → (x = .b ∧ y = .c ∨ x = .c ∧ y = .b) →
       Does s (.pairOffsetLapse l x y) { parts := [.time] } fun L M =>
         M.time.heldBC = none ∧ M.time.heldAB = L.time.heldAB ∧ M.time.heldCA = L.time.heldCA) ∧
     ((s.lane l).time.heldCA = some (d, k) → (x = .c ∧ y = .a ∨ x = .a ∧ y = .c) →
       Does s (.pairOffsetLapse l x y) { parts := [.time] } fun L M =>
         M.time.heldCA = none ∧ M.time.heldAB = L.time.heldAB ∧ M.time.heldBC = L.time.heldBC)) ∧
  (∀ (s : State) (l y : Lane), 2 ≤ (s.lane l).time.beyond.get y.idx →
     (s.lane l).bitOf R.sysAlignStat_exclude y.idx = false → participates ((s.lane l).view y) = true →
     Does s (.timeSuspectRaise l y) { parts := [.belaySt], regs := [R.sysAlignStat, R.belayStat] } fun _ M =>
       M.bitOf R.sysAlignStat_suspect y.idx = true ∧ M.isRaised 0x05 y = true) ∧
  (∀ (s : State) (l y : Lane), 16 ≤ (s.lane l).time.within.get y.idx →
     Does s (.timeSuspectClear l y) { regs := [R.sysAlignStat] } fun _ M =>
       M.bitOf R.sysAlignStat_suspect y.idx = false) ∧
  (∀ (s : State) (l : Lane) (i : Fin 14),
     Does s (.clockLoss l i) { parts := [.belaySt, .edge], regs := [R.sysIslStat, R.belayStat] } fun L M =>
       M.bitOf R.sysIslStat_clk_loss i = true ∧ M.isRaised 0x0A L.id = true ∧
       M.edge.forcedLow = (decide (i.val = 4) || L.edge.forcedLow)) ∧
  (∀ (s : State) (l : Lane) (i : Fin 14) (m : Master),
     Does s (.handshakeTimeout l i m) { parts := [.belaySt, .bus], regs := [R.sysIslStat, R.belayStat] } fun L M =>
       M.bitOf R.sysIslStat_hs_timeout i = true ∧ M.isRaised 0x0A L.id = true ∧ m.id ∈ M.bus.errors) ∧
  (∀ (s : State) (l : Lane),
     Does s (.oscFail l) { parts := [.belaySt, .time], regs := [R.belayStat] } fun L M =>
       M.time.oscOk = false ∧ M.time.onRc = true ∧ M.isRaised 0x0A L.id = true ∧ M.time.now = L.time.now)

/-- TIME frames and reports go out on the links that are up, and what arrives is stamped, judged and counted. A lane
sends its TIME frame on every link that is up and stamps it, its report once both frames of a link have passed; an
arriving frame is stamped and counted where its CRC fails; a report of the own period whose delay lies within the
limits gives the offset of the pair, any other sets frame_miss; tick parameters are held and compared with the
reference in SYNC. Rests on R30, R31, R44, R322. -/
def Obligations.RopeTime : Prop :=
  (∀ (s : State) (l : Lane) (t0 t1 : BitVec 64), (s.lane l).linkUp .l0 = true → (s.lane l).linkUp .l1 = true →
     DoesOn s ((s.setFlight l (l.peer .l0) (s.flight l (l.peer .l0) ++ [.time ((s.lane l).pnum % 65536)])).setFlight
         l (l.peer .l1) (s.flight l (l.peer .l1) ++ [.time ((s.lane l).pnum % 65536)]))
       (.timeFrameSend l t0 t1) { parts := [.link .l0, .link .l1] } fun L M =>
       (M.link .l0).ownTx = some (t0.toNat, L.pnum % 65536) ∧ (M.link .l1).ownTx = some (t1.toNat, L.pnum % 65536)) ∧
  (∀ (s : State) (l : Lane) (t0 t1 : BitVec 64), (s.lane l).linkUp .l0 = false → (s.lane l).linkUp .l1 = false →
     Stays s (.timeFrameSend l t0 t1)) ∧
  (∀ (s : State) (l : Lane) (k : Link) (stamp : BitVec 64) (ok : Bool) (p : Nat) (rest : List RopeMsg),
     s.arriving (l.peer k) l = .time p :: rest →
     DoesOn s (s.setFlight (l.peer k) l rest) (.timeFrameReceived l k stamp ok)
       { parts := [.link k], regs := [R.sysAlignStat, R.ropeStat0, R.ropeStat1, R.ropeCnt0, R.ropeCnt1] } fun L M =>
       (M.link k).ownRx = some (stamp.toNat, p, ok) ∧
       (M.link k).errs = (L.link k).errs + b2n (!ok) ∧
       (ok = false → M.is R.sysAlignStat_frame_miss = true)) ∧
  (∀ (s : State) (l : Lane) (tx txp rx rxp tx1 tx1p rx1 rx1p : Nat),
     (s.lane l).linkUp .l0 = true → (s.lane l).linkUp .l1 = true → (s.lane l).id = l →
     ((s.lane l).link .l0).ownTx = some (tx, txp) → ((s.lane l).link .l0).ownRx = some (rx, rxp, true) →
     ((s.lane l).link .l1).ownTx = some (tx1, tx1p) → ((s.lane l).link .l1).ownRx = some (rx1, rx1p, true) →
     exec (.timeReportSend l) s = .next ((s.setFlight l (l.peer .l0) (s.flight l (l.peer .l0) ++
         [.timeReport ((s.lane l).pnum % 65536) txp rxp tx rx ((s.lane l).heldPair l (l.peer .l1))])).setFlight
       l (l.peer .l1) (s.flight l (l.peer .l1) ++
         [.timeReport ((s.lane l).pnum % 65536) tx1p rx1p tx1 rx1 ((s.lane l).heldPair l (l.peer .l0))]))) ∧
  (∀ (s : State) (l : Lane) (k : Link) (p tx rx xTx xRx : Nat) (rest : List RopeMsg),
     s.arriving (l.peer k) l = .timeReport p p p tx rx none :: rest → p = (s.lane l).pnum % 65536 →
     ((s.lane l).link k).ownTx = some (xTx, p) → ((s.lane l).link k).ownRx = some (xRx, p, true) →
     1280 ≤ (pairMeasure xTx xRx tx rx).2 → (pairMeasure xTx xRx tx rx).2 ≤ 10240 → (s.lane l).id = l →
     DoesOn s (s.setFlight (l.peer k) l rest) (.timeReportReceived l k true) { parts := [.link k, .time] } fun _ M =>
       (M.link k).meas = some (pairMeasure xTx xRx tx rx).1 ∧
       M.heldPair l (l.peer k) = some (pairMeasure xTx xRx tx rx).1) ∧
  (∀ (s : State) (l : Lane) (k : Link) (p txp rxp tx rx : Nat) (third : Option Int) (rest : List RopeMsg),
     s.arriving (l.peer k) l = .timeReport p txp rxp tx rx third :: rest → p ≠ (s.lane l).pnum % 65536 →
     DoesOn s (s.setFlight (l.peer k) l rest) (.timeReportReceived l k true) { regs := [R.sysAlignStat] } fun _ M =>
       M.is R.sysAlignStat_frame_miss = true) ∧
  (∀ (s : State) (l : Lane) (k : Link) (t c i : Word) (lc : Nat) (sp : Bool) (rest : List RopeMsg),
     s.arriving (l.peer k) l = .tickParam t c i lc sp :: rest →
     DoesOn s (s.setFlight (l.peer k) l rest) (.tickParamReceived l k true)
       { parts := [.link k], regs := [R.sysAlignStat] } fun L M =>
       (M.link k).peerTick = some (t, c) ∧ (M.link k).peerIdent = some (i, lc) ∧ (M.link k).peerSplit = sp ∧
       ((L.belay = bsSync ∧ M.tickRefOk = false) → M.is R.sysAlignStat_tick_mismatch = true))

/-- Blocks leave in the order of the queue, idle frames fill it, links go down and up, and a block is written whole
or not at all. The first waiting block of a link that is up is sent and leaves the queue; an empty queue sends an
idle frame; a link declared down loses its queue, one declared up is used again; clr_cnt sets both counters to 0; an
arriving block is written whole to its signals, and one with a bad CRC writes no signal and counts an error. Rests
on R51, R71, R321, R322, R601, R12. -/
def Obligations.RopeBlocks : Prop :=
  (∀ (s : State) (l : Lane) (k : Link) (b : TxBlock) (rest : List TxBlock), ((s.lane l).link k).waiting = b :: rest →
     (s.lane l).linkUp k = true → b.msg.legal l = true →
     DoesOn s (s.setFlight l (l.peer k) (s.flight l (l.peer k) ++ [b.msg])) (.ropeBlockSend l k)
       { parts := [.link k] } fun _ M => (M.link k).waiting = rest) ∧
  (∀ (s : State) (l : Lane) (k : Link), ((s.lane l).link k).waiting = [] →
     exec (.idleFrameSend l k) s = .next (s.setFlight l (l.peer k) (s.flight l (l.peer k) ++ [.idle]))) ∧
  (∀ (s : State) (l : Lane) (k : Link), (s.lane l).linkUp k = true →
     Does s (.ropeLinkDown l k true)
       (Foot.excl.add { parts := [.link k], regs := [R.ropeStat0, R.ropeStat1, R.ropeCnt0, R.ropeCnt1] }) fun _ M =>
       M.linkUp k = false ∧ (M.link k).waiting = []) ∧
  (∀ (s : State) (l : Lane) (k : Link), (s.lane l).linkUp k = true → (s.lane l).ropeErrLim < ((s.lane l).link k).errs →
     Does s (.ropeLinkDown l k false)
       (Foot.excl.add { parts := [.link k], regs := [R.ropeStat0, R.ropeStat1, R.ropeCnt0, R.ropeCnt1] }) fun _ M =>
       M.linkUp k = false ∧ (M.link k).waiting = []) ∧
  (∀ (s : State) (l : Lane) (k : Link), (s.lane l).linkUp k = false →
     atLeast1 ((s.lane l).get R.ropeCfg_up_n) ≤ ((s.lane l).link k).cleanRun →
     Does s (.ropeLinkUp l k) { parts := [.belaySt], regs := [R.ropeStat0, R.ropeStat1, R.belayState], sigs := [0x38000, 0x38001] } fun _ M =>
       M.linkUp k = true) ∧
  (∀ (s : State) (l : Lane) (q : Req), (s.lane l).judge q R.ropeCmd true 1#32 = none →
     Does s (.ropeClrCnt l q) { regs := [R.ropeCnt0, R.ropeCnt1] } fun _ M =>
       M.reg R.ropeCnt0 = 0 ∧ M.reg R.ropeCnt1 = 0) ∧
  (∀ (s : State) (l : Lane) (k : Link) (start : Nat) (ws : List Word) (rest : List RopeMsg),
     s.arriving (l.peer k) l = .block start ws :: rest → blockKind (start - segBase (l.peer k)) = .other →
     DoesOn s (s.setFlight (l.peer k) l rest) (.ropeBlockReceived l k true)
       { sigs := List.range' start ws.length } fun _ M =>
       ∀ i, i < ws.length → M.sig (start + i) = ws.getD i 0) ∧
  (∀ (s : State) (l : Lane) (k : Link) (start : Nat) (ws : List Word) (rest : List RopeMsg),
     s.arriving (l.peer k) l = .block start ws :: rest →
     let F : Footprint := { parts := [.link k], regs := [R.ropeStat0, R.ropeStat1, R.ropeCnt0, R.ropeCnt1] }
     let P : LaneState → LaneState → Prop := fun L M =>
       (M.link k).errs = (L.link k).errs + 1 ∧ ∀ i, M.sig i = L.sig i
     (blockKind (start - segBase (l.peer k)) = .other →
       DoesOn s (s.setFlight (l.peer k) l rest) (.ropeBlockReceived l k false) F P) ∧
     (blockKind (start - segBase (l.peer k)) = .siu →
       DoesOn s (s.setFlight (l.peer k) l rest) (.siuRecordReceived l k false) F P) ∧
     (blockKind (start - segBase (l.peer k)) = .belay →
       DoesOn s (s.setFlight (l.peer k) l rest) (.belayRecordReceived l k false) F P) ∧
     (∀ (n at5 : Nat), blockKind (start - segBase (l.peer k)) = .share n →
       DoesOn s (s.setFlight (l.peer k) l rest) (.shareRecordReceived l k false at5) F P)) ∧
  (∀ (s : State) (l : Lane) (k : Link) (start : Nat) (ws : List Word) (rest : List RopeMsg),
     s.arriving (l.peer k) l = .block start ws :: rest → blockKind (start - segBase (l.peer k)) = .siu →
     DoesOn s (s.setFlight (l.peer k) l rest) (.siuRecordReceived l k true)
       { sigs := List.range' start ws.length } fun _ M =>
       ∀ i, i < ws.length → M.sig (start + i) = ws.getD i 0)

/-- The arithmetic, logic, shift and immediate instructions of a lane core. A ready core whose predicate lets ADD,
SUB, AND, OR, XOR, ANDN, SHL, SHR, SAR, MIN, MAX, MINU, MAXU, CLZ, SEXTB, SEXTH, ADDI, ANDI, ORI, XORI, the four
shifts by an immediate, MOVI or LUI take effect writes their result into gd, where g0 discards it, goes on at the
next word after one cycle, and changes nothing else. Rests on R357, R359, R362, R368. -/
def Obligations.CoreAlu : Prop :=
  (CoreWrites .add .add 1 fun C w => C.gr (fA w) + C.gr (fB w)) ∧
  (CoreWrites .sub .sub 1 fun C w => C.gr (fA w) - C.gr (fB w)) ∧
  (CoreWrites .and .and 1 fun C w => C.gr (fA w) &&& C.gr (fB w)) ∧
  (CoreWrites .or .or 1 fun C w => C.gr (fA w) ||| C.gr (fB w)) ∧
  (CoreWrites .xor .xor 1 fun C w => C.gr (fA w) ^^^ C.gr (fB w)) ∧
  (CoreWrites .andn .andn 1 fun C w => C.gr (fA w) &&& ~~~(C.gr (fB w))) ∧
  (CoreWrites .shl .shl 1 fun C w => C.gr (fA w) <<< ((C.gr (fB w)).toNat % 32)) ∧
  (CoreWrites .shr .shr 1 fun C w => C.gr (fA w) >>> ((C.gr (fB w)).toNat % 32)) ∧
  (CoreWrites .sar .sar 1 fun C w => (C.gr (fA w)).sshiftRight ((C.gr (fB w)).toNat % 32)) ∧
  (CoreWrites .min .min 1 fun C w => if (C.gr (fA w)).toInt ≤ (C.gr (fB w)).toInt then C.gr (fA w) else C.gr (fB w)) ∧
  (CoreWrites .max .max 1 fun C w => if (C.gr (fA w)).toInt ≤ (C.gr (fB w)).toInt then C.gr (fB w) else C.gr (fA w)) ∧
  (CoreWrites .minu .minu 1 fun C w => if (C.gr (fA w)).toNat ≤ (C.gr (fB w)).toNat then C.gr (fA w) else C.gr (fB w)) ∧
  (CoreWrites .maxu .maxu 1 fun C w => if (C.gr (fA w)).toNat ≤ (C.gr (fB w)).toNat then C.gr (fB w) else C.gr (fA w)) ∧
  (CoreWrites .clz .clz 1 fun C w => wordN (clz32 (C.gr (fA w)))) ∧
  (CoreWrites .sextb .sextb 1 fun C w => wordI (sext 8 (C.gr (fA w)).toNat)) ∧
  (CoreWrites .sexth .sexth 1 fun C w => wordI (sext 16 (C.gr (fA w)).toNat)) ∧
  (CoreWrites .addi .addi 1 fun C w => C.gr (fA w) + wordI (sext 13 (bits w 12 0))) ∧
  (CoreWrites .andi .andi 1 fun C w => C.gr (fA w) &&& wordN (bits w 12 0)) ∧
  (CoreWrites .ori .ori 1 fun C w => C.gr (fA w) ||| wordN (bits w 12 0)) ∧
  (CoreWrites .xori .xori 1 fun C w => C.gr (fA w) ^^^ wordN (bits w 12 0)) ∧
  (CoreWrites .shiShl .shiShl 1 fun C w => C.gr (fA w) <<< bits w 4 0) ∧
  (CoreWrites .shiShr .shiShr 1 fun C w => C.gr (fA w) >>> bits w 4 0) ∧
  (CoreWrites .shiSar .shiSar 1 fun C w => (C.gr (fA w)).sshiftRight (bits w 4 0)) ∧
  (CoreWrites .shiShls .shiShls 1 fun C w => sat31 ((C.gr (fA w)).toInt * 2 ^ bits w 4 0)) ∧
  (CoreWrites .movi .movi 1 fun _ w => wordI (sext 18 (bits w 17 0))) ∧
  (CoreWrites .lui .lui 1 fun C w => wordN (setBits (C.gr (fD w)).toNat 31 14 (bits w 17 0)))

/-- The multiplications, divisions and fixed-point instructions of a lane core. A ready core whose predicate lets
them take effect executes MUL, MULH, MULHU and MULQ in 3 cycles, DIV, DIVU, REM and REMU in 34, with all ones for a
quotient by 0 and ga for its remainder, and ADDS, SUBS, NEGS, ABSS, SHLS, CLMP and RNDH, which saturate to Q1.31, in
one; gd takes the result and nothing else changes. Rests on R357, R359, R360, R368. -/
def Obligations.CoreMulFix : Prop :=
  (CoreWrites .mul .mul 3 fun C w => C.gr (fA w) * C.gr (fB w)) ∧
  (CoreWrites .mulh .mulh 3 fun C w => wordI ((C.gr (fA w)).toInt * (C.gr (fB w)).toInt / 2 ^ 32)) ∧
  (CoreWrites .mulhu .mulhu 3 fun C w => wordN ((C.gr (fA w)).toNat * (C.gr (fB w)).toNat / 2 ^ 32)) ∧
  (CoreWrites .div .div 34 fun C w => if C.gr (fB w) = 0 then 0xFFFFFFFF else wordI (((C.gr (fA w)).toInt).tdiv (C.gr (fB w)).toInt)) ∧
  (CoreWrites .divu .divu 34 fun C w => if C.gr (fB w) = 0 then 0xFFFFFFFF else wordN ((C.gr (fA w)).toNat / (C.gr (fB w)).toNat)) ∧
  (CoreWrites .rem .rem 34 fun C w => if C.gr (fB w) = 0 then C.gr (fA w) else wordI (((C.gr (fA w)).toInt).tmod (C.gr (fB w)).toInt)) ∧
  (CoreWrites .remu .remu 34 fun C w => if C.gr (fB w) = 0 then C.gr (fA w) else wordN ((C.gr (fA w)).toNat % (C.gr (fB w)).toNat)) ∧
  (CoreWrites .adds .adds 1 fun C w => wordI (satS 32 ((C.gr (fA w)).toInt + (C.gr (fB w)).toInt))) ∧
  (CoreWrites .subs .subs 1 fun C w => wordI (satS 32 ((C.gr (fA w)).toInt - (C.gr (fB w)).toInt))) ∧
  (CoreWrites .negs .negs 1 fun C w => wordI (satS 32 (-(C.gr (fA w)).toInt))) ∧
  (CoreWrites .abss .abss 1 fun C w => wordI (satS 32 ((C.gr (fA w)).toInt.natAbs))) ∧
  (CoreWrites .mulq .mulq 3 fun C w => wordI (satS 32 (((C.gr (fA w)).toInt * (C.gr (fB w)).toInt + 2 ^ 30) / 2 ^ 31))) ∧
  (CoreWrites .shls .shls 1 fun C w => wordI (satS 32 ((C.gr (fA w)).toInt * 2 ^ ((C.gr (fB w)).toNat % 32)))) ∧
  (CoreWrites .clmp .clmp 1 fun C w => if (C.gr (fB w)).toInt < (C.gr (fA w)).toInt then C.gr (fA w) else wordI (min (max (C.gr (fD w)).toInt (C.gr (fA w)).toInt) (C.gr (fB w)).toInt)) ∧
  (CoreWrites .rndh .rndh 1 fun C w => wordI (satS 16 (((C.gr (fA w)).toInt + 2 ^ 15) / 2 ^ 16)))

/-- Compares and predicate logic of a lane core; a squashed instruction only passes. CMP and CMPI evaluate their
condition and combine it with the predicate that they name; PAND, POR, PXOR and PANDN combine two predicates; p0
discards what is written to it; a ready core whose predicate squashes its instruction goes on at the next word with
nothing else changed. Rests on R353, R357, R358, R361. -/
def Obligations.CorePredicates : Prop :=
  (CorePredicate .cmp .cmp fun C w => combinePred (fD w / 8) (C.pr (fD w % 8)) (condHolds (bits w 2 0) (C.gr (fA w)) (C.gr (fB w)))) ∧
  (CorePredicate .cmpi .cmpi fun C w => combinePred (fD w / 8) (C.pr (fD w % 8)) (condHolds (bits w 12 10) (C.gr (fA w)) (wordI (sext 10 w)))) ∧
  (CorePredicate .pand .pand fun C w => C.pr (fA w % 8) && C.pr (fB w % 8)) ∧
  (CorePredicate .por .por fun C w => C.pr (fA w % 8) || C.pr (fB w % 8)) ∧
  (CorePredicate .pxor .pxor fun C w => C.pr (fA w % 8) != C.pr (fB w % 8)) ∧
  (CorePredicate .pandn .pandn fun C w => C.pr (fA w % 8) && !C.pr (fB w % 8)) ∧
  (∀ (s : State) (l : Lane) (i : Issue) (w : Nat), (s.lane l).Ready i .add w →
     ((s.lane l).core i.core).squashes w = true →
     Does s (.add l i) (Foot.core i.core) fun L M => Retired i.core L M (L.core i.core) 1) ∧
  (∀ (x y : Word) (p c : Bool),
     (condHolds 0 x y = decide (x = y)) ∧ (condHolds 1 x y = decide (x ≠ y)) ∧
     (condHolds 2 x y = decide (x.toInt < y.toInt)) ∧ (condHolds 3 x y = decide (y.toInt ≤ x.toInt)) ∧
     (condHolds 4 x y = decide (x.toNat < y.toNat)) ∧ (condHolds 5 x y = decide (y.toNat ≤ x.toNat)) ∧
     (condHolds 6 x y = decide (x &&& y ≠ 0)) ∧ (condHolds 7 x y = decide (x &&& y = 0)) ∧
     combinePred 0 p c = c ∧ combinePred 1 p c = (p && c) ∧ combinePred 2 p c = (p || c) ∧ combinePred 3 p c = !c)

/-- Loads and stores of a lane core, of words, halves, bytes and signals. Where an access passes alignment, the
address map, the world table, its domain and ECC, LDW, LDH, LDHU, LDB and LDBU load little-endian bytes of memory
with their extension, STW, STH and STB store the low bytes of gd and no other byte, SWP exchanges a word, SLD and
SGET load signals and SST and SPUB store them; the pc advances and every other register, signal and byte stays.
Rests on R7, R363, R364, R365, R366, R367, R368. -/
def Obligations.CoreMemory : Prop :=
  (∀ (s : State) (l : Lane) (i : Issue) (w : Nat), (s.lane l).Fires i .ldw w →
     (s.lane l).Passes i (((s.lane l).core i.core).memAddr .ldw w) 4 false 0 →
     Does s (.ldw l i) (Foot.core i.core) fun L M =>
       let a := (L.core i.core).memAddr .ldw w
       Retired i.core L M ((L.core i.core).setG (fD w) (wordN (L.load a 4)))
         (L.baseCost i.core .ldw w + L.waitOf i.core .ldw a 1 i.wait.toNat)) ∧
  (∀ (s : State) (l : Lane) (i : Issue) (w : Nat), (s.lane l).Fires i .ldh w →
     (s.lane l).Passes i (((s.lane l).core i.core).memAddr .ldh w) 2 false 0 →
     Does s (.ldh l i) (Foot.core i.core) fun L M =>
       let a := (L.core i.core).memAddr .ldh w
       Retired i.core L M ((L.core i.core).setG (fD w) (wordI (sext 16 (L.load a 2))))
         (L.baseCost i.core .ldh w + L.waitOf i.core .ldh a 1 i.wait.toNat)) ∧
  (∀ (s : State) (l : Lane) (i : Issue) (w : Nat), (s.lane l).Fires i .ldhu w →
     (s.lane l).Passes i (((s.lane l).core i.core).memAddr .ldhu w) 2 false 0 →
     Does s (.ldhu l i) (Foot.core i.core) fun L M =>
       let a := (L.core i.core).memAddr .ldhu w
       Retired i.core L M ((L.core i.core).setG (fD w) (wordN (L.load a 2)))
         (L.baseCost i.core .ldhu w + L.waitOf i.core .ldhu a 1 i.wait.toNat)) ∧
  (∀ (s : State) (l : Lane) (i : Issue) (w : Nat), (s.lane l).Fires i .ldb w →
     (s.lane l).Passes i (((s.lane l).core i.core).memAddr .ldb w) 1 false 0 →
     Does s (.ldb l i) (Foot.core i.core) fun L M =>
       let a := (L.core i.core).memAddr .ldb w
       Retired i.core L M ((L.core i.core).setG (fD w) (wordI (sext 8 (L.load a 1))))
         (L.baseCost i.core .ldb w + L.waitOf i.core .ldb a 1 i.wait.toNat)) ∧
  (∀ (s : State) (l : Lane) (i : Issue) (w : Nat), (s.lane l).Fires i .ldbu w →
     (s.lane l).Passes i (((s.lane l).core i.core).memAddr .ldbu w) 1 false 0 →
     Does s (.ldbu l i) (Foot.core i.core) fun L M =>
       let a := (L.core i.core).memAddr .ldbu w
       Retired i.core L M ((L.core i.core).setG (fD w) (wordN (L.load a 1)))
         (L.baseCost i.core .ldbu w + L.waitOf i.core .ldbu a 1 i.wait.toNat)) ∧
  (∀ (s : State) (l : Lane) (i : Issue) (w : Nat), (s.lane l).Fires i .stw w →
     (s.lane l).Passes i (((s.lane l).core i.core).memAddr .stw w) 4 true
       (wordN ((s.lane l).laneWord (((s.lane l).core i.core).memAddr .stw w) 4
         ((((s.lane l).core i.core).gr (fD w)).toNat % 2 ^ 32))) →
     Does s (.stw l i) ((Foot.core i.core).add
         { parts := [.memSt], bytes := List.range' (((s.lane l).core i.core).memAddr .stw w) 4 }) fun L M =>
       let a := (L.core i.core).memAddr .stw w
       Retired i.core L M (L.core i.core) (L.baseCost i.core .stw w + L.waitOf i.core .stw a 1 i.wait.toNat) ∧
         M.load a 4 = ((L.core i.core).gr (fD w)).toNat % 2 ^ 32) ∧
  (∀ (s : State) (l : Lane) (i : Issue) (w : Nat), (s.lane l).Fires i .sth w →
     (s.lane l).Passes i (((s.lane l).core i.core).memAddr .sth w) 2 true
       (wordN ((s.lane l).laneWord (((s.lane l).core i.core).memAddr .sth w) 2
         ((((s.lane l).core i.core).gr (fD w)).toNat % 2 ^ 16))) →
     Does s (.sth l i) ((Foot.core i.core).add
         { parts := [.memSt], bytes := List.range' (((s.lane l).core i.core).memAddr .sth w) 2 }) fun L M =>
       let a := (L.core i.core).memAddr .sth w
       Retired i.core L M (L.core i.core) (L.baseCost i.core .sth w + L.waitOf i.core .sth a 1 i.wait.toNat) ∧
         M.load a 2 = ((L.core i.core).gr (fD w)).toNat % 2 ^ 16) ∧
  (∀ (s : State) (l : Lane) (i : Issue) (w : Nat), (s.lane l).Fires i .stb w →
     (s.lane l).Passes i (((s.lane l).core i.core).memAddr .stb w) 1 true
       (wordN ((s.lane l).laneWord (((s.lane l).core i.core).memAddr .stb w) 1
         ((((s.lane l).core i.core).gr (fD w)).toNat % 2 ^ 8))) →
     Does s (.stb l i) ((Foot.core i.core).add
         { parts := [.memSt], bytes := List.range' (((s.lane l).core i.core).memAddr .stb w) 1 }) fun L M =>
       let a := (L.core i.core).memAddr .stb w
       Retired i.core L M (L.core i.core) (L.baseCost i.core .stb w + L.waitOf i.core .stb a 1 i.wait.toNat) ∧
         M.load a 1 = ((L.core i.core).gr (fD w)).toNat % 2 ^ 8) ∧
  (∀ (s : State) (l : Lane) (i : Issue) (w : Nat), (s.lane l).Fires i .swp w →
     (s.lane l).Passes i (((s.lane l).core i.core).memAddr .swp w) 4 true (((s.lane l).core i.core).gr (fB w)) →
     Does s (.swp l i) ((Foot.core i.core).add
         { parts := [.memSt], bytes := List.range' (((s.lane l).core i.core).memAddr .swp w) 4 }) fun L M =>
       let a := (L.core i.core).memAddr .swp w
       Retired i.core L M ((L.core i.core).setG (fD w) (wordN (L.load a 4)))
         (L.baseCost i.core .swp w + L.waitOf i.core .swp a 1 i.wait.toNat) ∧
         M.load a 4 = ((L.core i.core).gr (fB w)).toNat) ∧
  (∀ (s : State) (l : Lane) (i : Issue) (w : Nat), (s.lane l).Fires i .sld w → i.dataEcc = .ok →
     (s.lane l).SigOpen i (bits w 17 0) 1 false [] →
     Does s (.sld l i) (Foot.core i.core) fun L M =>
       Retired i.core L M ((L.core i.core).setG (fD w) (L.sig (bits w 17 0)))
         (L.baseCost i.core .sld w + L.waitOf i.core .sld (0x20200000 + 4 * bits w 17 0) 1 i.wait.toNat)) ∧
  (∀ (s : State) (l : Lane) (i : Issue) (w : Nat), (s.lane l).Fires i .sst w →
     0x10000 ≤ bits w 17 0 → bits w 17 0 < 0x30000 →
     (s.lane l).SigOpen i (bits w 17 0) 1 true [((s.lane l).core i.core).gr (fD w)] →
     Does s (.sst l i) ((Foot.core i.core).add { parts := [.memSt], sigs := [bits w 17 0] }) fun L M =>
       Retired i.core L M (L.core i.core)
         (L.baseCost i.core .sst w + L.waitOf i.core .sst (0x20200000 + 4 * bits w 17 0) 1 i.wait.toNat) ∧
       M.sig (bits w 17 0) = (L.core i.core).gr (fD w)) ∧
  (∀ (s : State) (l : Lane) (i : Issue) (w : Nat), (s.lane l).Fires i .sget w → i.dataEcc = .ok →
     bits w 3 0 < 8 → fD w + bits w 3 0 < 32 →
     bits (((s.lane l).core i.core).gr (fA w)).toNat 17 0 + bits w 3 0 < 0x40000 →
     (s.lane l).SigOpen i (bits (((s.lane l).core i.core).gr (fA w)).toNat 17 0) (bits w 3 0 + 1) false [] →
     Does s (.sget l i) (Foot.core i.core) fun L M =>
       let id := bits ((L.core i.core).gr (fA w)).toNat 17 0
       Retired i.core L M ((L.core i.core).setGs (fD w) ((List.range (bits w 3 0 + 1)).map fun k => L.sig (id + k)))
         (L.baseCost i.core .sget w + L.waitOf i.core .sget (0x20200000 + 4 * id) (bits w 3 0 + 1) i.wait.toNat)) ∧
  (∀ (s : State) (l : Lane) (i : Issue) (w : Nat), (s.lane l).Fires i .spub w →
     bits w 3 0 < 8 → fB w + bits w 3 0 < 32 →
     0x10000 ≤ bits (((s.lane l).core i.core).gr (fA w)).toNat 17 0 →
     bits (((s.lane l).core i.core).gr (fA w)).toNat 17 0 + bits w 3 0 < 0x30000 →
     (s.lane l).SigOpen i (bits (((s.lane l).core i.core).gr (fA w)).toNat 17 0) (bits w 3 0 + 1) true
       (((s.lane l).core i.core).grs (fB w) (bits w 3 0 + 1)) →
     Does s (.spub l i) ((Foot.core i.core).add
         { sigs := List.range' (bits (((s.lane l).core i.core).gr (fA w)).toNat 17 0) (bits w 3 0 + 1) }) fun L M =>
       let id := bits ((L.core i.core).gr (fA w)).toNat 17 0
       Retired i.core L M (L.core i.core)
         (L.baseCost i.core .spub w + L.waitOf i.core .spub (0x20200000 + 4 * id) (bits w 3 0 + 1) i.wait.toNat) ∧
       ∀ k, k ≤ bits w 3 0 → M.sig (id + k) = (L.core i.core).gr (fB w + k)) ∧
  (∀ (s : State) (l : Lane) (i : Issue) (w : Nat), (s.lane l).Fires i .ldw w →
     ((s.lane l).core i.core).memAddr .ldw w % 4 ≠ 0 → ((s.lane l).core i.core).crBit crStatus 4 = false →
     Does s (.ldw l i) (Foot.core i.core) fun L M =>
       Entered i.core L M 4 0 0 ((L.core i.core).memAddr .ldw w) (L.core i.core).pc
         (i.core == .svc || (L.core i.core).secure))

/-- Branches, calls and control registers of a lane core. BR and CALL go to the address of the instruction plus four
times its immediate, JR and JALR to ga with its low bits ignored; CALL and JALR keep the return address; CRR reads a
listed control register as its world sees it; CRW, CRS and CRC write the bits that their world may write and hand
back the old value; in an unprivileged context they take PRIV. Rests on R354, R357, R358, R379. -/
def Obligations.CoreTransfers : Prop :=
  (∀ (s : State) (l : Lane) (i : Issue) (w : Nat), (s.lane l).Fires i .br w →
     Does s (.br l i) (Foot.core i.core) fun L M =>
       let C := L.core i.core
       M.core i.core = { C with pc := BitVec.ofInt 32 (C.pc.toNat + 4 * sext 23 (bits w 22 0)), cycles := C.cycles + (12 - L.voteDelay i.core) }) ∧
  (∀ (s : State) (l : Lane) (i : Issue) (w : Nat), (s.lane l).Fires i .call w →
     Does s (.call l i) (Foot.core i.core) fun L M =>
       let C := L.core i.core
       M.core i.core = { C.setG 31 (C.pc + 4) with pc := BitVec.ofInt 32 (C.pc.toNat + 4 * sext 23 (bits w 22 0)), cycles := C.cycles + (12 - L.voteDelay i.core) }) ∧
  (∀ (s : State) (l : Lane) (i : Issue) (w : Nat), (s.lane l).Fires i .jr w →
     Does s (.jr l i) (Foot.core i.core) fun L M =>
       let C := L.core i.core
       M.core i.core = { C with pc := wordN ((C.gr (fA w)).toNat / 4 * 4), cycles := C.cycles + (13 - L.voteDelay i.core) }) ∧
  (∀ (s : State) (l : Lane) (i : Issue) (w : Nat), (s.lane l).Fires i .jalr w →
     Does s (.jalr l i) (Foot.core i.core) fun L M =>
       let C := L.core i.core
       M.core i.core = { C.setG (fD w) (C.pc + 4) with pc := wordN ((C.gr (fA w)).toNat / 4 * 4), cycles := C.cycles + (13 - L.voteDelay i.core) }) ∧
  (∀ (s : State) (l : Lane) (i : Issue) (w : Nat), (s.lane l).Fires i .crr w → bits w 10 0 ≤ 0x010 →
     bits w 10 0 ≠ crCycleLo →
     (((s.lane l).core i.core).priv = true ∨ bits w 10 0 = crCid ∨ bits w 10 0 = crPred ∨ bits w 10 0 = crCycleHi) →
     Does s (.crr l i) (Foot.core i.core) fun L M =>
       Retired i.core L M ((L.core i.core).setG (fD w) (L.crRead i.core (bits w 10 0) (L.core i.core).secure)) 2) ∧
  (∀ (s : State) (l : Lane) (i : Issue) (w : Nat), (s.lane l).Fires i .crr w → bits w 10 0 = crCycleLo →
     Does s (.crr l i) (Foot.core i.core) fun L M =>
       Retired i.core L M ({ (L.core i.core) with cycHi := wordN ((L.core i.core).cycles / 2 ^ 32) }.setG (fD w)
         (wordN (L.core i.core).cycles)) 2) ∧
  (∀ (s : State) (l : Lane) (i : Issue) (w : Nat), (s.lane l).Fires i .crw w → bits w 10 0 ≤ 0x010 →
     bits w 10 0 ≠ crCycleLo → ((s.lane l).core i.core).priv = true →
     Does s (.crw l i) (Foot.core i.core) fun L M =>
       let C := L.core i.core
       let n := bits w 10 0
       let old := L.crRead i.core n C.secure
       let m := crMask C i.core n C.secure
       Retired i.core L M ((C.setCr n ((C.crw n &&& ~~~m) ||| (C.gr (fA w) &&& m))).setG (fD w) old) 3) ∧
  (∀ (s : State) (l : Lane) (i : Issue) (w : Nat), (s.lane l).Fires i .crs w → bits w 10 0 ≤ 0x010 →
     bits w 10 0 ≠ crCycleLo → bits w 10 0 ≠ crIpend → ((s.lane l).core i.core).priv = true →
     Does s (.crs l i) (Foot.core i.core) fun L M =>
       let C := L.core i.core
       let n := bits w 10 0
       let old := L.crRead i.core n C.secure
       let m := crMask C i.core n C.secure
       Retired i.core L M ((C.setCr n ((C.crw n &&& ~~~m) ||| ((old ||| C.gr (fA w)) &&& m))).setG (fD w) old) 3) ∧
  (∀ (s : State) (l : Lane) (i : Issue) (w : Nat), (s.lane l).Fires i .crc w → bits w 10 0 ≤ 0x010 →
     bits w 10 0 ≠ crCycleLo → bits w 10 0 ≠ crIpend → bits w 10 0 ≠ crPmode → ((s.lane l).core i.core).priv = true →
     Does s (.crc l i) (Foot.core i.core) fun L M =>
       let C := L.core i.core
       let n := bits w 10 0
       let old := L.crRead i.core n C.secure
       let m := crMask C i.core n C.secure
       Retired i.core L M ((C.setCr n ((C.crw n &&& ~~~m) ||| ((old &&& ~~~(C.gr (fA w))) &&& m))).setG (fD w) old) 3) ∧
  (∀ (s : State) (l : Lane) (i : Issue) (w : Nat), (s.lane l).Fires i .crw w → bits w 10 0 ≤ 0x010 →
     ((s.lane l).core i.core).priv = false → ((s.lane l).core i.core).crBit crStatus 4 = false →
     Does s (.crw l i) (Foot.core i.core) fun L M =>
       Entered i.core L M 2 0 0 (L.core i.core).pc.toNat (L.core i.core).pc (i.core == .svc || (L.core i.core).secure))

/-- Exceptions, their return, interrupts and parking of a lane core. TRAP, SCALL and BKPT enter their vectors with
EPC, ECAUSE, EADDR, ESAVE and STATUS as the entry saves them; a reserved word enters ILLEGAL; an exception within an
exception stops the core; ERET restores the status, the predicates and the pc; PARK parks the core until a
qualifying line, or retires where one is pending; the lowest line that may be taken enters vector 16 + i. Rests on
R356, R371, R372, R373, R374, R375, R377, R378, R380. -/
def Obligations.CoreExceptions : Prop :=
  (∀ (s : State) (l : Lane) (i : Issue) (w : Nat), (s.lane l).Fires i .trap w → ((s.lane l).core i.core).crBit crStatus 4 = false →
     Does s (.trap l i) (Foot.core i.core) fun L M =>
       Entered i.core L M 8 0 (bits w 17 8) (L.core i.core).pc.toNat ((L.core i.core).pc + 4)
         (i.core == .svc || (L.core i.core).secure)) ∧
  (∀ (s : State) (l : Lane) (i : Issue) (w : Nat), (s.lane l).Fires i .scall w → ((s.lane l).core i.core).crBit crStatus 4 = false →
     Does s (.scall l i) (Foot.core i.core) fun L M =>
       Entered i.core L M 9 0 (bits w 17 8) (L.core i.core).pc.toNat ((L.core i.core).pc + 4) true) ∧
  (∀ (s : State) (l : Lane) (i : Issue) (w : Nat), (s.lane l).Fires i .bkpt w → ((s.lane l).core i.core).crBit crStatus 4 = false →
     Does s (.bkpt l i false) (Foot.core i.core) fun L M =>
       Entered i.core L M 10 0 0 (L.core i.core).pc.toNat (L.core i.core).pc (i.core == .svc || (L.core i.core).secure)) ∧
  (∀ (s : State) (l : Lane) (i : Issue) (w : Nat), (s.lane l).Fires i .trap w →
     ((s.lane l).core i.core).crBit crStatus 4 = true →
     Does s (.trap l i) (Foot.core i.core) fun L M =>
       (M.core i.core).stopped = true ∧ bits ((M.core i.core).crw crEcause).toNat 7 0 = 0xFF ∧
       (M.core i.core).pc = (L.core i.core).pc ∧ (M.core i.core).g = (L.core i.core).g) ∧
  (∀ (s : State) (l : Lane) (i : Issue), (s.lane l).coreRuns i.core = true →
     fetchable i.core ((s.lane l).core i.core).pc.toNat = true →
     (s.lane l).fetchViol ((s.lane l).coreReq i.core) ((s.lane l).core i.core).pc.toNat = none →
     (match regionAt ((s.lane l).core i.core).pc.toNat with | .envm t => (s.lane l).nvBusyOn t | _ => false) = false →
     i.fetchEcc = .ok → coreOp ((s.lane l).word ((s.lane l).core i.core).pc.toNat).toNat = none →
     ((s.lane l).core i.core).squashes ((s.lane l).word ((s.lane l).core i.core).pc.toNat).toNat = false →
     i.vote = .agree → ((s.lane l).core i.core).crBit crStatus 4 = false →
     Does s (.add l i) (Foot.core i.core) fun L M =>
       Entered i.core L M 1 0 0 (L.core i.core).pc.toNat (L.core i.core).pc (i.core == .svc || (L.core i.core).secure)) ∧
  (∀ (s : State) (l : Lane) (i : Issue) (w : Nat), (s.lane l).Fires i .eret w → i.core ≠ .svc →
     ((s.lane l).core i.core).priv = true →
     (((s.lane l).core i.core).secure = true ∨ ((s.lane l).core i.core).crBit crStatus 9 = false) →
     Does s (.eret l i) (Foot.core i.core) fun L M =>
       let C := L.core i.core
       let D := M.core i.core
       let st := (C.crw crStatus).toNat
       (D.crw crStatus).toNat = setBits (setBits st 3 0 (bits st 11 8)) 4 4 0 ∧ D.crw crPred = C.crw crEsave ∧
       D.pc = C.crw crEpc ∧ D.g = C.g ∧ D.cycles = C.cycles + (12 - L.voteDelay i.core)) ∧
  (∀ (s : State) (l : Lane) (i : Issue) (w : Nat), (s.lane l).Fires i .park w →
     ((s.lane l).core i.core).priv = true → (s.lane l).qualifying i.core ≠ 0 → (s.lane l).parkMode i.core = (0, false) →
     Does s (.park l i) (Foot.core i.core) fun L M => Retired i.core L M (L.core i.core) 2) ∧
  (∀ (s : State) (l : Lane) (i : Issue) (w : Nat), (s.lane l).Fires i .park w →
     ((s.lane l).core i.core).priv = true → (s.lane l).qualifying i.core = 0 → (s.lane l).parkMode i.core = (1, false) →
     Does s (.park l i) ((Foot.core i.core).add { parts := [.pwr], regs := [R.pwrState] }) fun L M =>
       Retired i.core L M { (L.core i.core) with parked := true } 2 ∧ M.get R.pwrState_state = 1 ∧ 30 ∈ M.pwr.svcLines) ∧
  (∀ (s : State) (l : Lane) (i : Issue) (w : Nat), (s.lane l).Fires i .park w → i.core = .svc →
     ((s.lane l).core i.core).priv = true → (s.lane l).qualifying i.core = 0 →
     Does s (.park l i) (Foot.core i.core) fun L M => Retired i.core L M { (L.core i.core) with parked := true } 2) ∧
  (∀ (s : State) (l : Lane) (c : Core) (cycles : BitVec 64), c ≠ .svc → ((s.lane l).core c).parked = true →
     (s.lane l).qualifying c ≠ 0 → (s.lane l).pwr.sleepStep = 0 → (s.lane l).pwr.bootStep = 4 →
     (s.lane l).triad.rsStep ≠ 5 →
     Does s (.parkWake l c cycles) { parts := [.core c], regs := [R.pwrState] } fun L M =>
       M.core c = { (L.core c) with parked := false, cycles := (L.core c).cycles + cycles.toNat } ∧
       M.get R.pwrState_state = 0) ∧
  (∀ (s : State) (l : Lane) (c : Core) (n : Nat), (s.lane l).takeable c = some n → n < 32 → c ≠ .svc →
     (s.lane l).coreRuns c = true → (s.lane l).triad.stepping = false →
     Does s (.interruptEntry l c .agree) (Foot.core c) fun L M =>
       Entered c L M (16 + n) 0 0 0 (L.core c).pc ((L.core c).crBit crIworld n || (L.core c).secure))

/-- The steps of a resynchronisation, the comparator tests and the counters of the triad. The odd core leaves its
reset, tests itself, copies the registers and waits for a boundary; at its end the core is counted, the duration and
the stall are recorded and the odd core is none; a failed self-test freezes the triad; a comparator test that is
right changes no status and one that is wrong freezes the triad with category TEST; tst_now makes a test due and
clr_cnt clears TRIAD_CNT. Rests on R331, R332, R333, R334, R335, R336, R338, R341, R12. -/
def Obligations.TriadResync : Prop :=
  (∀ (s : State) (l : Lane), (s.lane l).rsAtStep 1 = true →
     Does s (.resyncResetEnd l) { parts := [.triad] } fun L M => M.triad = { L.triad with rsStep := 2 }) ∧
  (∀ (s : State) (l : Lane), (s.lane l).rsAtStep 2 = true →
     Does s (.resyncSelftestEnd l true) { parts := [.triad] } fun L M => M.triad = { L.triad with rsStep := 3 }) ∧
  (∀ (s : State) (l : Lane), (s.lane l).rsAtStep 2 = true →
     Does s (.resyncSelftestEnd l false) Foot.triad3 fun L M =>
       M.is R.triadStat_triad3 = true ∧ M.triad.stuck = true ∧ M.triad.rsStep = 0 ∧ M.isRaised 0x07 L.id = true ∧
       M.reg R.triadMis = wordN (9 + 16 * L.get R.triadStat_odd + 64) ∧ M.reg R.triadMisPc = L.triadCore.pc) ∧
  (∀ (s : State) (l : Lane), (s.lane l).rsAtStep 3 = true →
     Does s (.resyncCopyComplete l) { parts := [.triad] } fun L M => M.triad = { L.triad with rsStep := 4 }) ∧
  (∀ (s : State) (l : Lane), (s.lane l).rsAtStep 4 = true → (s.lane l).triadWaits = false →
     Does s (.resyncBoundary l) { parts := [.triad] } fun L M => M.triad = { L.triad with rsStep := 5 }) ∧
  (∀ (s : State) (l : Lane) (stall : Fin 97) (dur : BitVec 32), (s.lane l).rsAtStep 5 = true →
     (s.lane l).triadCore.parked = false → (s.lane l).triad.halted = [] →
     Does s (.resyncComplete l stall dur)
       { parts := [.triad, .core .tc0], regs := [R.triadStat, R.triadRsTime, R.triadCnt] } fun L M =>
       M.get R.triadRsTime_dur = satU 16 dur.toNat ∧ M.get R.triadRsTime_stall = stall ∧
       M.is R.triadStat_resync = false ∧ M.get R.triadStat_odd = 3 ∧ M.triad = { L.triad with rsStep := 0 } ∧
       M.triadCore = { L.triadCore with cycles := L.triadCore.cycles + stall } ∧
       (L.get R.triadStat_odd = 0 → M.get R.triadCnt_rs0 = satU 8 (L.get R.triadCnt_rs0 + 1)) ∧
       (L.get R.triadStat_odd = 1 → M.get R.triadCnt_rs1 = satU 8 (L.get R.triadCnt_rs1 + 1)) ∧
       (2 ≤ L.get R.triadStat_odd → M.get R.triadCnt_rs2 = satU 8 (L.get R.triadCnt_rs2 + 1))) ∧
  (∀ (s : State) (l : Lane), (s.lane l).comparing = true → (s.lane l).triad.rsStep = 0 →
     Does s (.comparatorTestDue l true) { parts := [.triad, .core .tc0] } fun L M =>
       M.triad = { L.triad with testDue := none } ∧ M.triadCore = L.triadCore) ∧
  (∀ (s : State) (l : Lane), (s.lane l).comparing = true → (s.lane l).triad.rsStep ≠ 0 →
     Does s (.comparatorTestDue l true) { parts := [.triad] } fun L M =>
       M.triad = { L.triad with testDue := some (L.triad.testDue.getD L.coarse) }) ∧
  (∀ (s : State) (l : Lane), (s.lane l).comparing = true → (s.lane l).triad.rsStep = 0 →
     Does s (.comparatorTestForce l true) { parts := [.triad, .core .tc0] } fun L M =>
       M.triad = { L.triad with testDue := none } ∧
       M.triadCore = { L.triadCore with cycles := L.triadCore.cycles + 4 }) ∧
  (∀ (s : State) (l : Lane), (s.lane l).comparing = true → (s.lane l).triad.rsStep = 0 →
     Does s (.comparatorTestForce l false) Foot.triad3 fun L M =>
       M.is R.triadStat_tst_fail = true ∧ M.is R.triadStat_triad3 = true ∧ M.triad.stuck = true ∧
       M.isRaised 0x07 L.id = true ∧ M.reg R.triadMis = wordN (7 + 16 * 3)) ∧
  (∀ (s : State) (l : Lane) (q : Req), (s.lane l).judge q R.triadCmd true 1#32 = none →
     Does s (.triadClrCnt l q) { regs := [R.triadCnt] } fun _ M => M.reg R.triadCnt = 0) ∧
  (∀ (s : State) (l : Lane) (q : Req), (s.lane l).judge q R.triadCmd true 2#32 = none →
     Does s (.tstNow l q) { parts := [.triad] } fun L M => M.triad = { L.triad with testDue := some L.coarse })

/-- Debug of the triad, force abstain and break mode. While debug reaches the triad, a halt, a breakpoint and BKPT
halt the cores, a resume lets them go on, a step lets one instruction through; the debugger reads and writes TC_0's
registers and memory and sets breakpoints; force_abstain is set and break mode entered only under their conditions,
and is refused else. Rests on R342, R343, R345, R346, R347, R348, R533. -/
def Obligations.TriadDebug : Prop :=
  (∀ (s : State) (l : Lane), (s.lane l).debugReaches = true → (s.lane l).voting = true →
     Does s (.debugHalt l false) { parts := [.triad], regs := [R.triadStat] } fun L M =>
       M.is R.triadStat_dbg_halt = true ∧ M.triad = { L.triad with halted := [0, 1, 2], stepping := false }) ∧
  (∀ (s : State) (l : Lane) (addr : Word), (s.lane l).debugReaches = true → (true, addr.toNat) ∈ (s.lane l).triad.breaks →
     (s.lane l).coreRuns .tc0 = true → (s.lane l).voting = true →
     Does s (.breakpointHit l true addr) { parts := [.triad], regs := [R.triadStat] } fun L M =>
       M.is R.triadStat_dbg_halt = true ∧ M.triad = { L.triad with halted := [0, 1, 2], stepping := false }) ∧
  (∀ (s : State) (l : Lane) (i : Issue) (w : Nat), (s.lane l).Fires i .bkpt w → (s.lane l).debugAllowed = true →
     i.core = .tc0 →
     Does s (.bkpt l i true) { parts := [.triad, .core .tc0], regs := [R.triadStat] } fun L M =>
       M.is R.triadStat_dbg_halt = true ∧ 0 ∈ M.triad.halted ∧ M.triadCore.pc = L.triadCore.pc + 4) ∧
  (∀ (s : State) (l : Lane) (cycles : BitVec 64), (s.lane l).debugReaches = true → (s.lane l).triad.halted ≠ [] →
     Does s (.debugResume l cycles) { parts := [.triad, .core .tc0], regs := [R.triadStat] } fun L M =>
       M.is R.triadStat_dbg_halt = false ∧
       M.triad = { L.triad with halted := [], stepping := false, frozen := false } ∧
       M.triadCore = { L.triadCore with cycles := L.triadCore.cycles + cycles.toNat }) ∧
  (∀ (s : State) (l : Lane), (s.lane l).debugReaches = true → (s.lane l).triad.halted ≠ [] →
     Does s (.debugStep l) { parts := [.triad] } fun L M => M.triad = { L.triad with stepping := true }) ∧
  (∀ (s : State) (l : Lane) (n : BitVec 11), (s.lane l).debugReaches = true →
     Does s (.debugRegRead l false n) { parts := [.bus] } fun L M =>
       Sparse.get 0 M.bus.reply Master.dbg.id = L.triadCore.gr (n.toNat % 32)) ∧
  (∀ (s : State) (l : Lane) (n : BitVec 11), (s.lane l).debugReaches = true → n.toNat ≤ 0x010 → n.toNat ≠ crCycleLo →
     Does s (.debugRegRead l true n) { parts := [.bus] } fun L M =>
       Sparse.get 0 M.bus.reply Master.dbg.id = L.crRead .tc0 n.toNat L.triadCore.secure) ∧
  (∀ (s : State) (l : Lane) (n : BitVec 11) (w : Word), (s.lane l).debugReaches = true →
     Does s (.debugRegWrite l false n w .agree) { parts := [.core .tc0] } fun L M =>
       M.triadCore = L.triadCore.setG (n.toNat % 32) w) ∧
  (∀ (s : State) (l : Lane) (a : Word) (w : Word), (s.lane l).debugReaches = true → 0 ∈ (s.lane l).triad.halted →
     (s.lane l).Passes ⟨.tc0, .agree, .ok, .ok, 0⟩ a.toNat 4 false 0 →
     Does s (.debugMemAccess l false a 2 w .ok .agree) { parts := [.bus] } fun L M =>
       Sparse.get 0 M.bus.reply Master.dbg.id = wordN (L.load a.toNat 4)) ∧
  (∀ (s : State) (l : Lane) (a : Word) (w : Word), (s.lane l).debugReaches = true → 0 ∈ (s.lane l).triad.halted →
     (s.lane l).Passes ⟨.tc0, .agree, .ok, .ok, 0⟩ a.toNat 4 true w →
     Does s (.debugMemAccess l true a 2 w .ok .agree) { parts := [.memSt], bytes := List.range' a.toNat 4 } fun _ M =>
       M.load a.toNat 4 = w.toNat) ∧
  (∀ (s : State) (l : Lane) (watch : Bool) (addr : Word), (s.lane l).debugReaches = true →
     Does s (.debugBreakpointSet l true watch addr) { parts := [.triad] } (fun _ M =>
       (watch, addr.toNat) ∈ M.triad.breaks) ∧
     Does s (.debugBreakpointSet l false watch addr) { parts := [.triad] } (fun _ M =>
       (watch, addr.toNat) ∉ M.triad.breaks)) ∧
  (∀ (s : State) (l : Lane) (q : Req), (s.lane l).judge q R.triadDbg true 1#32 = none →
     (s.lane l).breakAllowed = false →
     Stays s (.forceAbstain l q)) ∧
  (∀ (s : State) (l : Lane) (q : Req), (s.lane l).judge q R.triadDbg true 1#32 = none →
     (s.lane l).breakAllowed = true → (s.lane l).is R.triadDbg_force_abstain = false →
     Does s (.forceAbstain l q) { parts := [.lcs, .triad], regs := [R.triadDbg, R.belayVote] } fun L M =>
       M.is R.triadDbg_force_abstain = true ∧ M.triad = { L.triad with abstainAt := some L.coarse } ∧
       M.driven L.id = voteAbstain) ∧
  (∀ (s : State) (l : Lane) (q : Req) (t : Nat), (s.lane l).judge q R.triadDbg true 2#32 = none →
     (s.lane l).breakAllowed = true → (s.lane l).triad.abstainAt = some t → t + 5000 ≤ (s.lane l).coarse →
     ((s.lane l).belay = bsBoot ∨ (s.lane l).belay = bsSync ∨ (s.lane l).belay = bsExcluded ∨
       (s.lane l).belay = bsService) → (s.lane l).get R.lcsLog_n < 4096 →
     Does s (.breakModeRequest l q) ((Foot.log ((s.lane l).get R.lcsLog_n)).add
         { parts := [.lcs, .triad], regs := [R.triadStat] }) fun L M =>
       M.is R.triadStat_break = true ∧ M.is R.triadStat_lockstep_broken = true ∧ M.is R.triadStat_resync = false ∧
       M.get R.triadStat_odd = 3 ∧ M.triad = { L.triad with rsStep := 0, testDue := none } ∧
       Appended L M L.role 0x0021 1 0 0) ∧
  (∀ (s : State) (l : Lane) (q : Req), (s.lane l).judge q R.triadDbg true 2#32 = none →
     (s.lane l).breakAllowed = false →
     Does s (.breakModeRequest l q) { regs := [R.triadStat] } fun _ M => M.is R.triadStat_brk_refused = true)

/-- The conversions of an axis: per-unit currents, their validity, and the housekeeping codes. With all three legs
measured and no code at its limits, the conversion forms the three per-unit currents by their scale and offset and
shows them valid, in the axis block and in the block of the tick; with no leg measured it keeps the currents, shows
them stale, and flags a regulating axis; a housekeeping conversion holds its code, and channel 12 gives the link
voltage to every axis. Rests on R63, R64, R65, R66, R96, R580. -/
def Obligations.AxisSampling : Prop :=
  (∀ (s : State) (l : Lane) (n : Axis) (cu cv cw cs cc : BitVec 14), (∀ c ∈ [cu, cv, cw, cs, cc], c ≠ 0 ∧ c ≠ 16383#14) →
     Does s (.adcConversionComplete l n cu cv cw cs cc true true true)
       { parts := [.adc, .ax n]
         sigs := [axisSig n 0, axisSig n 1, axisSig n 2, axisSig n 3] ++
           List.range' (axisSig n (0x200 + 8 * (s.lane l).tickIdx)) 3 } fun L M =>
       let cur (c : BitVec 14) (ofs : Int) : Word :=
         wordI (satS 32 (((c.toNat : Int) - 8192 - ofs) * L.getS (R.axpIscale_k_i n)))
       M.sig (axisSig n 3) = 7 ∧
       (M.sig (axisSig n 0) = cur cu (L.getS (R.axpIofs_ofs_u n)) ∧
         M.sig (axisSig n 1) = cur cv (L.getS (R.axpIofs_ofs_v n)) ∧
         M.sig (axisSig n 2) = cur cw (L.getS (R.axpIofs_ofs_w n)) ∧
         M.sig (axisSig n (0x200 + 8 * L.tickIdx)) = cur cu (L.getS (R.axpIofs_ofs_u n))) ∧
       M.adc.code.get (3 * n) = cu.toNat ∧ M.adc.code.get (3 * n + 1) = cv.toNat ∧ M.adc.code.get (3 * n + 2) = cw.toNat ∧
       M.adc.code.get (12 + 2 * n) = cs.toNat ∧ M.adc.code.get (13 + 2 * n) = cc.toNat) ∧
  (∀ (s : State) (l : Lane) (n : Axis) (cu cv cw cs cc : BitVec 14), (∀ c ∈ [cu, cv, cw, cs, cc], c ≠ 0 ∧ c ≠ 16383#14) →
     Does s (.adcConversionComplete l n cu cv cw cs cc false false false)
       { parts := [.adc, .ax n], regs := [R.axpStat n], sigs := [axisSig n 3] } fun L M =>
       M.sig (axisSig n 3) = 8 ∧ (L.regulates n = true → M.is (R.axpStat_cur_stale n) = true) ∧
       (L.regulates n = false → M.reg (R.axpStat n) = L.reg (R.axpStat n)) ∧ (M.ax n).lowOn = []) ∧
  (∀ (s : State) (l : Lane) (ch : Fin 32) (code : BitVec 12), ch ≠ 12 →
     Does s (.hkConversion l ch code) { parts := [.adc], regs := [R.adcStat] } fun _ M => M.adc.hk.get ch = code.toNat) ∧
  (∀ (s : State) (l : Lane) (code : BitVec 12),
     Does s (.hkConversion l 12 code) { parts := [.adc], regs := [R.adcStat],
                                        sigs := [0, 1, 2, 3].map fun n => axisSig n 0x12 } fun _ M =>
       M.adc.hk.get 12 = code.toNat ∧ ∀ n : Axis, M.sig (axisSig n 0x12) = wordI (voltsOf code.toNat))

/-- Share records and the median stage of an axis. At loop_end an armed axis of a lane that takes part publishes its
share record in its exchange segment and queues it on both links; a record that is not complete is late and counted;
a peer's record of this period that arrives by share_dl takes part; the median stage writes the agreed torque,
set-point and contributing lanes, and a peer's axis state that differs for two periods sets state_dev. Rests on R71,
R77, R78, R79, R80, R83, R12. -/
def Obligations.AxisShares : Prop :=
  (∀ (s : State) (l : Lane) (n : Axis), (s.lane l).axis n ≠ axOff → participates (s.lane l).belay = true →
     ((s.lane l).ax n).ownDone = true →
     Does s (.shareRecordQueue l n)
       { parts := [.link .l0, .link .l1, .belaySt]
         sigs := axisSig n 0x13 :: List.range' (segBase (s.lane l).id + 8 * n) 8 } fun L M =>
       M.sig (axisSig n 0x13) = wordN (L.headroomOf n) ∧
       M.sigsFrom (segBase L.id + 8 * n) 8 = (L.setSig (axisSig n 0x13) (wordN (L.headroomOf n))).shareRecord n ∧
       ∀ k, L.linkUp k = true →
         (⟨rankShare, .block (segBase L.id + 8 * n) ((L.setSig (axisSig n 0x13) (wordN (L.headroomOf n))).shareRecord n)⟩ :
           TxBlock) ∈ (M.link k).waiting) ∧
  (∀ (s : State) (l : Lane) (n : Axis), (s.lane l).axis n ≠ axOff → participates (s.lane l).belay = true →
     ((s.lane l).ax n).ownDone = false → (s.lane l).loopPrompt n = false →
     Does s (.shareRecordQueue l n)
       { parts := [.link .l0, .link .l1, .belaySt], regs := [R.axpStat n, R.axpCnt n]
         sigs := axisSig n 0x13 :: List.range' (segBase (s.lane l).id + 8 * n) 8 } fun L M =>
       M.is (R.axpStat_late n) = true ∧ M.get (R.axpCnt_late n) = satU 16 (L.get (R.axpCnt_late n) + 1) ∧
       M.belaySt.late.get n = L.belaySt.late.get n + 1) ∧
  (∀ (s : State) (l : Lane) (k : Link) (n : Axis) (w : Word) (ws : List Word) (rest : List RopeMsg) (at5 : Nat),
     s.arriving (l.peer k) l = .block (segBase (l.peer k) + 8 * n) (w :: ws) :: rest →
     at5 ≤ (s.lane l).get (R.axpSched1_share_dl n) → bits w.toNat 31 16 = (s.lane l).pnum % 65536 →
     DoesOn s (s.setFlight (l.peer k) l rest) (.shareRecordReceived l k true at5)
       { parts := [.ax n], sigs := List.range' (segBase (l.peer k) + 8 * n) (ws.length + 1) } fun L M =>
       (l.peer k).idx ∈ (M.ax n).took ∧ M.sig (segBase (l.peer k) + 8 * n) = w ∧ (M.ax n).setTorque = (L.ax n).setTorque) ∧
  (∀ (s : State) (l : Lane) (k : Link) (n : Axis) (w : Word) (ws : List Word) (rest : List RopeMsg) (at5 : Nat),
     s.arriving (l.peer k) l = .block (segBase (l.peer k) + 8 * n) (w :: ws) :: rest →
     (s.lane l).get (R.axpSched1_share_dl n) < at5 →
     DoesOn s (s.setFlight (l.peer k) l rest) (.shareRecordReceived l k true at5)
       { sigs := List.range' (segBase (l.peer k) + 8 * n) (ws.length + 1) } fun _ M =>
       M.sig (segBase (l.peer k) + 8 * n) = w) ∧
  (∀ (s : State) (l : Lane) (n : Axis), (s.lane l).axis n ≠ axOff → participates (s.lane l).belay = true →
     Does s (.median l n)
       { parts := [.ax n, .pr n, .belaySt], regs := [R.axpCnt n, R.axpStat n, R.axpState n, R.belayStat, R.profFe n]
         sigs := List.range' (0x36000 + 0x10 * n) 9 } fun L M =>
       M.sig (0x36000 + 0x10 * n) = ((L.medianTorque n).map wordI).getD (L.sig (axisSig n 0x31)) ∧
       M.sig (0x36008 + 0x10 * n) = wordN L.pnum ∧ M.get (R.axpState_contrib n) = laneBits (L.contributors n) ∧
       (L.medianTorque n = none → M.is (R.axpStat_tq_hold n) = true) ∧ (M.ax n).medDone = true ∧ M.axis n = L.axis n) ∧
  (∀ (s : State) (l : Lane) (n : Axis) (y : Lane), 2 ≤ ((s.lane l).ax n).stateDiff.get y.idx → y ≠ (s.lane l).id →
     Does s (.stateDevRaise l n y) { regs := [R.axpStat n] } fun _ M => M.is (R.axpStat_state_dev n) = true)

/-- Commit ticks, prompt results, and the checks of MONITOR. At its commit tick an axis takes the agreed torque as
its committed torque, applies weights and forms its set torque; a prompt result replaces the committed torque at the
first tick boundary from its time; a check whose run reaches persist fires once, sets its flag and takes its action.
Rests on R74, R75, R86, R88, R89, R91, R93, R95. -/
def Obligations.AxisCommit : Prop :=
  (∀ (s : State) (l : Lane) (n : Axis), (s.lane l).pairMode = false → (s.lane l).axis n ≠ axOff →
     participates (s.lane l).belay = true → (s.lane l).tickIdx = (s.lane l).get (R.axpSched2_commit_tick n) →
     (s.lane l).loopPrompt n = false →
     Does s (.commitTick l n)
       { parts := [.ax n], regs := [R.axpStat n, R.axpWgtA n, R.axpWgtB n, R.axpWgtC n]
         sigs := [axisSig n 0x31, axisSig n 0x32] ++ List.range' (0x36005 + 0x10 * n) 3 } fun L M =>
       M.sig (axisSig n 0x31) = L.sig (0x36000 + 0x10 * n) ∧ M.sig (0x36005 + 0x10 * n) = M.reg (R.axpWgtA n) ∧
       M.sig (0x36006 + 0x10 * n) = M.reg (R.axpWgtB n) ∧ M.sig (0x36007 + 0x10 * n) = M.reg (R.axpWgtC n)) ∧
  (∀ (s : State) (l : Lane) (n : Axis) (w : Word) (t : Nat), ((s.lane l).ax n).prompt = some (w, t) → t ≤ (s.lane l).coarse →
     (s.lane l).coarse % (s.lane l).tTick = 0 →
     Does s (.promptCommit l n)
       { parts := [.ax n], regs := [R.axpStat n], sigs := [axisSig n 0x31, axisSig n 0x32] } fun _ M =>
       M.sig (axisSig n 0x31) = w ∧ (M.ax n).prompt = none) ∧
  (∀ (s : State) (l : Lane) (n : Axis) (k : Fin 8), (s.lane l).axis n ≠ axOff →
     (s.lane l).get (R.axpMonThr_persist n k) ≠ 0 →
     (s.lane l).get (R.axpMonThr_persist n k) ≤ ((s.lane l).ax n).monRun.get k → k.val ∉ ((s.lane l).ax n).monFired →
     ((s.lane l).get (R.axpMonThr_act n k) = 0 →
       Does s (.monitorCheckFire l n k) { parts := [.ax n], regs := [R.axpStat n] } fun _ M =>
         M.bitOf (R.axpStat_mon n) k = true ∧ k.val ∈ (M.ax n).monFired) ∧
     ((s.lane l).get (R.axpMonThr_act n k) = 1 →
       Does s (.monitorCheckFire l n k) ((Foot.axis n).add { parts := [.ax n], regs := [R.axpStat n] }) fun L M =>
         M.bitOf (R.axpStat_mon n) k = true ∧
         M.axis n = if L.is (R.axpCfg_safe n) then axAsc else axFree) ∧
     ((s.lane l).get (R.axpMonThr_act n k) = 2 →
       Does s (.monitorCheckFire l n k)
         { parts := [.ax n, .belaySt], regs := [R.axpStat n, R.belayStat] } fun L M =>
         M.bitOf (R.axpStat_mon n) k = true ∧ M.isRaised 0x11 L.id = true ∧
         M.belaySt.monClass = some (monCheckClass k)))

/-- The commands of an axis are stored at the write and judged at their boundary. A write of AXP_CMD whose period
lies 1 to 128 ahead is stored with its target, one that does not is late; at its boundary ARM, DISARM, START, STOP,
HOLD, RESUME, FREE and ASC take the axis to the state that the transition table gives, or are refused; a transition
of higher precedence drops the command; a stopping axis that stands still, and an axis whose emergency stop is
active, go to ASC. Rests on R70, R72, R92, R93, R94, R95, R135, R225, R12. -/
def Obligations.AxisCommands : Prop :=
  (∀ (s : State) (l : Lane) (n : Axis) (q : Req) (at8 : BitVec 8),
     ∀ p ∈ ([(.arm, 1), (.disarm, 2), (.start, 3), (.stop, 4), (.hold, 5), (.resume, 6), (.free, 7), (.asc, 8)] :
       List ((Lane → Axis → Req → BitVec 8 → Instr) × Nat)),
     (s.lane l).judge q (R.axpCmd n) true (wordN (p.2 + 256 * at8.toNat)) = none →
     (at8.toNat + 256 - (s.lane l).pnum % 256) % 256 ≠ 0 → (at8.toNat + 256 - (s.lane l).pnum % 256) % 256 ≤ 128 →
     Does s (p.1 l n q at8) { parts := [.ax n], regs := [R.axpState n, R.axpStat n] } fun L M =>
       M.is (R.axpState_pend n) = true ∧ M.get (R.axpState_pend_op n) = p.2 ∧ (M.ax n).pendAt = at8.toNat ∧
       M.axis n = L.axis n ∧ (L.is (R.axpState_pend n) = true → M.is (R.axpStat_cmd_overwrite n) = true)) ∧
  (∀ (s : State) (l : Lane) (n : Axis) (q : Req) (at8 : BitVec 8),
     ∀ p ∈ ([(.arm, 1), (.disarm, 2), (.start, 3), (.stop, 4), (.hold, 5), (.resume, 6), (.free, 7), (.asc, 8)] :
       List ((Lane → Axis → Req → BitVec 8 → Instr) × Nat)),
     (s.lane l).judge q (R.axpCmd n) true (wordN (p.2 + 256 * at8.toNat)) = none →
     ((at8.toNat + 256 - (s.lane l).pnum % 256) % 256 = 0 ∨ 129 ≤ (at8.toNat + 256 - (s.lane l).pnum % 256) % 256) →
     Does s (p.1 l n q at8) { regs := [R.axpStat n] } fun _ M => M.is (R.axpStat_cmd_late n) = true) ∧
  (∀ (s : State) (l : Lane) (n : Axis), (s.lane l).is (R.axpState_pend n) = true →
     ((s.lane l).ax n).pendAt = (s.lane l).pnum % 256 → (s.lane l).coarse % (s.lane l).tServo = 0 →
     ((s.lane l).ax n).higherAt ≠ some (s.lane l).pnum → (s.lane l).mirrored n = false →
     let F : Footprint := ((Foot.axis n).add (Foot.plan n)).add { parts := [.fl n], regs := [R.axpStat n, R.fldStat n] }
     let st := (s.lane l).axis n
     let op := (s.lane l).get (R.axpState_pend_op n)
     let rest : Prop := st = axArmed ∨ st = axFree ∨ st = axAsc
     let goes (x : Nat) : Prop := Does s (.axpCmdDue l n) F fun _ M => M.axis n = x ∧ M.is (R.axpState_pend n) = false
     (op = 1 → st = axOff → participates (s.lane l).belay = true → (s.lane l).locked (R.axpLock n) = true →
       (s.lane l).loopPrompt n = false → (s.lane l).armChecks n = true → (s.lane l).schedLegal n = true →
       (s.lane l).loopsFit n = true → goes axArmed) ∧
     (op = 2 → rest → goes axOff) ∧ (op = 3 → rest → (s.lane l).startReady n = true → goes axDrive) ∧
     (op = 5 → st = axDrive → (s.lane l).is (R.axpState_stopping n) = false → goes axHold) ∧
     (op = 6 → st = axHold → goes axDrive) ∧ (op = 7 → st ≠ axOff → goes axFree) ∧ (op = 8 → st ≠ axOff → goes axAsc) ∧
     (op = 4 → st = axDrive ∨ st = axLimp → Does s (.axpCmdDue l n) F fun _ M =>
       M.axis n = st ∧ M.is (R.axpState_stopping n) = true)) ∧
  (∀ (s : State) (l : Lane) (n : Axis), (s.lane l).is (R.axpState_pend n) = true →
     ((s.lane l).ax n).pendAt = (s.lane l).pnum % 256 → (s.lane l).coarse % (s.lane l).tServo = 0 →
     (((s.lane l).ax n).higherAt = some (s.lane l).pnum → Does s (.axpCmdDue l n)
       { regs := [R.axpState n, R.axpStat n] } fun L M =>
         M.is (R.axpStat_cmd_dropped n) = true ∧ M.is (R.axpState_pend n) = false ∧ M.axis n = L.axis n) ∧
     (((s.lane l).ax n).higherAt = none → (s.lane l).axis n = axOff →
       (s.lane l).get (R.axpState_pend_op n) ∈ [2, 3, 4, 5, 6, 7, 8] → Does s (.axpCmdDue l n)
         { regs := [R.axpState n, R.axpStat n] } fun _ M =>
           M.is (R.axpStat_cmd_refused n) = true ∧ M.is (R.axpState_pend n) = false ∧ M.axis n = axOff)) ∧
  (∀ (s : State) (l : Lane) (n : Axis), (s.lane l).is (R.axpState_stopping n) = true → (s.lane l).fbFlag n 0 = true →
     (s.lane l).sig (axisSig n 0x22) = 0 → (s.lane l).coarse % (s.lane l).tServo = 0 →
     Does s (.stopReachAsc l n) (Foot.axis n) fun _ M => M.axis n = axAsc) ∧
  (∀ (s : State) (l : Lane) (n : Axis), (s.lane l).is (R.axpCfg_estop_en n) = true →
     (s.lane l).estopActive ((s.lane l).get (R.axpCfg_estop_fn n)) = true → (s.lane l).axis n ≠ axOff →
     (s.lane l).axis n ≠ axAsc →
     Does s (.estopActive l n) ((Foot.axis n).add { parts := [.ax n] }) fun L M =>
       M.axis n = axAsc ∧ (L.coarse % L.tServo = 0 → (M.ax n).higherAt = some L.pnum)) ∧
  (∀ (s : State) (l : Lane) (n : Axis) (q : Req), (s.lane l).judge q (R.axpCntClr n) true 1#32 = none →
     Does s (.axpCntClr l n q) { regs := [R.axpCnt n] } fun _ M => M.reg (R.axpCnt n) = 0)

/-- Field control: estimation, the switching sequence, the voltage limit, the start sequence and the FLD commands.
ESTIMATE publishes own flux and torque, also into the block of the tick, with no torque in FREE; FIELD places at
most two instants, none before 1.5 us, and none for an axis that it does not regulate; two limited ticks set vlim
and 2 N unlimited ones clear it; a start counts its off ticks, is refused on diode conduction by the safe action,
and ends its ramp after ramp ticks; the commands clear the counters, load the resistance, and lock. Rests on R12,
R134, R138, R140, R141, R151, R152, R155, R158. -/
def Obligations.FieldControl : Prop :=
  (∀ (s : State) (l : Lane) (n : Axis), (s.lane l).axis n = axFree → participates (s.lane l).belay = true →
     Does s (.estimate l n)
       { parts := [.ax n, .fl n], regs := [R.fldRs n, R.fldStat n]
         sigs := [axisSig n 0x10, axisSig n 0x11] ++ List.range' (axisSig n (0x203 + 8 * (s.lane l).tickIdx)) 3 } fun L M =>
       M.sig (axisSig n 0x11) = 0 ∧ M.sig (axisSig n (0x205 + 8 * L.tickIdx)) = 0 ∧ (M.fl n).iA = 0 ∧ (M.fl n).iB = 0 ∧
       M.sig (axisSig n (0x204 + 8 * L.tickIdx)) = M.sig (axisSig n 0x10)) ∧
  (∀ (s : State) (l : Lane) (n : Axis), (s.lane l).axis n ≠ axOff → participates (s.lane l).belay = true →
     Does s (.estimate l n)
       { parts := [.ax n, .fl n], regs := [R.fldRs n, R.fldStat n]
         sigs := [axisSig n 0x10, axisSig n 0x11] ++ List.range' (axisSig n (0x203 + 8 * (s.lane l).tickIdx)) 3 } fun L M =>
       (M.fl n).stale = bit (L.sig (axisSig n 3)).toNat 3 ∧ (M.fl n).theta = L.angleBy n (L.angSrc n) (L.fb n).refL (L.fb n).hallCorr ∧
       M.get (R.fldStat_ang_src n) = L.angSrc n ∧
       M.sig (axisSig n (0x204 + 8 * L.tickIdx)) = M.sig (axisSig n 0x10) ∧
       M.sig (axisSig n (0x205 + 8 * L.tickIdx)) = M.sig (axisSig n 0x11)) ∧
  (∀ (s : State) (l : Lane) (n : Axis), (s.lane l).regulates n = true → participates (s.lane l).belay = true →
     (s.lane l).axis n ≠ axOff → ((s.lane l).fl n).src ≠ 3 →
     Does s (.field l n)
       { parts := [.ax n, .fl n], regs := [R.fldCnt n, R.fldStat n]
         sigs := [axisSig n (0x206 + 8 * (s.lane l).tickIdx)] } fun _ M =>
       ∃ r, (M.fl n).seq = some r ∧ r.length ≤ 2 ∧ ∀ p ∈ r, 300 * 64 ≤ p.1 ∧ p.2 < 8) ∧
  (∀ (s : State) (l : Lane) (n : Axis), (s.lane l).regulates n = false → participates (s.lane l).belay = true →
     (s.lane l).axis n ≠ axOff →
     Does s (.field l n) { parts := [.ax n, .fl n] } fun L M =>
       (M.fl n).seq = some [] ∧ (M.fl n).limRun = 0 ∧ (M.fl n).freeRun = (L.fl n).freeRun + 1) ∧
  (∀ (s : State) (l : Lane) (n : Axis), 2 ≤ ((s.lane l).fl n).limRun → (s.lane l).is (R.fldStat_vlim n) = false →
     Does s (.vlimSet l n) { regs := [R.fldStat n] } fun _ M =>
       M.is (R.fldStat_vlim n) = true ∧ M.is (R.fldStat_vlim_evt n) = true) ∧
  (∀ (s : State) (l : Lane) (n : Axis), 2 * (s.lane l).nTicks ≤ ((s.lane l).fl n).freeRun →
     Does s (.vlimClear l n) { regs := [R.fldStat n] } fun L M =>
       M.is (R.fldStat_vlim n) = false ∧ M.is (R.fldStat_vlim_evt n) = L.is (R.fldStat_vlim_evt n)) ∧
  (∀ (s : State) (l : Lane) (n : Axis), ((s.lane l).fl n).offInterval = true →
     Does s (.startOffTick l n) { parts := [.fl n], regs := [R.fldStat n] } fun L M =>
       (M.fl n).offTicks = (L.fl n).offTicks + 1 ∧ ((L.fl n).offTicks = 0 → (M.fl n).conducting = false) ∧
       ((M.fl n).conducting = true → (L.fl n).offTicks + 1 < max 2 (L.get (R.fldStart_t_max n)) →
         M.is (R.fldStat_start_ext n) = true)) ∧
  (∀ (s : State) (l : Lane) (n : Axis), (s.lane l).axis n ≠ axOff → ((s.lane l).fl n).offInterval = true →
     2 ≤ ((s.lane l).fl n).offTicks → ((s.lane l).fl n).conducting = true → max 2 ((s.lane l).get (R.fldStart_t_max n)) ≤ ((s.lane l).fl n).offTicks →
     Does s (.startDecision l n)
       ((Foot.axis n).add { parts := [.fl n], regs := [R.fldBemf n, R.fldStat n, R.axpStat n] }) fun L M =>
       M.is (R.fldStat_starting n) = false ∧ M.is (R.axpStat_start_refused_vlim n) = true ∧
       M.axis n = (if L.is (R.axpCfg_safe n) then axAsc else axFree) ∧ (M.fl n).offInterval = false) ∧
  (∀ (s : State) (l : Lane) (n : Axis), ((s.lane l).fl n).offInterval = true → 2 ≤ ((s.lane l).fl n).offTicks →
     ((s.lane l).fl n).conducting = false →
     Does s (.startDecision l n)
       ((Foot.axis n).add { parts := [.fl n], regs := [R.fldBemf n, R.fldStat n, R.axpStat n] }) fun _ M =>
       (M.fl n).offInterval = false ∧ (M.fl n).offTicks = 0) ∧
  (∀ (s : State) (l : Lane) (n : Axis) (j : Nat), ((s.lane l).fl n).ramp = some j →
     atLeast1 ((s.lane l).get (R.fldStart_ramp n)) ≤ j →
     Does s (.startRampEnd l n) { parts := [.fl n], regs := [R.fldStat n] } fun _ M =>
       (M.fl n).ramp = none ∧ M.is (R.fldStat_starting n) = false) ∧
  (∀ (s : State) (l : Lane) (n : Axis) (q : Req), (s.lane l).judge q (R.fldCmd n) true 1#32 = none →
     Does s (.fldClrCnt l n q) { regs := [R.fldCnt n] } fun _ M => M.reg (R.fldCnt n) = 0) ∧
  (∀ (s : State) (l : Lane) (n : Axis) (q : Req), (s.lane l).judge q (R.fldCmd n) true 2#32 = none →
     Does s (.rsReset l n q) { parts := [.fl n], regs := [R.fldRs n] } fun L M =>
       M.reg (R.fldRs n) = L.reg (R.fldRsNom n) ∧ (M.fl n).accR = L.getS (R.fldRsNom_r_nom n) * 2 ^ 16) ∧
  (∀ (s : State) (l : Lane) (n : Axis) (q : Req) (w : Word), (s.lane l).judge q (R.fldRs n) true w = none →
     Does s (.fldRsWrite l n q w) { parts := [.fl n], regs := [R.fldRs n] } fun _ M =>
       M.reg (R.fldRs n) = w ∧ (M.fl n).accR = w.toInt * 2 ^ 16) ∧
  (∀ (s : State) (l : Lane) (n : Axis) (q : Req) (w : Word), (s.lane l).judge q (R.fldLock n) true w = none →
     bits w.toNat 15 0 = 0xC1A5 →
     Does s (.fldLock l n q w) { parts := [.fl n, .locks], regs := [R.fldRs n] } fun L M =>
       R.fldLock n ∈ M.locks ∧ M.reg (R.fldRs n) = L.reg (R.fldRsNom n))

/-- The quadrature counter, the tick, index, Hall, speed window, DECODE and quadrature emulation. A single change of
the comparators steps the counter by 1 and stamps the edge, a double change leaves it and raises QUAD_ERR; a tick
publishes the tick position and the tick angle, and an invalid tick keeps the position; an index edge is stamped, a
second one of a tick sets idx_ovr; a Hall state is taken, an illegal one raises the flag; eight windows without an
edge give speed 0 and STILL; DECODE publishes position, speeds and flags; a lost sensor is raised as the own cause
0x10 and leaves the feedback mask; the emulated pins follow their mode. Rests on R99, R104, R105, R111, R114, R116,
R117, R119, R123, R132, R133, R297. -/
def Obligations.FeedbackCounting : Prop :=
  (∀ (s : State) (l : Lane) (n : Axis) (a b : Bool) (stamp : BitVec 64), ((s.lane l).fb n).started = true →
     (quadPlace a b + 4 - quadPlace ((s.lane l).fb n).levelA ((s.lane l).fb n).levelB) % 4 = 1 →
     Does s (.quadEdge l n a b stamp) { parts := [.fb n] } fun L M =>
       (M.fb n).c = (L.fb n).c + 1 ∧ (M.fb n).lastEdge = some (((L.fb n).c + 1).toInt, stamp.toNat) ∧
       (M.fb n).levelA = a ∧ (M.fb n).levelB = b ∧ (M.fb n).upSeen = true ∧ (M.fb n).net = (L.fb n).net + 1) ∧
  (∀ (s : State) (l : Lane) (n : Axis) (a b : Bool) (stamp : BitVec 64), ((s.lane l).fb n).started = true →
     (quadPlace a b + 4 - quadPlace ((s.lane l).fb n).levelA ((s.lane l).fb n).levelB) % 4 = 3 →
     Does s (.quadEdge l n a b stamp) { parts := [.fb n] } fun L M =>
       (M.fb n).c = (L.fb n).c - 1 ∧ (M.fb n).lastEdge = some (((L.fb n).c - 1).toInt, stamp.toNat) ∧
       (M.fb n).levelA = a ∧ (M.fb n).levelB = b ∧ (M.fb n).downSeen = true ∧ (M.fb n).net = (L.fb n).net - 1) ∧
  (∀ (s : State) (l : Lane) (n : Axis) (a b : Bool) (stamp : BitVec 64), ((s.lane l).fb n).started = true →
     a ≠ ((s.lane l).fb n).levelA → b ≠ ((s.lane l).fb n).levelB →
     Does s (.quadEdge l n a b stamp) { parts := [.fb n], regs := [R.fbStat n] } fun L M =>
       (M.fb n).c = (L.fb n).c ∧ M.is (R.fbStat_quad_err n) = true ∧ (M.fb n).quadErr = true ∧ 6 ∈ (M.fb n).raised) ∧
  (∀ (s : State) (l : Lane) (n : Axis), ((s.lane l).fb n).started = true →
     Does s (.fbTickUpdate l n)
       { parts := [.fb n, .edge]
         regs := [R.fbStat n, R.fbEang n, R.fbPosLo n, R.fbPosHi n, R.fbEqOfs n, R.fbEqGain n, R.fbEqPh n, R.fbIdxLo n,
           R.fbIdxHi n, R.fbIdxCnt n, R.fbIdxDrift n, R.fbCmpTlo n, R.fbCmpThi n, R.fbCmpCtl n, R.fbCmpLo n, R.fbCmpHi n,
           R.fbCmpMiss n]
         sigs := [axisSig n 0x0A] } fun L M =>
       M.reg (R.fbPosLo n) = wordN (wrapTo 48 (M.fb n).pos) ∧ M.reg (R.fbPosHi n) = wordI ((M.fb n).pos / 2 ^ 32) ∧
       M.sig (axisSig n 0x0A) = wordN (M.get (R.fbEang_theta n)) ∧
       ((M.fb n).posValid = false → (M.fb n).pos = (L.fb n).pos ∧ (M.fb n).invalidRun = (L.fb n).invalidRun + 1) ∧
       ((M.fb n).posValid = true → (M.fb n).invalidRun = 0)) ∧
  (∀ (s : State) (l : Lane) (n : Axis), ((s.lane l).fb n).started = true →
     atLeast1 ((s.lane l).get (R.fbAfe_persist n)) ≤ ((s.lane l).fb n).invalidRun →
     Does s (.sensLost l n) { parts := [.fb n, .belaySt], regs := [R.fbStat n, R.belayStat] } fun L M =>
       M.is (R.fbStat_sens_lost n) = true ∧ M.isRaised 0x10 L.id = true ∧ (M.fb n).angAbs = false ∧
       n.val ∈ M.belaySt.fbLost) ∧
  (∀ (s : State) (l : Lane) (n : Axis) (stamp : BitVec 64), ((s.lane l).fb n).started = true →
     (s.lane l).is (R.fbCfg_idx_en n) = true → (s.lane l).is (R.fbCfg_idx_qual n) = false →
     ((s.lane l).fb n).idxStamps = [] →
     Does s (.indexEdge l n stamp) { parts := [.fb n] } fun _ M => (M.fb n).idxStamps = [stamp.toNat]) ∧
  (∀ (s : State) (l : Lane) (n : Axis) (stamp : BitVec 64), ((s.lane l).fb n).started = true →
     (s.lane l).is (R.fbCfg_idx_en n) = true → (s.lane l).is (R.fbCfg_idx_qual n) = false →
     stamp.toNat ∈ ((s.lane l).fb n).idxStamps →
     Does s (.indexEdge l n stamp) { regs := [R.fbStat n] } fun _ M => M.is (R.fbStat_idx_ovr n) = true) ∧
  (∀ (s : State) (l : Lane) (n : Axis) (h : BitVec 3), (s.lane l).hallSector n h.toNat = 7 →
     Does s (.hallFilterAccept l n h) { parts := [.fb n], regs := [R.fbStat n] } fun L M =>
       (M.fb n).hall = h.toNat ∧ M.is (R.fbStat_hall_illegal n) = true ∧ 3 ∈ (M.fb n).raised ∧
       (M.fb n).lastLegal = (L.fb n).lastLegal) ∧
  (∀ (s : State) (l : Lane) (n : Axis) (h : BitVec 3), (s.lane l).hallSector n h.toNat ≠ 7 →
     ((s.lane l).fb n).lastLegal = none →
     Does s (.hallFilterAccept l n h) { parts := [.fb n] } fun L M =>
       (M.fb n).hall = h.toNat ∧ (M.fb n).lastLegal = some (L.hallSector n h.toNat)) ∧
  (∀ (s : State) (l : Lane) (n : Axis), ((s.lane l).fb n).started = true →
     (s.lane l).pnum % atLeast1 ((s.lane l).get (R.fbSpdCtl_win n)) = 0 →
     ((s.lane l).fb n).upSeen = false → ((s.lane l).fb n).downSeen = false → 7 ≤ ((s.lane l).fb n).quiet →
     DoesFree s (.speedWindowEnd l n) { parts := [.fb n] } fun _ M => (M.fb n).ecSpeed = 0 ∧ (M.fb n).still = true) ∧
  (∀ (s : State) (l : Lane) (n : Axis), ((s.lane l).fb n).started = true →
     (s.lane l).pnum % atLeast1 ((s.lane l).get (R.fbSpdCtl_win n)) = 0 →
     ((s.lane l).fb n).upSeen = true → ((s.lane l).fb n).downSeen = true →
     DoesFree s (.speedWindowEnd l n) { parts := [.fb n] } fun L M =>
       (M.fb n).ecSpeed = satS 32 ((1024 * (L.fb n).net * 256).tdiv (atLeast1 (L.get (R.fbSpdCtl_win n)))) ∧
       (M.fb n).rev = true ∧ (M.fb n).still = false ∧ (M.fb n).net = 0 ∧ (M.fb n).anchor = (L.fb n).lastEdge) ∧
  (∀ (s : State) (l : Lane) (n : Axis), ((s.lane l).fb n).started = true → n.val ∉ (s.lane l).belaySt.fbLost →
     Does s (.decode l n)
       { parts := [.ax n, .fb n, .belaySt], sigs := List.range' (axisSig n 4) 6 } fun L M =>
       M.sig (axisSig n 4) = wordI (L.fb n).pos ∧ M.sig (axisSig n 5) = wordI ((L.fb n).pos / 2 ^ 32) ∧
       M.sig (axisSig n 6) = wordI (L.obsSpeed n) ∧ M.sig (axisSig n 7) = wordI (L.obsAccel n) ∧
       M.sig (axisSig n 8) = wordI (L.fb n).ecSpeed ∧ M.sig (axisSig n 9) = wordN (L.fbFlags n) ∧ (M.fb n).raised = []) ∧
  (∀ (s : State) (l : Lane) (n : Axis), ((s.lane l).fb n).started = false →
     Does s (.decode l n) { sigs := [axisSig n 9] } fun _ M => M.sig (axisSig n 9) = 0) ∧
  (∀ (s : State) (l : Lane) (z : Bool), (s.lane l).is R.qeoCtl_en = false →
     Does s (.qeoStep l z) { parts := [.qeo] } fun _ M => M.qeo.pinA = false ∧ M.qeo.pinB = false ∧ M.qeo.pinZ = false) ∧
  (∀ (s : State) (l : Lane) (z : Bool), (s.lane l).is R.qeoCtl_en = true → (s.lane l).get R.qeoCtl_mode = 0 →
     Does s (.qeoStep l z) { parts := [.qeo] } fun L M =>
       M.qeo.pinA = (L.fb (L.get R.qeoCtl_axis)).levelA ∧ M.qeo.pinB = (L.fb (L.get R.qeoCtl_axis)).levelB ∧
       M.qeo.pinZ = (z && L.is R.qeoCtl_z_en)) ∧
  (∀ (s : State) (l : Lane) (z : Bool), (s.lane l).is R.qeoCtl_en = true → (s.lane l).get R.qeoCtl_mode ≠ 0 →
     Does s (.qeoStep l z) { parts := [.qeo], regs := [R.qeoStat] } fun L M =>
       (M.qeo.counter - L.qeo.counter).natAbs ≤ 1)

/-- The commands of the feedback registers. FB_CMP_LO commits both words of the compare position; FB_EOFS and
obs_reset are taken only for an idle axis under a full calibration grant and refused otherwise; a write of an
equalisation register loads its accumulator; a read of FB_POS_LO captures the upper word for its master; the clear
commands clear their counters; FB_LOCK locks and starts feedback. Rests on R12, R100, R106, R110, R115, R130. -/
def Obligations.FeedbackRegisters : Prop :=
  (∀ (s : State) (l : Lane) (n : Axis) (q : Req) (w : Word), (s.lane l).judge q (R.fbCmpLo n) true w = none →
     Does s (.fbCmpLoWrite l n q w) { parts := [.fb n], regs := [R.fbCmpLo n, R.fbCmpHi n] } fun L M =>
       M.get (R.fbCmpLo_p_lo n) = w.toNat ∧ M.get (R.fbCmpHi_p_hi n) = (L.fb n).cmpHi % 2 ^ 16 ∧ (M.fb n).cmpFresh = true) ∧
  (∀ (s : State) (l : Lane) (n : Axis) (q : Req) (w : Word), (s.lane l).judge q (R.fbEofs n) true w = none →
     (s.lane l).fbCalOpen n = true →
     Does s (.fbEofsWrite l n q w) { regs := [R.fbEofs n] } fun _ M => M.reg (R.fbEofs n) = w) ∧
  (∀ (s : State) (l : Lane) (n : Axis) (q : Req) (w : Word), (s.lane l).judge q (R.fbEofs n) true w = none →
     (s.lane l).fbCalOpen n = false →
     Does s (.fbEofsWrite l n q w) { regs := [R.fbStat n] } fun _ M => M.is (R.fbStat_wr_refused n) = true) ∧
  (∀ (s : State) (l : Lane) (n : Axis) (q : Req) (r : Fin 3) (w : Word), (s.lane l).judge q (eqReg n r) true w = none →
     Does s (.fbEqWrite l n q r w) { parts := [.fb n], regs := [eqReg n r] } fun L M =>
       (r = 0 → (M.fb n).accOs = M.getS (R.fbEqOfs_o_s n) * 65536 ∧ (M.fb n).accOc = M.getS (R.fbEqOfs_o_c n) * 65536) ∧
       (r = 1 → (M.fb n).accGs = M.get (R.fbEqGain_g_s n) * 65536 ∧ (M.fb n).accGc = M.get (R.fbEqGain_g_c n) * 65536) ∧
       (r = 2 → (M.fb n).accK = M.getS (R.fbEqPh_k n) * 65536 ∧ (M.fb n).accOs = (L.fb n).accOs)) ∧
  (∀ (s : State) (l : Lane) (n : Axis) (q : Req), (s.lane l).judge q (R.fbPosLo n) false 0#32 = none →
     Does s (.fbPosLoRead l n q) { parts := [.time, .bus] } fun L M =>
       Sparse.get 0 M.bus.reply q.m.id = L.reg (R.fbPosLo n) ∧
       Sparse.get 0 M.time.posLatch (64 * n + q.m.id) = L.reg (R.fbPosHi n) ∧ M.time.now = L.time.now) ∧
  (∀ (s : State) (l : Lane) (n : Axis) (q : Req), (s.lane l).judge q (R.fbPosHi n) false 0#32 = none →
     Does s (.fbPosHiRead l n q) { parts := [.bus] } fun L M =>
       Sparse.get 0 M.bus.reply q.m.id = Sparse.get 0 L.time.posLatch (64 * n + q.m.id)) ∧
  (∀ (s : State) (l : Lane) (n : Axis) (q : Req), (s.lane l).judge q (R.fbCmd n) true 1#32 = none →
     Does s (.fbClrIdxCnt l n q) { regs := [R.fbIdxCnt n] } fun _ M => M.reg (R.fbIdxCnt n) = 0) ∧
  (∀ (s : State) (l : Lane) (n : Axis) (q : Req), (s.lane l).judge q (R.fbCmd n) true 2#32 = none →
     Does s (.fbClrMiss l n q) { regs := [R.fbCmpMiss n] } fun _ M => M.reg (R.fbCmpMiss n) = 0) ∧
  (∀ (s : State) (l : Lane) (n : Axis) (q : Req), (s.lane l).judge q (R.fbCmd n) true 4#32 = none →
     Does s (.eqReset l n q) { parts := [.fb n], regs := [R.fbEqOfs n, R.fbEqGain n, R.fbEqPh n] } fun _ M =>
       M.reg (R.fbEqOfs n) = 0 ∧ M.reg (R.fbEqGain n) = 0x10001000 ∧ M.reg (R.fbEqPh n) = 0 ∧
       (M.fb n).accOs = 0 ∧ (M.fb n).accOc = 0 ∧ (M.fb n).accGs = 0x1000 * 65536 ∧ (M.fb n).accGc = 0x1000 * 65536 ∧
       (M.fb n).accK = 0) ∧
  (∀ (s : State) (l : Lane) (n : Axis) (q : Req), (s.lane l).judge q (R.fbCmd n) true 8#32 = none →
     (s.lane l).fbCalOpen n = true →
     Does s (.obsReset l n q) { parts := [.fb n] } fun L M =>
       (M.fb n).pHat = (L.fb n).pos * 2 ^ 24 ∧ (M.fb n).vHat = 0 ∧ (M.fb n).aHat = 0) ∧
  (∀ (s : State) (l : Lane) (n : Axis) (q : Req), (s.lane l).judge q (R.fbCmd n) true 8#32 = none →
     (s.lane l).fbCalOpen n = false →
     Does s (.obsReset l n q) { regs := [R.fbStat n] } fun _ M => M.is (R.fbStat_wr_refused n) = true) ∧
  (∀ (s : State) (l : Lane) (n : Axis) (q : Req) (w : Word), (s.lane l).judge q (R.fbLock n) true w = none →
     bits w.toNat 15 0 = 0xC1A5 → (s.lane l).get (R.fbCfg_periods n) ≠ 0 → (s.lane l).get (R.fbCfg_pp n) ≠ 0 →
     ((s.lane l).fb n).started = false →
     Does s (.fbLock l n q w) { parts := [.fb n, .locks] } fun L M =>
       R.fbLock n ∈ M.locks ∧ (M.fb n).started = true ∧ (M.fb n).primed = false ∧
       (M.fb n).accK = L.getS (R.fbEqPh_k n) * 65536) ∧
  (∀ (s : State) (l : Lane) (n : Axis) (q : Req) (w : Word), (s.lane l).judge q (R.fbLock n) true w = none →
     bits w.toNat 15 0 = 0xC1A5 → ((s.lane l).fb n).started = true →
     Does s (.fbLock l n q w) { parts := [.locks] } fun _ M => R.fbLock n ∈ M.locks)

/-- The commands of a profile, its set-point, the lost stream, and the checks. POS, VEL, TRACK and REPLAN written
for a period 1 to 128 ahead wait for it, others are late; at its boundary a command is stored in ARMED and HOLD,
planned in DRIVE and LIMP, and refused in OFF, FREE and ASC; PROFILE publishes the set-point of the period; a stream
that starves sets strm_lost and goes to POSITION; a check fires once, and its action holds, stops, takes the safe
action, or raises the own cause 0x1A. Rests on R94, R164, R168, R170, R172, R173, R178, R183. -/
def Obligations.Profiles : Prop :=
  (∀ (s : State) (l : Lane) (n : Axis) (q : Req) (at8 : BitVec 8),
     ∀ p ∈ ([(.pos, 1), (.vel, 2), (.track, 3), (.replan, 4)] : List ((Lane → Axis → Req → BitVec 8 → Instr) × Nat)),
     (s.lane l).judge q (R.profCmd n) true (wordN (p.2 + 256 * at8.toNat)) = none →
     (at8.toNat + 256 - (s.lane l).pnum % 256) % 256 ≠ 0 → (at8.toNat + 256 - (s.lane l).pnum % 256) % 256 ≤ 128 →
     Does s (p.1 l n q at8) { parts := [.pr n], regs := [R.profState n, R.profStat n] } fun L M =>
       (M.pr n).pend = some (p.2, at8.toNat) ∧ M.get (R.profState_pend_op n) = p.2 ∧ M.is (R.profState_pend n) = true ∧
       ((L.pr n).pend.isSome = true → M.is (R.profStat_cmd_overwrite n) = true)) ∧
  (∀ (s : State) (l : Lane) (n : Axis) (q : Req) (at8 : BitVec 8),
     ∀ p ∈ ([(.pos, 1), (.vel, 2), (.track, 3), (.replan, 4)] : List ((Lane → Axis → Req → BitVec 8 → Instr) × Nat)),
     (s.lane l).judge q (R.profCmd n) true (wordN (p.2 + 256 * at8.toNat)) = none →
     ((at8.toNat + 256 - (s.lane l).pnum % 256) % 256 = 0 ∨ 129 ≤ (at8.toNat + 256 - (s.lane l).pnum % 256) % 256) →
     Does s (p.1 l n q at8) { regs := [R.profStat n] } fun _ M => M.is (R.profStat_cmd_late n) = true) ∧
  (∀ (s : State) (l : Lane) (n : Axis) (op : Nat), op ≤ 3 →
     ((s.lane l).pr n).pend = some (op, (s.lane l).pnum % 256) → (s.lane l).coarse % (s.lane l).tServo = 0 →
     ((s.lane l).axis n = axArmed ∨ (s.lane l).axis n = axHold) →
     Does s (.profCmdDue l n) { parts := [.pr n], regs := [R.profState n] } fun _ M =>
       (M.pr n).pend = none ∧ (M.pr n).stored = some op ∧ M.get (R.profState_pend_op n) = op ∧
       M.is (R.profState_pend n) = true) ∧
  (∀ (s : State) (l : Lane) (n : Axis), ((s.lane l).pr n).pend = some (2, (s.lane l).pnum % 256) →
     (s.lane l).coarse % (s.lane l).tServo = 0 → (s.lane l).axis n = axDrive →
     (s.lane l).is (R.axpState_stopping n) = false → ((s.lane l).limits n).ok = true →
     Does s (.profCmdDue l n) (Foot.plan n) fun L M =>
       M.get (R.profState_mode n) = 2 ∧ M.is (R.profState_plan n) = true ∧ M.is (R.profState_at_target n) = false ∧
       (M.pr n).pend = none ∧ (M.pr n).target = L.getS (R.profVtgt_vtgt n)) ∧
  (∀ (s : State) (l : Lane) (n : Axis) (op : Nat), ((s.lane l).pr n).pend = some (op, (s.lane l).pnum % 256) →
     (s.lane l).coarse % (s.lane l).tServo = 0 →
     ((s.lane l).axis n = axOff ∨ (s.lane l).axis n = axFree ∨ (s.lane l).axis n = axAsc) →
     Does s (.profCmdDue l n) (Foot.plan n) fun _ M =>
       (M.pr n).pend = none ∧ M.is (R.profStat_cmd_refused n) = true) ∧
  (∀ (s : State) (l : Lane) (n : Axis), (s.lane l).pairMode = false → participates (s.lane l).belay = true →
     ((s.lane l).axis n = axArmed ∨ (s.lane l).axDriving n = true) →
     Does s (.profile l n) ((Foot.plan n).add { sigs := List.range' (axisSig n 0x20) 4 }) fun _ M =>
       M.sig (axisSig n 0x20) = wordI (pubP (M.spAt n M.pnum).p) ∧
       M.sig (axisSig n 0x22) = wordI (pubV (M.spAt n M.pnum).v) ∧
       M.sig (axisSig n 0x23) = wordI (pubA (M.spAt n M.pnum).a)) ∧
  (∀ (s : State) (l : Lane) (n : Axis) (a : Sample), ((s.lane l).pr n).around (s.lane l).pnum = (some a, none) →
     (s.lane l).get (R.profState_mode n) = 3 →
     (atLeast1 ((s.lane l).get (R.profStrm_starve n)) : Int) < (s.lane l).pnum - a.due → ((s.lane l).limits n).ok = true →
     Does s (.streamLost l n) ((Foot.plan n).add { parts := [.ax n] }) fun _ M =>
       M.is (R.profStat_strm_lost n) = true ∧ M.get (R.profState_mode n) = 1 ∧ M.is (R.profState_plan n) = true) ∧
  (∀ (s : State) (l : Lane) (n : Axis) (k : Fin 3), (s.lane l).get (R.profFerrCtl_persist n) ≠ 0 →
     (s.lane l).get (R.profFerrCtl_persist n) ≤ ((s.lane l).pr n).runs.get k → k.val ∉ ((s.lane l).pr n).fired →
     Does s (.profCheckFire l n k) { parts := [.ax n, .pr n], regs := [R.profStat n] } fun L M =>
       let act := L.get (if k = 0 then R.profFerrCtl_act_ferr n else if k = 1 then R.profFerrCtl_act_stall n
         else R.profFerrCtl_act_lost n)
       M.is (if k = 0 then R.profStat_ferr n else if k = 1 then R.profStat_stall n else R.profStat_lost n) = true ∧
       k.val ∈ (M.pr n).fired ∧ (1 ≤ act → act ≤ 4 → (M.ax n).profActs = (L.ax n).profActs ++ [act]) ∧
       (act = 0 → (M.ax n).profActs = (L.ax n).profActs)) ∧
  (∀ (s : State) (l : Lane) (n : Axis), (s.lane l).coarse % (s.lane l).tServo = 0 →
     ((s.lane l).ax n).higherAt ≠ some (s.lane l).pnum → (s.lane l).axis n = axDrive →
     (((s.lane l).ax n).profActs = [1] → (s.lane l).is (R.axpState_stopping n) = false →
       Does s (.profAction l n) (((Foot.axis n).add (Foot.plan n)).add { parts := [.ax n] }) fun L M =>
         M.axis n = axHold ∧ (M.ax n).profActs = [] ∧ (M.pr n).beforeHold = L.get (R.profState_mode n)) ∧
     (((s.lane l).ax n).profActs = [2] →
       Does s (.profAction l n) (((Foot.axis n).add (Foot.plan n)).add { parts := [.ax n] }) fun _ M =>
         M.axis n = axDrive ∧ M.is (R.axpState_stopping n) = true ∧ (M.ax n).profActs = []) ∧
     (((s.lane l).ax n).profActs = [3] →
       Does s (.profAction l n) ((Foot.axis n).add { parts := [.ax n] }) fun L M =>
         M.axis n = (if L.is (R.axpCfg_safe n) then axAsc else axFree) ∧ (M.ax n).profActs = []) ∧
     (((s.lane l).ax n).profActs = [4] →
       Does s (.profAction l n) { parts := [.ax n, .belaySt], regs := [R.belayStat] } fun L M =>
         M.isRaised 0x1A L.id = true ∧ (M.ax n).profActs = []))

/-- The edge generator: loads, compares, reloads, modes, pulses, the halt state and calibration. The EDGE stage
loads the compares of the FIELD legs from the sequence and flags a late one; a live compare fires once and sets the
output of its unit; a timebase boundary reloads the PWM units that are not held and flags late writes; a mode that a
unit does not accept is refused; a pulse runs for its width and one that overlaps is dropped; the halt state takes
the legs of a driving axis to the safe level and every other unit to inactive; EDGE_LOCK starts the calibration, and
cal_done follows where every group is within the limits. Rests on R217, R219, R220, R223, R224, R226, R228, R229,
R231, R232, R237, R238. -/
def Obligations.EdgeUnits : Prop :=
  (∀ (s : State) (l : Lane) (n : Axis) (done : BitVec 22) (seq : List (Nat × Nat)), ((s.lane l).fl n).seq = some seq →
     (s.lane l).regulates n = true → (s.lane l).is R.edgeStat_cal_done = true → (s.lane l).is R.edgeStat_halt = false →
     (s.lane l).edge.releasing = false → (∀ p ∈ seq, p.1 ≤ cmpNone) →
     Does s (.edgeLoad l n done)
       { parts := [.edge]
         regs := R.edgeStat :: [3 * n.val, 3 * n + 1, 3 * n + 2].flatMap (fun u => [R.edgeEuOn u, R.edgeEuOff u, R.edgeEuLvl u]) }
       fun L M =>
       n.val ∈ M.edge.loaded ∧ M.edge.loadDone.get n = done.toNat ∧
       (∀ leg, leg < 3 → L.euMode (3 * n + leg) = euField →
         M.get (R.edgeEuOn_cmp (3 * n + leg)) = (legCompares leg (bit (L.fl n).vec leg) seq).1 ∧
         M.get (R.edgeEuOff_cmp (3 * n + leg)) = (legCompares leg (bit (L.fl n).vec leg) seq).2) ∧
       ((∃ p ∈ seq, p.1 < done.toNat) → M.is R.edgeStat_late_edge = true)) ∧
  (∀ (s : State) (l : Lane) (u : Fin 16) (off : Bool), u.val < 12 → (s.lane l).euMode u = euField →
     u.val / 3 ∈ (s.lane l).edge.loaded → (s.lane l).regulates (u.val / 3) = true →
     (s.lane l).activeCmp u off < (s.lane l).tbFine ((s.lane l).euTb u) → 2 * u.val + b2n off ∉ (s.lane l).edge.fired →
     (s.lane l).is R.edgeStat_halt = false → u.val ∉ (s.lane l).edge.held →
     (off = true ∨ (s.lane l).activeCmp u true ≠ (s.lane l).activeCmp u false) →
     Does s (.edgeCompareFire l u off) { parts := [.edge, .fl (axOf (u.val / 3))], regs := [R.edgeEuLvl u] } fun _ M =>
       2 * u.val + b2n off ∈ M.edge.fired ∧ M.get (R.edgeEuLvl_out u) = (if off then 1 else 2)) ∧
  (∀ (s : State) (l : Lane) (u : Fin 16) (off : Bool), (s.lane l).euMode u = euPwm →
     (s.lane l).tbRuns ((s.lane l).euTb u) = true → (s.lane l).is R.edgeStat_cal_done = true →
     (s.lane l).activeCmp u off < (s.lane l).tbFine ((s.lane l).euTb u) → 2 * u.val + b2n off ∉ (s.lane l).edge.fired →
     (s.lane l).is R.edgeStat_halt = false → u.val ∉ (s.lane l).edge.held →
     (off = true ∨ (s.lane l).activeCmp u true ≠ (s.lane l).activeCmp u false) →
     Does s (.edgeCompareFire l u off) { parts := [.edge], regs := [R.edgeEuLvl u] } fun _ M =>
       2 * u.val + b2n off ∈ M.edge.fired ∧
       M.get (R.edgeEuLvl_out u) = (if off then (if u.val < 12 then 1 else 0) else 2)) ∧
  (∀ (s : State) (l : Lane) (late : BitVec 19), (s.lane l).is R.edgeStat_cal_done = true →
     Does s (.timebaseBoundary l 3 late) { parts := [.edge], regs := [R.edgeStat, R.edgeLate] } fun L M =>
       (∀ u, u < 16 → L.euTb u = 3 → L.euMode u = euPwm → L.bitOf R.edgeUpdHold_unit u = false →
         M.activeCmp u false = L.get (R.edgeEuOn_cmp u) ∧ M.activeCmp u true = L.get (R.edgeEuOff_cmp u)) ∧
       M.reg R.edgeLate = wordN ((L.reg R.edgeLate).toNat ||| (late.toNat &&& L.tbMask 3)) ∧
       M.edge.tbPeriod = L.edge.tbPeriod) ∧
  (∀ (s : State) (l : Lane) (tb : Fin 4) (late : BitVec 19), tb.val < 3 → (s.lane l).is R.edgeStat_cal_done = true →
     (s.lane l).is (tbEnF tb) = true → (s.lane l).coarse % (s.lane l).tServo = 0 →
     Does s (.timebaseBoundary l tb late) { parts := [.edge], regs := [R.edgeStat, R.edgeLate] } fun L M =>
       tb.val ∈ M.edge.tbRun ∧
       M.edge.tbPeriod.get tb = (if L.bitOf R.edgeUpdHold_tb tb then L.edge.tbPeriod.get tb else L.get (tbPeriodF tb)) ∧
       (∀ u, u < 16 → L.euTb u = tb.val → L.euMode u = euPwm → L.bitOf R.edgeUpdHold_unit u = false →
         M.activeCmp u false = L.get (R.edgeEuOn_cmp u) ∧ M.activeCmp u true = L.get (R.edgeEuOff_cmp u))) ∧
  (∀ (s : State) (l : Lane) (q : Req) (w : Word) (r : Option (Fin 4)), (s.lane l).judge q R.edgeUpdHold true w = none →
     Does s (.edgeUpdHoldWrite l q w r) { regs := [R.edgeUpdHold, R.edgeStat, R.edgeLate] } fun L M =>
       M.reg R.edgeUpdHold = (L.busWrite q.secure R.edgeUpdHold w).reg R.edgeUpdHold ∧
       (r = none → M.reg R.edgeLate = L.reg R.edgeLate ∧ M.reg R.edgeStat = L.reg R.edgeStat)) ∧
  (∀ (s : State) (l : Lane) (q : Req) (u : Fin 16) (w : Word), (s.lane l).judge q (R.edgeEuCfg u) true w = none →
     modeAllowed u (bits w.toNat 2 0) = false →
     Does s (.edgeModeWrite l q u w) { regs := [R.edgeStat] } fun _ M => M.is R.edgeStat_mode_refused = true) ∧
  (∀ (s : State) (l : Lane) (q : Req) (u : Fin 16) (w : Word), (s.lane l).judge q (R.edgeEuCfg u) true w = none →
     modeAllowed u (bits w.toNat 2 0) = true →
     Does s (.edgeModeWrite l q u w)
       { parts := [.edge]
         regs := R.edgeEuCfg u :: R.edgeEuLvl u :: [0, 1, 2].map fun g => R.edgeEuLvl (3 * (u.val / 3) + g) } fun L M =>
       M.reg (R.edgeEuCfg u) = (L.busWrite q.secure (R.edgeEuCfg u) w).reg (R.edgeEuCfg u) ∧
       (M.euMode u ≠ L.euMode u → M.euMode u = euOff → u.val ∉ L.edge.held → M.get (R.edgeEuLvl_out u) = 0)) ∧
  (∀ (s : State) (l : Lane) (q : Req) (u : Fin 16) (w : Word), (s.lane l).judge q (R.edgeEuLvl u) true w = none →
     (s.lane l).euMode u = euStatic → u.val ∉ (s.lane l).edge.held →
     Does s (.edgeLvlWrite l q u w) { regs := [R.edgeEuLvl u] } fun L M =>
       M.is (R.edgeEuLvl_lvl u) = (L.busWrite q.secure (R.edgeEuLvl u) w).is (R.edgeEuLvl_lvl u) ∧
       M.get (R.edgeEuLvl_out u) = (if M.is (R.edgeEuLvl_lvl u) then 2 else 0)) ∧
  (∀ (s : State) (l : Lane) (q : Req) (u : Fin 16) (w : Word), (s.lane l).judge q (R.edgeEuLvl u) true w = none →
     (s.lane l).euMode u ≠ euStatic →
     Does s (.edgeLvlWrite l q u w) { regs := [R.edgeEuLvl u] } fun L M =>
       M.reg (R.edgeEuLvl u) = (L.busWrite q.secure (R.edgeEuLvl u) w).reg (R.edgeEuLvl u)) ∧
  (∀ (s : State) (l : Lane) (u : Fin 16) (t : Nat), (s.lane l).edge.pulseReq = [(u.val, t)] →
     (s.lane l).euMode u = euPulse → (s.lane l).is R.edgeStat_halt = false → u.val ∉ (s.lane l).edge.held →
     ((s.lane l).edge.pulseEnd.get u ≤ t →
       Does s (.pulseStart l u) { parts := [.edge], regs := [R.edgeEuLvl u] } fun L M =>
         M.edge.pulseReq = [] ∧ M.get (R.edgeEuLvl_out u) = 2 ∧
         M.edge.pulseEnd.get u = t + 64 * atLeast1 (L.get (R.edgeEuCfg_width u))) ∧
     (t < (s.lane l).edge.pulseEnd.get u →
       Does s (.pulseStart l u) { parts := [.edge], regs := [R.edgeStat] } fun L M =>
         M.edge.pulseReq = [] ∧ M.is R.edgeStat_pulse_ovr = true ∧ M.edge.pulseEnd = L.edge.pulseEnd)) ∧
  (∀ (s : State) (l : Lane) (u : Fin 16), (s.lane l).euMode u = euPulse → (s.lane l).get (R.edgeEuLvl_out u) = 2 →
     Does s (.pulseEnd l u) { regs := [R.edgeEuLvl u] } fun _ M => M.get (R.edgeEuLvl_out u) = 0) ∧
  (∀ (s : State) (l : Lane), (s.lane l).haltCause = true → (s.lane l).is R.edgeStat_halt = false →
     Does s (.edgeHaltEnter l)
       { parts := [.edge], regs := R.edgeStat :: (List.range 16).map R.edgeEuLvl } fun L M =>
       M.is R.edgeStat_halt = true ∧ M.edge.pulseReq = [] ∧ M.edge.loaded = [] ∧
       (∀ u, u < 12 → (L.axDriving (u / 3) = true ∨ L.axis (u / 3) = axAsc) →
         M.get (R.edgeEuLvl_out u) = (if L.is (R.axpCfg_safe (u / 3)) then 1 else 0)) ∧
       (∀ u, 12 ≤ u → u < 16 → M.get (R.edgeEuLvl_out u) = 0)) ∧
  (∀ (s : State) (l : Lane), (s.lane l).haltCause = false → (s.lane l).is R.edgeStat_halt = true →
     Does s (.edgeHaltRelease l) { parts := [.edge], regs := [R.edgeStat] } fun _ M =>
       M.is R.edgeStat_halt = false ∧ M.edge.releasing = true) ∧
  (∀ (s : State) (l : Lane) (q : Req) (w : Word), (s.lane l).judge q R.edgeLock true w = none →
     bits w.toNat 15 0 = 0xC1A5 → (s.lane l).locked R.edgeLock = false →
     Does s (.edgeLock l q w) { parts := [.edge, .locks] } fun _ M => R.edgeLock ∈ M.locks ∧ M.edge.calRunning = true) ∧
  (∀ (s : State) (l : Lane) (a b c d : BitVec 12), (s.lane l).edge.calRunning = true →
     (∀ x ∈ [a, b, c, d], (s.lane l).n16Ok x.toNat = true) →
     Does s (.edgeCalComplete l a b c d) { parts := [.edge], regs := [R.edgeStat] } fun L M =>
       M.is R.edgeStat_cal_done = true ∧ M.edge.calRunning = false ∧ M.is R.edgeStat_dl_fail = L.is R.edgeStat_dl_fail ∧
       M.edge.newTab = L.edge.newTab ++ [(0, a.toNat), (1, b.toNat), (2, c.toNat), (3, d.toNat)]) ∧
  (∀ (s : State) (l : Lane) (a b c d : BitVec 12), (s.lane l).edge.calRunning = true →
     (∃ x ∈ [a, b, c, d], (s.lane l).n16Ok x.toNat = false) →
     Does s (.edgeCalComplete l a b c d) { parts := [.edge], regs := [R.edgeStat] } fun L M =>
       M.is R.edgeStat_dl_fail = true ∧ M.is R.edgeStat_cal_done = L.is R.edgeStat_cal_done) ∧
  (∀ (s : State) (l : Lane) (g : Fin 4), (s.lane l).get R.edgeDlAge_age < (s.lane l).get (R.edgeDlStat_age g.val) →
     Does s (.dlStale l g) { regs := [R.edgeStat] } fun _ M => M.is R.edgeStat_dl_stale = true)

/-- The gates of the bridge die: wires, interlock, switching phases, override, measured instants, bootstraps. A
gate-wire edge is taken, and two requests of one leg in the same cycle turn neither switch on and raise the
interlock; a waiting turn-on starts once the other switch is off; prime, float and set follow each other and the
prime code adapts; an override outside MAKER and INSTALL is refused; crossings are reported and form measured
instants; refresh pulses run and end; a low bootstrap turns its high side off at once until its release. Rests on
R244, R245, R247, R248, R249, R250, R251, R252, R253, R254, R256. -/
def Obligations.BridgeGates : Prop :=
  (∀ (s : State) (l : Lane) (g : Fin 25), (s.lane l).wireLevel g ≠ decide (g.val ∈ (s.lane l).bridge.wire) →
     Does s (.gateWireEdge l g false) { parts := [.bridge] } fun L M =>
       decide (g.val ∈ M.bridge.wire) = L.wireLevel g ∧ ∀ k, k ≠ g.val → (k ∈ M.bridge.wire ↔ k ∈ L.bridge.wire)) ∧
  (∀ (s : State) (l : Lane) (g : Fin 25), g.val < 24 → (s.lane l).wireLevel g = true → g.val ∉ (s.lane l).bridge.wire →
     gateMate g ∈ (s.lane l).bridge.wire → (s.lane l).is R.brgStat_ovr = false → g.val ∉ (s.lane l).bridge.on →
     gateMate g ∉ (s.lane l).bridge.on → (s.lane l).bitOf R.brgIlk_leg (g.val / 2) = false →
     g.val / 2 ∉ (s.lane l).bridge.ilkHold →
     Does s (.gateWireEdge l g true) (Foot.trip.add { regs := [R.brgIlk, R.brgEvt, R.brgCnt] }) fun L M =>
       M.bitOf R.brgIlk_leg (g.val / 2) = true ∧ M.is R.brgEvt_interlock = true ∧
       M.get R.brgCnt_ilk = satU 16 (L.get R.brgCnt_ilk + 1) ∧ Pulsed L M (16 + g.val / 2 / 3) ∧ g.val ∈ M.bridge.wire) ∧
  (∀ (s : State) (l : Lane) (g : Fin 25), g.val ∈ (s.lane l).bridge.waiting → gateMate g ∉ (s.lane l).bridge.on →
     Does s (.turnOnStart l g) { parts := [.bridge] } fun L M =>
       g.val ∈ M.bridge.on ∧ g.val ∉ M.bridge.waiting ∧ M.bridge.phase.get g = 1 ∧ g.val ∈ M.bridge.unconf ∧
       M.bridge.wire = L.bridge.wire) ∧
  (∀ (s : State) (l : Lane) (g : Fin 25), (s.lane l).bridge.phase.get g = 1 →
     Does s (.gatePrimeEnd l g) { parts := [.bridge] } fun L M =>
       M.bridge.phase.get g = 2 ∧ M.bridge.on = L.bridge.on) ∧
  (∀ (s : State) (l : Lane) (g : Fin 25) (t : Option (BitVec 16)), (s.lane l).bridge.phase.get g = 2 →
     g.val ∈ (s.lane l).bridge.on → (s.lane l).primeAdapt g true = true →
     Does s (.gateFloatEnd l g true t) { parts := [.bridge], regs := [R.brgPrime g, R.brgEvt] } fun L M =>
       M.bridge.phase.get g = 0 ∧ g.val ∉ M.bridge.unconf ∧
       M.get (R.brgPrime_on g) =
         (clampI 0 126 (nextPrime (L.get (R.brgPrime_on g)) (L.primeMargin g true) (t.map BitVec.toNat))).toNat ∧
       M.get (R.brgPrime_off g) = L.get (R.brgPrime_off g)) ∧
  (∀ (s : State) (l : Lane) (g : Fin 25) (b : Bool) (t : Option (BitVec 16)), (s.lane l).bridge.phase.get g = 2 →
     g.val ∉ (s.lane l).bridge.on → (s.lane l).primeAdapt g false = false →
     Does s (.gateFloatEnd l g b t) { parts := [.bridge] } fun L M =>
       M.bridge.phase.get g = 0 ∧ (b = false → M.bridge.unconf = L.bridge.unconf)) ∧
  (∀ (s : State) (l : Lane) (g : Fin 25),
     Does s (.gateWatchFault l g) (Foot.trip.add { regs := [R.brgEvt] }) fun L M =>
       M.get R.brgEvt_gw_gate = g ∧ Pulsed L M (if g.val = 24 then 24 else 20 + g.val / 6)) ∧
  (∀ (s : State) (l : Lane) (q : Req) (w : Word), (s.lane l).judge q R.brgOvrEn true w = none → bit w.toNat 0 = true →
     (s.lane l).get R.lcsState_lc ≠ 1 → (s.lane l).get R.lcsState_lc ≠ 2 →
     Does s (.overrideEnable l q w) { regs := [R.brgEvt] } fun _ M => M.is R.brgEvt_ovr_refused = true) ∧
  (∀ (s : State) (l : Lane) (q : Req) (w : Word), (s.lane l).judge q R.brgOvrEn true w = none →
     (bit w.toNat 0 = false ∨ (s.lane l).get R.lcsState_lc = 1 ∨ (s.lane l).get R.lcsState_lc = 2) →
     Does s (.overrideEnable l q w) { parts := [.bridge], regs := [R.brgOvrEn, R.brgStat] } fun L M =>
       M.reg R.brgOvrEn = (L.busWrite q.secure R.brgOvrEn w).reg R.brgOvrEn ∧ M.is R.brgStat_ovr = M.is R.brgOvrEn_en) ∧
  (∀ (s : State) (l : Lane) (ph : Fin 12) (up byWire : Bool) (v : BitVec 22),
     Does s (.switchNodeCrossing l ph up byWire v) { parts := [.bridge] } fun L M =>
       M.bridge.reports = L.bridge.reports ++ [⟨ph.val, up, byWire, v.toNat⟩] ∧ M.bridge.on = L.bridge.on) ∧
  (∀ (s : State) (l : Lane) (ph : Fin 12) (up byWire : Bool) (v : Nat) (rest : List EdgeReport),
     (s.lane l).bridge.reports = ⟨ph.val, up, byWire, v⟩ :: rest →
     Does s (.edgeInstantReport l false) { parts := [.bridge, .fl (axOf (ph.val / 3))] } fun L M =>
       M.bridge.reports = rest ∧ ph.val % 3 ∈ (M.fl (ph.val / 3)).failed ∧
       (M.fl (ph.val / 3)).meas = (L.fl (ph.val / 3)).meas) ∧
  (∀ (s : State) (l : Lane) (ph : Fin 12) (up : Bool) (v : Nat) (rest : List EdgeReport),
     (s.lane l).bridge.reports = ⟨ph.val, up, false, v⟩ :: rest →
     Does s (.edgeInstantReport l true) { parts := [.bridge, .fl (axOf (ph.val / 3))] } fun L M =>
       M.bridge.reports = rest ∧
       (M.fl (ph.val / 3)).meas = (L.fl (ph.val / 3)).meas ++ [⟨ph.val % 3, up, L.coarse / L.tTick * L.tTick * 64 + v⟩]) ∧
  (∀ (s : State) (l : Lane) (ph : Fin 12), (s.lane l).followsWires (ph.val / 3) = true →
     (s.lane l).gateReq (2 * ph.val + 1) = true → 2 * ph.val ∉ (s.lane l).bridge.on →
     ph.val ∉ (s.lane l).bridge.refresh →
     Does s (.refreshPulseStart l ph) { parts := [.bridge], regs := [R.brgCnt] } fun L M =>
       ph.val ∈ M.bridge.refresh ∧ M.get R.brgCnt_refresh = satU 16 (L.get R.brgCnt_refresh + 1) ∧
       M.get R.brgCnt_ilk = L.get R.brgCnt_ilk) ∧
  (∀ (s : State) (l : Lane) (ph : Fin 12), ph.val ∈ (s.lane l).bridge.refresh →
     Does s (.refreshPulseEnd l ph) { parts := [.bridge] } fun _ M => ph.val ∉ M.bridge.refresh) ∧
  (∀ (s : State) (l : Lane) (ph : Fin 12) (low : Bool),
     Does s (.bsWarnChange l ph low) { regs := [R.brgBswarn] } fun _ M => M.bitOf R.brgBswarn_warn ph = low) ∧
  (∀ (s : State) (l : Lane) (ph : Fin 12),
     Does s (.bsLow l ph) { parts := [.bridge], regs := [R.brgStat, R.brgEvt] } fun _ M =>
       M.bitOf R.brgStat_bs_low ph = true ∧ M.bitOf R.brgEvt_bs_low_evt ph = true ∧ 2 * ph.val + 1 ∉ M.bridge.on ∧
       2 * ph.val + 1 ∉ M.bridge.waiting) ∧
  (∀ (s : State) (l : Lane) (ph : Fin 12), (s.lane l).bitOf R.brgStat_bs_low ph = true →
     Does s (.bsLowRelease l ph) { parts := [.bridge], regs := [R.brgStat] } fun _ M =>
       M.bitOf R.brgStat_bs_low ph = false) ∧
  (∀ (s : State) (l : Lane) (ph : Fin 12) (m : BitVec 8), 2 * ph.val ∈ (s.lane l).bridge.on →
     Does s (.scThresholdUpdate l ph m) { parts := [.bridge] } fun L M =>
       let env := L.bridge.env.get ph
       M.bridge.env.get ph =
         (if env < m.toNat then min m.toNat (env + 2 * (L.get (R.brgSca_up (ph.val / 3)) + 1)) else env - env / 64) ∧
       M.bridge.on = L.bridge.on)

/-- The trip sources of the bridge die: raised, ended, reported, cleared; the locks and commands of BRG. Each trip
source is raised under its condition - active, flagged and on its way to the lane die where its map enables it,
TRIP_STAT showing the actions that the map gives - and ends with it; the braking request follows the link voltage; a
flag is cleared only while its source is inactive and the clear is refused otherwise; a report of VG_UV or EDGE_LOSS
raises TRIP_LANE; BRG_LOCK sets the prime codes and checks the thresholds. Rests on R12, R19, R240, R245, R256,
R257, R261, R262, R263, R264, R265, R269. -/
def Obligations.BridgeTrips : Prop :=
  (∀ (s : State) (l : Lane) (ph : Fin 12) (m : BitVec 8), 2 * ph.val ∈ (s.lane l).bridge.on →
     2 * ph.val ∉ (s.lane l).bridge.unconf → (s.lane l).scThreshold ph < m.toNat →
     Does s (.scLs l ph m) Foot.trip fun L M => Pulsed L M ph) ∧
  (∀ (s : State) (l : Lane) (p : Fin 4) (m : BitVec 8),
     bits ((s.lane l).reg R.brgDcth).toNat (8 * p.val + 7) (8 * p.val) < m.toNat →
     Does s (.scDc l p m) Foot.trip fun L M => Pulsed L M (12 + p.val)) ∧
  (∀ (s : State) (l : Lane) (v : BitVec 8),
     ((s.lane l).get R.brgVl0_ch_on ≤ v.toNat →
       Does s (.chopperRequestChange l v) { parts := [.bridge], regs := [R.brgMeas, R.brgStat] } fun _ M =>
         M.get R.brgMeas_vlink = v.toNat ∧ M.is R.brgStat_chop_req = true) ∧
     (v.toNat < (s.lane l).get R.brgVl0_ch_on → v.toNat ≤ (s.lane l).get R.brgVl0_ch_off →
       Does s (.chopperRequestChange l v) (Foot.trip.add { regs := [R.brgMeas, R.brgStat] }) fun L M =>
         M.get R.brgMeas_vlink = v.toNat ∧ M.is R.brgStat_chop_req = false ∧ Ended L M 31) ∧
     (v.toNat < (s.lane l).get R.brgVl0_ch_on → (s.lane l).get R.brgVl0_ch_off < v.toNat →
       Does s (.chopperRequestChange l v) { regs := [R.brgMeas] } fun _ M => M.get R.brgMeas_vlink = v.toNat)) ∧
  (∀ (s : State) (l : Lane) (v : BitVec 8),
     ((s.lane l).is R.brgStat_chop_req = true → (s.lane l).get R.brgVl0_ch_flt ≤ v.toNat →
       Does s (.chopFault l v) (Foot.trip.add { regs := [R.brgMeas] }) fun L M => Raised L M 31) ∧
     ((s.lane l).hov ≤ v.toNat →
       Does s (.hardOv l v) (Foot.trip.add { regs := [R.brgMeas] }) fun L M =>
         Raised L M 32 ∧ ∀ p : Fin 4, L.bitOf R.brgCfg_port_en p = true → 2 ≤ M.portAction p) ∧
     ((s.lane l).tripActive 32 = true → v.toNat + 8 < (s.lane l).hov →
       Does s (.hardOvClear l v) (Foot.trip.add { regs := [R.brgMeas] }) fun L M => Ended L M 32) ∧
     (v.toNat < (s.lane l).get R.brgVl1_uv →
       Does s (.vlinkUv l v) (Foot.trip.add { regs := [R.brgMeas] }) fun L M => Raised L M 33) ∧
     ((s.lane l).get R.brgVl1_uv ≤ v.toNat →
       Does s (.vlinkUvClear l v) (Foot.trip.add { regs := [R.brgMeas] }) fun L M => Ended L M 33)) ∧
  (∀ (s : State) (l : Lane) (tj : BitVec 8),
     Does s (.vgUv l) (Foot.trip.add { regs := [R.brgStat] }) (fun L M => Raised L M 34 ∧ M.is R.brgStat_vg_ok = false) ∧
     Does s (.vgUvClear l) (Foot.trip.add { regs := [R.brgStat] }) (fun L M => Ended L M 34 ∧ M.is R.brgStat_vg_ok = true) ∧
     (224 ≤ tj.toNat →
       Does s (.ot l tj) (Foot.trip.add { regs := [R.brgMeas] }) fun L M =>
         Raised L M 35 ∧ M.get R.brgMeas_tj = tj.toNat) ∧
     (tj.toNat < 209 →
       Does s (.otClear l tj) (Foot.trip.add { regs := [R.brgMeas] }) fun L M =>
         Ended L M 35 ∧ M.get R.brgMeas_tj = tj.toNat)) ∧
  (∀ (s : State) (l : Lane) (k : Fin 6),
     Does s (.extTrip l k) Foot.trip (fun L M => Raised L M (25 + k.val)) ∧
     Does s (.extTripRelease l k) Foot.trip (fun L M => Ended L M (25 + k.val)) ∧
     Does s (.edgeLoss l) Foot.trip (fun L M => Raised L M 36) ∧
     Does s (.lathLoss l) Foot.trip (fun L M => Raised L M 37)) ∧
  (∀ (s : State) (l : Lane) (p : Fin 4), p.val ∈ (s.lane l).bridge.marker → (s.lane l).portAction p = 0 →
     Does s (.tripActionRelease l p) { parts := [.bridge] } fun L M =>
       p.val ∉ M.bridge.marker ∧ ∀ k : Fin 4, k ≠ p → (k.val ∈ M.bridge.marker ↔ k.val ∈ L.bridge.marker)) ∧
  (∀ (s : State) (l : Lane) (q : Req) (w : Word), (s.lane l).judge q R.tripFlag0 true w = none →
     Does s (.tripFlagClear l q false w)
       { parts := [.bridge], regs := [R.tripFlag0, R.tripFlag1, R.tripStat] } fun L M =>
       (∀ i, i < 32 → M.tripFlagged i = (L.tripFlagged i && (!bit w.toNat i || L.tripActive i))) ∧
       ((∃ i, i < 32 ∧ bit w.toNat i = true ∧ L.tripFlagged i = true ∧ L.tripActive i = true) →
         M.is R.tripStat_clr_refused = true) ∧ M.ActsShown) ∧
  (∀ (s : State) (l : Lane) (f : Nat) (rest : List Nat), (s.lane l).bridge.flagsOut = f :: rest →
     Does s (.tripFlagReport l) { parts := [.bridge, .belaySt], regs := [R.belayStat] } fun L M =>
       M.bridge.flagsOut = rest ∧ f ∈ M.bridge.known ∧ ((f = 34 ∨ f = 36) → M.isRaised 0x12 L.id = true)) ∧
  (∀ (s : State) (l : Lane),
     Does s (.laneLathLoss l) { parts := [.bridge, .belaySt], regs := [R.belayStat] } fun L M =>
       M.bridge.lathDown = true ∧ M.isRaised 0x12 L.id = true ∧ (3 ≤ L.lath.fails → M.isRaised 0x0C L.id = true)) ∧
  (∀ (s : State) (l : Lane) (q : Req) (w : Word), (s.lane l).judge q R.brgLock true w = none →
     bits w.toNat 15 0 = 0xC1A5 → (s.lane l).locked R.brgLock = false →
     Does s (.brgLock l q w)
       { parts := [.bridge, .locks], regs := R.brgStat :: R.brgEvt :: (List.range 25).map R.brgPrime } fun L M =>
       R.brgLock ∈ M.locks ∧
       (∀ g, g < 24 → M.get (R.brgPrime_on g) = L.get (R.brgPon_prime0 (g / 6)) ∧
         M.get (R.brgPrime_off g) = L.get (R.brgPoff_prime0 (g / 6))) ∧
       (L.get R.brgVl0_ch_on ≤ L.get R.brgVl0_ch_off → M.is R.brgEvt_cfg_err = true ∧ M.is R.brgStat_locked = false)) ∧
  (∀ (s : State) (l : Lane) (q : Req),
     ((s.lane l).judge q R.brgCmd true 1#32 = none →
       Does s (.brgClrCnt l q) { regs := [R.brgCnt] } fun _ M => M.reg R.brgCnt = 0) ∧
     ((s.lane l).judge q R.brgCmd true 2#32 = none →
       Does s (.primeReset l q) { regs := (List.range 25).map R.brgPrime } fun L M =>
         ∀ g, g < 24 → M.get (R.brgPrime_on g) = L.get (R.brgPon_prime0 (g / 6)) ∧
           M.get (R.brgPrime_off g) = L.get (R.brgPoff_prime0 (g / 6))))

/-- The Belay from BOOT to ACTIVE: leaving BOOT, the identity check, SYNC, power-on and solo start; the watchdog.
BOOT is left for SYNC under its conditions, no axis changing; a wrong identity is raised as cause 0x14; a lane that
meets SYNC's conditions becomes ready, or enters REJOIN where a lane participates; ready lanes activate together at
a multiple of 64 periods, a lone one by its solo start into the limp rule; the watchdog is restarted by its key and
raises cause 0x0E. Rests on R273, R275, R276, R278, R304, R12. -/
def Obligations.BelayPowerOn : Prop :=
  (∀ (s : State) (l : Lane), (s.lane l).belay = bsBoot → (s.lane l).lcs.imageOk = true →
     tickLegal (s.lane l).tTick (s.lane l).nTicks (s.lane l).basicCycle = true →
     (s.lane l).is R.edgeStat_cal_done = true → (s.lane l).locked R.belayLock = true →
     (s.lane l).is R.brgStat_locked = true →
     Does s (.bootExit l) Foot.belay fun L M =>
       M.belay = bsSync ∧ M.get R.belayCause_own = (if L.is R.triadStat_lockstep_broken then 0x18 else 0) ∧
       ∀ n : Axis, M.axis n = L.axis n) ∧
  (∀ (s : State) (l : Lane), (s.lane l).belay = bsSync → (s.lane l).identOk = false →
     Does s (.identityCheck l) { parts := [.belaySt], regs := [R.belayStat, R.belayCause] } fun L M =>
       M.is R.belayStat_id_mismatch = true ∧ M.get R.belayCause_own = 0x14 ∧ M.isRaised 0x14 L.id = true) ∧
  (∀ (s : State) (l : Lane), (s.lane l).belay = bsSync → 8 ≤ (s.lane l).time.syncRun → (s.lane l).tickRefOk = true →
     (s.lane l).identOk = true → (s.lane l).is R.triadStat_split = false →
     (∀ y, y ≠ (s.lane l).id → participates ((s.lane l).view y) = false) →
     Does s (.syncExit l) { parts := [.belaySt] } fun _ M => M.belaySt.ready = true) ∧
  (∀ (s : State) (l y : Lane), (s.lane l).belay = bsSync → 8 ≤ (s.lane l).time.syncRun → (s.lane l).tickRefOk = true →
     (s.lane l).identOk = true → (s.lane l).is R.triadStat_split = false → y ≠ (s.lane l).id →
     participates ((s.lane l).view y) = true →
     (∀ z ∈ (s.lane l).drivingLanes, bits ((s.lane l).brec z 5) 31 16 = (s.lane l).compat) →
     (s.lane l).linkUp .l0 = true → (s.lane l).linkUp .l1 = true → (s.lane l).atPeriod = true →
     Does s (.syncExit l) (Foot.belay.add { parts := [.aon], regs := [R.belayCnt] }) fun L M =>
       M.belay = bsRejoin ∧ M.belaySt.rejoinAt = L.coarse ∧ (L.aon.uncounted = false → L.aon.now ∈ M.aon.attempts)) ∧
  (∀ (s : State) (l : Lane) (p : Nat), (s.lane l).belay = bsSync → (s.lane l).belaySt.ready = true →
     (s.lane l).belaySt.twoReady = some p → p + 8 ≤ (s.lane l).pnum → (s.lane l).pnum % 64 = 0 →
     (s.lane l).atPeriod = true → (∀ y, participates ((s.lane l).view y) = false) →
     Does s (.powerOnActivate l) Foot.belay fun L M => M.belay = bsActive ∧ ∀ n : Axis, M.axis n = L.axis n) ∧
  (∀ (s : State) (l : Lane) (t : Nat), (s.lane l).belay = bsSync → (s.lane l).belaySt.ready = true →
     (s.lane l).is R.belayStart_solo_en = true → (s.lane l).belaySt.aloneSince = some t →
     t + (s.lane l).get R.belayStart_solo_t * 200000 ≤ (s.lane l).coarse →
     (s.lane l).atPeriod = true → (∀ y, participates ((s.lane l).view y) = false) →
     Does s (.soloStart l) (Foot.belay.add { parts := [.aon], regs := [R.belayStat, R.belayReq] }) fun _ M =>
       M.belay = bsActive ∧ M.aon.twoFault = true ∧ M.get R.belayState_limp_axes = 15) ∧
  (∀ (s : State) (l : Lane) (q : Req) (w : Word), (s.lane l).judge q R.belayKick true w = none →
     (bits w.toNat 15 0 = 0x5EED → Does s (.belayKick l q w) { parts := [.belaySt] } fun _ M => M.belaySt.wdg = 0) ∧
     (bits w.toNat 15 0 ≠ 0x5EED → Stays s (.belayKick l q w))) ∧
  (∀ (s : State) (l : Lane), (s.lane l).get R.belayWdg_period ≠ 0 →
     (s.lane l).get R.belayWdg_period ≤ (s.lane l).belaySt.wdg →
     Does s (.wdg l) { parts := [.belaySt], regs := [R.belayStat] } fun L M =>
       M.is R.belayStat_wdg = true ∧ M.isRaised 0x0E L.id = true ∧ M.belaySt.wdg = 0)

/-- Causes, suspicion and exclusion. An own cause of action SUSPECT moves ACTIVE to SUSPECT and 16 clean periods
return it; an own cause of action self-exclusion starts the exclusion of a driving lane, which ends in EXCLUDED at
the next boundary, while CLK and WAKE_FAIL exclude at once; two votes AGAINST exclude; a peer count at its limit
decides against the peer, unless an earlier-lettered lane would be excluded in the same period, when the counts
return to 0; the safe action takes every axis of a lane that leaves the driving states. Rests on R273, R288, R289,
R292, R293, R294, R295, R299, R308. -/
def Obligations.BelayExclusion : Prop :=
  (∀ (s : State) (l : Lane) (code : BitVec 8), (s.lane l).belay = bsActive →
     (s.lane l).isRaised code.toNat (s.lane l).id = true → (s.lane l).causeAction code.toNat = 1 →
     Does s (.suspectEnter l code) Foot.belay fun L M =>
       M.belay = bsSuspect ∧ M.get R.belayCause_own = code.toNat ∧ ∀ n : Axis, M.axis n = L.axis n) ∧
  (∀ (s : State) (l : Lane), (s.lane l).belay = bsSuspect → (s.lane l).belaySt.selfExcluding = false →
     16 ≤ (s.lane l).belaySt.cleanRun → (s.lane l).atPeriod = true →
     Does s (.suspectClear l) Foot.belay fun L M =>
       M.belay = bsActive ∧ M.get R.belayCause_own = 0 ∧ ∀ n : Axis, M.axis n = L.axis n) ∧
  (∀ (s : State) (l : Lane) (code : BitVec 8), (s.lane l).isRaised code.toNat (s.lane l).id = true →
     (s.lane l).causeAction code.toNat = 2 → code.toNat ≠ 0x0A → code.toNat ≠ 0x13 →
     driving (s.lane l).belay = true → (s.lane l).belaySt.selfExcluding = false →
     Does s (.selfExclusion l code) Foot.excl fun L M => SelfExcluding L M code.toNat) ∧
  (∀ (s : State) (l : Lane) (code : BitVec 8), (s.lane l).isRaised code.toNat (s.lane l).id = true →
     (s.lane l).causeAction code.toNat = 2 →
     (((code.toNat = 0x0A ∨ code.toNat = 0x13) ∧ (s.lane l).belay ≠ bsDead ∧ (s.lane l).belay ≠ bsExcluded) ∨
       (s.lane l).belay = bsShadow ∨ (s.lane l).belay = bsRejoin) →
     Does s (.selfExclusion l code) Foot.excl fun L M =>
       OwnExcluded L M code.toNat ∧ (L.belay = bsShadow ∨ L.belay = bsRejoin → M.is R.belayStat_rej_fail = true)) ∧
  (∀ (s : State) (l : Lane), (s.lane l).belaySt.selfExcluding = true → (s.lane l).atPeriod = true →
     Does s (.excludedEnter l) Foot.excl fun L M => OwnExcluded L M L.belaySt.requestCause) ∧
  (∀ (s : State) (l : Lane), driving (s.lane l).belay = true →
     2 ≤ (lanes.filter (fun y => (s.lane l).voteIn y == voteAgainst)).length →
     Does s (.peerExclusion l) Foot.excl fun L M => OwnExcluded L M L.peersCause) ∧
  (∀ (s : State) (l y : Lane) (code : BitVec 8), y ≠ (s.lane l).id → driving (s.lane l).belay = true →
     (s.lane l).peerDue y code.toNat = true → y.idx ∉ (s.lane l).belaySt.against →
     (∀ z : Lane, z.idx < y.idx → ∀ c ∈ [0x01, 0x02, 0x03], (s.lane l).countDue z c = false) →
     (s.lane l).belaySt.exclNow = none →
     Does s (.exclusionCauseAction l y code)
       { parts := [.belaySt], regs := [R.belayState, R.belayCause, R.belayStat, R.belayCnt], sigs := [0x38000, 0x38001] }
       fun L M =>
       y.idx ∈ M.belaySt.against ∧ y.idx ∈ M.belaySt.requests ∧ M.isRaised code.toNat y = true ∧
       M.get (causeF y) = code.toNat ∧ (driving (L.view y) = true → M.view y = bsExcluded) ∧ M.belay = L.belay) ∧
  (∀ (s : State) (l y z : Lane) (code : BitVec 8) (c : Nat), y ≠ (s.lane l).id → driving (s.lane l).belay = true →
     (s.lane l).peerDue y code.toNat = true → driving ((s.lane l).view y) = true → z.idx < y.idx →
     c ∈ [0x01, 0x02, 0x03] → (s.lane l).countDue z c = true →
     Does s (.exclusionCauseAction l y code) { parts := [.belaySt] } fun L M =>
       (∀ p ∈ M.belaySt.dev ++ M.belaySt.stateDev ++ M.belaySt.miss, p.1 % 3 ≠ y.idx) ∧
       M.belaySt.against = L.belaySt.against) ∧
  (∀ (s : State) (l : Lane), (s.lane l).countDue (s.lane l).id 0x01 = true → driving (s.lane l).belay = true →
     (s.lane l).belaySt.selfExcluding = false →
     Does s (.exclusionCauseAction l (s.lane l).id 0x01) Foot.excl fun L M =>
       SelfExcluding L M 0x01 ∧ M.isRaised 0x01 L.id = true) ∧
  (∀ (s : State) (l : Lane) (n : Axis), (s.lane l).drivingLanes.length = 2 → 2 ≤ (s.lane l).belaySt.plausRun.get n →
     driving (s.lane l).belay = true → (s.lane l).belaySt.selfExcluding = false →
     Does s (.ownPlaus l n) Foot.excl fun L M => SelfExcluding L M 0x16 ∧ M.isRaised 0x16 L.id = true) ∧
  (∀ (s : State) (l : Lane) (q : Req), (s.lane l).judge q R.belayCmd true 3#32 = none →
     driving (s.lane l).belay = true → (s.lane l).belaySt.selfExcluding = false →
     Does s (.selfExclude l q) Foot.excl fun L M => SelfExcluding L M 0x18 ∧ M.isRaised 0x18 L.id = true)

/-- The controlled-stop request and the limp rule. Several deviating lanes, or two that disagree, for dis_t raise
the controlled-stop request, two with the limp rule on the axis; two faults enter the limp rule on their axes with
the speed-limit request; after t_req the controlled-stop request follows, after t_hold the hold request, with the
limp axes on their way to HOLD. Rests on R290, R299, R301, R313, R316. -/
def Obligations.BelayLimp : Prop :=
  (∀ (s : State) (l : Lane), 1 ≤ (s.lane l).belaySt.multiRun → (s.lane l).disTime (s.lane l).belaySt.multiRun = true →
     Does s (.devMulti l)
       { regs := [R.belayState, R.belayStat, R.belayReq], sigs := [0x38000, 0x38001] } fun _ M =>
       M.is R.belayReq_stop = true ∧ M.is R.belayStat_stop_req_evt = true) ∧
  (∀ (s : State) (l : Lane) (n : Axis), driving (s.lane l).belay = true → 1 ≤ (s.lane l).belaySt.disRun.get n →
     (s.lane l).disTime ((s.lane l).belaySt.disRun.get n) = true → (s.lane l).belaySt.stopAt = none →
     Does s (.disagree2 l n)
       { parts := [.belaySt], regs := [R.belayState, R.belayStat, R.belayReq], sigs := [0x38000, 0x38001] } fun L M =>
       M.bitOf R.belayState_limp_axes n = true ∧ M.is R.belayReq_stop = true ∧ M.belaySt.stopAt = some L.coarse) ∧
  (∀ (s : State) (l : Lane) (n : Axis), driving (s.lane l).belay = true → n.val ∈ (s.lane l).limpAxes →
     (s.lane l).bitOf R.belayState_limp_axes n = false →
     Does s (.limpEnter l)
       { parts := [.belaySt, .aon], regs := [R.belayState, R.belayStat, R.belayReq], sigs := [0x38000, 0x38001] } fun L M =>
       M.bitOf R.belayState_limp_axes n = true ∧ n.val ∈ M.belaySt.limpPend ∧
       (L.get R.belayState_limp_axes = 0 → M.is R.belayReq_speed_lim = true ∧ M.belaySt.limpAt = some L.coarse)) ∧
  (∀ (s : State) (l : Lane) (t : Nat), (s.lane l).belaySt.limpAt = some t → (s.lane l).belaySt.stopAt = none →
     t + (s.lane l).get R.belayLimp_t_req * 200000000 ≤ (s.lane l).coarse →
     Does s (.stopRequest l)
       { parts := [.belaySt], regs := [R.belayState, R.belayStat, R.belayReq], sigs := [0x38000, 0x38001] } fun L M =>
       M.is R.belayReq_stop = true ∧ M.is R.belayStat_stop_req_evt = true ∧ M.belaySt.stopAt = some L.coarse) ∧
  (∀ (s : State) (l : Lane) (t : Nat), (s.lane l).belaySt.stopAt = some t → (s.lane l).is R.belayReq_hold = false →
     t + (s.lane l).get R.belayLimp_t_hold * 200000000 ≤ (s.lane l).coarse →
     Does s (.limpTimerExpire l)
       { parts := [.belaySt], regs := [R.belayState, R.belayReq], sigs := [0x38000, 0x38001] } fun L M =>
       M.is R.belayReq_hold = true ∧ ∀ n : Axis, n.val ∈ M.belaySt.holdPend ↔ L.bitOf R.belayState_limp_axes n = true)

/-- Rejoin, service, the Belay record, and the commands of BELAY_CMD. The lowest-lettered driving lane queues one
transfer to a lane in REJOIN, which keeps it if its CRC is good, returns to SYNC without it in 2 ms, and enters
SHADOW with it at its period; a lane is admitted after 64 clean periods with its weight ramping in; ENTER_SERVICE is
accepted while all lanes are ACTIVE, and SERVICE follows after the ramp-out; REVIVE of a DEAD lane clears its
attempts, logs, and reboots it; the Belay record is sent once per period and taken whole. Rests on R12, R273, R277,
R305, R306, R307, R308, R309, R538. -/
def Obligations.BelayRejoin : Prop :=
  (∀ (s : State) (l : Lane) (k : Link) (d : BitVec 8), driving (s.lane l).belay = true →
     (s.lane l).drivingLanes.head? = some (s.lane l).id → (s.lane l).view ((s.lane l).id.peer k) = bsRejoin →
     (s.lane l).linkUp k = true → (s.lane l).atPeriod = true →
     ((s.lane l).id.peer k).idx ∉ (s.lane l).belaySt.sent →
     Does s (.rejoinTransferSend l k d) { parts := [.link k, .belaySt] } fun L M =>
       (M.link k).waiting = (L.link k).waiting ++ [⟨rankOther, .transfer (L.makeTransfer d.toNat)⟩] ∧
       (L.id.peer k).idx ∈ M.belaySt.sent) ∧
  (∀ (s : State) (l : Lane) (k : Link) (t : Transfer) (rest : List RopeMsg),
     s.arriving (l.peer k) l = .transfer t :: rest →
     ((s.lane l).belay = bsRejoin →
       DoesOn s (s.setFlight (l.peer k) l rest) (.rejoinTransferReceived l k true) { parts := [.belaySt] } fun _ M =>
         M.belaySt.transfer = some t) ∧
     ((s.lane l).belay ≠ bsRejoin →
       DoesOn s (s.setFlight (l.peer k) l rest) (.rejoinTransferReceived l k true) {} fun L M => M = L)) ∧
  (∀ (s : State) (l : Lane), (s.lane l).belay = bsRejoin → (s.lane l).belaySt.transfer = none →
     (s.lane l).belaySt.rejoinAt + 400000 ≤ (s.lane l).coarse →
     Does s (.rejoinTransferTimeout l) (Foot.belay.add { regs := [R.belayStat] }) fun _ M =>
       M.belay = bsSync ∧ M.is R.belayStat_rej_fail = true) ∧
  (∀ (s : State) (l : Lane) (t : Transfer), (s.lane l).belaySt.transfer = some t → t.loops = [] →
     (s.lane l).belay = bsRejoin → (s.lane l).pnum = t.period + t.k → (s.lane l).atPeriod = true →
     Does s (.shadowEnter l)
       (Foot.belay.add
         { parts := [.fb 0, .fb 1, .fb 2, .fb 3, .fl 0, .fl 1, .fl 2, .fl 3]
           regs := (List.range 4).flatMap fun n => [R.axpWgtA n, R.axpWgtB n, R.axpWgtC n] }) fun _ M =>
       M.belay = bsShadow ∧ M.belaySt.transfer = none ∧
       ∀ (n : Axis) (a : AxisTransfer), t.axes[n.val]? = some a →
         M.reg (R.axpState n) = a.axpState ∧ M.reg (R.profState n) = a.profState ∧ M.pr n = a.prof ∧
         (M.fb n).vHat = a.vHat ∧ (M.fb n).aHat = a.aHat) ∧
  (∀ (s : State) (l : Lane) (t : Transfer), (s.lane l).belaySt.transfer = some t → (s.lane l).belay = bsRejoin →
     (s.lane l).pnum = t.period + t.k → (s.lane l).atPeriod = true →
     ∃ M, exec (.shadowEnter l) s = .next (s.setLane l M) ∧ M.belay = bsShadow ∧ M.belaySt.transfer = none ∧
       M.id = (s.lane l).id ∧ M.locks = (s.lane l).locks) ∧
  (∀ (s : State) (l : Lane), 64 ≤ (s.lane l).belaySt.shadowRun.get (s.lane l).id.idx → (s.lane l).pnum % 8 = 0 →
     (s.lane l).atPeriod = true → (s.lane l).belay = bsShadow →
     Does s (.admission l (s.lane l).id)
       (Foot.belay.add { parts := [.fl 0, .fl 1, .fl 2, .fl 3], regs := (List.range 4).map R.fldStat }) fun L M =>
       M.belay = bsActive ∧ ∀ n : Axis, (M.ax n).admitRamp = some (L.id.idx, 0) ∧ M.axis n = L.axis n ∧
         (L.axDriving n = true → M.is (R.fldStat_starting n) = true ∧ (M.fl n).offInterval = true)) ∧
  (∀ (s : State) (l y : Lane), y ≠ (s.lane l).id → 64 ≤ (s.lane l).belaySt.shadowRun.get y.idx →
     (s.lane l).pnum % 8 = 0 → (s.lane l).atPeriod = true → (s.lane l).view y = bsShadow →
     driving (s.lane l).belay = true →
     Does s (.admission l y)
       { parts := [.belaySt, .ax 0, .ax 1, .ax 2, .ax 3], regs := [R.belayState], sigs := [0x38000, 0x38001] } fun _ M =>
       M.view y = bsActive ∧ y.idx ∉ M.belaySt.against ∧ y.idx ∉ M.belaySt.requests ∧
       ∀ n : Axis, (M.ax n).admitRamp = some (y.idx, 0)) ∧
  (∀ (s : State) (l : Lane) (p : Nat), (s.lane l).belaySt.serviceAt = some p → (s.lane l).belay = bsActive →
     p + 17 ≤ (s.lane l).pnum → (s.lane l).atPeriod = true →
     Does s (.serviceEnter l) Foot.belay fun L M =>
       M.belay = bsService ∧ ∀ n : Axis, L.axis n ≠ axOff → M.axis n = if L.is (R.axpCfg_safe n) then axAsc else axFree) ∧
  (∀ (s : State) (l : Lane),
     (s.lane l).belaySt.recSent = false → (s.lane l).nTicks ≤ (s.lane l).tickIdx + 1 →
     Does s (.belayRecordSend l)
       { parts := [.link .l0, .link .l1, .belaySt], sigs := List.range' (segBase (s.lane l).id + 0x40) 8 } fun L M =>
       M.belaySt.recSent = true ∧ M.sigsFrom (segBase L.id + 0x40) 8 = L.belayRecord ∧
       ∀ k, L.linkUp k = true → (⟨rankBelay, .block (segBase L.id + 0x40) L.belayRecord⟩ : TxBlock) ∈ (M.link k).waiting) ∧
  (∀ (s : State) (l : Lane) (k : Link) (ws : List Word) (rest : List RopeMsg),
     s.arriving (l.peer k) l = .block (segBase (l.peer k) + 0x40) ws :: rest →
     DoesOn s (s.setFlight (l.peer k) l rest) (.belayRecordReceived l k true)
       (Foot.excl.add { sigs := List.range' (segBase (l.peer k) + 0x40) ws.length }) fun _ M =>
       (l.peer k).idx ∈ M.belaySt.recSeen ∧
       ∀ i, i < ws.length → M.sig (segBase (l.peer k) + 0x40 + i) = ws.getD i 0) ∧
  (∀ (s : State) (l : Lane) (q : Req), (s.lane l).judge q R.belayCmd true 1#32 = none →
     ((∀ y, (s.lane l).view y = bsActive) → (∀ n : Axis, (s.lane l).axis n ≠ axLimp) →
       (s.lane l).is R.belayStat_disagree_2 = false →
       Does s (.enterService l q) { parts := [.belaySt] } fun L M => M.belaySt.serviceAt = some L.pnum) ∧
     ((∃ y, (s.lane l).view y ≠ bsActive) →
       Does s (.enterService l q) { regs := [R.belayStat] } fun _ M => M.is R.belayStat_cmd_refused = true)) ∧
  (∀ (s : State) (l : Lane) (q : Req), (s.lane l).judge q R.belayCmd true 2#32 = none →
     ((s.lane l).belay = bsService →
       Does s (.leaveService l q) { parts := [.belaySt] } fun _ M => M.belaySt.leaving = true) ∧
     ((s.lane l).belay ≠ bsService →
       Does s (.leaveService l q) { regs := [R.belayStat] } fun _ M => M.is R.belayStat_cmd_refused = true)) ∧
  (∀ (s : State) (l : Lane) (q : Req), (s.lane l).judge q R.belayCmd true 4#32 = none →
     ((s.lane l).belay = bsDead → 2 ≤ (s.lane l).role → (s.lane l).is R.lcsState_log_full = false →
       (s.lane l).get R.lcsState_cal_grant = 0 → (s.lane l).get R.lcsLog_n < 4096 →
       ∃ M, exec (.revive l q) s = .next (s.setLane l M) ∧ M.belay = bsBoot ∧ M.aon.attempts = [] ∧
         M.get R.lcsLog_n = (s.lane l).get R.lcsLog_n + 1 ∧ M.id = (s.lane l).id) ∧
     ((s.lane l).belay ≠ bsDead →
       Does s (.revive l q) { regs := [R.belayStat] } fun _ M => M.is R.belayStat_cmd_refused = true)) ∧
  (∀ (s : State) (l : Lane) (q : Req), (s.lane l).judge q R.belayCmd true 0x100#32 = none →
     Does s (.belayClrCnt l q) { regs := [R.belayCnt] } fun L M =>
       M.get R.belayCnt_excl = 0 ∧ M.get R.belayCnt_attempts = L.get R.belayCnt_attempts)

/-- The vote generator, the majority gate, last-lane mode and the vote reports. The driven votes are those that the
Belay decides, none FOR in split mode, and fall to ABSTAIN without refresh; a class changes as the runs classify,
and the enable follows the majority rule; LL_ARM is held, and last-lane mode latches, only while both peers abstain
and the own vote is FOR; the bridge die reports classes, enable and latch to the lane die; a vote that differs for 3
periods raises cause 0x17. Rests on R272, R279, R281, R282, R283, R284, R285, R286, R351. -/
def Obligations.Votes : Prop :=
  (∀ (s : State) (l : Lane),
     Does s (.voteOutputChange l) { regs := [R.belayVote] } fun L M =>
       (∀ y, M.driven y = L.drivenVote y) ∧ (L.is R.triadStat_split = true → ∀ y, M.driven y ≠ voteFor) ∧
       M.get R.belayVote_in = L.get R.belayVote_in) ∧
  (∀ (s : State) (l : Lane),
     Does s (.voteRefreshTimeout l) { regs := [R.belayVote] } fun L M =>
       (∀ y, M.driven y = voteAbstain) ∧ M.get R.belayVote_in = L.get R.belayVote_in) ∧
  (∀ (s : State) (l y : Lane) (runs : List (BitVec 16)) (still : BitVec 16),
     Does s (.voteClassChange l y runs still) (Foot.trip.add { parts := [.gate], regs := [R.brgStat] }) fun L M =>
       M.gateCls y = voteClass y (L.gateCls y) (runs.map (·.toNat)) still.toNat ∧
       (∀ z, z ≠ y → M.gateCls z = L.gateCls z) ∧ M.is R.brgStat_ena = M.majority ∧
       (M.gate.latched = true → M.lastLaneVotes = true)) ∧
  (∀ (s : State) (l : Lane), driving (s.lane l).belay = true → (s.lane l).aon.twoFault = true →
     (∀ y, y ≠ (s.lane l).id → driving ((s.lane l).view y) = false) →
     Does s (.llArmReceived l) { parts := [.gate], regs := [R.belayState], sigs := [0x38000] } fun L M =>
       M.is R.belayState_ll_armed = true ∧ M.sig 0x38000 = M.reg R.belayState ∧
       (L.lastLaneVotes = true → M.gate.armHeld = true) ∧ (L.lastLaneVotes = false → M.gate = L.gate)) ∧
  (∀ (s : State) (l : Lane), (s.lane l).lastLaneVotes = true → (s.lane l).gate.armHeld = true →
     Does s (.lastLaneLatch l) (Foot.trip.add { parts := [.gate], regs := [R.brgStat] }) fun L M =>
       M.gate.latched = true ∧ M.is R.brgStat_ena = true ∧ M.gate.cls = L.gate.cls) ∧
  (∀ (s : State) (l : Lane), (∀ k, (s.lane l).linkUp k = true) → (∀ y, (s.lane l).gateCls y < 4) →
     Does s (.voteReport l)
       { regs := [R.belayVote, R.belayStat, R.ropeStat0, R.ropeStat1] } fun L M =>
       (∀ y, M.voteIn y = L.gateCls y) ∧ M.is R.belayVote_ena = L.is R.brgStat_ena ∧
       M.is R.belayVote_ll_latched = L.gate.latched ∧ (∀ y, M.driven y = L.driven y)) ∧
  (∀ (s : State) (l : Lane) (k j : Link), j ≠ k → (s.lane l).linkUp k = false → (s.lane l).linkUp j = true →
     (s.lane l).belaySt.linkClass.get k.idx ≠ 1 → driving (s.lane l).belay = true →
     (s.lane l).drivingLanes.length = 2 → (s.lane l).id.peer k ∈ (s.lane l).drivingLanes →
     (∀ y, (s.lane l).gateCls y = voteFor) →
     Does s (.voteReport l)
       { parts := [.belaySt], regs := [R.belayVote, R.belayStat, R.belayState, R.ropeStat0, R.ropeStat1]
         sigs := [0x38000, 0x38001] } fun _ M =>
       M.is R.belayState_blind = true ∧ M.is R.belayStat_blind_evt = true ∧ M.belaySt.linkClass.get k.idx = 1) ∧
  (∀ (s : State) (l y : Lane), 3 ≤ (s.lane l).belaySt.voteDiff.get y.idx → y ≠ (s.lane l).id →
     Does s (.voteLine l y) { parts := [.belaySt], regs := [R.belayStat] } fun L M =>
       M.is R.belayStat_vote_mismatch = true ∧ M.isRaised 0x17 L.id = true)

/-- The loop engine: register instructions, accumulators, comparisons, branches, faults. An instruction of the
engine that its run issues within its budget writes qd with the result of R210 and costs its cycles; the accumulator
instructions clear, load, read and add with saturation; CMP sets F by its condition; a branch goes to its target or
on; an offset of 0, a reserved opcode, an uncorrectable word and a spent budget end the run with the engine fault of
their cause. Rests on R191, R193, R195, R199, R210, R211. -/
def Obligations.LoopAlu : Prop :=
  (LeWrites .leLdi 0x02 1 (fun _ w => sext 18 (leImm18 w)) ∧
   LeWrites .leLui 0x03 1 (fun r w => (setBits (wordI (r.qv (leD w))).toNat 31 18 (leImm14 w) : Nat)) ∧
   LeWrites .leMov 0x04 1 (fun r w => r.qv (leA w)) ∧
   LeWrites .leAdd 0x09 1 (fun r w => r.qv (leA w) + r.qv (leB w)) ∧
   LeWrites .leSub 0x0A 1 (fun r w => r.qv (leA w) - r.qv (leB w)) ∧
   LeWrites .leAdds 0x0B 1 (fun r w => satS 32 (r.qv (leA w) + r.qv (leB w))) ∧
   LeWrites .leSubs 0x0C 1 (fun r w => satS 32 (r.qv (leA w) - r.qv (leB w)))) ∧
  (LeWrites .leMulq 0x0D 2 (fun r w => satS 32 (rshRound 31 (r.qv (leA w) * r.qv (leB w)))) ∧
   LeWrites .leNeg 0x0E 1 (fun r w => satS 32 (-(r.qv (leA w)))) ∧
   LeWrites .leAbs 0x0F 1 (fun r w => satS 32 (r.qv (leA w)).natAbs) ∧
   LeWrites .leMin 0x10 1 (fun r w => min (r.qv (leA w)) (r.qv (leB w))) ∧
   LeWrites .leMax 0x11 1 (fun r w => max (r.qv (leA w)) (r.qv (leB w))) ∧
   LeWrites .leClmp 0x12 1 (fun r w => if r.qv (leB w) < r.qv (leA w) then r.qv (leA w)
     else min (max (r.qv (leD w)) (r.qv (leA w))) (r.qv (leB w))) ∧
   LeWrites .leShl 0x13 1 (fun r w => satS 32 (r.qv (leA w) * (2 ^ bits w 4 0 : Nat))) ∧
   LeWrites .leSar 0x14 1 (fun r w => r.qv (leA w) / (2 ^ bits w 4 0 : Nat)) ∧
   LeWrites .leRda 0x17 1 (fun r w => satS 32 (rshRound 15 (r.accv (leA w % 4)))) ∧
   LeWrites .leSel 0x1F 1 (fun r w => if r.f then r.qv (leA w) else r.qv (leB w))) ∧
  (∀ (s : State) (l : Lane) (e : Fin 2) (r : LeRun), (s.lane l).LeReady e r 0x00 1 →
     Does s (.leNop l e .ok) { parts := [.le e] } fun L M => LeRetired e L M r r 1) ∧
  (∀ (s : State) (l : Lane) (e : Fin 2) (r : LeRun),
     ((s.lane l).LeReady e r 0x15 1 →
       Does s (.leClra l e .ok) { parts := [.le e] } fun L M =>
         LeRetired e L M r (r.setAcc (leD (L.leWord e r.pc) % 4) 0) 1) ∧
     ((s.lane l).LeReady e r 0x16 1 →
       Does s (.leWra l e .ok) { parts := [.le e] } fun L M =>
         LeRetired e L M r (r.setAcc (leD (L.leWord e r.pc) % 4) (r.qv (leA (L.leWord e r.pc)) * 2 ^ 15)) 1)) ∧
  (∀ (s : State) (l : Lane) (e : Fin 2) (r : LeRun), (s.lane l).LeReady e r 0x19 2 →
     Does s (.leMacw l e .ok) { parts := [.le e], regs := [R.leStat e] } fun L M =>
       let w := L.leWord e r.pc
       let v := r.accv (leD w % 4) + r.qv (leA w) * r.qv (leB w) / (2 ^ (16 - bits w 3 0) : Nat)
       LeRetired e L M r (r.setAcc (leD w % 4) (satS 64 v)) 2 ∧ (satS 64 v ≠ v → M.is (R.leStat_sat e) = true)) ∧
  (∀ (s : State) (l : Lane) (e : Fin 2) (r : LeRun), (s.lane l).LeReady e r 0x1A 2 →
     Does s (.leMacp l e .ok) { parts := [.le e], regs := [R.leStat e] } fun L M =>
       let w := L.leWord e r.pc
       let a := (wordI (r.qv (leA w))).toNat
       let b := (wordI (r.qv (leB w))).toNat
       let v := r.accv (leD w % 4) + sext 16 (bits a 31 16) * sext 16 (bits b 31 16) +
         sext 16 (bits a 15 0) * sext 16 (bits b 15 0)
       LeRetired e L M r (r.setAcc (leD w % 4) (satS 40 v)) 2 ∧ (satS 40 v ≠ v → M.is (R.leStat_sat e) = true)) ∧
  (∀ (s : State) (l : Lane) (e : Fin 2) (r : LeRun), (s.lane l).LeReady e r 0x1E 1 →
     Does s (.leCmp l e .ok) { parts := [.le e] } fun L M =>
       let w := L.leWord e r.pc
       let x := r.qv (leA w)
       let y := r.qv (leB w)
       let f := if bits w 1 0 = 0 then decide (x = y) else if bits w 1 0 = 1 then decide (x ≠ y)
         else if bits w 1 0 = 2 then decide (x < y) else decide (y ≤ x)
       LeRetired e L M r { r with f := f } 1) ∧
  (∀ (s : State) (l : Lane) (e : Fin 2) (r : LeRun), (s.lane l).LeReady e r 0x20 1 →
     leImm14 ((s.lane l).leWord e r.pc) ≠ 0 → r.pc + leImm14 ((s.lane l).leWord e r.pc) ≤ 0xFFF →
     Does s (.leBf l e .ok) { parts := [.le e] } fun L M =>
       M.le e = { L.le e with run := some { r with
         pc := (if (r.f != bit (L.leWord e r.pc) 22) = true then r.pc + leImm14 (L.leWord e r.pc) else r.pc + 1)
         cycles := r.cycles + 1 } }) ∧
  (∀ (s : State) (l : Lane) (e : Fin 2) (r : LeRun), (s.lane l).LeReady e r 0x21 1 →
     (leImm14 ((s.lane l).leWord e r.pc) ≠ 0 → r.pc + leImm14 ((s.lane l).leWord e r.pc) ≤ 0xFFF →
       Does s (.leJmp l e .ok) { parts := [.le e] } fun L M =>
         M.le e = { L.le e with run := some { r with pc := r.pc + leImm14 (L.leWord e r.pc), cycles := r.cycles + 1 } }) ∧
     ((leImm14 ((s.lane l).leWord e r.pc) = 0 ∨ 0xFFF < r.pc + leImm14 ((s.lane l).leWord e r.pc)) →
       Does s (.leJmp l e .ok) (Foot.leFault e r.loop) fun L M => LeFaulted L M e r 2)) ∧
  (∀ (s : State) (l : Lane) (e : Fin 2) (r : LeRun), ((s.lane l).le e).run = some r → r.wait = none →
     Does s (.leNop l e .bad) (Foot.leFault e r.loop) (fun L M => LeFaulted L M e r 4) ∧
     (0x27 ≤ leOp ((s.lane l).leWord e r.pc) →
       Does s (.leNop l e .ok) (Foot.leFault e r.loop) fun L M => LeFaulted L M e r 1)) ∧
  (∀ (s : State) (l : Lane) (e : Fin 2) (r : LeRun), (s.lane l).LeReady e r 0x00 1 →
     Does s (.leNop l e .corrected) { parts := [.le e], regs := [R.leStat e, R.leCnt e] } fun L M =>
       LeRetired e L M r r 1 ∧ M.is (R.leStat_ecc_cor e) = true ∧
       M.get (R.leCnt_ecc e) = satU 16 (L.get (R.leCnt_ecc e) + 1)) ∧
  (∀ (s : State) (l : Lane) (e : Fin 2) (w : Fin 7) (r : LeRun), ((s.lane l).le e).run = some r →
     (r.wait ≠ none ∨ (s.lane l).dBudget e r.loop < r.cycles + (s.lane l).leMinCost e r) →
     Does s (.leBudgetExpire l e w) (Foot.leFault e r.loop) fun L M => LeFaulted L M e r 5)

/-- The loop engine: data memory, signals, sections, output limits, tables, schedule, results and waits. LDD and STD
access data memory within its bounds and fault with DADDR outside; LDS and STS access signals; CAS runs the sections
of the set and writes their states; OUT limits the result and winds the sections back; LUT interpolates; PRE and RDS
preset and read a section; REG selects the set of the regions; SHARE and COMMIT publish the result once; WAIT holds
the run until its condition is true. Rests on R75, R77, R188, R195, R198, R200, R202, R210, R211, R212, R213, R214. -/
def Obligations.LoopData : Prop :=
  (∀ (s : State) (l : Lane) (e : Fin 2) (r : LeRun), (s.lane l).LeReady e r 0x05 2 →
     (leReadable (leAddr r ((s.lane l).leWord e r.pc)) = true →
       Does s (.leLdd l e .ok) { parts := [.le e] } fun L M =>
         let w := L.leWord e r.pc
         LeRetired e L M r (r.setQ (leD w) (L.word (leData e (leAddr r w))).toInt) 2) ∧
     (leReadable (leAddr r ((s.lane l).leWord e r.pc)) = false →
       Does s (.leLdd l e .ok) (Foot.leFault e r.loop) fun L M => LeFaulted L M e r 3)) ∧
  (∀ (s : State) (l : Lane) (e : Fin 2) (r : LeRun), (s.lane l).LeReady e r 0x06 1 →
     (leStorable (leAddr r ((s.lane l).leWord e r.pc)) = true →
       Does s (.leStd l e .ok)
         { parts := [.le e], bytes := List.range' (leData e (leAddr r ((s.lane l).leWord e r.pc))) 4 } fun L M =>
         let w := L.leWord e r.pc
         LeRetired e L M r r 1 ∧ M.word (leData e (leAddr r w)) = wordI (r.qv (leB w))) ∧
     (leStorable (leAddr r ((s.lane l).leWord e r.pc)) = false →
       Does s (.leStd l e .ok) (Foot.leFault e r.loop) fun L M => LeFaulted L M e r 3)) ∧
  (∀ (s : State) (l : Lane) (e : Fin 2) (v : Fin 4) (r : LeRun),
     ((s.lane l).LeReady e r 0x07 (6 + v.val) →
       Does s (.leLds l e .ok v) { parts := [.le e] } fun L M =>
         let w := L.leWord e r.pc
         LeRetired e L M r (r.setQ (leD w) (L.sigS (leImm18 w))) (6 + v.val)) ∧
     ((s.lane l).LeReady e r 0x08 (6 + v.val) → (∀ y, inSeg y (leImm18 ((s.lane l).leWord e r.pc)) = false) →
       Does s (.leSts l e .ok v) { parts := [.le e], sigs := [leImm18 ((s.lane l).leWord e r.pc)] } fun L M =>
         let w := L.leWord e r.pc
         LeRetired e L M r r (6 + v.val) ∧ M.sig (leImm18 w) = wordI (r.qv (leD w)))) ∧
  (∀ (s : State) (l : Lane) (e : Fin 2) (v : Fin 4) (r : LeRun), (s.lane l).LeReady e r 0x08 (6 + v.val) →
     (s.lane l).inPeerSeg (leImm18 ((s.lane l).leWord e r.pc)) = true →
     Does s (.leSts l e .ok v) (Foot.viol.add { parts := [.le e] }) fun L M =>
       LeRetired e L M r r (6 + v.val) ∧ M.is R.watStat_viol = true) ∧
  (∀ (s : State) (l : Lane) (e : Fin 2) (r : LeRun) (N : LaneState) (y : Int),
     (s.lane l).LeReady e r 0x18 ((s.lane l).leMinCost e r) →
     bits ((s.lane l).leWord e r.pc) 5 0 ≠ 0 →
     bits ((s.lane l).leWord e r.pc) 13 9 + bits ((s.lane l).leWord e r.pc) 5 0 ≤ (s.lane l).dNsec e r.loop →
     (s.lane l).cascade e { r with pc := r.pc + 1 }
         (List.range' (bits ((s.lane l).leWord e r.pc) 13 9) (bits ((s.lane l).leWord e r.pc) 5 0))
         (if (s.lane l).dPacked e r.loop then satS 16 (rshRound 16 (r.qv (leA ((s.lane l).leWord e r.pc))))
           else r.qv (leA ((s.lane l).leWord e r.pc))) = (N, .ok y) →
     Does s (.leCas l e .ok)
       { parts := [.le e], regs := [R.leStat e]
         bytes := List.range' (leData e ((s.lane l).secAddr e r.loop (bits ((s.lane l).leWord e r.pc) 13 9)))
           (32 * bits ((s.lane l).leWord e r.pc) 5 0) } fun L M =>
       (∀ a, M.byte a = N.byte a) ∧
       ∃ u, LeRetired e L M r { r.setQ (leD (L.leWord e r.pc)) (if L.dPacked e r.loop then y * 2 ^ 16 else y) with upd := u }
         (L.leMinCost e r)) ∧
  (∀ (s : State) (l : Lane) (e : Fin 2) (r : LeRun), (s.lane l).LeReady e r 0x18 ((s.lane l).leMinCost e r) →
     (bits ((s.lane l).leWord e r.pc) 5 0 = 0 ∨
       (s.lane l).dNsec e r.loop < bits ((s.lane l).leWord e r.pc) 13 9 + bits ((s.lane l).leWord e r.pc) 5 0) →
     Does s (.leCas l e .ok) (Foot.leFault e r.loop) fun L M => LeFaulted L M e r 7) ∧
  (∀ (s : State) (l : Lane) (e : Fin 2) (r : LeRun) (lo hi : Int),
     (s.lane l).LeReady e r 0x1B ((s.lane l).leMinCost e r) →
     (s.lane l).outLimits e { r with pc := r.pc + 1 } = some (lo, hi) → lo ≤ hi →
     (∀ j ∈ r.upd, (s.lane l).secOk e r.loop j = true) →
     Does s (.leOut l e .ok)
       { parts := [.le e], regs := [R.leLoopStat e r.loop, R.leStat e]
         bytes := r.upd.flatMap fun j => List.range' (leData e ((s.lane l).secAddr e r.loop j)) 16 } fun L M =>
       let w := L.leWord e r.pc
       let x := r.qv (leA w)
       LeRetired e L M r (r.setQ (leD w) (min (max x lo) hi)) (L.leMinCost e r) ∧
       (lo ≤ x → x ≤ hi → M.is (R.leLoopStat_clamped e r.loop) = false ∧ M.mem = L.mem) ∧
       (x < lo ∨ hi < x → M.is (R.leLoopStat_clamped e r.loop) = true)) ∧
  (∀ (s : State) (l : Lane) (e : Fin 2) (r : LeRun), (s.lane l).LeReady e r 0x1C 5 →
     let L := s.lane l
     let h := (L.word (leData e (0x400 + 8 * bits (L.leWord e r.pc) 3 0))).toNat
     let base := bits h 13 0
     let k := bits h 17 14
     ((1 ≤ k ∧ k ≤ 10 ∧ leReadable base = true ∧ base + 4 * (2 ^ k + 1) ≤ 0x4000) →
       Does s (.leLut l e .ok) { parts := [.le e] } fun L M =>
         let w := L.leWord e r.pc
         let u := (wordI (r.qv (leA w)) ^^^ 0x80000000#32).toNat
         let e0 := (L.word (leData e (base + 4 * (u / 2 ^ (32 - k))))).toInt
         let e1 := (L.word (leData e (base + 4 * (u / 2 ^ (32 - k)) + 4))).toInt
         LeRetired e L M r (r.setQ (leD w) (e0 + (e1 - e0) * (u * 2 ^ k % 2 ^ 32 : Nat) / 2 ^ 32)) 5) ∧
     (k = 0 ∨ 10 < k → Does s (.leLut l e .ok) (Foot.leFault e r.loop) fun L M => LeFaulted L M e r 3)) ∧
  (∀ (s : State) (l : Lane) (e : Fin 2) (stamp : BitVec 64) (r : LeRun), (s.lane l).LeReady e r 0x22 2 →
     (r.shared = false → (s.lane l).names ((s.lane l).dAxis e r.loop) e r.loop = true →
       (s.lane l).dPrompt e r.loop = false →
       Does s (.leShare l e .ok stamp)
         { parts := [.le e, .ax (axOf ((s.lane l).dAxis e r.loop))], sigs := [axisSig ((s.lane l).dAxis e r.loop) 0x30] }
         fun L M =>
         LeRetired e L M r { r with shared := true } 2 ∧
         M.sig (axisSig (L.dAxis e r.loop) 0x30) = wordI (r.qv (leA (L.leWord e r.pc))) ∧
         (r.period = L.pnum →
           stamp.toNat < (r.period * L.tServo + L.get (R.axpSched1_loop_end (L.dAxis e r.loop))) * 64 →
           (M.ax (L.dAxis e r.loop)).ownDone = true)) ∧
     (r.shared = true →
       Does s (.leShare l e .ok stamp) { parts := [.le e], regs := [R.leStat e] } fun L M =>
         LeRetired e L M r r 2 ∧ M.is (R.leStat_dup e) = true)) ∧
  (∀ (s : State) (l : Lane) (e : Fin 2) (stamp : BitVec 64) (r : LeRun), (s.lane l).LeReady e r 0x23 2 → r.shared = false →
     ((s.lane l).names ((s.lane l).dAxis e r.loop) e r.loop = true → (s.lane l).dPrompt e r.loop = true →
       Does s (.leCommit l e .ok stamp)
         { parts := [.le e, .ax (axOf ((s.lane l).dAxis e r.loop))], sigs := [axisSig ((s.lane l).dAxis e r.loop) 0x30] }
         fun L M =>
         let v := wordI (r.qv (leA (L.leWord e r.pc)))
         LeRetired e L M r { r with shared := true } 2 ∧ M.sig (axisSig (L.dAxis e r.loop) 0x30) = v ∧
         (M.ax (L.dAxis e r.loop)).prompt = some (v, (stamp.toNat + 63) / 64 + 40)) ∧
     ((s.lane l).named e r.loop = false → (∀ y, inSeg y ((s.lane l).dOutId e r.loop) = false) →
       Does s (.leCommit l e .ok stamp) { parts := [.le e], sigs := [(s.lane l).dOutId e r.loop] } fun L M =>
         LeRetired e L M r { r with shared := true } 2 ∧
         M.sig (L.dOutId e r.loop) = wordI (r.qv (leA (L.leWord e r.pc))))) ∧
  (∀ (s : State) (l : Lane) (e : Fin 2) (stamp : BitVec 64) (r : LeRun), (s.lane l).LeReady e r 0x24 1 →
     let w := (s.lane l).leWord e r.pc
     let done := (s.lane l).waitDone e { r with pc := r.pc + 1 } (leA w) (leImm14 w)
       (stamp.toNat / 64 - r.period * (s.lane l).tServo)
     (done = true → Does s (.leWait l e .ok stamp) { parts := [.le e] } fun L M => LeRetired e L M r r 1) ∧
     (done = false →
       Does s (.leWait l e .ok stamp) { parts := [.le e] } fun L M =>
         LeRetired e L M r { r with wait := some (leA w, leImm14 w) } 1)) ∧
  (∀ (s : State) (l : Lane) (e : Fin 2) (stamp : BitVec 64) (waited : BitVec 16) (r : LeRun) (m t : Nat),
     ((s.lane l).le e).run = some r → r.wait = some (m, t) →
     (s.lane l).waitDone e r m t (stamp.toNat / 64 - r.period * (s.lane l).tServo) = true →
     r.cycles + waited.toNat ≤ (s.lane l).dBudget e r.loop →
     Does s (.leWaitRelease l e stamp waited) { parts := [.le e] } fun L M =>
       M.le e = { L.le e with run := some { r with wait := none, cycles := r.cycles + waited.toNat } }) ∧
  (∀ (s : State) (l : Lane) (e : Fin 2) (r : LeRun), (s.lane l).LeReady e r 0x25 2 →
     let j := bits ((s.lane l).leWord e r.pc) 13 9
     (j < (s.lane l).dNsec e r.loop → (s.lane l).secOk e r.loop j = true →
       Does s (.lePre l e .ok)
         { parts := [.le e], bytes := List.range' (leData e ((s.lane l).secAddr e r.loop j)) 32 } fun L M =>
         let a := L.secAddr e r.loop j
         let x := r.qv (leA (L.leWord e r.pc))
         let v := if L.dPacked e r.loop then x / 2 else x * 2 ^ 15
         LeRetired e L M r r 2 ∧ M.ld64 e a = v ∧ M.ld64 e (a + 8) = 0 ∧ M.ld64 e (a + 16) = v ∧ M.ld64 e (a + 24) = 0) ∧
     ((s.lane l).dNsec e r.loop ≤ j →
       Does s (.lePre l e .ok) (Foot.leFault e r.loop) fun L M => LeFaulted L M e r 7)) ∧
  (∀ (s : State) (l : Lane) (e : Fin 2) (r : LeRun), (s.lane l).LeReady e r 0x26 1 →
     leReadable ((s.lane l).secAddr e r.loop (bits ((s.lane l).leWord e r.pc) 13 9)) = true →
     (s.lane l).secAddr e r.loop (bits ((s.lane l).leWord e r.pc) 13 9) + 8 ≤ 0x4000 →
     Does s (.leRds l e .ok) { parts := [.le e] } fun L M =>
       let w := L.leWord e r.pc
       let v := L.ld64 e (L.secAddr e r.loop (bits w 13 9))
       LeRetired e L M r (r.setQ (leD w) (if L.dPacked e r.loop then satS 32 (v * 2) else satS 32 (rshRound 15 v))) 1) ∧
  (∀ (s : State) (l : Lane) (e : Fin 2) (v : Fin 7) (r : LeRun), (s.lane l).LeReady e r 0x1D (12 + v.val) →
     (s.lane l).dSched e r.loop ≠ 0 → r.loop ∉ ((s.lane l).le e).inited →
     Does s (.leReg l e .ok v) { parts := [.le e], regs := [R.leLoopStat e r.loop] } fun L M =>
       let rc := L.dSched e r.loop - 1
       let r0 := L.region e r.view.bank rc 0 (L.get (R.leLoopStat_r0 e r.loop)) true
       let r1 := L.region e r.view.bank rc 1 (L.get (R.leLoopStat_r1 e r.loop)) true
       let n := L.mapSet e r.view.bank rc r0 r1
       M.get (R.leLoopStat_set e r.loop) = n % 256 ∧ r.loop ∈ (M.le e).inited ∧
       (M.le e).run = some { r with pc := r.pc + 1, cycles := r.cycles + (12 + v.val), view := { r.view with set := n, m := 0 } }) ∧
  (∀ (s : State) (l : Lane) (e : Fin 2) (v : Fin 7) (r : LeRun), (s.lane l).LeReady e r 0x1D (12 + v.val) →
     ((s.lane l).dSched e r.loop ≠ 0 → r.loop ∈ ((s.lane l).le e).inited → (s.lane l).swapReady e = true →
       Does s (.leReg l e .ok v) { parts := [.le e] } fun L M => LeRetired e L M r r (12 + v.val)) ∧
     ((s.lane l).dSched e r.loop = 0 →
       Does s (.leReg l e .ok v) (Foot.leFault e r.loop) fun L M => LeFaulted L M e r 7))

/-- Loop engines: readiness, runs, the end of a run, coefficient banks, the control registers. A trigger makes a
loop ready, a loop that still waits counts a skip; a run begins with its registers 0 and F set on a first run; END
records the length and makes the chained loops ready; SEAL, UNSEAL and SWAP follow the bank states; a passed check
seals the bank or ends the check at lock, a failed one sets crc_fail; a ready swap takes effect at a boundary and
every initialised loop blends from its old set; LE_LOCK starts the check, LE_CTL.run and clr_cnt do as they say.
Rests on R12, R190, R191, R192, R193, R205, R206, R207, R208, R209. -/
def Obligations.LoopRuns : Prop :=
  (∀ (s : State) (l : Lane) (e : Fin 2) (k : Fin 16), (s.lane l).dTrig e k ≤ 1 → (s.lane l).loopMayRun e k = true →
     (((s.lane l).le e).ready.any (fun p => p.2 == k.val) = false →
       ((s.lane l).le e).run.any (fun r => r.loop == k.val) = false →
       Does s (.loopTrigger l e k) { parts := [.le e] } fun L M =>
         ∃ t, (M.le e).ready = (L.le e).ready ++ [(t, k.val)] ∧ (M.le e).run = (L.le e).run) ∧
     (((s.lane l).le e).ready.any (fun p => p.2 == k.val) = true →
       Does s (.loopTrigger l e k) { regs := [R.leStat e, R.leCnt e] } fun L M =>
         M.is (R.leStat_skip e) = true ∧ M.get (R.leCnt_skip e) = satU 16 (L.get (R.leCnt_skip e) + 1))) ∧
  (∀ (s : State) (l : Lane) (e : Fin 2) (k : Fin 16) (t : Nat), ((s.lane l).le e).run = none →
     ((s.lane l).le e).ready = [(t, k.val)] → (s.lane l).leCanRun e = true →
     (s.lane l).bitOf (R.leLoopEn_en e) k = true → ((s.lane l).dTrig e k ≠ 0 ∨ (s.lane l).axRuns ((s.lane l).dAxis e k) = true) →
     (s.lane l).is (R.leLoopStat_blending e k) = false →
     Does s (.loopRunStart l e) { parts := [.le e], regs := [R.leLoopStat e k] } fun L M =>
       (M.le e).ready = [] ∧ k.val ∈ (M.le e).ran ∧
       ∃ r, (M.le e).run = some r ∧ r.loop = k.val ∧ r.pc = L.dEntry e k ∧ r.q = [] ∧ r.acc = [] ∧ r.cycles = 4 ∧
         r.f = !decide (k.val ∈ (L.le e).ran) ∧ r.wait = none ∧ r.shared = false ∧
         r.view.bank = L.activeBank e ∧ r.view.set = L.get (R.leLoopStat_set e k) ∧ r.view.m = 0) ∧
  (∀ (s : State) (l : Lane) (e : Fin 2) (stamp : BitVec 64) (r : LeRun), (s.lane l).LeReady e r 0x01 1 →
     Does s (.leEnd l e .ok stamp)
       { parts := [.le e]
         regs := [R.leStat e, R.leCnt e, R.leLoopStat e r.loop, R.leLoopTime e r.loop, R.leBankStat e] } fun L M =>
       (M.le e).run = none ∧ M.get (R.leLoopTime_last e r.loop) = satU 16 (r.cycles + 1) ∧
       (∀ j, j < 16 → L.dTrig e j = 2 → L.dStart e j % 16 = r.loop → j ∉ (L.le e).chained → L.loopMayRun e j = true →
         (L.le e).ready.any (fun p => p.2 == j) = false → (stamp.toNat, j) ∈ (M.le e).ready)) ∧
  (∀ (s : State) (l : Lane) (e : Fin 2) (q : Req), (s.lane l).judge q (R.leBankCmd e) true 1#32 = none →
     ((s.lane l).get (R.leBankStat_ibs e) = 0 →
       Does s (.seal l e q) { regs := [R.leBankStat e] } fun L M =>
         M.get (R.leBankStat_ibs e) = 1 ∧ M.activeBank e = L.activeBank e) ∧
     ((s.lane l).get (R.leBankStat_ibs e) ≠ 0 →
       Does s (.seal l e q) { regs := [R.leStat e] } fun _ M => M.is (R.leStat_bank_refused e) = true)) ∧
  (∀ (s : State) (l : Lane) (e : Fin 2) (q : Req), (s.lane l).judge q (R.leBankCmd e) true 2#32 = none →
     ((s.lane l).get (R.leBankStat_ibs e) = 1 ∨ (s.lane l).get (R.leBankStat_ibs e) = 2) →
     Does s (.unseal l e q) { regs := [R.leBankStat e] } fun L M =>
       M.get (R.leBankStat_ibs e) = 0 ∧ M.is (R.leBankStat_swap_pend e) = false ∧ M.activeBank e = L.activeBank e) ∧
  (∀ (s : State) (l : Lane) (e : Fin 2) (q : Req) (at8 : BitVec 8),
     (s.lane l).judge q (R.leBankCmd e) true (wordN (3 + 256 * at8.toNat)) = none →
     ((s.lane l).get (R.leBankStat_ibs e) ≠ 3 → (at8.toNat + 256 - (s.lane l).pnum % 256) % 256 ≤ 128 →
       Does s (.swap l e q at8) { parts := [.le e], regs := [R.leBankStat e] } fun L M =>
         M.is (R.leBankStat_swap_pend e) = true ∧
         (M.le e).swapAt = ((L.pnum + (at8.toNat + 256 - L.pnum % 256) % 256 : Nat) : Int)) ∧
     ((s.lane l).get (R.leBankStat_ibs e) = 3 →
       Does s (.swap l e q at8) { regs := [R.leStat e] } fun _ M => M.is (R.leStat_bank_refused e) = true)) ∧
  (∀ (s : State) (l : Lane) (e : Fin 2), ((s.lane l).le e).check = 1 →
     ((s.lane l).bankOk e 0 = true →
       Does s (.bankCheckComplete l e true) { parts := [.le e], regs := [R.leBankStat e] } fun L M =>
         (M.le e).check = 2 ∧ M.get (R.leBankStat_seq e) = L.load (leBank e 0 + 4) 2) ∧
     ((s.lane l).bankOk e 0 = false →
       Does s (.bankCheckComplete l e true) { parts := [.le e], regs := [R.leStat e] } fun _ M =>
         (M.le e).check = 3 ∧ M.is (R.leStat_crc_fail e) = true)) ∧
  (∀ (s : State) (l : Lane) (e : Fin 2), (s.lane l).get (R.leBankStat_ibs e) = 1 →
     ((s.lane l).bankOk e (1 - (s.lane l).activeBank e) = true →
       Does s (.bankCheckComplete l e false) { regs := [R.leBankStat e] } fun _ M => M.get (R.leBankStat_ibs e) = 2) ∧
     ((s.lane l).bankOk e (1 - (s.lane l).activeBank e) = false →
       Does s (.bankCheckComplete l e false) { regs := [R.leBankStat e, R.leStat e] } fun _ M =>
         M.get (R.leBankStat_ibs e) = 0 ∧ M.is (R.leStat_crc_fail e) = true ∧ M.is (R.leBankStat_swap_pend e) = false)) ∧
  (∀ (s : State) (l : Lane) (e : Fin 2), (s.lane l).swapReady e = true → (s.lane l).is (R.leBankStat_blending e) = false →
     (s.lane l).coarse % (s.lane l).tServo = 0 → ((s.lane l).le e).inited.Nodup →
     (∀ k ∈ ((s.lane l).le e).inited, k < 16) →
     Does s (.swapTakeEffect l e)
       { parts := [.le e]
         regs := [R.leBankStat e, R.leSwapPnum e, R.leStat e] ++ ((s.lane l).le e).inited.map (R.leLoopStat e) } fun L M =>
       M.activeBank e = 1 - L.activeBank e ∧ M.is (R.leBankStat_swap_pend e) = false ∧
       M.get (R.leSwapPnum_pnum e) = L.pnum % 2 ^ 32 ∧
       (∀ k ∈ (L.le e).inited, M.is (R.leLoopStat_blending e k) = true ∧ M.get (R.leLoopStat_m e k) = 0 ∧
         (M.le e).fromSet.get k = L.get (R.leLoopStat_set e k) ∧ (M.le e).fromBank.get k = L.activeBank e)) ∧
  (∀ (s : State) (l : Lane) (e : Fin 2) (q : Req) (w : Word), (s.lane l).judge q (R.leLock e) true w = none →
     bits w.toNat 15 0 = 0xC1A5 → (s.lane l).locked (R.leLock e) = false →
     Does s (.leLock l e q w) { parts := [.le e, .locks] } fun _ M => R.leLock e ∈ M.locks ∧ (M.le e).check = 1) ∧
  (∀ (s : State) (l : Lane) (e : Fin 2) (q : Req) (run : Bool),
     (s.lane l).judge q (R.leCtl e) true (wordN (b2n run)) = none →
     Does s (.leCtlRun l e q run) { regs := [R.leCtl e] } fun _ M => M.is (R.leCtl_run e) = run) ∧
  (∀ (s : State) (l : Lane) (e : Fin 2) (q : Req), (s.lane l).judge q (R.leCmd e) true 1#32 = none →
     Does s (.leClrCnt l e q) { regs := R.leCnt e :: (List.range 16).map (R.leLoopTime e) } fun L M =>
       M.reg (R.leCnt e) = 0 ∧
       ∀ k, k < 16 → M.get (R.leLoopTime_max e k) = 0 ∧ M.get (R.leLoopTime_last e k) = L.get (R.leLoopTime_last e k))

/-- Cordee: frames at the star and the node, the guardian, copies, relays, decisions, lost networks. A frame that is
not valid at the node is counted and discarded; a node that listens integrates on a SYNC frame; a DATA frame writes
the entry it concerns; the guardian counts and blocks a frame of another sender than the port's node, and the third
violation in a row isolates the port; QUIET takes a COLDSTART of a listed port into STARTUP; a truncated frame is
BABBLE; the arbitration gap closes and its winner goes out; a relayed copy with a bad CRC is dropped and counted; a
decision writes a single copy of a 2OF3 entry; three cycles mark a network lost and restore it. Rests on R386, R388,
R394, R395, R403, R405, R407, R408, R409, R412, R415, R417. -/
def Obligations.CordeeReception : Prop :=
  (∀ (s : State) (l : Lane) (p : Fin 6) (bs : List Byte) (ok : Bool) (sfd arr : BitVec 64),
     (s.lane l).is R.cdeCfg_star_en = false → p.val = (s.lane l).uplink → (s.lane l).node ≠ nodeOff →
     (s.lane l).frameValid (parseFrame bs) ok (sfd.toNat - (s.lane l).portDelay p) = false →
     Does s (.cordeeFrameReceived l p bs ok sfd arr) { regs := [R.cdeCnt] } fun L M =>
       M.get R.cdeCnt_rx_inv = satU 16 (L.get R.cdeCnt_rx_inv + 1)) ∧
  (∀ (s : State) (l : Lane) (p : Fin 6) (bs : List Byte) (ok : Bool) (sfd arr : BitVec 64),
     (s.lane l).is R.cdeCfg_star_en = false → p.val = (s.lane l).uplink → (s.lane l).node = nodeListen →
     (s.lane l).frameValid (parseFrame bs) ok (sfd.toNat - (s.lane l).portDelay p) = true → (parseFrame bs).ftype = 1 →
     Does s (.cordeeFrameReceived l p bs ok sfd arr)
       { parts := [.cde], regs := [R.cdeState, R.cdeNtofsLo, R.cdeNtofsHi] } fun L M =>
       M.node = nodeIntegrate ∧
       M.ntOfs = sext 64 (wrapTo 64 ((payload64 (parseFrame bs).payload 0 : Int) +
         (payloadWord (parseFrame bs).payload 2).toInt - (arr.toNat - L.portDelay p : Nat))) ∧ M.cde.syncs = []) ∧
  (∀ (s : State) (l : Lane) (p : Fin 6) (bs : List Byte) (ok : Bool) (sfd arr : BitVec 64) (e : Nat),
     (s.lane l).is R.cdeCfg_star_en = false → (s.lane l).is R.cdeCfg_relay_en = false → p.val = (s.lane l).uplink →
     (s.lane l).node = nodeSynced →
     (s.lane l).frameValid (parseFrame bs) ok (sfd.toNat - (s.lane l).portDelay p) = true → (parseFrame bs).ftype = 0 →
     (s.lane l).rxEntries (s.lane l).cdeNet (parseFrame bs).fid ((s.lane l).cycleOf (sfd.toNat - (s.lane l).portDelay p)) = [e] →
     (s.lane l).cde.rxSt e = { entry := e } → (s.lane l).rxMode e = 0 →
     Does s (.cordeeFrameReceived l p bs ok sfd arr)
       { parts := [.cde], sigs := List.range' ((s.lane l).rxDst e) ((s.lane l).rxNw e) } fun L M =>
       (∀ i, i < L.rxNw e → M.sig (L.rxDst e + i) = payloadWord (parseFrame bs).payload (L.rxW0 e + i)) ∧
       (M.cde.rxSt e).written = true ∧ L.cdeNet ∈ M.cde.seen) ∧
  (∀ (s : State) (l : Lane) (p : Fin 6) (bs : List Byte) (ok : Bool) (sfd arr : BitVec 64),
     (s.lane l).is R.cdeCfg_star_en = true → (s.lane l).star = starRun →
     ((parseFrame bs).sender ≠ (s.lane l).portNode p ∨ (s.lane l).portNode p = 0) →
     Does s (.cordeeFrameReceived l p bs ok sfd arr)
       { parts := [.cde], regs := [R.cdePcnt p, R.cdeState, R.cdeStat] } fun L M =>
       M.get (R.cdePcnt_late p) = satU 8 (L.get (R.cdePcnt_late p) + 1) ∧ M.cde.viol.get p = L.cde.viol.get p + 1 ∧
       (2 ≤ L.cde.viol.get p → M.bitOf R.cdeState_iso p = true) ∧
       (L.cde.viol.get p < 2 → M.reg R.cdeState = L.reg R.cdeState)) ∧
  (∀ (s : State) (l : Lane) (p : Fin 6) (bs : List Byte) (ok : Bool) (sfd arr : BitVec 64),
     (s.lane l).is R.cdeCfg_star_en = true → (s.lane l).star = starQuiet → (s.lane l).node = nodeOff →
     (parseFrame bs).sender = (s.lane l).portNode p → (s.lane l).portNode p ≠ 0 → (parseFrame bs).ftype = 2 →
     (s.lane l).portNode p ∈ (s.lane l).coldIds → (∀ q ∈ (s.lane l).cde.lastCold, q.1 ≠ p.val) →
     Does s (.cordeeFrameReceived l p bs ok sfd arr) { parts := [.cde], regs := [R.cdeState] } fun L M =>
       M.star = starStartup ∧ M.cde.startupAt = L.coarse ∧ M.node = nodeOff) ∧
  (∀ (s : State) (l : Lane) (F : StarFrame), (s.lane l).cde.running = some F → F.port < 6 →
     Does s (.windowEndTruncate l)
       { parts := [.cde], regs := [R.cdePcnt F.port, R.cdeState, R.cdeStat, R.cdeCnt] } fun L M =>
       M.cde.running = none ∧ M.get (R.cdePcnt_babble F.port) = satU 8 (L.get (R.cdePcnt_babble F.port) + 1) ∧
       M.get R.cdeCnt_rx_inv = satU 16 (L.get R.cdeCnt_rx_inv + 1) ∧ M.cde.viol.get F.port = L.cde.viol.get F.port + 1) ∧
  (∀ (s : State) (l : Lane) (w : Nat), (s.lane l).cde.gap = some (w, true) →
     Does s (.arbGapClose l) { parts := [.cde] } fun L M =>
       M.cde.gap = some (w, false) ∧ M.cde.held = L.cde.held ∧ M.cde.queue = L.cde.queue) ∧
  (∀ (s : State) (l : Lane) (arr : BitVec 64) (w : Nat) (F : StarFrame), (s.lane l).cde.gap = some (w, false) →
     arbWinner (s.lane l).cde.held = some F → (s.lane l).node = nodeOff →
     Does s (.arbForward l arr) { parts := [.cde], regs := [R.cdeStat] } fun L M =>
       M.cde.held = [] ∧ M.cde.offered = none ∧
       (∀ fid, L.cde.offered = some fid → F.port = 6 → M.cde.queue = L.cde.queue.filter (fun q => q.1 != fid)) ∧
       (∀ fid, L.cde.offered = some fid → F.port ≠ 6 → M.is R.cdeStat_arb_lost = true ∧ M.cde.queue = L.cde.queue)) ∧
  (∀ (s : State) (l : Lane) (k : Link) (now : BitVec 64) (net fid cycle : Nat) (payload : List Byte) (rest : List RopeMsg),
     s.arriving (l.peer k) l = .relay net fid cycle payload :: rest →
     DoesOn s (s.setFlight (l.peer k) l rest) (.relayReceived l k false now)
       { parts := [.link k], regs := [R.ropeStat0, R.ropeStat1, R.ropeCnt0, R.ropeCnt1, R.cdeStat, R.cdeCnt] } fun L M =>
       (M.link k).errs = (L.link k).errs + 1 ∧ M.is R.cdeStat_relay_drop = true ∧
       M.get R.cdeCnt_relay = satU 16 (L.get R.cdeCnt_relay + 1)) ∧
  (∀ (s : State) (l : Lane) (k : Link) (now : BitVec 64) (net fid cycle : Nat) (payload : List Byte) (rest : List RopeMsg)
     (e : Nat), s.arriving (l.peer k) l = .relay net fid cycle payload :: rest → (s.lane l).node ≠ nodeOff →
     cycle = (s.lane l).cycleOf now.toNat → (s.lane l).rxEntries net fid cycle = [e] →
     (s.lane l).cde.rxSt e = { entry := e } → (s.lane l).rxMode e = 0 →
     DoesOn s (s.setFlight (l.peer k) l rest) (.relayReceived l k true now)
       { parts := [.cde], sigs := List.range' ((s.lane l).rxDst e) ((s.lane l).rxNw e) } fun L M =>
       net ∈ M.cde.seen ∧ ∀ i, i < L.rxNw e → M.sig (L.rxDst e + i) = payloadWord payload (L.rxW0 e + i)) ∧
  (∀ (s : State) (l : Lane) (e : Fin 512) (now : BitVec 64) (net : Nat) (ws : List Word),
     (s.lane l).cde.started = true → (s.lane l).rxMode e = 1 → (s.lane l).rxDue e ((s.lane l).cycleOf now.toNat) = true →
     ((s.lane l).cde.rxSt e).written = false → ((s.lane l).cde.rxSt e).copies = [(net, ws)] →
     Does s (.rxDecision l e now)
       { parts := [.cde], sigs := (0x38400 + e.val) :: List.range' ((s.lane l).rxDst e) ws.length } fun L M =>
       M.sig (0x38400 + e.val) = wordN (256 * 2 ^ net + 2048 * b2n (L.cde.rxSt e).mismatch + 4096) ∧
       M.cde.age.get e = 0 ∧
       (∀ i, i < ws.length → L.rxDst e + i ≠ 0x38400 + e.val → M.sig (L.rxDst e + i) = ws.getD i 0)) ∧
  (∀ (s : State) (l : Lane) (e : Fin 512) (now : BitVec 64), (s.lane l).cde.started = true → (s.lane l).rxMode e ≠ 3 →
     (s.lane l).rxDue e ((s.lane l).cycleOf now.toNat) = true → (s.lane l).cde.rxSt e = { entry := e.val } →
     Does s (.rxDecision l e now) { parts := [.cde], sigs := [0x38400 + e.val] } fun L M =>
       M.cde.age.get e = min 255 (L.cde.age.get e + 1) ∧
       M.sig (0x38400 + e.val) = wordN (min 255 (L.cde.age.get e + 1))) ∧
  (∀ (s : State) (l y : Lane), 3 ≤ (s.lane l).cde.lostRun.get y.idx → (s.lane l).bitOf R.cdeState_net_ok y.idx = true →
     Does s (.networkLost l y) { regs := [R.cdeState, R.cdeStat] } fun L M =>
       M.bitOf R.cdeState_net_ok y.idx = false ∧ M.is R.cdeStat_net_lost = true ∧ M.node = L.node) ∧
  (∀ (s : State) (l y : Lane), 3 ≤ (s.lane l).cde.seenRun.get y.idx →
     Does s (.networkRestored l y) { regs := [R.cdeState] } fun L M =>
       M.bitOf R.cdeState_net_ok y.idx = true ∧ M.node = L.node ∧ M.star = L.star)

/-- Cordee: the node - sampling and sending, the basic-cycle boundary, coldstart, anchor, the commands of CDE. An
exclusive window samples its signals for its frame, an arbitrating one queues it, replaced per frame ID and dropped
from the ninth; the frame goes out at its window; a basic-cycle boundary corrects the network time, counts missing
cycles up to LISTEN, and leaves synchronism beyond half the guard; the listen timeout starts a coldstart, which its
end completes; the anchor enters ANCHOR with offset 0; CDE_LOCK starts the node and the star of a legal schedule and
flags another; clr_cnt clears the counters. Rests on R12, R391, R392, R396, R397, R399, R403, R404, R405, R406,
R409. -/
def Obligations.CordeeNode : Prop :=
  (∀ (s : State) (l : Lane) (w : Fin 128) (t : BitVec 64), (s.lane l).wTx w = true →
     (s.lane l).wActive w ((s.lane l).cycleOf t.toNat) = true → (s.lane l).nodeSends w = true →
     (s.lane l).wSync w = false →
     ((s.lane l).wArb w = false →
       Does s (.txSample l w t) { parts := [.cde] } fun L M =>
         M.cde.sampled = some (w.val, (L.sigsFrom (L.wSrc w) (L.wNw w)).flatMap wordBytes ++
           List.replicate (L.wPlen w - 4 * L.wNw w) 0) ∧ M.cde.queue = L.cde.queue) ∧
     ((s.lane l).wArb w = true → (∀ q ∈ (s.lane l).cde.queue, q.1 ≠ (s.lane l).wFid w) →
       (s.lane l).cde.queue.length < 8 →
       Does s (.txSample l w t) { parts := [.cde] } fun L M =>
         M.cde.queue = L.cde.queue ++ [(L.wFid w, (L.sigsFrom (L.wSrc w) (L.wNw w)).flatMap wordBytes ++
           List.replicate (L.wPlen w - 4 * L.wNw w) 0)]) ∧
     ((s.lane l).wArb w = true → (∀ q ∈ (s.lane l).cde.queue, q.1 ≠ (s.lane l).wFid w) →
       8 ≤ (s.lane l).cde.queue.length →
       Does s (.txSample l w t) { regs := [R.cdeStat] } fun _ M => M.is R.cdeStat_arb_drop = true)) ∧
  (∀ (s : State) (l : Lane) (w : Fin 128) (t arr : BitVec 64), (s.lane l).wTx w = true →
     (s.lane l).wActive w ((s.lane l).cycleOf t.toNat) = true → (s.lane l).nodeSends w = true →
     (s.lane l).is R.cdeCfg_star_en = false → (s.lane l).wSync w = false →
     (∀ body, (s.lane l).wArb w = false → (s.lane l).cde.sampled = some (w.val, body) →
       Does s (.frameSend l w t arr) { parts := [.cde] } fun L M => M.cde = { L.cde with sampled := none }) ∧
     (∀ fid body, (s.lane l).wArb w = true → lowestFid (s.lane l).cde.queue = some (fid, body) →
       Does s (.frameSend l w t arr) { parts := [.cde] } fun L M => M.cde = { L.cde with offered := some fid })) ∧
  (∀ (s : State) (l : Lane) (now : BitVec 64), (s.lane l).node = nodeAnchor →
     Does s (.basicCycleBoundary l now) { parts := [.cde], regs := [R.cdeState] } fun L M =>
       M.node = nodeAnchor ∧ M.star = L.star ∧ M.cde.seen = [] ∧ M.cde.held = [] ∧ M.cde.rx = [] ∧
       ∀ y : Lane, M.cde.lostRun.get y.idx = (if y.idx ∈ L.cde.seen then 0 else L.cde.lostRun.get y.idx + 1)) ∧
  (∀ (s : State) (l : Lane) (now : BitVec 64), (s.lane l).node = nodeSynced → (s.lane l).cde.syncs = [] →
     Does s (.basicCycleBoundary l now)
       { parts := [.cde], regs := [R.cdeState, R.cdeNtofsLo, R.cdeNtofsHi] } fun L M =>
       (atLeast1 (L.get R.cdeSync_hold) ≤ L.cde.hold + 1 → M.node = nodeListen) ∧
       (L.cde.hold + 1 < atLeast1 (L.get R.cdeSync_hold) → M.node = nodeSynced ∧ M.cde.hold = L.cde.hold + 1)) ∧
  (∀ (s : State) (l : Lane) (now : BitVec 64) (d : Int), (s.lane l).node = nodeSynced →
     cycleD (s.lane l).cde.syncs = some d →
     Does s (.basicCycleBoundary l now)
       { parts := [.cde], regs := [R.cdeState, R.cdeStat, R.cdeNtofsLo, R.cdeNtofsHi, R.cdeDev] } fun L M =>
       M.reg R.cdeDev = wordI d ∧ M.cde.syncs = [] ∧
       (d.natAbs ≤ 128 * L.cdeGuard → M.node = nodeSynced ∧ M.cde.hold = 0) ∧
       (128 * L.cdeGuard < d.natAbs → M.node = nodeOut ∧ M.is R.cdeStat_node_out_of_sync = true ∧ M.cde.stepBy = some d)) ∧
  (∀ (s : State) (l : Lane), (s.lane l).node = nodeListen → (s.lane l).is R.cdeCfg_cs_en = true →
     (s.lane l).cde.listenAt + (s.lane l).tListen ≤ (s.lane l).coarse →
     Does s (.listenTimeout l) { parts := [.cde], regs := [R.cdeState] } fun L M =>
       M.node = nodeCold ∧ M.cde.coldSent = false ∧ M.star = L.star) ∧
  (∀ (s : State) (l : Lane) (sfd : BitVec 64), (s.lane l).node = nodeCold → (s.lane l).cde.coldSent = false →
     (s.lane l).get R.cdeCfg_node_id ∈ (s.lane l).coldIds →
     ((s.lane l).is R.cdeCfg_star_en = false →
       Does s (.coldstartSend l sfd) { parts := [.cde] } fun L M => M.cde = { L.cde with coldSent := true }) ∧
     ((s.lane l).is R.cdeCfg_star_en = true → (s.lane l).star = starQuiet →
       (∀ q ∈ (s.lane l).cde.lastCold, q.1 ≠ 6) →
       Does s (.coldstartSend l sfd) { parts := [.cde], regs := [R.cdeState, R.cdeStat] } fun _ M =>
         M.cde.coldSent = true ∧ M.star = starStartup ∧ M.is R.cdeStat_cs_won = true ∧ M.node = nodeCold)) ∧
  (∀ (s : State) (l : Lane), (s.lane l).node = nodeCold → (s.lane l).cde.coldSent = true →
     Does s (.coldstartWindowEnd l) { parts := [.cde], regs := [R.cdeState] } fun L M =>
       M.node = nodeSynced ∧ (L.star = starStartup → M.star = starRun)) ∧
  (∀ (s : State) (l : Lane), (s.lane l).node ≠ nodeOff → (s.lane l).node ≠ nodeAnchor →
     (s.lane l).is R.cdeCfg_anchor = true → (s.lane l).belay ≠ bsBoot → (s.lane l).belay ≠ bsSync →
     Does s (.anchorEnter l)
       { parts := [.cde], regs := [R.cdeState, R.cdeStat, R.cdeNtofsLo, R.cdeNtofsHi] } fun L M =>
       M.node = nodeAnchor ∧ M.ntOfs = 0 ∧ (L.star ≠ 0 → M.star = starRun) ∧ M.cde.rate = 0 ∧
       (L.node = nodeSynced → M.is R.cdeStat_reanchor = true)) ∧
  (∀ (s : State) (l : Lane), (s.lane l).star = starStartup →
     (s.lane l).cde.startupAt + 2 * (s.lane l).tListen ≤ (s.lane l).coarse →
     Does s (.starStartupTimeout l) { regs := [R.cdeState] } fun L M => M.star = starQuiet ∧ M.node = L.node) ∧
  (∀ (s : State) (l : Lane) (q : Req), (s.lane l).judge q R.cdeCmd true 1#32 = none →
     Does s (.cdeClrCnt l q) { regs := R.cdeCnt :: (List.range 7).map R.cdePcnt } fun _ M =>
       M.reg R.cdeCnt = 0 ∧ ∀ p, p < 7 → M.reg (R.cdePcnt p) = 0) ∧
  (∀ (s : State) (l : Lane) (q : Req) (w : Word), (s.lane l).judge q R.cdeLock true w = none →
     bits w.toNat 15 0 = 0xC1A5 → (s.lane l).locked R.cdeLock = false →
     ((s.lane l).cdeLegal = true → (s.lane l).is R.cdeCfg_node_id = true →
       Does s (.cdeLock l q w) { parts := [.cde, .locks], regs := [R.cdeState] } fun L M =>
         R.cdeLock ∈ M.locks ∧ M.cde.started = true ∧ M.node = nodeListen ∧
         M.star = (if L.is R.cdeCfg_star_en then starQuiet else 0)) ∧
     ((s.lane l).cdeLegal = false →
       Does s (.cdeLock l q w) { parts := [.locks], regs := [R.cdeStat] } fun L M =>
         R.cdeLock ∈ M.locks ∧ M.is R.cdeStat_cfg_err = true ∧ M.node = L.node))

/-- Mirror records, the Tether link, the lock and the counters of pair operation. Every lane in pair mode with its
link up stores its record of 1,024 bytes at 0x2039_F400 at the pair's commit tick; a record that fails its CRC is
counted and changes nothing else; a valid one is kept at 0x2039_F000, its stamps and the partner's state are shown,
the partner offset is measured where the delay is valid, and a differing configuration is flagged; the link goes
down by silence or above its limit and up again after up_n clean periods; the key locks TETHER and enters SINGLE or
WAIT; clr_cnt clears the counters. Rests on R423, R424, R425, R428, R430, R432. -/
def Obligations.PairLink : Prop :=
  (∀ (s : State) (l : Lane), (s.lane l).pairMode = true → (s.lane l).is R.tetherState_link_up = true →
     (s.lane l).tickIdx = (s.lane l).get (R.axpSched2_commit_tick (s.lane l).pairAxis) →
     Does s (.mirrorRecordSend l) { bytes := List.range' 0x2039F400 1024 } fun L M =>
       M.bytesFrom 0x2039F400 1024 = L.mirrorRecord ∧
       M.load 0x2039F404 4 = L.pnum % 2 ^ 32 ∧ bits (M.load 0x2039F400 4) 18 16 = L.pstate % 8 ∧
       M.load 0x2039F410 8 = L.time.now.toNat) ∧
  (∀ (s : State) (l : Lane) (bytes : List Byte) (stamp : BitVec 64),
     Does s (.mirrorRecordReceived l bytes stamp false) { parts := [.tether], regs := [R.tetherStat, R.tetherCnt] } fun L M =>
       M.is R.tetherStat_crc_evt = true ∧ M.get R.tetherCnt_crc = satU 16 (L.get R.tetherCnt_crc + 1) ∧
       M.get R.tetherCnt_xfer = L.get R.tetherCnt_xfer ∧ M.tether = { L.tether with errs := L.tether.errs + 1 }) ∧
  (∀ (s : State) (l : Lane) (bytes : List Byte) (stamp : BitVec 64), (s.lane l).pairMode = true →
     (s.lane l).is R.tetherState_link_up = true → bytes.length = 1024 →
     Does s (.mirrorRecordReceived l bytes stamp true)
       { parts := [.tether], regs := [R.tetherState, R.tetherPofsLo, R.tetherPofsHi, R.tetherStat]
         bytes := List.range' 0x2039F000 1024 } fun L M =>
       M.bytesFrom 0x2039F000 1024 = bytes ∧ M.tether.recValid = true ∧ M.tether.partnerArrive = stamp.toNat ∧
       M.tether.partnerSend = M.recWord64 0x10 ∧ M.get R.tetherState_partner = bits (M.recWord 0) 18 16 ∧
       M.pstate = L.pstate ∧
       (M.recWord 0x38 ≠ (L.reg R.sysTick).toNat → M.is R.tetherStat_cfg_mismatch = true) ∧
       (bits (M.recWord 0x3C) 15 0 ≠ L.compat → M.is R.tetherStat_cfg_mismatch = true) ∧
       (let m := pairMeasure (M.recWord64 0x18) stamp.toNat (M.recWord64 0x10) (M.recWord64 0x20)
        if 1280 ≤ m.2 ∧ m.2 ≤ 25600 then M.reg R.tetherPofsLo = wordI m.1 ∧ M.reg R.tetherPofsHi = wordI (m.1 / 2 ^ 32)
        else M.reg R.tetherPofsLo = L.reg R.tetherPofsLo ∧ M.reg R.tetherPofsHi = L.reg R.tetherPofsHi)) ∧
  (∀ (s : State) (l : Lane) (silent : Bool), (s.lane l).is R.tetherState_link_up = true →
     (silent = true ∨ atLeast1 ((s.lane l).get R.tetherLink_err_lim) < (s.lane l).tether.errs) →
     Does s (.tetherLinkDown l silent) { parts := [.tether], regs := [R.tetherState, R.tetherStat] } fun L M =>
       M.is R.tetherState_link_up = false ∧ M.get R.tetherState_partner = 7 ∧ M.is R.tetherStat_link_down = true ∧
       M.pstate = L.pstate ∧ M.tether = { L.tether with cleanRun := 0 }) ∧
  (∀ (s : State) (l : Lane), (s.lane l).is R.tetherState_link_up = false →
     atLeast1 ((s.lane l).get R.tetherLink_up_n) ≤ (s.lane l).tether.cleanRun →
     Does s (.tetherLinkUp l) { regs := [R.tetherState] } fun L M =>
       M.is R.tetherState_link_up = true ∧ M.pstate = L.pstate) ∧
  (∀ (s : State) (l : Lane) (q : Req) (w : Word), (s.lane l).judge q R.tetherLock true w = none →
     bits w.toNat 15 0 = 0xC1A5 → (s.lane l).locked R.tetherLock = false →
     Does s (.tetherLock l q w) { parts := [.locks, .tether], regs := [R.tetherState, R.tetherStat, R.tetherShare] }
       fun L M =>
       M.locked R.tetherLock = true ∧ M.pstate = (if L.is R.tetherCfg_pair_en then psWait else psSingle) ∧
       M.reg R.tetherShare = wordN (if L.is R.tetherCfg_pair_en then 0 else 0x40000000) ∧
       (L.pairMod = 0 ∨ L.pairMod = 3 → M.is R.tetherStat_cfg_mismatch = true)) ∧
  (∀ (s : State) (l : Lane) (q : Req), (s.lane l).judge q R.tetherCmd true 1#32 = none →
     Does s (.tetherClrCnt l q) { regs := [R.tetherCnt] } fun _ M => M.reg R.tetherCnt = 0) ∧
  (∀ (s : State) (l : Lane) (q : Req) (w : Word), (s.lane l).judge q R.tetherLock true w = none →
     (bits w.toNat 15 0 ≠ 0xC1A5 ∨ (s.lane l).locked R.tetherLock = true) → Does s (.tetherLock l q w) {} fun _ _ => True)

/-- The referee's verdict and the installation of the mirror record. At the dec of its entry a valid verdict with a
new sequence is held for exp basic cycles, and one with an unchanged sequence is stale; a verdict whose count has
run out expires, and a module that drives goes on under its own authority; an installation without a valid record
starts the mirrored axes and sets rec_miss; with one, the observer of a mirrored axis takes the record's speed and
acceleration and the axis starts. Rests on R435, R437, R439. -/
def Obligations.PairVerdicts : Prop :=
  (∀ (s : State) (l : Lane) (now : BitVec 64), (s.lane l).pairMode = true → (s.lane l).cde.started = true →
     (s.lane l).rxMode ((s.lane l).get R.tetherVsrc_entry) ≠ 3 →
     (s.lane l).rxDue ((s.lane l).get R.tetherVsrc_entry) ((s.lane l).cycleOf now.toNat) = true →
     ((s.lane l).cde.rxSt ((s.lane l).get R.tetherVsrc_entry)).written = true →
     (s.lane l).tether.vseq ≠ some (bits ((s.lane l).sig ((s.lane l).get R.tetherVsrc_id)).toNat 31 16) →
     (bits ((s.lane l).sig ((s.lane l).get R.tetherVsrc_id)).toNat 3 0 = 1 ∨
       bits ((s.lane l).sig ((s.lane l).get R.tetherVsrc_id)).toNat 3 0 = 2) →
     bits ((s.lane l).sig ((s.lane l).get R.tetherVsrc_id)).toNat 7 4 = 0 →
     Does s (.verdictRead l now) { parts := [.tether], regs := [R.tetherState] } fun L M =>
       let w := (L.sig (L.get R.tetherVsrc_id)).toNat
       M.is R.tetherState_vvalid = true ∧ M.get R.tetherState_v_active = bits w 3 0 ∧
       M.get R.tetherState_v_incoming = 0 ∧ M.get R.tetherState_v_inhibit = bits w 8 8 ∧
       M.get R.tetherState_exp_left = atLeast1 (L.get R.tetherCfg_exp) ∧ M.is R.tetherState_own_auth = false ∧
       M.tether.vseq = some (bits w 31 16) ∧ M.pstate = L.pstate) ∧
  (∀ (s : State) (l : Lane) (now : BitVec 64), (s.lane l).pairMode = true → (s.lane l).cde.started = true →
     (s.lane l).rxMode ((s.lane l).get R.tetherVsrc_entry) ≠ 3 →
     (s.lane l).rxDue ((s.lane l).get R.tetherVsrc_entry) ((s.lane l).cycleOf now.toNat) = true →
     ((s.lane l).cde.rxSt ((s.lane l).get R.tetherVsrc_entry)).written = true →
     (s.lane l).tether.vseq = some (bits ((s.lane l).sig ((s.lane l).get R.tetherVsrc_id)).toNat 31 16) →
     Does s (.verdictRead l now) { regs := [R.tetherState, R.tetherStat] } fun L M =>
       M.is R.tetherStat_seq_stale = true ∧ M.get R.tetherState_exp_left = L.get R.tetherState_exp_left - 1 ∧
       M.is R.tetherState_vvalid = L.is R.tetherState_vvalid ∧ M.get R.tetherState_v_active = L.get R.tetherState_v_active) ∧
  (∀ (s : State) (l : Lane), (s.lane l).is R.tetherState_vvalid = true → (s.lane l).get R.tetherState_exp_left = 0 →
     Does s (.verdictExpire l) { regs := [R.tetherState, R.tetherStat] } fun L M =>
       M.is R.tetherState_vvalid = false ∧ M.is R.tetherStat_expired = true ∧ M.pstate = L.pstate ∧
       (L.pstate = psDriving ∨ L.pstate = psOut → M.is R.tetherState_own_auth = true)) ∧
  (∀ (s : State) (l : Lane) (skip : Bool), (s.lane l).tether.install = some skip → (s.lane l).tether.recValid = false →
     Does s (.installation l)
       (Foot.axes.add { parts := [.tether, .fl 0, .fl 1, .fl 2, .fl 3]
                        regs := R.tetherStat :: (List.range 4).flatMap fun n => [R.axpStat n, R.fldStat n, R.profStat n] })
       fun _ M => M.tether.install = none ∧ M.is R.tetherStat_rec_miss = true) ∧
  (∀ (s : State) (l : Lane) (skip : Bool) (n : Axis), (s.lane l).tether.install = some skip →
     (s.lane l).tether.recValid = true → (s.lane l).is R.tetherState_link_up = true →
     (s.lane l).mirroredAxes = [n.val] → (s.lane l).load (0x2039F030 + n.val) 1 = axDrive →
     (s.lane l).axis n = axFree → (s.lane l).startReady n = true →
     Does s (.installation l)
       ((Foot.axis n).add
         { parts := [.tether, .fl n, .fb n]
           regs := [R.fldStat n, R.profStat n,
             R.leLoopStat ((s.lane l).get (R.axpLoopsel_le n)) ((s.lane l).get (R.axpLoopsel_loop n))]
           bytes := List.range' (leData ((s.lane l).get (R.axpLoopsel_le n))
             ((s.lane l).dState ((s.lane l).get (R.axpLoopsel_le n)) ((s.lane l).get (R.axpLoopsel_loop n)))) 128 })
       fun L M =>
       let b := 0x40 + 0xF0 * n.val
       M.tether.install = none ∧ M.axis n = axDrive ∧ M.is (R.fldStat_starting n) = true ∧
       (M.fl n).skipRamp = skip ∧
       (M.fb n).vHat = divOpen (sext 32 (L.recWord (b + 0x14)) * 2 ^ 24) (L.nTicks : Nat) ∧
       (M.fb n).pHat = (L.fb n).pos * 2 ^ 24)

/-- Safety inputs: test pulses, channels, permits and faults. An enabled test-pulse output pulses; at the end of its
pulse each closed channel that it feeds passes or raises own_miss, which takes the permit; a read-back that differs
raises tp_fail in every function fed from that output; a change of a channel's filtered state re-evaluates the
functions that use it, whose permit then stands exactly where they are released and may permit; a discrepancy that
has lasted t_disc raises disc; a second hand later than t_sim disarms a JOG. Rests on R446, R447, R448, R449, R451,
R452, R453, R456. -/
def Obligations.SafetyChannels : Prop :=
  (∀ (s : State) (l : Lane) (j : Fin 4), (s.lane l).tpOn j = true →
     Does s (.testPulseStart l j) { parts := [.siu] } fun L M => M.siu = { L.siu with pulsing := addTo j.val L.siu.pulsing }) ∧
  (∀ (s : State) (l : Lane) (j : Fin 4) (low high opened : BitVec 16) (readback : Bool), j.val ∈ (s.lane l).siu.pulsing →
     Does s (.testPulseEnd l j low high opened readback)
       { parts := [.siu], regs := R.siuCnt :: (List.range 8).map R.siuFst } fun L M =>
       j.val ∉ M.siu.pulsing ∧ (readback = true → j.val ∉ M.siu.tpBad) ∧
       (∀ c, c < 16 → L.chan c = true → L.chSrc c = j.val → low.getLsbD c = true → c ∈ M.siu.passed) ∧
       (∀ c f, c < 16 → L.chan c = true → L.chSrc c = j.val → low.getLsbD c = false → f ∈ L.evaluated → c ∈ L.fnChans f →
         M.is (R.siuFst_own_miss f) = true ∧ f ∉ M.siu.permit) ∧
       (∀ c f, c < 16 → L.chan c = true → L.chSrc c < 4 → L.chSrc c ≠ j.val → L.tpOn (L.chSrc c) = true →
         high.getLsbD c = false → opened.getLsbD c = false → f ∈ L.evaluated → c ∈ L.fnChans f →
         M.is (R.siuFst_foreign_seen f) = true ∧ f ∉ M.siu.permit)) ∧
  (∀ (s : State) (l : Lane) (j : Fin 4),
     Does s (.tpReadbackFail l j) { parts := [.siu], regs := R.siuStat :: R.siuCnt :: (List.range 8).map R.siuFst }
       fun L M =>
       M.bitOf R.siuStat_tp_fail j = true ∧ j.val ∈ M.siu.tpBad ∧
       ∀ f c, f ∈ L.evaluated → c ∈ L.fnChans f → L.chSrc c = j.val →
         M.is (R.siuFst_tp_fail f) = true ∧ f ∉ M.siu.permit) ∧
  (∀ (s : State) (l : Lane) (c : Fin 16) (closed : Bool),
     Does s (.channelFilterChange l c closed)
       { parts := [.siu], regs := R.siuState :: R.siuCnt :: (List.range 8).map R.siuFst } fun L M =>
       M.chan c = closed ∧ (∀ d, d < 16 → d ≠ c.val → M.chan d = L.chan d) ∧
       (closed = true → c.val ∈ M.siu.closedOnce) ∧
       ∀ f, f ∈ L.evaluated → c.val ∈ L.fnChans f → L.fnType f ≠ fnJog →
         (f ∈ M.siu.permit ↔ M.released f = true ∧ M.mayPermit f = true) ∧
         (f ∈ L.siu.permit → f ∉ M.siu.permit → L.is (R.siuFn_rst f) = true → f ∈ M.siu.waitReset)) ∧
  (∀ (s : State) (l : Lane) (f : Fin 8), f.val ∈ (s.lane l).evaluated → (s.lane l).siu.discAt.get (2 * f.val) ≠ 0 →
     (s.lane l).siu.discAt.get (2 * f.val) + (s.lane l).tDisc f ≤ (s.lane l).coarse + 1 →
     Does s (.discrepancyFault l f) { parts := [.siu], regs := [R.siuFst f, R.siuCnt] } fun _ M =>
       M.is (R.siuFst_disc f) = true ∧ f.val ∉ M.siu.permit) ∧
  (∀ (s : State) (l : Lane) (f : Fin 8), f.val ∈ (s.lane l).evaluated → (s.lane l).fnType f = fnJog →
     f.val ∈ (s.lane l).siu.jogArmed → (s.lane l).siu.jogAt.get (2 * f.val) ≠ 0 →
     (s.lane l).siu.jogAt.get (2 * f.val + 1) = 0 → (s.lane l).actuated f 1 = false → (s.lane l).letGo f 0 = false →
     (s.lane l).tSim < (s.lane l).coarse + 1 - (s.lane l).siu.jogAt.get (2 * f.val) →
     Does s (.jogSimTimeout l f) { parts := [.siu], regs := [R.siuFst f, R.siuCnt] } fun _ M =>
       M.is (R.siuFst_sim_late f) = true ∧ f.val ∉ M.siu.jogArmed ∧ f.val ∉ M.siu.permit)

/-- Safety inputs: manual resets, fault clears, the lock and the counters. A manual reset is accepted only in the
owning lane for a function that waits for it, released, fault-free and checked, and is refused with its flag
otherwise; an accepted reset takes effect at a period boundary; a fault whose condition persists is not cleared and
the refusal is flagged; the key locks the SIU, forms the configuration CRC and starts evaluation only where the
check passes, the functions that act as NONE publishing 0; clr_cnt clears the counters. Rests on R12, R455, R456,
R457, R459, R463. -/
def Obligations.SafetyCommands : Prop :=
  (∀ (s : State) (l : Lane) (q : Req) (f : BitVec 8), (s.lane l).judge q R.siuCmd true (wordN f.toNat) = none →
     Does s (.siuManualReset l q f) { parts := [.siu], regs := R.siuStat :: (List.range 8).map R.siuFst } fun L M =>
       ∀ k, k < 8 → f.getLsbD k = true →
         if L.fnNone k = true ∨ L.fnOwner k ≠ L.id then M.is R.siuStat_cmd_refused = true
         else if k ∈ L.siu.waitReset ∧ L.released k = true ∧ L.faulted k = false ∧ L.checked k = true ∧
             k ∉ L.siu.needDemand then k ∈ M.siu.resetPend
         else M.is (R.siuFst_reset_refused k) = true) ∧
  (∀ (s : State) (l : Lane), (s.lane l).atPeriod = true →
     Does s (.siuResetEffect l) { parts := [.siu], regs := R.siuCnt :: (s.lane l).siu.resetPend.map R.siuFst } fun L M =>
       M.siu.resetPend = [] ∧
       ∀ f ∈ L.siu.resetPend, f < 8 → f ∉ L.siu.permit → L.fnType f ≠ fnJog →
         f ∉ M.siu.waitReset ∧ (f ∈ M.siu.permit ↔ M.released f = true ∧ M.mayPermit f = true)) ∧
  (∀ (s : State) (l : Lane) (q : Req), (s.lane l).judge q R.siuCmd true 0x100#32 = none →
     Does s (.siuClrCnt l q) { regs := [R.siuCnt] } fun _ M => M.reg R.siuCnt = 0) ∧
  (∀ (s : State) (l : Lane) (q : Req) (f : Fin 8) (w : BitVec 6),
     (s.lane l).judge q (R.siuFst f) true (wordN w.toNat) = none →
     Does s (.siuFaultClear l q f w) { parts := [.siu], regs := [R.siuFst f, R.siuStat, R.siuCnt] } fun L M =>
       ∀ i, i < 4 → bit (M.reg (R.siuFst f)).toNat i =
           (bit (L.reg (R.siuFst f)).toNat i && (!w.getLsbD i || L.faultStands f i)) ∧
         (w.getLsbD i = true → bit (L.reg (R.siuFst f)).toNat i = true → L.faultStands f i = true →
           M.is R.siuStat_clr_refused = true)) ∧
  (∀ (s : State) (l : Lane) (q : Req) (w : Word), (s.lane l).judge q R.siuLock true w = none →
     bits w.toNat 15 0 = 0xC1A5 → (s.lane l).locked R.siuLock = false →
     Does s (.siuLock l q w)
       { parts := [.locks, .siu]
         regs := [R.siuCfgCrc, R.siuRes, R.siuState, R.siuStat, R.siuCnt] ++ (List.range 8).map R.siuFst
         sigs := List.range' 0x38010 8 } fun L M =>
       M.locked R.siuLock = true ∧ M.reg R.siuCfgCrc = crc32 (L.siuWords.flatMap wordBytes) ∧
       (∀ f, f < 8 → L.fnNone f = true → M.sig (0x38010 + f) = 0) ∧
       (∀ f, f < 8 → (f ∈ M.ownedFns ↔ bit (M.get R.siuState_owned) f = true)) ∧
       (L.siuLegal = false → M.is R.siuStat_cfg_err = true ∧ M.is R.siuState_locked = L.is R.siuState_locked) ∧
       (L.siuLegal = true → M.is R.siuState_locked = true ∧
         ∀ f ∈ L.ownedFns, L.is (R.siuFn_rst f) = true → L.fnType f ≠ fnJog →
           f ∈ M.siu.waitReset ∧ f ∉ M.siu.permit)) ∧
  (∀ (s : State) (l : Lane) (q : Req) (w : Word), (s.lane l).judge q R.siuLock true w = none →
     (bits w.toNat 15 0 ≠ 0xC1A5 ∨ (s.lane l).locked R.siuLock = true) → Does s (.siuLock l q w) {} fun _ _ => True)

/-- Supply inputs and the power budget. Main falls out for a present backup and returns by its margins; an input
that is lost, overvolted or reversed leaves the other one if present and else no input, with hold_up; an input that
returns is selected when none is; no input within the hold-up excludes the lane with SUP_MON; an evaluation of the
budget shows the levels of supply, current and temperature, worsens the level at once and improves it by one after
the hold time, in PWR_BUD_STAT, RIDGE_STAT and S:0x3_8003. Rests on R468, R469, R496, R497. -/
def Obligations.SupplyInputs : Prop :=
  (∀ (s : State) (l : Lane) (vm vb : BitVec 17),
     Does s (.budgetEval l vm vb) { parts := [.pwr], regs := [R.pwrBudStat, R.ridgeStat], sigs := [0x38003] } fun L M =>
       let want := max M.levelSup (max M.levelCur M.levelTemp)
       let level := L.get R.pwrBudStat_level
       let hold := 2000000 * atLeast1 (L.get R.pwrBud0_hold)
       M.pwr.vMain = vm.toNat ∧ M.pwr.vBack = vb.toNat ∧
       M.get R.pwrBudStat_sup = M.levelSup ∧ M.get R.pwrBudStat_cur = M.levelCur ∧
       M.get R.pwrBudStat_temp = M.levelTemp ∧ M.get R.pwrBudStat_tmax = satU 8 L.budTemp ∧
       (level ≤ want → M.get R.pwrBudStat_level = want) ∧
       (∀ a, want < level → L.pwr.betterAt = some a → a + hold ≤ L.coarse → M.get R.pwrBudStat_level = level - 1) ∧
       (want < level → L.pwr.betterAt = none → M.get R.pwrBudStat_level = level) ∧
       (M.get R.pwrBudStat_level ≠ level → 14 ∈ M.pwr.svcLines) ∧
       M.get R.ridgeStat_level = M.get R.pwrBudStat_level ∧ M.sig 0x38003 = M.reg R.pwrBudStat) ∧
  (∀ (s : State) (l : Lane) (vm vb : BitVec 17), (s.lane l).supSel = 0 →
     (vm.toNat + 300 < vb.toNat ∨ vm.toNat < (s.lane l).uvMv) → (s.lane l).uvMv ≤ vb.toNat →
     vb.toNat < (s.lane l).ovMv → (s.lane l).pwr.ovBack = false →
     Does s (.supplySwitchToBackup l vm vb)
       { parts := [.pwr], regs := [R.pwrSupStat, R.pwrStat, R.pwrCnt, R.pwrBudStat, R.ridgeStat], sigs := [0x38003] }
       fun L M =>
       M.supSel = 1 ∧ M.is R.pwrSupStat_back_ok = true ∧ M.get R.pwrCnt_swo = satU 16 (L.get R.pwrCnt_swo + 1) ∧
       M.is R.pwrStat_sw_over = true ∧ 6 ∈ M.pwr.svcLines ∧
       (vm.toNat < L.uvMv → M.is R.pwrSupStat_main_ok = false)) ∧
  (∀ (s : State) (l : Lane) (vm vb : BitVec 17), (s.lane l).supSel = 1 → (s.lane l).uvMv + 400 ≤ vm.toNat →
     vb.toNat ≤ vm.toNat + 100 → vm.toNat < (s.lane l).ovMv → (s.lane l).pwr.ovMain = false →
     Does s (.supplyReturnMain l vm vb)
       { parts := [.pwr], regs := [R.pwrSupStat, R.pwrStat, R.pwrBudStat, R.ridgeStat], sigs := [0x38003] } fun _ M =>
       M.supSel = 0 ∧ M.is R.pwrSupStat_main_ok = true ∧ M.is R.pwrStat_sw_over = true ∧ 6 ∈ M.pwr.svcLines) ∧
  (∀ (s : State) (l : Lane) (main : Bool) (v : BitVec 17), (s.lane l).supSel = 2 →
     Does s (.supplyInputReturn l main v)
       { parts := [.pwr], regs := [R.pwrSupStat, R.pwrStat, R.pwrBudStat, R.ridgeStat], sigs := [0x38003] } fun _ M =>
       M.supSel = (if main then 0 else 1) ∧
       M.is (if main then R.pwrSupStat_main_ok else R.pwrSupStat_back_ok) = true ∧ 6 ∈ M.pwr.svcLines) ∧
  (∀ (s : State) (l : Lane) (main : Bool), (s.lane l).supSel = (if main then 0 else 1) →
     Does s (.inputOvervoltage l main)
       { parts := [.pwr], regs := [R.pwrSupStat, R.pwrStat, R.pwrBudStat, R.ridgeStat], sigs := [0x38003] } fun L M =>
       M.is (if main then R.pwrSupStat_main_ok else R.pwrSupStat_back_ok) = false ∧
       (if main then M.pwr.ovMain else M.pwr.ovBack) = true ∧
       M.supSel = (if L.is (if main then R.pwrSupStat_back_ok else R.pwrSupStat_main_ok) then (if main then 1 else 0)
         else 2)) ∧
  (∀ (s : State) (l : Lane), (s.lane l).supSel = 0 →
     Does s (.inputReverse l)
       { parts := [.pwr], regs := [R.pwrSupStat, R.pwrStat, R.pwrBudStat, R.ridgeStat], sigs := [0x38003] } fun L M =>
       M.supSel = (if L.is R.pwrSupStat_back_ok then 1 else 2) ∧ M.is R.pwrStat_sw_over = true ∧ 6 ∈ M.pwr.svcLines) ∧
  (∀ (s : State) (l : Lane),
     Does s (.bothInputsLost l)
       { parts := [.pwr], regs := [R.pwrSupStat, R.pwrStat, R.pwrBudStat, R.ridgeStat], sigs := [0x38003] } fun L M =>
       M.supSel = 2 ∧ M.is R.pwrSupStat_main_ok = false ∧ M.is R.pwrSupStat_back_ok = false ∧
       (L.supSel ≠ 2 → M.is R.pwrStat_hold_up = true ∧ 7 ∈ M.pwr.svcLines)) ∧
  (∀ (s : State) (l : Lane), (s.lane l).supSel = 2 → driving (s.lane l).belay = true →
     (s.lane l).belaySt.selfExcluding = false →
     Does s (.holdUpTimeout l) Foot.excl fun L M => SelfExcluding L M 0x0B ∧ M.isRaised 0x0B L.id = true)

/-- The PMIC link, PGOOD, the oscillator and the core voltage. One request is outstanding at a time and is sent with
a new seq; POLL frames ask for its answer; an answer whose CRC, seq or register does not fit changes nothing, and
one that fits ends the request; a timeout repeats the frame three times and then fails the request; PGOOD_x and
OSC_x lead the power-on sequence; the adaptive voltage loop goes to 40 on stale margins and up in an emergency,
unless the code is frozen. Rests on R471, R472, R473, R475, R476, R477, R478, R479, R480. -/
def Obligations.PmicLink : Prop :=
  (∀ (s : State) (l : Lane) (r : PmicReq) (rest : List PmicReq), (s.lane l).pwr.cur = none →
     (s.lane l).pwr.queue = r :: rest →
     Does s (.pmicRequest l) { parts := [.pwr] } fun L M =>
       M.pwr = { L.pwr with cur := some (r, (L.pwr.seq + 1) % 4, 0), queue := rest, seq := (L.pwr.seq + 1) % 4,
                            frame := r.frame ((L.pwr.seq + 1) % 4) }) ∧
  (∀ (s : State) (l : Lane) (r : PmicReq) (seq k : Nat), (s.lane l).pwr.cur = some (r, seq, k) →
     Does s (.pmicPoll l) { parts := [.pwr] } fun L M => M.pwr = { L.pwr with frame := pmicFrame seq 0 r.reg 0 }) ∧
  (∀ (s : State) (l : Lane) (r : PmicReq) (seq k : Nat) (frame : Word), (s.lane l).pwr.cur = some (r, seq, k) →
     (bits frame.toNat 7 0 ≠ crc8 frame.toNat ∨ bits frame.toNat 31 30 ≠ seq ∨ bits frame.toNat 27 24 ≠ r.reg) →
     Does s (.pmicResponse l frame) {} fun _ _ => True) ∧
  (∀ (s : State) (l : Lane) (r : PmicReq) (seq k : Nat) (frame : Word), (s.lane l).pwr.cur = some (r, seq, k) → r.cls = 2 →
     k < 4 → bits frame.toNat 7 0 = crc8 frame.toNat → bits frame.toNat 31 30 = seq → bits frame.toNat 27 24 = r.reg →
     bits frame.toNat 29 28 = 1 →
     Does s (.pmicResponse l frame) { parts := [.pwr], regs := [R.pwrPmicRsp] } fun _ M =>
       M.pwr.cur = none ∧ M.get R.pwrPmicRsp_status = 1 ∧ M.get R.pwrPmicRsp_retries = k ∧
       M.get R.pwrPmicRsp_data = bits frame.toNat 23 8 ∧ 8 ∈ M.pwr.svcLines) ∧
  (∀ (s : State) (l : Lane) (r : PmicReq) (seq k : Nat) (frame : Word), (s.lane l).pwr.cur = some (r, seq, k) → r.cls = 1 →
     r.reg = 1 → bits frame.toNat 7 0 = crc8 frame.toNat → bits frame.toNat 31 30 = seq → bits frame.toNat 27 24 = 1 →
     bits frame.toNat 29 28 = 2 →
     Does s (.pmicResponse l frame) { parts := [.pwr], regs := [R.pwrStat] } fun _ M =>
       M.pwr.cur = none ∧ M.pwr.frozen = true ∧ M.is R.pwrStat_pmic_fail = true ∧ 9 ∈ M.pwr.svcLines) ∧
  (∀ (s : State) (l : Lane) (seq k : Nat) (frame : Word), (s.lane l).pwr.cur = some (reqRails, seq, k) →
     (s.lane l).pwr.bootStep = 1 → bits frame.toNat 7 0 = crc8 frame.toNat → bits frame.toNat 31 30 = seq →
     bits frame.toNat 27 24 = 2 → bits frame.toNat 29 28 = 1 →
     Does s (.pmicResponse l frame) { parts := [.pwr] } fun _ M => M.pwr.cur = none ∧ M.pwr.bootStep = 2) ∧
  (∀ (s : State) (l : Lane) (r : PmicReq) (seq k : Nat), (s.lane l).pwr.cur = some (r, seq, k) → k < 3 →
     Does s (.pmicRetryTimeout l) { parts := [.pwr], regs := [R.pwrStat, R.pwrCnt] } fun L M =>
       M.pwr = { L.pwr with cur := some (r, seq, k + 1), frame := r.frame seq } ∧ M.is R.pwrStat_pmic_retry = true ∧
       M.get R.pwrCnt_retry = satU 16 (L.get R.pwrCnt_retry + 1) ∧ M.get R.pwrCnt_swo = L.get R.pwrCnt_swo) ∧
  (∀ (s : State) (l : Lane) (r : PmicReq) (seq : Nat), (s.lane l).pwr.cur = some (r, seq, 3) → r.cls = 2 →
     Does s (.pmicRetryTimeout l) { parts := [.pwr], regs := [R.pwrStat, R.pwrPmicRsp] } fun _ M =>
       M.pwr.cur = none ∧ M.get R.pwrPmicRsp_status = 3 ∧ M.get R.pwrPmicRsp_data = 0 ∧
       M.is R.pwrStat_pmic_fail = true ∧ 9 ∈ M.pwr.svcLines) ∧
  (∀ (s : State) (l : Lane), (s.lane l).pwr.cur = none → (∀ r ∈ (s.lane l).pwr.queue, r.cls ≤ 2) →
     Does s (.iinPoll l) { parts := [.pwr] } fun L M => M.pwr = { L.pwr with queue := L.pwr.queue ++ [reqIin] }) ∧
  (∀ (s : State) (l : Lane) (q : Req) (w : Word), (s.lane l).judge q R.pwrPmicReq true w = none →
     (bits w.toNat 5 4 = 1 ∨ bits w.toNat 5 4 = 2) → (s.lane l).pwr.cur = none →
     (∀ r ∈ (s.lane l).pwr.queue, r.cls ≠ 2) →
     Does s (.pmicFwRequest l q w) { parts := [.pwr], regs := [R.pwrPmicRsp, R.pwrStat] } fun L M =>
       let reg := bits w.toNat 3 0
       if reg = 0 ∨ reg = 4 ∨ 8 ≤ reg then
         ({ cls := 2, write := bits w.toNat 5 4 == 1, reg := reg, data := bits w.toNat 31 16 } : PmicReq) ∈ M.pwr.queue ∧
         M.reg R.pwrPmicRsp = 0 ∧ M.reg R.pwrStat = L.reg R.pwrStat
       else M.is R.pwrStat_pmic_busy = true ∧ M.pwr = L.pwr ∧ M.reg R.pwrPmicRsp = L.reg R.pwrPmicRsp) ∧
  (∀ (s : State) (l : Lane), (s.lane l).is R.pwrSupStat_pgood = true → (s.lane l).get R.pwrState_state ≠ 3 →
     Does s (.pgoodDrop l) { parts := [.pwr, .belaySt], regs := [R.pwrSupStat, R.pwrStat, R.belayStat] } fun L M =>
       M.is R.pwrSupStat_pgood = false ∧ M.is R.pwrStat_pgood_drop = true ∧ 5 ∈ M.pwr.svcLines ∧
       M.isRaised 0x0B L.id = true ∧ M.supSel = L.supSel) ∧
  (∀ (s : State) (l : Lane),
     Does s (.pgoodRise l) { parts := [.pwr], regs := [R.pwrSupStat] } fun L M =>
       M.is R.pwrSupStat_pgood = true ∧ 5 ∈ M.pwr.svcLines ∧ M.supSel = L.supSel ∧
       M.pwr.bootStep = if L.pwr.bootStep = 2 then 3 else L.pwr.bootStep) ∧
  (∀ (s : State) (l : Lane), (s.lane l).pwr.bootStep = 3 →
     Does s (.oscReady l) { parts := [.time, .pwr], regs := [R.pwrState, R.cairnWout] } fun L M =>
       M.get R.pwrState_pwr = 0xFFF ∧ M.get R.pwrState_state = 0 ∧ M.pwr = { L.pwr with bootStep := 4 } ∧
       M.time.oscOk = true ∧ M.time.onRc = false ∧ M.is R.cairnWout_code_on = false) ∧
  (∀ (s : State) (l : Lane) (g : Nat), (s.lane l).is R.pwrAvs_en = true → g < 8 → (s.lane l).pwr.avsAt.get g = 0 →
     (s.lane l).pwr.frozen = false →
     Does s (.avsRun l) { parts := [.pwr], regs := [R.pwrStat, R.pwrAvsStat] } fun _ M =>
       M.is R.pwrStat_avs_stale = true ∧ M.get R.pwrAvsStat_code = 40 ∧ 10 ∈ M.pwr.svcLines ∧ M.pwr.lowRuns = 0) ∧
  (∀ (s : State) (l : Lane) (g : Nat), (s.lane l).is R.pwrAvs_en = true → (s.lane l).pwr.frozen = false →
     (∀ k, k < 8 → (s.lane l).pwr.avsAt.get k ≠ 0 ∧ (s.lane l).coarse + 1 ≤
       (s.lane l).pwr.avsAt.get k + 800000 * atLeast1 ((s.lane l).get R.pwrAvs_per)) →
     g < 8 → (s.lane l).avsMargin g ((s.lane l).pwr.avs.get g) < (s.lane l).getS R.pwrAvs_emg →
     Does s (.avsRun l) { parts := [.pwr, .belaySt], regs := [R.pwrStat, R.pwrAvsStat, R.belayStat] } fun L M =>
       M.get R.pwrAvsStat_code = min (L.get R.pwrAvsStat_code + 4) 40 ∧
       (M.get R.pwrAvsStat_code ≠ L.get R.pwrAvsStat_code → reqVcore (M.get R.pwrAvsStat_code) ∈ M.pwr.queue))

/-- Domains, sleep, wake and the retention record. A gate request is stored and refused for now on a domain in use;
an idle requested domain is gated, an access or a deadline wakes it, and the stalled accesses go on when it is
ready; an authentic sleep command arms sleep and any other is refused; the entry into sleep takes the domains down
step by step, and the PMIC's acknowledgement ends it; an enabled source wakes a sleeping lane or aborts an armed
entry; a wake that fails is recorded and may be retried or given up; RESTORE takes the retention record only where
its CRC and configuration fit. Rests on R12, R482, R483, R484, R485, R486, R487, R488, R491, R492, R493, R494. -/
def Obligations.PowerStates : Prop :=
  (∀ (s : State) (l : Lane) (q : Req) (w : Word), (s.lane l).judge q R.pwrGate true w = none →
     Does s (.gateRequest l q w) { regs := [R.pwrGate, R.pwrStat] } fun L M =>
       M.get R.pwrGate_req = bits w.toNat 11 0 ∧
       (∀ d, d < 12 → bit w.toNat d = true → gateable d = true → L.domainBusy d = true →
         M.is R.pwrStat_gate_refused = true)) ∧
  (∀ (s : State) (l : Lane) (d : Fin 12), (s.lane l).bitOf R.pwrGate_req d = true → gateable d = true →
     (s.lane l).domainBusy d = false → (s.lane l).domainOn d = true → d.val ∉ (s.lane l).pwr.waking →
     Does s (.domainGate l d) { regs := [R.pwrState] } fun L M =>
       M.domainOn d = false ∧ (∀ e, e < 12 → e ≠ d.val → M.domainOn e = L.domainOn e) ∧
       M.get R.pwrState_state = L.get R.pwrState_state) ∧
  (∀ (s : State) (l : Lane) (d : Fin 12) (m : Master), (s.lane l).domainOn d = false → m ≠ .skim →
     Does s (.domainWakeOnAccess l d m) { parts := [.pwr], regs := [R.pwrGate] } fun L M =>
       d.val ∈ M.pwr.waking ∧ (d.val, m.id) ∈ M.pwr.stalled ∧ M.bitOf R.pwrGate_req d = false ∧
       (∀ e, e < 12 → e ≠ d.val → M.bitOf R.pwrGate_req e = L.bitOf R.pwrGate_req e)) ∧
  (∀ (s : State) (l : Lane) (d : Fin 12),
     Does s (.domainWakeOnAccess l d .skim) {} fun _ _ => True) ∧
  (∀ (s : State) (l : Lane) (d : Fin 12), d.val ∈ (s.lane l).pwr.waking →
     Does s (.domainReady l d) { parts := [.pwr], regs := [R.pwrState] } fun L M =>
       M.domainOn d = true ∧ d.val ∉ M.pwr.waking ∧ (∀ m, (d.val, m) ∉ M.pwr.stalled) ∧
       (∀ e m, e ≠ d.val → ((e, m) ∈ M.pwr.stalled ↔ (e, m) ∈ L.pwr.stalled)) ∧
       M.get R.pwrState_state = L.get R.pwrState_state) ∧
  (∀ (s : State) (l : Lane) (k : Fin 2), bit ((s.lane l).reg (pwrDlReg k)).toNat 4 = true →
     (s.lane l).domainOn (bits ((s.lane l).reg (pwrDlReg k)).toNat 3 0) = false →
     Does s (.deadlineWake l k) { parts := [.pwr], regs := [pwrDlReg k, R.pwrGate] } fun L M =>
       M.reg (pwrDlReg k) = wordN (setBits (L.reg (pwrDlReg k)).toNat 4 4 0) ∧
       bits (L.reg (pwrDlReg k)).toNat 3 0 ∈ M.pwr.waking) ∧
  (∀ (s : State) (l : Lane) (i cnt : Nat), (s.lane l).pwr.sleepOk = true → i = (s.lane l).get R.pwrSleepSrc_id →
     cnt = ((s.lane l).sig (i + 1)).toNat → bits ((s.lane l).sig i).toNat 31 16 = 1 → (s.lane l).sleepTagOk i = true →
     (s.lane l).aon.sleepCnt < cnt → (s.lane l).allOff = true →
     Does s (.sleepCommand l) { parts := [.aon, .pwr], regs := [R.pwrSleep], sigs := [0x38002] } fun L M =>
       M.is R.pwrSleep_armed = true ∧ M.get R.pwrSleep_code = 1 ∧ M.get R.pwrSleep_cnt = cnt % 65536 ∧
       M.aon = { L.aon with sleepCnt := cnt } ∧ M.pwr.armedAt = L.coarse ∧ 11 ∈ M.pwr.svcLines ∧
       M.sig 0x38002 = wordN (1 + 16 * L.id.idx + 65536 * (cnt % 65536))) ∧
  (∀ (s : State) (l : Lane) (i cnt : Nat), (s.lane l).pwr.sleepOk = true → i = (s.lane l).get R.pwrSleepSrc_id →
     cnt = ((s.lane l).sig (i + 1)).toNat →
     (bits ((s.lane l).sig i).toNat 31 16 ≠ 1 ∨ (s.lane l).sleepTagOk i = false ∨ cnt ≤ (s.lane l).aon.sleepCnt ∨
       (s.lane l).allOff = false) →
     Does s (.sleepCommand l) { regs := [R.pwrSleep, R.pwrStat], sigs := [0x38002] } fun L M =>
       M.is R.pwrStat_sleep_refused = true ∧ M.get R.pwrSleep_code = 2 ∧ M.is R.pwrSleep_armed = L.is R.pwrSleep_armed ∧
       M.sig 0x38002 = wordN (2 + 16 * L.id.idx + 65536 * (cnt % 65536))) ∧
  (∀ (s : State) (l : Lane), (s.lane l).is R.pwrSleep_armed = true → (s.lane l).pwr.sleepStep = 0 →
     (s.lane l).pwr.armedAt + 20000000 ≤ (s.lane l).coarse →
     Does s (.sleepArmExpire l) { regs := [R.pwrSleep], sigs := [0x38002] } fun L M =>
       M.is R.pwrSleep_armed = false ∧ M.get R.pwrSleep_code = 4 ∧
       M.sig 0x38002 = wordN (4 + 16 * L.id.idx + 65536 * (L.aon.sleepCnt % 65536))) ∧
  (∀ (s : State) (l : Lane), (s.lane l).pwr.sleepStep = 1 →
     Does s (.sleepStepComplete l) { parts := [.pwr], regs := [R.pwrState] } fun _ M =>
       M.pwr.sleepStep = 2 ∧ 12 ∈ M.pwr.svcLines ∧ ∀ d ∈ [2, 3, 4, 5, 6], M.domainOn d = false) ∧
  (∀ (s : State) (l : Lane), (s.lane l).pwr.sleepStep = 3 →
     Does s (.sleepStepComplete l) { parts := [.pwr], regs := [R.pwrState] } fun _ M =>
       M.pwr.sleepStep = 4 ∧ M.domainOn 8 = false ∧ reqSleep ∈ M.pwr.queue) ∧
  (∀ (s : State) (l : Lane) (seq k : Nat) (frame : Word), (s.lane l).pwr.cur = some (reqSleep, seq, k) →
     (s.lane l).pwr.heldSrc = [] → bits frame.toNat 7 0 = crc8 frame.toNat → bits frame.toNat 31 30 = seq →
     bits frame.toNat 27 24 = 5 → bits frame.toNat 29 28 = 1 →
     ∃ M, exec (.pmicResponse l frame) s = .next (s.setLane l M) ∧
       Lost (Foot.loss.add { regs := [R.pwrSupStat] }) (s.lane l) M ∧ M.get R.pwrState_state = 3 ∧
       M.get R.pwrState_pwr = 1 ∧ M.is R.pwrSupStat_pgood = false ∧ M.time.oscOk = false ∧ M.pwr.bootStep = 0) ∧
  (∀ (s : State) (l : Lane) (src : Fin 5) (cairn : BitVec 48), (s.lane l).bitOf R.pwrWakeEn_en src = true → src.val ≠ 3 →
     (s.lane l).get R.pwrState_state = 3 → (s.lane l).pwr.bootStep = 0 →
     Does s (.wakeSourceFire l src cairn) { parts := [.aon, .pwr], regs := [R.pwrWakeSrc, R.pwrAvsStat] } fun L M =>
       M.bitOf R.pwrWakeSrc_src src = true ∧ src.val ∈ M.pwr.svcLines ∧ M.pwr.bootStep = 1 ∧ M.pwr.queue = [reqRails] ∧
       M.get R.pwrAvsStat_code = 40 ∧ M.aon.now = max L.aon.now (cairn.toNat * 200000000 / 32768)) ∧
  (∀ (s : State) (l : Lane) (src : Fin 5) (cairn : BitVec 48), (s.lane l).bitOf R.pwrWakeEn_en src = true → src.val ≠ 3 →
     (s.lane l).get R.pwrState_state ≠ 3 → (s.lane l).pwr.sleepStep < 2 → (s.lane l).is R.pwrSleep_armed = true →
     Does s (.wakeSourceFire l src cairn)
       { parts := [.pwr, .core .tc0], regs := [R.pwrWakeSrc, R.pwrStat, R.pwrSleep], sigs := [0x38002] } fun L M =>
       M.is R.pwrStat_sleep_aborted = true ∧ M.is R.pwrSleep_armed = false ∧ M.get R.pwrSleep_code = 3 ∧
       M.pwr.sleepStep = 0 ∧ M.core .tc0 = { L.core .tc0 with parked := false } ∧ M.bitOf R.pwrWakeSrc_src src = true) ∧
  (∀ (s : State) (l : Lane) (port : Fin 6), (s.lane l).bitOf R.pwrWakeEn_en 0 = true →
     (s.lane l).get R.pwrState_state = 3 → (s.lane l).pwr.bootStep = 0 →
     Does s (.tc10Wake l port) { parts := [.pwr], regs := [R.cdeStat, R.pwrWakeSrc, R.pwrAvsStat] } fun _ M =>
       M.is R.cdeStat_wake = true ∧ M.bitOf R.pwrWakeSrc_src 0 = true ∧ M.pwr.bootStep = 1 ∧ M.pwr.queue = [reqRails]) ∧
  (∀ (s : State) (l : Lane) (port : Fin 6), (s.lane l).bitOf R.pwrWakeEn_en 0 = false →
     Does s (.tc10Wake l port) { regs := [R.cdeStat, R.pwrWakeSrc] } fun _ M =>
       M.is R.cdeStat_wake = true ∧ M.bitOf R.pwrWakeSrc_src 0 = true) ∧
  (∀ (s : State) (l : Lane) (code : Fin 4), code.val ≠ 0 → code.val ≠ 3 → (s.lane l).pwr.bootStep = code.val →
     Does s (.wakeFail l code) { parts := [.pwr, .aon], regs := [R.cairnFail, R.pwrStat, R.belayCnt] } fun L M =>
       M.get R.cairnFail_code = code.val ∧ M.get R.cairnFail_n = satU 8 (L.get R.cairnFail_n + 1) ∧
       M.is R.pwrStat_wake_fail = true ∧ M.pwr.bootStep = 0 ∧ M.pwr.queue = [] ∧ 13 ∈ M.pwr.svcLines ∧
       (L.aon.uncounted = false → L.aon.now ∈ M.aon.attempts)) ∧
  (∀ (s : State) (l : Lane), (s.lane l).pwr.bootStep = 3 → (s.lane l).belay ≠ bsDead → (s.lane l).belay ≠ bsExcluded →
     Does s (.wakeFail l 3)
       (Foot.excl.add { parts := [.pwr, .aon, .time], regs := [R.cairnFail, R.pwrStat, R.pwrState] }) fun L M =>
       M.get R.cairnFail_code = 3 ∧ M.time.onRc = true ∧ M.time.oscOk = false ∧ M.get R.pwrState_pwr = 0xFFF ∧
       (M.belay = bsExcluded ∨ M.belay = bsDead) ∧ M.isRaised 0x13 L.id = true) ∧
  (∀ (s : State) (l : Lane), (s.lane l).is R.cairnFail_code = true → (s.lane l).pwr.bootStep = 0 →
     Does s (.wakeRetry l) { parts := [.pwr], regs := [R.pwrAvsStat] } fun L M =>
       M.pwr = { L.pwr with bootStep := 1, cur := none, queue := [reqRails] } ∧ M.get R.pwrAvsStat_code = 40) ∧
  (∀ (s : State) (l : Lane), (s.lane l).is R.cairnFail_code = true → (s.lane l).pwr.bootStep = 0 →
     (s.lane l).linkUp .l0 = false → (s.lane l).linkUp .l1 = false → (s.lane l).pwr.heldSrc = [] →
     ∃ M, exec (.wakeFailSleep l) s = .next (s.setLane l M) ∧
       Lost (Foot.loss.add { regs := [R.pwrSupStat, R.cairnWout] }) (s.lane l) M ∧ M.get R.pwrState_state = 3 ∧
       M.is R.cairnWout_code_on = true) ∧
  (∀ (s : State) (l : Lane) (q : Req), (s.lane l).judge q R.pwrCmd true 1#32 = none →
     crc32 ((s.lane l).bytesFrom 0x2803FF00 92) = (s.lane l).word 0x2803FF5C → (s.lane l).locked R.sysLock = true →
     (∀ n, n < 4 → (s.lane l).locked (R.fldLock n) = true ∧ (s.lane l).locked (R.fbLock n) = true) →
     (s.lane l).is R.cairnRet_valid = true → (s.lane l).word 0x2803FF04 = (s.lane l).reg R.sysTick →
     ((s.lane l).word 0x2803FF08).toNat = (s.lane l).compat →
     Does s (.restore l q)
       { parts := [.pwr, .fl 0, .fl 1, .fl 2, .fl 3, .fb 0, .fb 1, .fb 2, .fb 3]
         regs := [R.cairnRet, R.pwrAvsStat, R.sysRate] ++
           (List.range 4).flatMap fun n => [R.fldRs n, eqReg n 0, eqReg n 1, eqReg n 2] } fun L M =>
       M.is R.cairnRet_restored = true ∧ M.reg R.sysRate = L.word 0x2803FF10 ∧
       (∀ n, n < 4 → M.reg (R.fldRs n) = L.word (0x2803FF14 + 16 * n)) ∧
       (L.pwr.frozen = false → M.get R.pwrAvsStat_code = bits (L.word 0x2803FF0C).toNat 5 0)) ∧
  (∀ (s : State) (l : Lane) (q : Req), (s.lane l).judge q R.pwrCmd true 1#32 = none →
     crc32 ((s.lane l).bytesFrom 0x2803FF00 92) ≠ (s.lane l).word 0x2803FF5C →
     Does s (.restore l q) { regs := [R.cairnRet, R.pwrStat] } fun _ M =>
       M.is R.cairnRet_restored = false ∧ M.is R.pwrStat_ret_crc = true) ∧
  (∀ (s : State) (l : Lane) (q : Req), (s.lane l).judge q R.pwrCmd true 4#32 = none →
     Does s (.svcIrq l q) { parts := [.pwr] } fun L M => M.pwr = { L.pwr with svcLines := addTo 31 L.pwr.svcLines }) ∧
  (∀ (s : State) (l : Lane) (q : Req), (s.lane l).judge q R.pwrCmd true 2#32 = none →
     Does s (.pwrClrCnt l q) { regs := [R.pwrCnt] } fun _ M => M.reg R.pwrCnt = 0) ∧
  (∀ (s : State) (l : Lane) (q : Req) (w : Word), (s.lane l).judge q R.pwrLock true w = none →
     bits w.toNat 15 0 = 0xC1A5 → (s.lane l).locked R.pwrLock = false →
     Does s (.pwrLock l q w) { parts := [.locks, .pwr], regs := [R.pwrStat] } fun L M =>
       M.locked R.pwrLock = true ∧
       (L.rxMode (L.get R.pwrSleepSrc_entry) = 2 → bits (L.rxNets (L.get R.pwrSleepSrc_entry)) 1 0 = 3 →
         M.pwr.sleepOk = true ∧ M.reg R.pwrStat = L.reg R.pwrStat) ∧
       (L.rxMode (L.get R.pwrSleepSrc_entry) ≠ 2 → M.is R.pwrStat_cfg_err = true ∧ M.pwr = L.pwr))

/-- The Ridge: triggers, posts and the selection of the next task. A task that is described for the trigger becomes
ready with its time unless it is ready or running, which sets overrun; a read of RIDGE_NEXT by the triad returns the
one ready task that the level admits and that goes before every other such task, by effective priority, ready time
and index, marks it running, resets its age and counts its run, while every other ready task ages; with no such task
it returns 0x8000_0000; a read by another master returns the last selection and selects nothing. Rests on R498,
R499, R500, R501. -/
def Obligations.RidgeTasks : Prop :=
  (∀ (s : State) (l : Lane) (n : Fin 64), (s.lane l).taskOn n false = true →
     (s.lane l).pnum % atLeast1 ((s.lane l).get (R.ridgeTaskCfg_period n)) = 0 → (s.lane l).taskReady n = false →
     ((s.lane l).is R.ridgeStat_running = false ∨ (s.lane l).get R.ridgeStat_task ≠ n.val) →
     Does s (.ridgeTaskTrigger l n)
       { parts := [.pwr], regs := [R.ridgeRdy0, R.ridgeRdy1, R.ridgeTaskStat n, R.ridgeStat] } fun L M =>
       M.taskReady n = true ∧ M.is (R.ridgeTaskStat_ready n) = true ∧
       M.pwr = { L.pwr with readyAt := L.pwr.readyAt.set n (L.coarse + 1) } ∧
       (∀ m, m < 64 → m ≠ n.val → M.taskReady m = L.taskReady m) ∧
       (L.is R.ridgeStat_running = false → M.is R.ridgeStat_ready_evt = true)) ∧
  (∀ (s : State) (l : Lane) (n : Fin 64), (s.lane l).taskOn n false = true →
     (s.lane l).pnum % atLeast1 ((s.lane l).get (R.ridgeTaskCfg_period n)) = 0 →
     ((s.lane l).taskReady n = true ∨ (s.lane l).is R.ridgeStat_running = true ∧ (s.lane l).get R.ridgeStat_task = n.val) →
     Does s (.ridgeTaskTrigger l n) { regs := [R.ridgeStat] } fun L M =>
       M.is R.ridgeStat_overrun = true ∧ M.get R.ridgeStat_task = L.get R.ridgeStat_task) ∧
  (∀ (s : State) (l : Lane) (q : Req) (task : BitVec 6),
     (s.lane l).judge q R.ridgePost true (task.setWidth 32) = none → (s.lane l).taskOn task.toNat true = true →
     (s.lane l).taskReady task.toNat = false →
     ((s.lane l).is R.ridgeStat_running = false ∨ (s.lane l).get R.ridgeStat_task ≠ task.toNat) →
     Does s (.ridgePost l q task)
       { parts := [.pwr], regs := [R.ridgeRdy0, R.ridgeRdy1, R.ridgeTaskStat task.toNat, R.ridgeStat] } fun L M =>
       M.taskReady task.toNat = true ∧ M.pwr = { L.pwr with readyAt := L.pwr.readyAt.set task.toNat (L.coarse + 1) } ∧
       (∀ m, m < 64 → m ≠ task.toNat → M.taskReady m = L.taskReady m)) ∧
  (∀ (s : State) (l : Lane) (sec : Bool) (n : Nat), (s.lane l).judge ⟨.triad, sec⟩ R.ridgeNext false 0#32 = none → n < 64 →
     (s.lane l).is R.ridgeCtl_en = true → (s.lane l).taskReady n = true → (s.lane l).admits n = true →
     (∀ m, m < 64 → (s.lane l).taskReady m = true → (s.lane l).admits m = true → (s.lane l).taskBefore n m = true) →
     Does s (.ridgeNext l ⟨.triad, sec⟩)
       { parts := [.bus]
         regs := [R.ridgeNext, R.ridgeRdy0, R.ridgeRdy1, R.ridgeStat] ++ (List.range 64).map R.ridgeTaskStat } fun L M =>
       M.reg R.ridgeNext = wordN (n + 64 * b2n (L.taskUrgent n)) ∧
       Sparse.get 0 M.bus.reply Master.triad.id = M.reg R.ridgeNext ∧
       M.is R.ridgeStat_running = true ∧ M.get R.ridgeStat_task = n ∧ M.taskReady n = false ∧
       M.get (R.ridgeTaskStat_age n) = 0 ∧ M.get (R.ridgeTaskStat_runs n) = satU 16 (L.get (R.ridgeTaskStat_runs n) + 1) ∧
       (∀ m, m < 64 → m ≠ n → M.taskReady m = L.taskReady m) ∧
       (∀ m, m < 64 → m ≠ n → L.taskReady m = true →
         M.get (R.ridgeTaskStat_age m) = min 255 (L.get (R.ridgeTaskStat_age m) + 1))) ∧
  (∀ (s : State) (l : Lane) (sec : Bool), (s.lane l).judge ⟨.triad, sec⟩ R.ridgeNext false 0#32 = none →
     (∀ n, n < 64 → (s.lane l).taskReady n = true → (s.lane l).admits n = false) →
     Does s (.ridgeNext l ⟨.triad, sec⟩)
       { parts := [.bus], regs := [R.ridgeNext, R.ridgeStat] ++ (List.range 64).map R.ridgeTaskStat } fun _ M =>
       M.reg R.ridgeNext = 0x80000000 ∧ Sparse.get 0 M.bus.reply Master.triad.id = 0x80000000 ∧
       M.is R.ridgeStat_running = false) ∧
  (∀ (s : State) (l : Lane) (q : Req), (s.lane l).judge q R.ridgeNext false 0#32 = none → q.m ≠ .triad →
     Does s (.ridgeNext l q) { parts := [.bus] } fun L M =>
       Sparse.get 0 M.bus.reply q.m.id = L.reg R.ridgeNext)

/-- The oldest write-back, eNVM operations, and the counters of NVMC and WAT. The oldest corrected word is written
back; PROGRAM, ERASE and BLANK start on their target unless refused, and then nothing but the refusal is recorded; a
PROGRAM that reads back rightly leaves the page buffer in its page, an ERASE leaves its sector erased, a failed
PROGRAM leaves free words and sets err, a BLANK sets err exactly on a sector that is not erased; an operation on the
record sector leaves its entry due; the clears return their counters to 0. Rests on R12, R512, R519, R520, R524,
R549, R559. -/
def Obligations.NvmOperations : Prop :=
  (∀ (s : State) (l : Lane),
     Does s (.eccWriteback l) { parts := [.memSt] } fun L M =>
       M.memSt = { L.memSt with writeBack := L.memSt.writeBack.drop 1 }) ∧
  (∀ p ∈ [(Instr.program, 1), (Instr.erase, 2), (Instr.blank, 3)], ∀ (s : State) (l : Lane) (q : Req),
     (s.lane l).judge q R.nvmcCmd true (wordN p.2) = none → (s.lane l).nvRefused p.2 = false →
     Does s (p.1 l q) { parts := [.lcs, .memSt], regs := [R.nvmcStat, R.secImg] } fun L M =>
       M.is R.nvmcStat_busy = true ∧
       M.memSt = { L.memSt with nvOp := some (p.2, nvBase (L.get R.nvmcAddr_tgt) + L.get R.nvmcAddr_addr) } ∧
       (L.get R.nvmcAddr_tgt < 2 → p.2 ≠ 3 → L.get R.nvmcAddr_tgt ∉ M.lcs.checked) ∧
       (L.get R.nvmcAddr_tgt = 2 → M.lcs.actAt = L.aon.now)) ∧
  (∀ p ∈ [(Instr.program, 1), (Instr.erase, 2), (Instr.blank, 3)], ∀ (s : State) (l : Lane) (q : Req),
     (s.lane l).judge q R.nvmcCmd true (wordN p.2) = none → (s.lane l).nvRefused p.2 = true →
     Does s (p.1 l q) { regs := [R.nvmcStat] } fun L M =>
       M.is R.nvmcStat_refused = true ∧ M.is R.nvmcStat_busy = L.is R.nvmcStat_busy) ∧
  (∀ (s : State) (l : Lane) (a : Nat), (s.lane l).memSt.nvOp = some (nvProgram, a) →
     Does s (.nvmcOpComplete l true)
       { parts := [.lcs, .memSt], regs := [R.nvmcStat], bytes := List.range' a 256 } fun L M =>
       M.bytesFrom a 256 = (List.range 64).flatMap (fun k => wordBytes (L.reg (R.nvmcBuf k))) ∧
       M.is R.nvmcStat_busy = false ∧ M.is R.nvmcStat_done = true ∧ M.memSt = { L.memSt with nvOp := none } ∧
       M.is R.nvmcStat_err = L.is R.nvmcStat_err ∧
       (if 0x802000 ≤ a then M.lcs.logDue = L.lcs.logDue ++ [(recordKind nvProgram a, L.get R.lcsLogSub_sub,
         L.reg R.lcsLogArg0, L.reg R.lcsLogArg1)] else M.lcs = L.lcs)) ∧
  (∀ (s : State) (l : Lane) (a : Nat), (s.lane l).memSt.nvOp = some (nvProgram, a) →
     ∃ M, exec (.nvmcOpComplete l false) s = .next { s.setLane l M with draws := s.draws + 2048 } ∧
       Kept { parts := [.lcs, .memSt], regs := [R.nvmcStat], bytes := List.range' a 256 } (s.lane l) M ∧
       M.bytesFrom a 256 = (freeWords s.draws 64).flatMap wordBytes ∧ M.is R.nvmcStat_err = true ∧
       M.is R.nvmcStat_busy = false ∧ M.is R.nvmcStat_done = true) ∧
  (∀ (s : State) (l : Lane) (a : Nat), (s.lane l).memSt.nvOp = some (nvErase, a) →
     Does s (.nvmcOpComplete l true)
       { parts := [.lcs, .memSt], regs := [R.nvmcStat], bytes := List.range' (a / 8192 * 8192) 8192 } fun L M =>
       (∀ i, i < 8192 → M.byte (a / 8192 * 8192 + i) = Config.erasedByte) ∧ M.is R.nvmcStat_busy = false ∧
       M.memSt = { L.memSt with nvOp := none }) ∧
  (∀ (s : State) (l : Lane) (a : Nat), (s.lane l).memSt.nvOp = some (nvBlank, a) → (s.lane l).is R.nvmcStat_err = false →
     Does s (.nvmcOpComplete l true) { parts := [.memSt], regs := [R.nvmcStat] } fun L M =>
       (M.is R.nvmcStat_err = false ↔ ∀ i, i < 8192 → L.byte (a / 8192 * 8192 + i) = Config.erasedByte) ∧
       M.is R.nvmcStat_busy = false ∧ M.is R.nvmcStat_done = true) ∧
  (∀ (s : State) (l : Lane) (q : Req), (s.lane l).judge q R.nvmcClr true 1#32 = none →
     Does s (.nvmcClrCnt l q) { regs := R.nvmcCnt :: (List.range 8).map R.nvmcSrCnt } fun L M =>
       M.reg R.nvmcCnt = 0 ∧ ∀ r, r < 8 → M.get (R.nvmcSrCnt_cor r) = 0 ∧
         M.get (R.nvmcSrCnt_used r) = L.get (R.nvmcSrCnt_used r)) ∧
  (∀ (s : State) (l : Lane) (q : Req), (s.lane l).judge q R.watCnt true 0x10000#32 = none → q.secure = true →
     (s.lane l).is R.watStat_locked = false →
     Does s (.watCntClr l q) { regs := [R.watCnt] } fun _ M => M.get R.watCnt_n = 0)

/-- Mailboxes and semaphores. A staged tag goes with its writer's next post; a post stores pointer, tag, sender and
both epochs over what was there, with a collision where the mailbox was full, and touches no other mailbox; a read
of the header captures the pointer for its reader; the receiver's read of the pointer consumes the message and any
other master's does not; the first reader of a free semaphore acquires it, a later one reads its owner, only the
owner releases it, and a secure write of SEMA_FREE frees any. Rests on R525, R526, R527, R529, R530, R531, R532. -/
def Obligations.Messaging : Prop :=
  (∀ (s : State) (l : Lane) (q : Req) (tag : BitVec 16), (s.lane l).judge q R.mboxStage true (tag.setWidth 32) = none →
     Does s (.mboxStageWrite l q tag) { parts := [.memSt] } fun L M =>
       M.memSt = { L.memSt with stage := L.memSt.stage.set q.m.id tag.toNat }) ∧
  (∀ (s : State) (l : Lane) (q : Req) (n : Fin 32) (ptr : Word), (s.lane l).judge q (R.mboxPost n) true ptr = none →
     q.m.isCore = true → (q.secure = true ∨ (s.lane l).is (R.mboxCfg_sec n) = false) →
     Does s (.mboxPost l q n ptr) { parts := [.memSt], regs := [R.mboxFull, R.mboxColl, R.mboxNew] } fun L M =>
       M.msgOf n = some { box := n, ptr := ptr, tag := L.memSt.stage.get q.m.id, sender := q.m.id,
                          rcvEpoch := L.epoch (L.get (R.mboxCfg_rcv n)), sndEpoch := L.epoch q.m.id,
                          serial := L.memSt.serial + 1 } ∧
       M.bitOf R.mboxFull_full n = true ∧ (L.bitOf R.mboxFull_full n = true → M.bitOf R.mboxColl_coll n = true) ∧
       (L.is (R.mboxCfg_irq_en n) = true → M.bitOf R.mboxNew_new n = true) ∧
       (∀ m, m < 32 → m ≠ n.val → M.msgOf m = L.msgOf m ∧ M.bitOf R.mboxFull_full m = L.bitOf R.mboxFull_full m)) ∧
  (∀ (s : State) (l : Lane) (q : Req) (n : Fin 32) (b : MboxMsg), (s.lane l).judge q (R.mboxMsg n) false 0#32 = none →
     (q.m.isCore = false ∨ q.secure = true ∨ (s.lane l).is (R.mboxCfg_sec n) = false) → (s.lane l).msgOf n = some b →
     Does s (.mboxMsgRead l q n) { parts := [.memSt, .bus] } fun L M =>
       Sparse.get 0 M.bus.reply q.m.id = L.mboxHeader n ∧ M.memSt.box = L.memSt.box ∧
       ({ master := q.m.id, box := n, ptr := b.ptr, serial := b.serial } : MboxCap) ∈ M.memSt.cap) ∧
  (∀ (s : State) (l : Lane) (q : Req) (n : Fin 32) (b : MboxMsg), (s.lane l).judge q (R.mboxPtr n) false 0#32 = none →
     (q.m.isCore = false ∨ q.secure = true ∨ (s.lane l).is (R.mboxCfg_sec n) = false) → (s.lane l).msgOf n = some b →
     (∀ c ∈ (s.lane l).memSt.cap, c.master ≠ q.m.id ∨ c.box ≠ n.val) →
     Does s (.mboxPtrRead l q n) { parts := [.memSt, .bus], regs := [R.mboxFull] } fun L M =>
       Sparse.get 0 M.bus.reply q.m.id = b.ptr ∧
       (q.m.id = L.get (R.mboxCfg_rcv n) → M.msgOf n = none ∧ M.bitOf R.mboxFull_full n = false) ∧
       (q.m.id ≠ L.get (R.mboxCfg_rcv n) → M.memSt.box = L.memSt.box ∧ M.reg R.mboxFull = L.reg R.mboxFull)) ∧
  (∀ (s : State) (l : Lane) (q : Req) (n : Fin 64), (s.lane l).judge q (R.sema n) false 0#32 = none →
     (q.m.isCore = false ∨ q.secure = true ∨ (s.lane l).semaSecure n = false) →
     Does s (.semaAcquire l q n) { parts := [.bus], regs := [R.sema n] } fun L M =>
       Sparse.get 0 M.bus.reply q.m.id = wordN (L.get (R.sema_owner n)) ∧
       M.get (R.sema_owner n) = if L.get (R.sema_owner n) = 0 then q.m.id else L.get (R.sema_owner n)) ∧
  (∀ (s : State) (l : Lane) (q : Req) (n : Fin 64), (s.lane l).judge q (R.sema n) true 0#32 = none →
     (s.lane l).get (R.sema_owner n) = q.m.id →
     Does s (.semaRelease l q n) { regs := [R.sema n] } fun _ M => M.get (R.sema_owner n) = 0) ∧
  (∀ (s : State) (l : Lane) (q : Req) (n : Fin 64), (s.lane l).judge q (R.sema n) true 0#32 = none →
     (s.lane l).get (R.sema_owner n) ≠ q.m.id →
     Does s (.semaRelease l q n) { regs := [R.semaStat] } fun _ M => M.is R.semaStat_bad_rel = true) ∧
  (∀ (s : State) (l : Lane) (q : Req) (idx : BitVec 6), (s.lane l).judge q R.semaFree true (idx.setWidth 32) = none →
     q.secure = true →
     Does s (.semaFree l q idx) { regs := [R.sema idx.toNat] } fun _ M => M.get (R.sema_owner idx.toNat) = 0)

/-- LCS commands: acceptance, refusal, and what ends with time. An accepted LCS operation starts with its role, the
outcome of its check and SEC_PW as they stand, a role-gated one restarts the idle time and MAKER_AUTH uses up the
challenge; one that breaks a condition is refused and an AUTH or PW_SET then zeroises SEC_PW; nothing starts while
one is in progress; sessions, challenges and lockouts end at their times; LANE_RESET resets the lane in an Installer
or Maker session in SERVICE, BOOT, SYNC or EXCLUDED; a write of LCS_LOG_SUB stages the next entry, and the entry due
is appended. Rests on R534, R538, R539, R540, R541, R542, R549. -/
def Obligations.LifeCycleCommands : Prop :=
  (∀ p ∈ [(Instr.challenge, opChallenge), (Instr.makerAuth, opMakerAuth), (Instr.close, opClose),
       (Instr.calOpen, opCalOpen), (Instr.calClose, opCalClose), (Instr.dbgOpen, opDbgOpen),
       (Instr.lcAdvance, opLcAdvance), (Instr.lcReenter, opLcReenter), (Instr.retire, opRetire),
       (Instr.logReset, opLogReset)], ∀ (s : State) (l : Lane) (q : Req),
     (s.lane l).judge q R.lcsCmd true (lcsWord p.2 0) = none → (s.lane l).is R.lcsStat_busy = false →
     (s.lane l).lockedOut (if p.2 = opMakerAuth then 3 else 0) = false → (s.lane l).lcsAccepts p.2 0 = true →
     Does s (p.1 l q) { parts := [.lcs], regs := [R.lcsStat] } fun L M =>
       M.is R.lcsStat_busy = true ∧
       M.lcs.op = some { op := p.2, role := 0, ok := if p.2 = opMakerAuth then L.makerOk else true, pw := L.secPw } ∧
       (opCalOpen ≤ p.2 → M.lcs.actAt = L.aon.now) ∧ (p.2 = opMakerAuth → M.lcs.chalAt = none) ∧
       (p.2 ≠ opMakerAuth → M.lcs.chalAt = L.lcs.chalAt)) ∧
  (∀ p ∈ [(Instr.challenge, opChallenge), (Instr.makerAuth, opMakerAuth), (Instr.close, opClose),
       (Instr.calOpen, opCalOpen), (Instr.calClose, opCalClose), (Instr.dbgOpen, opDbgOpen),
       (Instr.lcAdvance, opLcAdvance), (Instr.lcReenter, opLcReenter), (Instr.retire, opRetire),
       (Instr.logReset, opLogReset)], ∀ (s : State) (l : Lane) (q : Req),
     (s.lane l).judge q R.lcsCmd true (lcsWord p.2 0) = none →
     ((s.lane l).is R.lcsStat_busy = true ∨ (s.lane l).lcsAccepts p.2 0 = false) →
     Does s (p.1 l q) { regs := [R.lcsStat] } fun L M =>
       M.is R.lcsStat_refused = true ∧ M.is R.lcsStat_busy = L.is R.lcsStat_busy) ∧
  (∀ p ∈ [(Instr.auth, opAuth), (Instr.pwSet, opPwSet)], ∀ (s : State) (l : Lane) (q : Req) (role : BitVec 2),
     (s.lane l).judge q R.lcsCmd true (lcsWord p.2 role.toNat) = none → (s.lane l).is R.lcsStat_busy = false →
     (s.lane l).lockedOut (if p.2 = opAuth then role.toNat else 0) = false →
     (s.lane l).lcsAccepts p.2 role.toNat = true →
     Does s (p.1 l q role) { parts := [.lcs], regs := [R.lcsStat] } fun L M =>
       M.is R.lcsStat_busy = true ∧
       M.lcs.op = some { op := p.2, role := role.toNat, ok := if p.2 = opAuth then L.pwMatches role.toNat else true,
                         pw := L.secPw } ∧ M.lcs.chalAt = L.lcs.chalAt) ∧
  (∀ p ∈ [(Instr.auth, opAuth), (Instr.pwSet, opPwSet)], ∀ (s : State) (l : Lane) (q : Req) (role : BitVec 2),
     (s.lane l).judge q R.lcsCmd true (lcsWord p.2 role.toNat) = none → (s.lane l).is R.lcsStat_busy = false →
     ((s.lane l).lcsAccepts p.2 role.toNat = false ∨ p.2 = opAuth ∧ (s.lane l).lockedOut role.toNat = true) →
     Does s (p.1 l q role) { regs := R.lcsStat :: (List.range 8).map R.secPw } fun _ M =>
       M.is R.lcsStat_refused = true ∧ ∀ k, k < 8 → M.reg (R.secPw k) = 0) ∧
  (∀ (s : State) (l : Lane), (s.lane l).role ≠ 0 →
     (s.lane l).lcs.actAt + atLeast1 ((s.lane l).get R.lcsCfg_idle) * minuteTicks ≤ (s.lane l).aon.now →
     (s.lane l).get R.lcsState_cal_grant = 0 →
     Does s (.sessionIdleTimeout l) { parts := [.lcs], regs := [R.lcsState] } fun L M =>
       M.role = 0 ∧ M.is R.lcsState_dbg_open = false ∧ M.lcs = { L.lcs with checked := [] } ∧
       M.get R.lcsState_lc = L.get R.lcsState_lc) ∧
  (∀ (s : State) (l : Lane), (s.lane l).role ≠ 0 →
     (s.lane l).lcs.actAt + atLeast1 ((s.lane l).get R.lcsCfg_idle) * minuteTicks ≤ (s.lane l).aon.now →
     (s.lane l).get R.lcsState_cal_grant ≠ 0 → (s.lane l).get R.lcsLog_n < 4096 →
     Does s (.sessionIdleTimeout l)
       ((Foot.log ((s.lane l).get R.lcsLog_n)).add { parts := [.lcs], regs := [R.lcsState] }) fun L M =>
       M.role = 0 ∧ M.get R.lcsState_cal_grant = 0 ∧
       Appended L M L.role 0x0034 0 (wordN (satU 32 L.lcs.calWrites)) (crc32 ((L.sigsFrom 0 0x10000).flatMap wordBytes))) ∧
  (∀ (s : State) (l : Lane) (t : Nat), (s.lane l).lcs.chalAt = some t → t + minuteTicks ≤ (s.lane l).aon.now →
     Does s (.challengeExpire l) { parts := [.lcs] } fun L M => M.lcs = { L.lcs with chalAt := none }) ∧
  (∀ (s : State) (l : Lane) (role : Fin 4), (s.lane l).lockedOut role = true →
     (s.lane l).aon.lockEnd.get role ≤ (s.lane l).aon.now + 1 →
     Does s (.lockoutExpire l role) { parts := [.aon], regs := [R.lcsLockleft0, R.lcsLockleft1] } fun L M =>
       M.lockedOut role = false ∧ (role.val ≠ 0 → M.get (lockleftF role) = 0) ∧
       (∀ r, r ≠ role.val → M.lockedOut r = L.lockedOut r)) ∧
  (∀ (s : State) (l : Lane) (q : Req), (s.lane l).judge q R.lcsCmd true 13#32 = none →
     (s.lane l).is R.lcsStat_busy = false → 2 ≤ (s.lane l).role →
     ((s.lane l).belay = bsService ∨ (s.lane l).belay = bsBoot ∨ (s.lane l).belay = bsSync ∨ (s.lane l).belay = bsExcluded) →
     (s.lane l).get R.lcsState_cal_grant = 0 → (s.lane l).memSt.nvOp = none →
     ∃ M, exec (.lcsLaneReset l q) s = .next (s.setLane l M) ∧ Lost Foot.loss (s.lane l) M ∧ M.belay = bsBoot ∧
       M.role = 0 ∧ ((s.lane l).belay = bsService → M.aon.uncounted = true)) ∧
  (∀ (s : State) (l : Lane) (q : Req), (s.lane l).judge q R.lcsCmd true 13#32 = none → (s.lane l).role < 2 →
     Does s (.lcsLaneReset l q) { regs := [R.lcsStat] } fun _ M => M.is R.lcsStat_refused = true) ∧
  (∀ (s : State) (l : Lane) (q : Req) (sub : BitVec 12), (s.lane l).judge q R.lcsLogSub true (sub.setWidth 32) = none →
     Does s (.lcsLogSubWrite l q sub) { regs := [R.lcsLogSub] } fun _ M =>
       M.get R.lcsLogSub_sub = sub.toNat ∧ M.is R.lcsLogSub_staged = true) ∧
  (∀ (s : State) (l : Lane) (kind sub : Nat) (w1 w2 : Word) (rest : List (Nat × Nat × Word × Word)),
     (s.lane l).lcs.logDue = (kind, sub, w1, w2) :: rest → sub < 4096 → (s.lane l).get R.lcsLog_n < 4096 →
     Does s (.logAppend l)
       ((Foot.log ((s.lane l).get R.lcsLog_n)).add { parts := [.lcs], regs := [R.lcsLogSub] }) fun L M =>
       Appended L M L.role kind sub w1 w2 ∧ M.lcs.logDue = rest ∧ M.is R.lcsLogSub_staged = false)

/-- What LCS operations do when they end. A right AUTH clears the role's failures and opens its session; a wrong one
counts, and from the fifth failure locks the role with a LOCKOUT entry; both zeroise SEC_PW; CHALLENGE issues a
challenge over a fresh nonce; CAL_OPEN opens the grant of the role; LC_ADVANCE and RETIRE blow the new state, log it
and end the session, and RETIRE erases the keys; LOG_RESET takes the head as the base of a new log that begins with
its own entry. The nonce is a free value (assumption 2). Rests on R534, R535, R536, R537, R539, R542, R543, R544,
R547, R548, R550. -/
def Obligations.LifeCycleEffects : Prop :=
  (∀ (s : State) (l : Lane), (s.lane l).lcs.op = none → Stays s (.lcsOpComplete l)) ∧
  (∀ (s : State) (l : Lane) (o : LcsOp), (s.lane l).lcs.op = some o → o.op = opAuth → o.ok = true → 1 ≤ o.role → o.role < 4 →
     (s.lane l).get R.lcsState_cal_grant = 0 →
     ∃ M, exec (.lcsOpComplete l) s = .next { s.setLane l M with draws := s.draws + 8 } ∧
       Kept { parts := [.lcs], regs := [R.lcsStat, R.lcsState, R.lcsFail] ++ (List.range 8).map R.secPw } (s.lane l) M ∧
       M.role = o.role ∧ M.get (failF o.role) = 0 ∧ (∀ k, k < 8 → M.reg (R.secPw k) = 0) ∧
       M.is R.lcsStat_busy = false ∧ M.is R.lcsStat_done = true ∧ M.lcs.actAt = (s.lane l).aon.now) ∧
  (∀ (s : State) (l : Lane) (o : LcsOp), (s.lane l).lcs.op = some o → o.op = opAuth → o.ok = false → 1 ≤ o.role → o.role < 4 →
     (s.lane l).get (failF o.role) < 4 →
     ∃ M, exec (.lcsOpComplete l) s = .next { s.setLane l M with draws := s.draws + 8 } ∧
       Kept { parts := [.lcs], regs := [R.lcsStat, R.lcsFail] ++ (List.range 8).map R.secPw } (s.lane l) M ∧
       M.get (failF o.role) = (s.lane l).get (failF o.role) + 1 ∧ M.is R.lcsStat_auth_fail = true ∧
       (∀ k, k < 8 → M.reg (R.secPw k) = 0) ∧ M.is R.lcsStat_busy = false) ∧
  (∀ (s : State) (l : Lane) (o : LcsOp), (s.lane l).lcs.op = some o → o.op = opAuth → o.ok = false → 1 ≤ o.role → o.role < 4 →
     4 ≤ (s.lane l).get (failF o.role) → (s.lane l).get R.lcsLog_n < 4096 →
     ∃ M, exec (.lcsOpComplete l) s = .next { s.setLane l M with draws := s.draws + 8 } ∧
       Kept ((Foot.log ((s.lane l).get R.lcsLog_n)).add
         { parts := [.lcs, .aon]
           regs := [R.lcsFail, R.lcsLockleft0, R.lcsLockleft1] ++ (List.range 8).map R.secPw }) (s.lane l) M ∧
       M.lockedOut o.role = true ∧ M.get R.lcsLog_n = (s.lane l).get R.lcsLog_n + 1 ∧
       Appended (s.lane l) M 0 0x0003 o.role (wordN (M.get (failF o.role)))
         (wordN (lockMinutes (M.get (failF o.role))))) ∧
  (∀ (s : State) (l : Lane) (o : LcsOp), (s.lane l).lcs.op = some o → o.op = opChallenge →
     ∃ M, exec (.lcsOpComplete l) s = .next { s.setLane l M with draws := s.draws + 8 } ∧
       Kept { parts := [.lcs], regs := R.lcsStat :: (List.range 11).map R.secChal } (s.lane l) M ∧
       M.regBytes R.secChal 11 = M.challenge (freeWords s.draws 8) ∧ M.lcs.chalAt = some (s.lane l).aon.now ∧
       M.lcs.chalCount = (s.lane l).lcs.chalCount + 1 ∧ M.is R.lcsStat_done = true) ∧
  (∀ (s : State) (l : Lane) (o : LcsOp), (s.lane l).lcs.op = some o → o.op = opCalOpen →
     ∃ M, exec (.lcsOpComplete l) s = .next { s.setLane l M with draws := s.draws + 8 } ∧
       Kept { parts := [.lcs], regs := [R.lcsStat, R.lcsState] } (s.lane l) M ∧
       M.get R.lcsState_cal_grant = (if (s.lane l).role = 1 then 1 else 2) ∧ M.role = (s.lane l).role ∧
       M.is R.lcsStat_busy = false) ∧
  (∀ (s : State) (l : Lane) (o : LcsOp), (s.lane l).lcs.op = some o → o.op = opLcAdvance →
     (s.lane l).get R.lcsState_cal_grant = 0 → (s.lane l).get R.lcsLog_n < 4096 →
     ∃ M, exec (.lcsOpComplete l) s = .next { s.setLane l M with draws := s.draws + 8 } ∧
       Kept ((Foot.log ((s.lane l).get R.lcsLog_n)).add { parts := [.lcs, .nv], regs := [R.lcsStat, R.lcsState] })
         (s.lane l) M ∧
       M.nv = { (s.lane l).nv with lc := (s.lane l).get R.lcsState_lc + 1 } ∧ M.is R.lcsState_pend = true ∧
       M.get R.lcsState_lc = (s.lane l).get R.lcsState_lc ∧ M.role = 0 ∧
       Appended (s.lane l) M (s.lane l).role 0x0002 ((s.lane l).get R.lcsState_lc + 1)
         (wordN ((s.lane l).get R.lcsState_lc)) (wordN ((s.lane l).get R.lcsState_reentry))) ∧
  (∀ (s : State) (l : Lane) (o : LcsOp), (s.lane l).lcs.op = some o → o.op = opRetire →
     (s.lane l).get R.lcsState_cal_grant = 0 →
     ∃ M, exec (.lcsOpComplete l) s = .next { s.setLane l M with draws := s.draws + 8 } ∧
       M.nv.passwords = [] ∧ M.nv.imageKeys = [] ∧ M.nv.sleepKey = none ∧ M.nv.lc = 4 ∧ M.reg R.lcsFail = 0 ∧
       M.is R.lcsState_pend = true ∧ M.role = 0) ∧
  (∀ (s : State) (l : Lane) (o : LcsOp), (s.lane l).lcs.op = some o → o.op = opLogReset →
     ∃ M, exec (.lcsOpComplete l) s = .next { s.setLane l M with draws := s.draws + 8 } ∧
       Kept { parts := [.lcs, .nv], regs := [R.lcsLog, R.lcsStat, R.lcsState] ++ (List.range 12).map R.lcsHead
              bytes := List.range' 0x00804000 0xC000 } (s.lane l) M ∧
       M.nv = { (s.lane l).nv with logBase := (s.lane l).logHead } ∧ M.get R.lcsLog_n = 1 ∧
       (∀ i, 12 ≤ i → i < 0xC000 → M.byte (0x00804000 + i) = Config.erasedByte) ∧
       M.word (logAddr 0 + 4) = wordN ((s.lane l).get R.lcsLog_n))

/-- SEC operations and the boot ROM. A SEC operation starts where it is accepted and is refused otherwise; IMG_CHECK
shows the tests of a bank and remembers a pass; IMG_ACTIVATE and IMG_CONFIRM program their trailer lines, CONFIRM
raising the minimum security version; ATTEST signs a report; KEY_SET takes SEC_KEYIN and zeroises it, KEY_REVOKE
revokes a slot, both with their entry; the boot ROM starts an image only of a bank that passes every test, and flags
img_fail where neither does; a valid warm record starts its bank; the boot set queues its four tests. The report
word that the spec does not name is a free value (assumption 2). Rests on R551, R553, R554, R556, R557, R558, R559,
R563, R564, R567. -/
def Obligations.SecurityEngine : Prop :=
  (∀ (s : State) (l : Lane) (q : Req) (bank : Fin 2),
     ∀ p ∈ [(Instr.imgCheck, secImgCheck), (Instr.imgActivate, secImgActivate)],
     (s.lane l).judge q R.secCmd true (secWord p.2 bank 0) = none →
     Does s (p.1 l q bank) { parts := [.lcs], regs := [R.secStat] } fun L M =>
       if L.is R.secStat_busy = false ∧ L.secAccepts p.2 bank 0 = true then
         M.is R.secStat_busy = true ∧ M.lcs = { L.lcs with secOp := some (p.2, bank.val, 0), actAt := L.aon.now }
       else M.is R.secStat_refused = true ∧ M.lcs = L.lcs) ∧
  (∀ (s : State) (l : Lane) (q : Req),
     ∀ p ∈ [(Instr.imgConfirm, secImgConfirm), (Instr.attest, secAttest)],
     (s.lane l).judge q R.secCmd true (secWord p.2 0 0) = none →
     Does s (p.1 l q) { parts := [.lcs], regs := [R.secStat] } fun L M =>
       if L.is R.secStat_busy = false ∧ L.secAccepts p.2 0 0 = true then
         M.is R.secStat_busy = true ∧ M.lcs = { L.lcs with secOp := some (p.2, 0, 0) }
       else M.is R.secStat_refused = true ∧ M.lcs = L.lcs) ∧
  (∀ (s : State) (l : Lane) (q : Req) (slot : BitVec 4),
     ∀ p ∈ [(Instr.keySet, secKeySet), (Instr.keyRevoke, secKeyRevoke)],
     (s.lane l).judge q R.secCmd true (secWord p.2 0 slot.toNat) = none →
     Does s (p.1 l q slot) { parts := [.lcs], regs := [R.secStat] } fun L M =>
       if L.is R.secStat_busy = false ∧ L.secAccepts p.2 0 slot.toNat = true then
         M.is R.secStat_busy = true ∧ M.lcs = { L.lcs with secOp := some (p.2, 0, slot.toNat), actAt := L.aon.now }
       else M.is R.secStat_refused = true ∧ M.lcs = L.lcs) ∧
  (∀ (s : State) (l : Lane) (b slot : Nat), (s.lane l).lcs.secOp = some (secImgCheck, b, slot) →
     DoesFree s (.secOpComplete l) { parts := [.lcs], regs := [R.secImg, R.secImgVer, R.secStat] } fun L M =>
       M.is R.secImg_sig_ok = L.sigOk b ∧ M.is R.secImg_key_ok = L.keyOk b ∧ M.is R.secImg_sver_ok = L.sverOk b ∧
       M.is R.secImg_valid = true ∧ (b ∈ M.lcs.checked ↔ L.bankPasses b = true) ∧ M.lcs.secOp = none ∧
       M.is R.secStat_busy = false ∧ M.is R.secStat_done = true ∧ (L.bankPasses b = false → M.is R.secStat_fail = true)) ∧
  (∀ (s : State) (l : Lane) (b slot : Nat), (s.lane l).lcs.secOp = some (secImgActivate, b, slot) → b < 2 →
     (s.lane l).lineErased b lineActivate = true → (s.lane l).get R.lcsLog_n < 4096 →
     DoesFree s (.secOpComplete l)
       ((Foot.log ((s.lane l).get R.lcsLog_n)).add
         { parts := [.lcs, .aon], regs := [R.secStat], bytes := List.range' (lineAddr b lineActivate) 16 }) fun L M =>
       M.lineValid b lineActivate = true ∧ M.aon = { L.aon with warm := none } ∧
       M.word (lineAddr b lineActivate) = wordN (L.activation (L.get R.secStat_boot_bank) + 1) ∧
       Appended L M L.role 0x0010 b (wordN (L.hdr b 4)) (wordN (L.imgClass b + L.imgSver b * 2 ^ 16)) ∧
       M.is R.secStat_done = true) ∧
  (∀ (s : State) (l : Lane) (b bank slot : Nat), (s.lane l).lcs.secOp = some (secImgConfirm, bank, slot) →
     b = (s.lane l).get R.secStat_boot_bank →
     DoesFree s (.secOpComplete l)
       { parts := [.lcs, .aon, .nv], regs := [R.secStat, R.secRun]
         bytes := List.range' (lineAddr b lineConfirm) 16 } fun L M =>
       M.is R.secStat_trial = false ∧ M.nv = { L.nv with minSver := max L.nv.minSver (L.imgSver b) } ∧
       M.aon = { L.aon with warm := none } ∧ (L.lineErased b lineConfirm = true → M.lineValid b lineConfirm = true)) ∧
  (∀ (s : State) (l : Lane) (bank slot : Nat), (s.lane l).lcs.secOp = some (secAttest, bank, slot) →
     DoesFree s (.secOpComplete l) { parts := [.lcs], regs := R.secStat :: (List.range 128).map R.secRpt } fun L M =>
       (∃ w, M.regBytes R.secRpt 128 =
         L.report w ++ padBytes 96 (Config.identitySign L.id.idx (sha384 (L.report w)))) ∧
       M.is R.secStat_busy = false ∧ M.is R.secStat_done = true) ∧
  (∀ (s : State) (l : Lane) (bank : Nat), (s.lane l).lcs.secOp = some (secKeySet, bank, 8) → (s.lane l).get R.lcsLog_n < 4096 →
     DoesFree s (.secOpComplete l)
       ((Foot.log ((s.lane l).get R.lcsLog_n)).add
         { parts := [.lcs, .nv], regs := [R.secStat, R.secRevoke] ++ (List.range 12).map R.secKeyin }) fun L M =>
       M.nv = { L.nv with sleepKey := some (L.regBytes R.secKeyin 12) } ∧ M.is R.secRevoke_sleep = true ∧
       (∀ k, k < 12 → M.reg (R.secKeyin k) = 0) ∧ Appended L M L.role 0x0005 8 1 0) ∧
  (∀ (s : State) (l : Lane) (bank slot : Nat), (s.lane l).lcs.secOp = some (secKeyRevoke, bank, slot) → slot < 4 →
     (s.lane l).get R.lcsLog_n < 4096 →
     DoesFree s (.secOpComplete l)
       ((Foot.log ((s.lane l).get R.lcsLog_n)).add { parts := [.lcs], regs := [R.secStat, R.secRevoke] }) fun L M =>
       M.bitOf R.secRevoke_rev slot = true ∧ Appended L M L.role 0x0005 slot 2 0) ∧
  (∀ (s : State) (l : Lane), (s.lane l).romReady = true → (s.lane l).warmValid = false → (s.lane l).lcs.imageOk = false →
     Does s (.secureBoot l) Foot.rom fun L M =>
       M.lcs.booted = true ∧ (M.lcs.imageOk = true → L.bankPasses (M.get R.secStat_boot_bank) = true) ∧
       (L.bankPasses 0 = false → L.bankPasses 1 = false → M.is R.secStat_img_fail = true) ∧
       (∀ b, L.selectBank = (b, false) → L.bankPasses b = true → L.lcs.bootFail = false →
         M.lcs.imageOk = true ∧ M.get R.secStat_boot_bank = b ∧
         (M.core .tc0).pc = wordN (nvBase b + L.hdr b 0x10))) ∧
  (∀ (s : State) (l : Lane) (b : Nat), (s.lane l).romReady = true → (s.lane l).warmValid = true →
     (s.lane l).aon.warm = some (b, (s.lane l).imgDigest b) → (s.lane l).lcs.bootFail = false →
     Does s (.warmCheck l) Foot.rom fun L M =>
       M.lcs.imageOk = true ∧ M.get R.secStat_boot_bank = b ∧ M.is R.secStat_fallback = false ∧
       (M.core .tc0).pc = wordN (nvBase b + L.hdr b 0x10)) ∧
  (∀ (s : State) (l : Lane), (s.lane l).pwr.bootStep = 4 → (s.lane l).lcs.bootSet = false → (s.lane l).lcs.bootDone = false →
     Does s (.bootSelftest l) { parts := [.lcs], regs := [R.bistStat] } fun L M =>
       M.is R.bistStat_busy = true ∧ M.lcs = { L.lcs with bootSet := true, bistQueue := [7, 8, 9, 10] })

/-- Requested self-tests and the boot set. A request whose tests may all run starts the first of them and queues the
others, and any other request is refused whole; an abort ends the running test with its result and drops the queue;
a test that ends shows its result, at most the coverage of its kind, and its detail on a failure; a failed test of
the boot set keeps the lane in BOOT, and the boot set ends with MBIST, which leaves signals and volatile memories
zero. Rests on R565, R566, R567, R568, R569, R570, R604. -/
def Obligations.SelfTests : Prop :=
  (∀ (s : State) (l : Lane) (q : Req) (mask : BitVec 11) (t : Nat) (rest : List Nat),
     (s.lane l).judge q R.bistCmd true (mask.setWidth 32 ||| 0x10000#32) = none → (s.lane l).is R.bistStat_busy = false →
     (List.range 11).filter (fun k => mask.getLsbD k) = t :: rest → mask.getLsbD 1 = false →
     (∀ k, k < 11 → mask.getLsbD k = true → (s.lane l).bistMay k = true) →
     Does s (.bistRun l q mask) { parts := [.lcs], regs := [R.bistStat] } fun L M =>
       M.lcs = { L.lcs with bistRun := some t, bistQueue := rest } ∧ M.is R.bistStat_busy = true ∧
       M.get R.bistStat_test = t) ∧
  (∀ (s : State) (l : Lane) (q : Req) (mask : BitVec 11) (k : Nat),
     (s.lane l).judge q R.bistCmd true (mask.setWidth 32 ||| 0x10000#32) = none → k < 11 → mask.getLsbD k = true →
     ((s.lane l).is R.bistStat_busy = true ∨ (s.lane l).bistMay k = false) →
     Does s (.bistRun l q mask) { regs := [R.bistStat] } fun L M =>
       M.is R.bistStat_refused = true ∧ M.is R.bistStat_busy = L.is R.bistStat_busy) ∧
  (∀ (s : State) (l : Lane) (q : Req) (t : Nat), (s.lane l).judge q R.bistCmd true 0x20000#32 = none →
     (s.lane l).lcs.bistRun = some t →
     Does s (.bistAbort l q) { parts := [.lcs], regs := [R.bistRes t, R.bistStat] } fun L M =>
       M.is (R.bistRes_run t) = true ∧ M.is (R.bistRes_pass t) = false ∧ M.is (R.bistRes_abort t) = true ∧
       M.lcs = { L.lcs with bistRun := none, bistQueue := [] } ∧ M.is R.bistStat_aborted = true ∧
       M.is R.bistStat_busy = false) ∧
  (∀ (s : State) (l : Lane) (t : Fin 11) (pass : Bool) (cov : BitVec 10) (detail : BitVec 16) (dur : BitVec 19)
     (rows : List (Fin 8 × BitVec 12)), (s.lane l).lcs.bootSet = false → (s.lane l).lcs.bistRun = some t.val → t.val ≠ 10 →
     (s.lane l).lcs.bistQueue = [] →
     Does s (.bistTestComplete l t pass cov detail dur rows)
       { parts := [.lcs, .aon], regs := [R.bistRes t, R.bistDet t, R.bistStat] } fun L M =>
       M.is (R.bistRes_pass t) = pass ∧ M.is (R.bistRes_run t) = true ∧ M.is (R.bistRes_abort t) = false ∧
       M.get (R.bistRes_cov t) = min cov.toNat (bistCover t) ∧
       M.get (R.bistDet_detail t) = (if pass then 0 else detail.toNat) ∧
       M.is R.bistStat_busy = false ∧ M.is R.bistStat_done = true ∧ (pass = false → M.is R.bistStat_fail = true) ∧
       M.lcs = { L.lcs with bistRun := none } ∧ M.aon = { L.aon with setEnd := wordN (L.aon.now * 32768 / 200000000) }) ∧
  (∀ (s : State) (l : Lane) (t : Fin 11) (pass : Bool) (cov : BitVec 10) (detail : BitVec 16) (dur : BitVec 19)
     (rows : List (Fin 8 × BitVec 12)), (s.lane l).lcs.bootSet = true → t.val ∈ (s.lane l).lcs.bistQueue → t.val ≠ 10 →
     (∃ u ∈ (s.lane l).lcs.bistQueue, u ≠ t.val) →
     Does s (.bistTestComplete l t pass cov detail dur rows)
       { parts := [.lcs], regs := [R.bistRes t, R.bistDet t, R.bistStat] } fun L M =>
       M.is (R.bistRes_pass t) = pass ∧ t.val ∉ M.lcs.bistQueue ∧ M.lcs.bootSet = true ∧
       M.lcs.bootFail = (L.lcs.bootFail || !pass) ∧ M.get R.bistStat_test = t.val) ∧
  (∀ (s : State) (l : Lane) (cov : BitVec 10) (detail : BitVec 16) (dur : BitVec 19), (s.lane l).lcs.bootSet = true →
     (s.lane l).lcs.bistQueue = [10] →
     ∃ M, exec (.bistTestComplete l 10 true cov detail dur []) s = .next (s.setLane l M) ∧ (∀ i, M.sig i = 0) ∧
       (∀ a, M.byte a = if keptByte a then (s.lane l).byte a else memReset a) ∧ M.lcs.bootDone = true ∧
       M.lcs.bootSet = false ∧ M.lcs.bootFail = (s.lane l).lcs.bootFail ∧ M.is R.bistStat_busy = false)

/-- The Skim jobs: DLCAL, SHUNTZ, AVSMON, SCRUB, NVSCRUB, REPAIR and REFX. Each job ends its run with its status and
value and is no longer due: DLCAL builds a new tap table for a measurement within the limits, SHUNTZ reports the
three amplifier offsets of a port at rest, AVSMON stores its count; SCRUB and NVSCRUB count the corrected words and
go on to the next row or group, and at the end of a pass give its total; REPAIR moves the oldest queued row of its
region to a spare row; REFX posts its reading and judges it against the driving lanes' values, ending with status 2
where fewer than two are fresh. Rests on R233, R235, R259, R478, R514, R515, R516, R518, R571. -/
def Obligations.SkimJobs : Prop :=
  (∀ (s : State) (l : Lane) (j : Fin 16) (n16 : BitVec 12) (g : Nat), (s.lane l).skimNext j = true →
     (s.lane l).jobKind j = jkDlcal → g = (s.lane l).get (R.skimJobCfg_target j) % 4 →
     (s.lane l).n16Ok n16.toNat = true →
     ((n16.toNat : Int) - (s.lane l).get (R.edgeDlStat_n16 g)).natAbs ≤ (s.lane l).get R.edgeDlLim_step →
     Does s (.dlcal l j n16)
       { parts := [.skim, .edge], regs := [R.skimJobLast j, R.skimJobCnt j, R.skimStat] } fun _ M =>
       M.get (R.skimJobLast_status j) = 0 ∧ bits (M.get (R.skimJobLast_value j)) 11 0 = n16.toNat ∧
       (g, n16.toNat) ∈ M.edge.newTab ∧ (∀ x, (g, x) ∈ M.edge.newTab → x = n16.toNat) ∧
       j.val ∉ M.skim.due ∧ M.skim.running = none) ∧
  (∀ (s : State) (l : Lane) (j : Fin 16) (n16 : BitVec 12), (s.lane l).skimNext j = true →
     (s.lane l).jobKind j = jkDlcal → (s.lane l).n16Ok n16.toNat = false →
     Does s (.dlcal l j n16)
       { parts := [.skim], regs := [R.skimJobLast j, R.skimJobCnt j, R.skimStat, R.edgeStat] } fun _ M =>
       M.get (R.skimJobLast_status j) = 1 ∧ M.is R.edgeStat_dl_fail = true ∧ M.is R.skimStat_job_fail = true ∧
       j.val ∉ M.skim.due) ∧
  (∀ (s : State) (l : Lane) (j : Fin 16) (u v w : BitVec 8), (s.lane l).skimNext j = true →
     (s.lane l).jobKind j = jkShuntz →
     ((s.lane l).axis ((s.lane l).get (R.skimJobCfg_target j) % 4) = axOff ∨
       (s.lane l).axis ((s.lane l).get (R.skimJobCfg_target j) % 4) = axFree) →
     Does s (.shuntz l j u v w) { parts := [.skim], regs := [R.skimJobLast j, R.skimJobCnt j, R.skimStat] } fun L M =>
       M.get (R.skimJobLast_value j) = u.toNat + 256 * v.toNat + 65536 * w.toNat ∧
       M.get (R.skimJobLast_status j) =
         (if u.toInt.natAbs ≤ L.get R.brgShunt_zlim ∧ v.toInt.natAbs ≤ L.get R.brgShunt_zlim ∧
           w.toInt.natAbs ≤ L.get R.brgShunt_zlim then 0 else 1) ∧ j.val ∉ M.skim.due) ∧
  (∀ (s : State) (l : Lane) (j : Fin 16) (count : BitVec 24), (s.lane l).skimNext j = true →
     (s.lane l).jobKind j = jkAvsmon →
     Does s (.avsmon l j count) { parts := [.skim, .pwr], regs := [R.skimJobLast j, R.skimJobCnt j, R.skimStat] } fun L M =>
       let g := L.get (R.skimJobCfg_target j) % 8
       M.get (R.skimJobLast_value j) = count.toNat ∧
       M.get (R.skimJobLast_status j) = b2n (decide (L.avsMargin g count.toNat < (L.get R.pwrAvs_lo : Int))) ∧
       M.pwr = { L.pwr with avs := L.pwr.avs.set g count.toNat, avsAt := L.pwr.avsAt.set g (L.coarse + 1) } ∧
       j.val ∉ M.skim.due) ∧
  (∀ (s : State) (l : Lane) (j : Fin 16) (cor : BitVec 8) (bad : Bool) (r : Nat), (s.lane l).skimNext j = true →
     (s.lane l).jobKind j = jkScrub → r = (s.lane l).get (R.skimJobCfg_target j) → r < 8 →
     (s.lane l).memSt.scrubRow.get r + 1 < regionRows r →
     Does s (.scrub l j cor bad)
       { parts := [.memSt, .belaySt]
         regs := [R.skimStat, R.nvmcSrCnt r, R.nvmcSrStat, R.belayStat] } fun L M =>
       M.memSt.scrubRow.get r = L.memSt.scrubRow.get r + 1 ∧
       M.get (R.nvmcSrCnt_cor r) = satU 16 (L.get (R.nvmcSrCnt_cor r) + min cor.toNat 128) ∧
       M.memSt.scrubCor.get r = L.memSt.scrubCor.get r + min cor.toNat 128 ∧
       (bad = true → M.bitOf R.nvmcSrStat_ecc_u r = true ∧ (r ≤ 1 → M.isRaised 0x09 L.id = true)) ∧
       (atLeast1 (L.get R.nvmcSrLim_thr) ≤ min cor.toNat 128 → (r, L.memSt.scrubRow.get r) ∈ M.memSt.queue ∨
         M.bitOf R.nvmcSrStat_q_full r = true) ∧ M.skim.due = L.skim.due) ∧
  (∀ (s : State) (l : Lane) (j : Fin 16) (cor : BitVec 8) (r : Nat), (s.lane l).skimNext j = true →
     (s.lane l).jobKind j = jkScrub → r = (s.lane l).get (R.skimJobCfg_target j) → r < 8 →
     regionRows r ≤ (s.lane l).memSt.scrubRow.get r + 1 → r ∉ (s.lane l).memSt.scrubBad →
     Does s (.scrub l j cor false)
       { parts := [.memSt, .skim]
         regs := [R.skimStat, R.nvmcSrCnt r, R.nvmcSrStat, R.skimJobLast j, R.skimJobCnt j] } fun L M =>
       M.memSt.scrubRow.get r = 0 ∧ M.get (R.skimJobLast_status j) = 0 ∧
       M.get (R.skimJobLast_value j) = satU 24 (L.memSt.scrubCor.get r + min cor.toNat 128) ∧ j.val ∉ M.skim.due) ∧
  (∀ (s : State) (l : Lane) (j : Fin 16) (cor : BitVec 7) (line : BitVec 6) (t : Nat), (s.lane l).skimNext j = true →
     (s.lane l).jobKind j = jkNvscrub → t = (s.lane l).get (R.skimJobCfg_target j) → t < 3 →
     (s.lane l).nvBusyOn t = false → nvSize t ≤ ((s.lane l).memSt.nvPos.get t + 1) * 1024 →
     t ∉ (s.lane l).memSt.nvBad →
     Does s (.nvscrub l j cor line false)
       { parts := [.memSt, .skim]
         regs := [R.skimStat, R.nvmcCnt, R.nvmcStat, R.nvmcWeak, R.skimJobLast j, R.skimJobCnt j] } fun L M =>
       M.memSt.nvPos.get t = 0 ∧ M.get R.nvmcCnt_pass = satU 16 (L.get R.nvmcCnt_pass + 1) ∧
       M.get R.nvmcCnt_cor = satU 16 (L.get R.nvmcCnt_cor + min cor.toNat 64) ∧
       (cor ≠ 0 → M.is R.nvmcStat_weak = true) ∧
       M.get (R.skimJobLast_status j) = 0 ∧ j.val ∉ M.skim.due ∧
       M.get (R.skimJobLast_value j) = satU 24 (L.memSt.nvCor.get t + min cor.toNat 64)) ∧
  (∀ (s : State) (l : Lane) (j : Fin 16) (r : Nat) (p : Nat × Nat), (s.lane l).skimNext j = true →
     (s.lane l).jobKind j = jkRepair → r = (s.lane l).get (R.skimJobCfg_target j) → r < 8 →
     (s.lane l).memSt.queue.find? (fun x => x.1 == r) = some p → (s.lane l).get (R.nvmcSrCnt_used r) < regionSpares r →
     p.2 < 4096 →
     Does s (.repair l j false)
       { parts := [.memSt, .skim]
         regs := [R.skimStat, R.nvmcSrCnt r, R.nvmcSrLast, R.skimJobLast j, R.skimJobCnt j] } fun L M =>
       p ∈ M.memSt.remap ∧ p ∉ M.memSt.queue ∧ M.get (R.nvmcSrCnt_used r) = L.get (R.nvmcSrCnt_used r) + 1 ∧
       M.get R.nvmcSrLast_region = r ∧ M.get R.nvmcSrLast_row = p.2 ∧ M.get (R.skimJobLast_status j) = 0 ∧
       j.val ∉ M.skim.due) ∧
  (∀ (s : State) (l : Lane) (j : Fin 16) (r : Nat) (p : Nat × Nat) (bad : Bool), (s.lane l).skimNext j = true →
     (s.lane l).jobKind j = jkRepair → r = (s.lane l).get (R.skimJobCfg_target j) → r < 8 →
     (s.lane l).memSt.queue.find? (fun x => x.1 == r) = some p → regionSpares r ≤ (s.lane l).get (R.nvmcSrCnt_used r) →
     Does s (.repair l j bad)
       { parts := [.memSt, .skim], regs := [R.skimStat, R.nvmcSrStat, R.skimJobLast j, R.skimJobCnt j] } fun _ M =>
       p ∉ M.memSt.queue ∧ M.bitOf R.nvmcSrStat_spare_out r = true ∧ M.get (R.skimJobLast_status j) = 1 ∧
       M.is R.skimStat_job_fail = true) ∧
  (∀ (s : State) (l : Lane) (j : Fin 16) (uv : Word), (s.lane l).skimNext j = true → (s.lane l).jobKind j = jkRefx →
     (∀ y, y ≠ (s.lane l).id → driving ((s.lane l).view y) = false) →
     DoesFree s (.refx l j uv)
       { parts := [.skim, .lcs, .link .l0, .link .l1]
         regs := [R.skimJobLast j, R.skimJobCnt j, R.skimStat], sigs := [segBase (s.lane l).id + 0x70] } fun L M =>
       M.sig (segBase L.id + 0x70) = uv ∧ M.get (R.skimJobLast_status j) = 2 ∧
       M.lcs.refx.get L.id.idx = uv.toNat ∧ M.lcs.refxAt.get L.id.idx = L.pnum + 1 ∧ j.val ∉ M.skim.due) ∧
  (∀ (s : State) (l : Lane) (j : Fin 16) (uv : Word) (y : Lane), (s.lane l).skimNext j = true →
     (s.lane l).jobKind j = jkRefx → y ≠ (s.lane l).id → driving (s.lane l).belay = true →
     driving ((s.lane l).view y) = true →
     (s.lane l).lcs.refxAt.get y.idx ≠ 0 → (s.lane l).pnum + 1 ≤ (s.lane l).lcs.refxAt.get y.idx + 4096 →
     (∀ z, z ≠ (s.lane l).id → z ≠ y → driving ((s.lane l).view z) = false) →
     DoesFree s (.refx l j uv)
       { parts := [.skim, .lcs, .link .l0, .link .l1]
         regs := [R.skimJobLast j, R.skimJobCnt j, R.skimStat, R.bistStat], sigs := [segBase (s.lane l).id + 0x70] }
       fun L M =>
       M.sig (segBase L.id + 0x70) = uv ∧
       M.get (R.skimJobLast_status j) = (if ((uv.toNat : Int) - L.lcs.refx.get y.idx).natAbs ≤ 200 * L.get R.bistRefxLim_lim
         then 0 else 1) ∧
       (M.get (R.skimJobLast_status j) = 1 → M.is R.bistStat_refx_fail = true) ∧ j.val ∉ M.skim.due)

/-- Power-on reset, brown-out, lane reset and the end of a rejoin hold-off. A power-on reset leaves every register
but those read from fuses and eNVM at its reset value, keeps eNVM and fuses, and starts every unit of the lane anew,
split mode following SPLIT_x where the life cycle permits it; a brown-out does so and leaves nothing powered; a lane
reset, also at the end of a rejoin hold-off, is a loss of the lane die's state that leads to BOOT; exhausted
attempts lead to DEAD. Rests on R5, R273, R308, R348, R349, R355, R467, R469, R527, R529. -/
def Obligations.Resets : Prop :=
  (∀ (s : State) (l : Lane) (ball : Bool), (s.lane l).id = l → (s.lane l).memSt.nvOp = none →
     ∃ M, exec (.powerOnReset l ball) s = .next (s.setLane l M) ∧
       (∀ a, fusedReg a = true → a ≠ R.sysId → M.reg a = (s.lane l).reg a) ∧
       (∀ a, fusedReg a = false → a ∉ [R.cdeCfg, R.lcsState, R.lcsStat, R.lcsLockleft0, R.lcsLockleft1, R.triadStat] →
         M.reg a = R.regReset a) ∧
       M.get R.lcsState_lc = (s.lane l).nv.lc % 8 ∧ M.role = 0 ∧ M.get R.lcsState_cal_grant = 0 ∧
       M.get R.sysId_lane = l.idx ∧
       (∀ a, M.byte a = if a < 0x00810000 then (s.lane l).byte a else memReset a) ∧ (∀ i, M.sig i = 0) ∧
       M.nv = (s.lane l).nv ∧ (∀ p : Part, p ≠ .aon → p ≠ .nv → p.same (LaneState.fresh l) M) ∧
       M.is R.triadStat_split = (ball && (M.get R.lcsState_lc == 1 ||
         (M.get R.lcsState_lc == 2 && M.get R.sysId_variant == 2))) ∧
       M.get R.sysId_variant = (s.lane l).get R.sysId_variant ∧
       (ball = true → M.is R.triadStat_split_refused = !M.is R.triadStat_split)) ∧
  (∀ (s : State) (l : Lane), (s.lane l).id = l → (s.lane l).memSt.nvOp = none →
     ∃ M, exec (.brownOut l) s = .next (s.setLane l M) ∧
       (∀ a, M.byte a = if a < 0x00810000 then (s.lane l).byte a else memReset a) ∧ (∀ i, M.sig i = 0) ∧
       M.nv = (s.lane l).nv ∧
       (∀ p : Part, p ≠ .aon → p ≠ .nv → p ≠ .pwr → p ≠ .core .svc → p.same (LaneState.fresh l) M) ∧
       (M.core .svc).stopped = true ∧ M.supSel = 2 ∧ M.pwr.bootStep = 0 ∧ M.pwr.queue = [] ∧
       (∀ d, M.domainOn d = false) ∧
       (∀ a, fusedReg a = false →
         a ∉ [R.cdeCfg, R.lcsState, R.lcsStat, R.lcsLockleft0, R.lcsLockleft1, R.pwrSupStat, R.pwrState] →
         M.reg a = R.regReset a)) ∧
  (∀ (s : State) (l : Lane), (s.lane l).get R.lcsState_cal_grant = 0 → (s.lane l).memSt.nvOp = none →
     ∃ M, exec (.laneReset l) s = .next (s.setLane l M) ∧ Lost Foot.loss (s.lane l) M ∧ M.belay = bsBoot ∧ M.role = 0 ∧
       M.get R.mboxEpoch0_lo = satU 16 ((s.lane l).get R.mboxEpoch0_lo + 1) ∧
       M.is R.triadStat_split = (s.lane l).is R.triadStat_split ∧
       M.is R.triadStat_lockstep_broken = (s.lane l).is R.triadStat_lockstep_broken) ∧
  (∀ (s : State) (l : Lane), (s.lane l).belay = bsExcluded →
     (s.lane l).belaySt.exclAt + 200000 * atLeast1 ((s.lane l).get R.belayRej_hold) ≤ (s.lane l).coarse →
     (s.lane l).exhausted = true →
     Does s (.rejoinHoldoffExpire l) Foot.belay fun _ M => M.belay = bsDead ∧ M.get R.belayCause_own = 0x19) ∧
  (∀ (s : State) (l : Lane), (s.lane l).belay = bsExcluded →
     (s.lane l).belaySt.exclAt + 200000 * atLeast1 ((s.lane l).get R.belayRej_hold) ≤ (s.lane l).coarse →
     (s.lane l).exhausted = false → (s.lane l).get R.lcsState_cal_grant = 0 → (s.lane l).memSt.nvOp = none →
     ∃ M, exec (.rejoinHoldoffExpire l) s = .next (s.setLane l M) ∧ Lost Foot.loss (s.lane l) M ∧ M.belay = bsBoot)

/-- Register writes, locks and the Lath link. A write that the world table refuses changes nothing but the record of
the violation; a plain register takes what the access codes of its fields give; a write of an unassigned offset does
nothing; the key locks a block and another value does nothing; an access to BRG and TRIP runs over Lath one at a
time, returns its reply, and ends in a bus error and cause 0x0C at its third failure. Rests on R8, R9, R10, R19,
R507, R521, R523, R524. -/
def Obligations.BusAccess : Prop :=
  (∀ (s : State) (l : Lane) (q : Req) (a w : Word) (k : Nat), 0x40000000 ≤ a.toNat → a.toNat < 0x401C0000 →
     a.toNat % 4 = 0 → (s.lane l).judge q a.toNat true w = some k →
     Does s (.registerWrite l q a w) Foot.viol fun L M =>
       M.get R.watCnt_n = satU 16 (L.get R.watCnt_n + 1) ∧ M.is R.watStat_viol = true ∧
       (L.is R.watStat_viol = true → M.is R.watStat_ovf = true ∧ M.reg R.watViol = L.reg R.watViol ∧
         M.reg R.watVaddr = L.reg R.watVaddr) ∧
       (L.is R.watStat_viol = false → M.get R.watViol_master = q.m.id % 64 ∧ M.is R.watViol_world = q.secure ∧
         M.is R.watViol_write = true ∧ M.get R.watViol_kind = k % 16 ∧ M.reg R.watVaddr = a)) ∧
  (∀ (s : State) (l : Lane) (q : Req) (a w : Word), a.toNat % 4 = 0 → plainLock a.toNat = false →
     (a.toNat / 0x10000 = 0x4000 ∧ a.toNat ≠ R.sysTick ∨
      a.toNat / 0x10000 = 0x4001 ∧ a.toNat ≠ R.belayKick ∧ a.toNat ≠ R.belayCmd ∨
      a.toNat / 0x10000 = 0x4003 ∧ a.toNat ≠ R.triadDbg ∧ a.toNat ≠ R.triadCmd ∧ a.toNat ≠ R.triadStat ∨
      a.toNat / 0x10000 = 0x4010 ∨ a.toNat / 0x10000 = 0x4015 ∨ a.toNat / 0x10000 = 0x401A) →
     (s.lane l).judge q a.toNat true w = none →
     Does s (.registerWrite l q a w) { regs := [a.toNat] } fun L M =>
       M.reg a.toNat = (L.busWrite q.secure a.toNat w).reg a.toNat) ∧
  (∀ (s : State) (l : Lane) (q : Req) (a w : Word), 0x40000000 ≤ a.toNat → a.toNat < 0x401C0000 → a.toNat % 4 = 0 →
     R.findRow a.toNat = none → (s.lane l).judge q a.toNat true w = none →
     Stays s (.registerWrite l q a w)) ∧
  (∀ (s : State) (l : Lane) (q : Req) (a w : Word), plainLock a.toNat = true →
     (exec (.registerWrite l q a w) s = exec (.blockLock l q a w) s) ∧
     ((s.lane l).judge q a.toNat true w = none → bits w.toNat 15 0 = 0xC1A5 →
       Does s (.blockLock l q a w) { parts := [.locks] } fun _ M => M.locked a.toNat = true) ∧
     ((s.lane l).judge q a.toNat true w = none → bits w.toNat 15 0 ≠ 0xC1A5 → Stays s (.blockLock l q a w))) ∧
  (∀ (s : State) (l : Lane) (q : Req) (w : Word), (s.lane l).judge q R.watLock true w = none → bits w.toNat 15 0 = 0xC1A5 →
     q.secure = true →
     Does s (.blockLock l q (wordN R.watLock) w) { regs := [R.watStat] } fun _ M => M.is R.watStat_locked = true) ∧
  (∀ (s : State) (l : Lane) (q : Req) (write : Bool) (a w : Word), 0x400E0000 ≤ a.toNat → a.toNat < 0x40100000 →
     (s.lane l).judge q a.toNat write w = none →
     ((s.lane l).lath.pending = none → Does s (.lathRequest l q write a w) { parts := [.lath] } fun L M =>
       M.lath = { L.lath with pending := some (q.m.id + (if write then 64 else 0), write, a.toNat, w), fails := 0 }) ∧
     ((s.lane l).lath.pending ≠ none → Stays s (.lathRequest l q write a w))) ∧
  (∀ (s : State) (l : Lane) (q : Req) (write : Bool) (a w : Word) (k : Nat), 0x400E0000 ≤ a.toNat → a.toNat < 0x40100000 →
     (s.lane l).judge q a.toNat write w = some k →
     Does s (.lathRequest l q write a w) (Foot.viol.add { parts := [.bus] }) fun L M =>
       Sparse.get (0 : Word) M.bus.reply q.m.id = 0 ∧ M.bus.errors = L.bus.errors ∧
       M.get R.watCnt_n = satU 16 (L.get R.watCnt_n + 1)) ∧
  (∀ (s : State) (l : Lane) (i a : Nat) (w : Word), (s.lane l).lath.pending = some (i, false, a, w) → 0x400E0000 ≤ a →
     a < 0x40100000 →
     Does s (.lathFrameReceived l true) { parts := [.lath] } fun L M =>
       M.lath.pending = none ∧ M.lath.fails = 0 ∧ (masterOf (i % 64)).id ∈ M.lath.done ∧
       Sparse.get (0 : Word) M.lath.reply (masterOf (i % 64)).id = L.busRead true a) ∧
  (∀ (s : State) (l : Lane) (i a : Nat) (w : Word), (s.lane l).lath.pending = some (i, true, a, w) →
     a / 0x10000 = 0x400E → a ∉ [R.brgOvrEn, R.brgOvrGate, R.brgCmd, R.brgLock] →
     Does s (.lathFrameReceived l true) { parts := [.lath, .bridge], regs := [a] } fun L M =>
       M.lath.pending = none ∧ M.lath.fails = 0 ∧ (masterOf (i % 64)).id ∈ M.lath.done ∧
       M.reg a = (L.busWrite true a w).reg a) ∧
  (∀ (s : State) (l : Lane) (p : Nat × Bool × Nat × Word), (s.lane l).lath.pending = some p → (s.lane l).lath.fails < 2 →
     Does s (.lathFrameReceived l false) { parts := [.lath] } fun L M =>
       M.lath = { L.lath with fails := L.lath.fails + 1 }) ∧
  (∀ (s : State) (l : Lane) (p : Nat × Bool × Nat × Word), (s.lane l).lath.pending = some p → (s.lane l).lath.fails = 2 →
     Does s (.lathFrameReceived l false) { parts := [.lath, .belaySt], regs := [R.belayStat] } fun L M =>
       M.lath.pending = none ∧ (masterOf (p.1 % 64)).id ∈ M.lath.busErr ∧ M.isRaised 0x0C L.id = true)

/-- The servo-period and field-tick boundaries. Outside SYNC, a period boundary advances lane time to the multiple
of the servo period that comes next, shows the period number in AXP_PNUM and raises bit 30 of IPEND of the triad,
and keeps memory and the units it does not concern; a tick boundary advances lane time to the multiple of the field
tick, holds counter C and ends the sequences, within its footprint. Rests on R42, R43, R74, R100, R157, R236, R375. -/
def Obligations.Boundaries : Prop :=
  (∀ (s : State) (l : Lane), (s.lane l).pwr.bootStep = 4 → (s.lane l).belay ≠ bsSync →
     ∃ M, exec (.periodBoundary l) s = .next (s.setLane l M) ∧
       let L := s.lane l
       let t := L.boundaryAt L.tServo L.time.lastPeriod
       M.time.now = BitVec.ofNat 64 (64 * t) ∧ M.time.lastPeriod = some t ∧ M.time.slew = L.time.nextSlew ∧
       (∀ n, n < 4 → M.reg (R.axpPnum n) = wordN (M.pnum)) ∧
       (∀ c ∈ [Core.tc0, .tc1, .tc2], bit ((M.core c).crw crIpend).toNat 30 = true) ∧
       (∀ g, g < 4 → M.get (R.edgeDlStat_age g) = satU 16 (L.get (R.edgeDlStat_age g) + 1)) ∧
       (∀ p ∈ [Part.id, .locks, .lath, .bus, .gate, .adc, .qeo, .bridge, .cde, .pwr, .memSt, .nv, .triad, .core .svc], p.same L M) ∧
       (∀ n : Axis, Part.same L M (.fb n) ∧ Part.same L M (.fl n)) ∧ (∀ a, M.byte a = L.byte a)) ∧
  (∀ (s : State) (l : Lane), (s.lane l).pwr.bootStep = 4 →
     Does s (.fieldTickBoundary l) (Foot.trip.add
       { parts := [.edge, .time, .aon, .fb 0, .fb 1, .fb 2, .fb 3, .fl 0, .fl 1, .fl 2, .fl 3]
         regs := (List.range 4).map R.edgeDlStat ++ (List.range 16).map R.edgeEuLvl
         sigs := [axisSig 0 0x33, axisSig 1 0x33, axisSig 2 0x33, axisSig 3 0x33] }) fun L M =>
       let t := L.boundaryAt L.tTick L.time.lastTick
       M.time.now = BitVec.ofNat 64 (64 * t) ∧ M.time.lastTick = some t ∧
       (∀ n : Axis, M.fb n = { L.fb n with cSample := (L.fb n).c } ∧ (M.fl n).seq = none) ∧
       (∀ n : Axis, L.axis n ≠ axOff → participates L.belay = true →
         M.sig (axisSig n 0x33) = wordI (L.availTorque n)))

/-- A job that becomes due while it is still due or running is not queued twice. R54: when the period of an enabled
job elapses while the job is still due or running (both stand in Skim's list of due jobs), the list stays as it is
and SKIM_STAT.overrun is set, and the one run takes the job off the list. Rests on R54. -/
def Obligations.DueJobsRunOnce : Prop :=
  (∀ (s : State) (l : Lane) (j : Fin 16), (s.lane l).is R.skimCtl_en = true → (s.lane l).is (R.skimJobCfg_en j) = true →
     (s.lane l).jobKind j ≠ 0 → (s.lane l).get (R.skimJobCfg_period j) ≠ 0 →
     (s.lane l).get (R.skimJobCfg_period j) ≤ (s.lane l).skim.since.get j → j.val ∈ (s.lane l).skim.due →
     (s.lane l).domainOn ((s.lane l).jobDomain j) = true →
     Does s (.skimJobDue l j) { parts := [.skim], regs := [R.skimStat] } fun L M =>
       M.is R.skimStat_overrun = true ∧ M.skim = { L.skim with since := L.skim.since.set j 0 }) ∧
  (∀ (s : State) (l : Lane) (j : Fin 16) (code : BitVec 14), (s.lane l).skimNext j = true →
     (s.lane l).jobKind j = jkAdczero →
     ∃ M, exec (.adczero l j code) s = .next (s.setLane l M) ∧ j.val ∉ M.skim.due ∧
       ∀ k, k ≠ j.val → (k ∈ M.skim.due ↔ k ∈ (s.lane l).skim.due))

/-- A loop that becomes ready while it runs or waits is not queued twice. R192: a loop of an engine that runs, or is
ready and waits, when its trigger makes it ready again stays queued once: the trigger is skipped, LE_STAT.skip is
set and LE_CNT.skip is incremented, saturating. Rests on R192. -/
def Obligations.RetriggersSkipped : Prop :=
  (∀ (s : State) (l : Lane) (e : Fin 2) (k : Fin 16), (s.lane l).dTrig e k ≤ 1 → (s.lane l).loopMayRun e k = true →
     (((s.lane l).le e).ready.any (fun p => p.2 == k.val) = true ∨
       ∃ r, ((s.lane l).le e).run = some r ∧ r.loop = k.val) →
     Does s (.loopTrigger l e k) { regs := [R.leStat e, R.leCnt e] } fun L M =>
       M.is (R.leStat_skip e) = true ∧ M.get (R.leCnt_skip e) = satU 16 (L.get (R.leCnt_skip e) + 1)) ∧
  (∀ (L : LaneState) (e : Fin 2) (k t : Nat),
     (L.le e).ready.any (fun p => p.2 == k) = true ∨ (∃ r, (L.le e).run = some r ∧ r.loop = k) →
     Kept { regs := [R.leStat e, R.leCnt e] } L (L.leReady e k t) ∧ (L.leReady e k t).is (R.leStat_skip e) = true ∧
       (L.leReady e k t).get (R.leCnt_skip e) = satU 16 (L.get (R.leCnt_skip e) + 1))

/-- MOVI and then LUI build a constant of 32 bits. R362: on a core that is ready and whose predicate lets the word
take effect, MOVI sets the low 18 bits of gd and sign-extends them, LUI replaces bits 31 to 14 of gd and keeps bits
13 to 0, nothing else changes but the pc and the cycles; and LUI of the upper 18 bits after MOVI of the lower 18
bits gives any constant. Rests on R362. -/
def Obligations.ConstantsOf32Bits : Prop :=
  (CoreWrites .movi .movi 1 fun _ w => wordI (sext 18 (bits w 17 0))) ∧
  (CoreWrites .lui .lui 1 fun C w => wordN (bits (C.gr (fD w)).toNat 13 0 + 2 ^ 14 * bits w 17 0)) ∧
  (∀ v : Word, wordN (bits (wordI (sext 18 (bits v.toNat 17 0))).toNat 13 0 + 2 ^ 14 * bits v.toNat 31 14) = v)

end
end

