-- ==== Sys2Proof/Laws/Sparse.lean ====
section
/-! SUPPORT. Laws of sparse maps: what a key reads as after an update of any map, and that updates keep the canonical
form. -/

namespace Sys2Proof.Machine

variable {β : Type}

theorem Sparse.get_erase (d : β) (m : List (Nat × β)) (k j : Nat) :
    Sparse.get d (Sparse.erase k m) j = if j = k then d else Sparse.get d m j := by
  induction m with
  | nil => simp [Sparse.erase, Sparse.get]
  | cons p m ih =>
    obtain ⟨a, b⟩ := p
    by_cases h : a = k
    · subst h
      by_cases hj : j = a
      · simp_all [Sparse.erase]
      · simp [Sparse.erase, Sparse.get, ih, hj, Ne.symm hj]
    · by_cases hj : j = k
      · subst hj
        simp [Sparse.erase, Sparse.get, ih, h]
      · simp [Sparse.erase, Sparse.get, ih, h, hj]

theorem Sparse.get_insert (d : β) (m : List (Nat × β)) (k : Nat) (v : β) (j : Nat)
    (h : ∀ p ∈ m, p.1 ≠ k) :
    Sparse.get d (Sparse.insert k v m) j = if j = k then v else Sparse.get d m j := by
  induction m with
  | nil => simp [Sparse.insert, Sparse.get, eq_comm]
  | cons p m ih =>
    obtain ⟨a, b⟩ := p
    have ha : a ≠ k := h (a, b) (by simp)
    have ih := ih (fun p hp => h p (by simp [hp]))
    unfold Sparse.insert
    split
    · simp [Sparse.get, eq_comm]
    · by_cases hj : j = k
      · subst hj
        simp [Sparse.get, ha, ih]
      · simp [Sparse.get, ih, hj]

theorem Sparse.ne_of_mem_erase (m : List (Nat × β)) (k : Nat) : ∀ p ∈ Sparse.erase k m, p.1 ≠ k := by
  induction m with
  | nil => simp [Sparse.erase]
  | cons p m ih =>
    unfold Sparse.erase
    split
    · exact ih
    · intro q hq
      rcases List.mem_cons.1 hq with rfl | hq
      · assumption
      · exact ih q hq

/-- A key reads as what was last set there, every other key as before: for any list of entries. -/
theorem Sparse.get_set [DecidableEq β] (d : Nat → β) (m : List (Nat × β)) (k : Nat) (v : β) (j : Nat) :
    Sparse.get (d j) (Sparse.set d m k v) j = if j = k then v else Sparse.get (d j) m j := by
  unfold Sparse.set
  split
  · rw [Sparse.get_erase]
    split <;> simp_all
  · rw [Sparse.get_insert _ _ _ _ _ (Sparse.ne_of_mem_erase m k), Sparse.get_erase]
    split <;> simp_all

theorem Sparse.wfFrom_le [DecidableEq β] (d : Nat → β) {m : List (Nat × β)} {lo lo' : Nat} (hl : lo' ≤ lo)
    (h : Sparse.wfFrom d lo m = true) : Sparse.wfFrom d lo' m = true := by
  cases m with
  | nil => rfl
  | cons p m => simp_all [Sparse.wfFrom]; omega

theorem Sparse.wfFrom_erase [DecidableEq β] (d : Nat → β) {m : List (Nat × β)} {lo : Nat} (k : Nat)
    (h : Sparse.wfFrom d lo m = true) : Sparse.wfFrom d lo (Sparse.erase k m) = true := by
  induction m generalizing lo with
  | nil => rfl
  | cons p m ih =>
    simp only [Sparse.wfFrom, Bool.and_eq_true, decide_eq_true_eq] at h
    unfold Sparse.erase
    split
    · exact Sparse.wfFrom_le d (by omega) (ih h.2)
    · simp [Sparse.wfFrom, h.1.1, h.1.2, ih h.2]

theorem Sparse.wfFrom_insert [DecidableEq β] (d : Nat → β) {m : List (Nat × β)} {lo : Nat} {k : Nat} {v : β}
    (hk : lo ≤ k) (hv : v ≠ d k) (hm : ∀ p ∈ m, p.1 ≠ k)
    (h : Sparse.wfFrom d lo m = true) : Sparse.wfFrom d lo (Sparse.insert k v m) = true := by
  induction m generalizing lo with
  | nil => simp [Sparse.insert, Sparse.wfFrom, hk, hv]
  | cons p m ih =>
    obtain ⟨a, b⟩ := p
    have ha : a ≠ k := hm (a, b) (by simp)
    simp only [Sparse.wfFrom, Bool.and_eq_true, decide_eq_true_eq] at h
    unfold Sparse.insert
    split
    · simp [Sparse.wfFrom, hk, hv, h.1.2, h.2]; omega
    · simp [Sparse.wfFrom, h.1.1, h.1.2, ih (by omega) (fun p hp => hm p (by simp [hp])) h.2]

/-- An update keeps the canonical form. -/
theorem Sparse.wf_set [DecidableEq β] (d : Nat → β) {m : List (Nat × β)} (k : Nat) (v : β)
    (h : Sparse.wf d m = true) : Sparse.wf d (Sparse.set d m k v) = true := by
  unfold Sparse.set
  split
  · exact Sparse.wfFrom_erase d k h
  · exact Sparse.wfFrom_insert d (Nat.zero_le k) ‹_› (Sparse.ne_of_mem_erase m k) (Sparse.wfFrom_erase d k h)

end Sys2Proof.Machine
end

