-- ==== Sys2Proof/Laws/State.lean ====
section
/-! SUPPORT. One lemma per field per update of a lane's state, so that no proof unfolds a record update, and the lanes of a
module after an update of one. -/

namespace Sys2Proof.Machine

variable (L : LaneState)

@[simp] theorem LaneState.setReg_id (a : Nat) (w : Word) : (L.setReg a w).id = L.id := rfl
@[simp] theorem LaneState.setReg_sigs (a : Nat) (w : Word) : (L.setReg a w).sigs = L.sigs := rfl
@[simp] theorem LaneState.setReg_mem (a : Nat) (w : Word) : (L.setReg a w).mem = L.mem := rfl
@[simp] theorem LaneState.setReg_locks (a : Nat) (w : Word) : (L.setReg a w).locks = L.locks := rfl
@[simp] theorem LaneState.setReg_time (a : Nat) (w : Word) : (L.setReg a w).time = L.time := rfl
@[simp] theorem LaneState.setReg_link0 (a : Nat) (w : Word) : (L.setReg a w).link0 = L.link0 := rfl
@[simp] theorem LaneState.setReg_link1 (a : Nat) (w : Word) : (L.setReg a w).link1 = L.link1 := rfl
@[simp] theorem LaneState.setReg_skim (a : Nat) (w : Word) : (L.setReg a w).skim = L.skim := rfl
@[simp] theorem LaneState.setReg_lath (a : Nat) (w : Word) : (L.setReg a w).lath = L.lath := rfl
@[simp] theorem LaneState.setReg_bus (a : Nat) (w : Word) : (L.setReg a w).bus = L.bus := rfl
@[simp] theorem LaneState.setReg_belaySt (a : Nat) (w : Word) : (L.setReg a w).belaySt = L.belaySt := rfl
@[simp] theorem LaneState.setReg_gate (a : Nat) (w : Word) : (L.setReg a w).gate = L.gate := rfl
@[simp] theorem LaneState.setReg_aon (a : Nat) (w : Word) : (L.setReg a w).aon = L.aon := rfl
@[simp] theorem LaneState.setReg_adc (a : Nat) (w : Word) : (L.setReg a w).adc = L.adc := rfl
@[simp] theorem LaneState.setReg_qeo (a : Nat) (w : Word) : (L.setReg a w).qeo = L.qeo := rfl
@[simp] theorem LaneState.setReg_edge (a : Nat) (w : Word) : (L.setReg a w).edge = L.edge := rfl
@[simp] theorem LaneState.setReg_bridge (a : Nat) (w : Word) : (L.setReg a w).bridge = L.bridge := rfl
@[simp] theorem LaneState.setReg_cde (a : Nat) (w : Word) : (L.setReg a w).cde = L.cde := rfl
@[simp] theorem LaneState.setReg_tether (a : Nat) (w : Word) : (L.setReg a w).tether = L.tether := rfl
@[simp] theorem LaneState.setReg_siu (a : Nat) (w : Word) : (L.setReg a w).siu = L.siu := rfl
@[simp] theorem LaneState.setReg_pwr (a : Nat) (w : Word) : (L.setReg a w).pwr = L.pwr := rfl
@[simp] theorem LaneState.setReg_triadCore (a : Nat) (w : Word) : (L.setReg a w).triadCore = L.triadCore := rfl
@[simp] theorem LaneState.setReg_core1 (a : Nat) (w : Word) : (L.setReg a w).core1 = L.core1 := rfl
@[simp] theorem LaneState.setReg_core2 (a : Nat) (w : Word) : (L.setReg a w).core2 = L.core2 := rfl
@[simp] theorem LaneState.setReg_svc (a : Nat) (w : Word) : (L.setReg a w).svc = L.svc := rfl
@[simp] theorem LaneState.setReg_memSt (a : Nat) (w : Word) : (L.setReg a w).memSt = L.memSt := rfl
@[simp] theorem LaneState.setReg_lcs (a : Nat) (w : Word) : (L.setReg a w).lcs = L.lcs := rfl
@[simp] theorem LaneState.setReg_nv (a : Nat) (w : Word) : (L.setReg a w).nv = L.nv := rfl
@[simp] theorem LaneState.setReg_triad (a : Nat) (w : Word) : (L.setReg a w).triad = L.triad := rfl
@[simp] theorem LaneState.setReg_ax0 (a : Nat) (w : Word) : (L.setReg a w).ax0 = L.ax0 := rfl
@[simp] theorem LaneState.setReg_ax1 (a : Nat) (w : Word) : (L.setReg a w).ax1 = L.ax1 := rfl
@[simp] theorem LaneState.setReg_ax2 (a : Nat) (w : Word) : (L.setReg a w).ax2 = L.ax2 := rfl
@[simp] theorem LaneState.setReg_ax3 (a : Nat) (w : Word) : (L.setReg a w).ax3 = L.ax3 := rfl
@[simp] theorem LaneState.setReg_fb0 (a : Nat) (w : Word) : (L.setReg a w).fb0 = L.fb0 := rfl
@[simp] theorem LaneState.setReg_fb1 (a : Nat) (w : Word) : (L.setReg a w).fb1 = L.fb1 := rfl
@[simp] theorem LaneState.setReg_fb2 (a : Nat) (w : Word) : (L.setReg a w).fb2 = L.fb2 := rfl
@[simp] theorem LaneState.setReg_fb3 (a : Nat) (w : Word) : (L.setReg a w).fb3 = L.fb3 := rfl
@[simp] theorem LaneState.setReg_fld0 (a : Nat) (w : Word) : (L.setReg a w).fld0 = L.fld0 := rfl
@[simp] theorem LaneState.setReg_fld1 (a : Nat) (w : Word) : (L.setReg a w).fld1 = L.fld1 := rfl
@[simp] theorem LaneState.setReg_fld2 (a : Nat) (w : Word) : (L.setReg a w).fld2 = L.fld2 := rfl
@[simp] theorem LaneState.setReg_fld3 (a : Nat) (w : Word) : (L.setReg a w).fld3 = L.fld3 := rfl
@[simp] theorem LaneState.setReg_prof0 (a : Nat) (w : Word) : (L.setReg a w).prof0 = L.prof0 := rfl
@[simp] theorem LaneState.setReg_prof1 (a : Nat) (w : Word) : (L.setReg a w).prof1 = L.prof1 := rfl
@[simp] theorem LaneState.setReg_prof2 (a : Nat) (w : Word) : (L.setReg a w).prof2 = L.prof2 := rfl
@[simp] theorem LaneState.setReg_prof3 (a : Nat) (w : Word) : (L.setReg a w).prof3 = L.prof3 := rfl
@[simp] theorem LaneState.setReg_le0 (a : Nat) (w : Word) : (L.setReg a w).le0 = L.le0 := rfl
@[simp] theorem LaneState.setReg_le1 (a : Nat) (w : Word) : (L.setReg a w).le1 = L.le1 := rfl

@[simp] theorem LaneState.put_id (f : RF) (v : Nat) : (L.put f v).id = L.id := rfl
@[simp] theorem LaneState.put_sigs (f : RF) (v : Nat) : (L.put f v).sigs = L.sigs := rfl
@[simp] theorem LaneState.put_mem (f : RF) (v : Nat) : (L.put f v).mem = L.mem := rfl
@[simp] theorem LaneState.put_locks (f : RF) (v : Nat) : (L.put f v).locks = L.locks := rfl
@[simp] theorem LaneState.put_time (f : RF) (v : Nat) : (L.put f v).time = L.time := rfl
@[simp] theorem LaneState.put_link0 (f : RF) (v : Nat) : (L.put f v).link0 = L.link0 := rfl
@[simp] theorem LaneState.put_link1 (f : RF) (v : Nat) : (L.put f v).link1 = L.link1 := rfl
@[simp] theorem LaneState.put_skim (f : RF) (v : Nat) : (L.put f v).skim = L.skim := rfl
@[simp] theorem LaneState.put_lath (f : RF) (v : Nat) : (L.put f v).lath = L.lath := rfl
@[simp] theorem LaneState.put_bus (f : RF) (v : Nat) : (L.put f v).bus = L.bus := rfl
@[simp] theorem LaneState.put_belaySt (f : RF) (v : Nat) : (L.put f v).belaySt = L.belaySt := rfl
@[simp] theorem LaneState.put_gate (f : RF) (v : Nat) : (L.put f v).gate = L.gate := rfl
@[simp] theorem LaneState.put_aon (f : RF) (v : Nat) : (L.put f v).aon = L.aon := rfl
@[simp] theorem LaneState.put_adc (f : RF) (v : Nat) : (L.put f v).adc = L.adc := rfl
@[simp] theorem LaneState.put_qeo (f : RF) (v : Nat) : (L.put f v).qeo = L.qeo := rfl
@[simp] theorem LaneState.put_edge (f : RF) (v : Nat) : (L.put f v).edge = L.edge := rfl
@[simp] theorem LaneState.put_bridge (f : RF) (v : Nat) : (L.put f v).bridge = L.bridge := rfl
@[simp] theorem LaneState.put_cde (f : RF) (v : Nat) : (L.put f v).cde = L.cde := rfl
@[simp] theorem LaneState.put_tether (f : RF) (v : Nat) : (L.put f v).tether = L.tether := rfl
@[simp] theorem LaneState.put_siu (f : RF) (v : Nat) : (L.put f v).siu = L.siu := rfl
@[simp] theorem LaneState.put_pwr (f : RF) (v : Nat) : (L.put f v).pwr = L.pwr := rfl
@[simp] theorem LaneState.put_triadCore (f : RF) (v : Nat) : (L.put f v).triadCore = L.triadCore := rfl
@[simp] theorem LaneState.put_core1 (f : RF) (v : Nat) : (L.put f v).core1 = L.core1 := rfl
@[simp] theorem LaneState.put_core2 (f : RF) (v : Nat) : (L.put f v).core2 = L.core2 := rfl
@[simp] theorem LaneState.put_svc (f : RF) (v : Nat) : (L.put f v).svc = L.svc := rfl
@[simp] theorem LaneState.put_memSt (f : RF) (v : Nat) : (L.put f v).memSt = L.memSt := rfl
@[simp] theorem LaneState.put_lcs (f : RF) (v : Nat) : (L.put f v).lcs = L.lcs := rfl
@[simp] theorem LaneState.put_nv (f : RF) (v : Nat) : (L.put f v).nv = L.nv := rfl
@[simp] theorem LaneState.put_triad (f : RF) (v : Nat) : (L.put f v).triad = L.triad := rfl
@[simp] theorem LaneState.put_ax0 (f : RF) (v : Nat) : (L.put f v).ax0 = L.ax0 := rfl
@[simp] theorem LaneState.put_ax1 (f : RF) (v : Nat) : (L.put f v).ax1 = L.ax1 := rfl
@[simp] theorem LaneState.put_ax2 (f : RF) (v : Nat) : (L.put f v).ax2 = L.ax2 := rfl
@[simp] theorem LaneState.put_ax3 (f : RF) (v : Nat) : (L.put f v).ax3 = L.ax3 := rfl
@[simp] theorem LaneState.put_fb0 (f : RF) (v : Nat) : (L.put f v).fb0 = L.fb0 := rfl
@[simp] theorem LaneState.put_fb1 (f : RF) (v : Nat) : (L.put f v).fb1 = L.fb1 := rfl
@[simp] theorem LaneState.put_fb2 (f : RF) (v : Nat) : (L.put f v).fb2 = L.fb2 := rfl
@[simp] theorem LaneState.put_fb3 (f : RF) (v : Nat) : (L.put f v).fb3 = L.fb3 := rfl
@[simp] theorem LaneState.put_fld0 (f : RF) (v : Nat) : (L.put f v).fld0 = L.fld0 := rfl
@[simp] theorem LaneState.put_fld1 (f : RF) (v : Nat) : (L.put f v).fld1 = L.fld1 := rfl
@[simp] theorem LaneState.put_fld2 (f : RF) (v : Nat) : (L.put f v).fld2 = L.fld2 := rfl
@[simp] theorem LaneState.put_fld3 (f : RF) (v : Nat) : (L.put f v).fld3 = L.fld3 := rfl
@[simp] theorem LaneState.put_prof0 (f : RF) (v : Nat) : (L.put f v).prof0 = L.prof0 := rfl
@[simp] theorem LaneState.put_prof1 (f : RF) (v : Nat) : (L.put f v).prof1 = L.prof1 := rfl
@[simp] theorem LaneState.put_prof2 (f : RF) (v : Nat) : (L.put f v).prof2 = L.prof2 := rfl
@[simp] theorem LaneState.put_prof3 (f : RF) (v : Nat) : (L.put f v).prof3 = L.prof3 := rfl
@[simp] theorem LaneState.put_le0 (f : RF) (v : Nat) : (L.put f v).le0 = L.le0 := rfl
@[simp] theorem LaneState.put_le1 (f : RF) (v : Nat) : (L.put f v).le1 = L.le1 := rfl

@[simp] theorem LaneState.setSig_id (i : Nat) (w : Word) : (L.setSig i w).id = L.id := rfl
@[simp] theorem LaneState.setSig_regs (i : Nat) (w : Word) : (L.setSig i w).regs = L.regs := rfl
@[simp] theorem LaneState.setSig_mem (i : Nat) (w : Word) : (L.setSig i w).mem = L.mem := rfl
@[simp] theorem LaneState.setSig_locks (i : Nat) (w : Word) : (L.setSig i w).locks = L.locks := rfl
@[simp] theorem LaneState.setSig_time (i : Nat) (w : Word) : (L.setSig i w).time = L.time := rfl
@[simp] theorem LaneState.setSig_link0 (i : Nat) (w : Word) : (L.setSig i w).link0 = L.link0 := rfl
@[simp] theorem LaneState.setSig_link1 (i : Nat) (w : Word) : (L.setSig i w).link1 = L.link1 := rfl
@[simp] theorem LaneState.setSig_skim (i : Nat) (w : Word) : (L.setSig i w).skim = L.skim := rfl
@[simp] theorem LaneState.setSig_lath (i : Nat) (w : Word) : (L.setSig i w).lath = L.lath := rfl
@[simp] theorem LaneState.setSig_bus (i : Nat) (w : Word) : (L.setSig i w).bus = L.bus := rfl
@[simp] theorem LaneState.setSig_belaySt (i : Nat) (w : Word) : (L.setSig i w).belaySt = L.belaySt := rfl
@[simp] theorem LaneState.setSig_gate (i : Nat) (w : Word) : (L.setSig i w).gate = L.gate := rfl
@[simp] theorem LaneState.setSig_aon (i : Nat) (w : Word) : (L.setSig i w).aon = L.aon := rfl
@[simp] theorem LaneState.setSig_adc (i : Nat) (w : Word) : (L.setSig i w).adc = L.adc := rfl
@[simp] theorem LaneState.setSig_qeo (i : Nat) (w : Word) : (L.setSig i w).qeo = L.qeo := rfl
@[simp] theorem LaneState.setSig_edge (i : Nat) (w : Word) : (L.setSig i w).edge = L.edge := rfl
@[simp] theorem LaneState.setSig_bridge (i : Nat) (w : Word) : (L.setSig i w).bridge = L.bridge := rfl
@[simp] theorem LaneState.setSig_cde (i : Nat) (w : Word) : (L.setSig i w).cde = L.cde := rfl
@[simp] theorem LaneState.setSig_tether (i : Nat) (w : Word) : (L.setSig i w).tether = L.tether := rfl
@[simp] theorem LaneState.setSig_siu (i : Nat) (w : Word) : (L.setSig i w).siu = L.siu := rfl
@[simp] theorem LaneState.setSig_pwr (i : Nat) (w : Word) : (L.setSig i w).pwr = L.pwr := rfl
@[simp] theorem LaneState.setSig_triadCore (i : Nat) (w : Word) : (L.setSig i w).triadCore = L.triadCore := rfl
@[simp] theorem LaneState.setSig_core1 (i : Nat) (w : Word) : (L.setSig i w).core1 = L.core1 := rfl
@[simp] theorem LaneState.setSig_core2 (i : Nat) (w : Word) : (L.setSig i w).core2 = L.core2 := rfl
@[simp] theorem LaneState.setSig_svc (i : Nat) (w : Word) : (L.setSig i w).svc = L.svc := rfl
@[simp] theorem LaneState.setSig_memSt (i : Nat) (w : Word) : (L.setSig i w).memSt = L.memSt := rfl
@[simp] theorem LaneState.setSig_lcs (i : Nat) (w : Word) : (L.setSig i w).lcs = L.lcs := rfl
@[simp] theorem LaneState.setSig_nv (i : Nat) (w : Word) : (L.setSig i w).nv = L.nv := rfl
@[simp] theorem LaneState.setSig_triad (i : Nat) (w : Word) : (L.setSig i w).triad = L.triad := rfl
@[simp] theorem LaneState.setSig_ax0 (i : Nat) (w : Word) : (L.setSig i w).ax0 = L.ax0 := rfl
@[simp] theorem LaneState.setSig_ax1 (i : Nat) (w : Word) : (L.setSig i w).ax1 = L.ax1 := rfl
@[simp] theorem LaneState.setSig_ax2 (i : Nat) (w : Word) : (L.setSig i w).ax2 = L.ax2 := rfl
@[simp] theorem LaneState.setSig_ax3 (i : Nat) (w : Word) : (L.setSig i w).ax3 = L.ax3 := rfl
@[simp] theorem LaneState.setSig_fb0 (i : Nat) (w : Word) : (L.setSig i w).fb0 = L.fb0 := rfl
@[simp] theorem LaneState.setSig_fb1 (i : Nat) (w : Word) : (L.setSig i w).fb1 = L.fb1 := rfl
@[simp] theorem LaneState.setSig_fb2 (i : Nat) (w : Word) : (L.setSig i w).fb2 = L.fb2 := rfl
@[simp] theorem LaneState.setSig_fb3 (i : Nat) (w : Word) : (L.setSig i w).fb3 = L.fb3 := rfl
@[simp] theorem LaneState.setSig_fld0 (i : Nat) (w : Word) : (L.setSig i w).fld0 = L.fld0 := rfl
@[simp] theorem LaneState.setSig_fld1 (i : Nat) (w : Word) : (L.setSig i w).fld1 = L.fld1 := rfl
@[simp] theorem LaneState.setSig_fld2 (i : Nat) (w : Word) : (L.setSig i w).fld2 = L.fld2 := rfl
@[simp] theorem LaneState.setSig_fld3 (i : Nat) (w : Word) : (L.setSig i w).fld3 = L.fld3 := rfl
@[simp] theorem LaneState.setSig_prof0 (i : Nat) (w : Word) : (L.setSig i w).prof0 = L.prof0 := rfl
@[simp] theorem LaneState.setSig_prof1 (i : Nat) (w : Word) : (L.setSig i w).prof1 = L.prof1 := rfl
@[simp] theorem LaneState.setSig_prof2 (i : Nat) (w : Word) : (L.setSig i w).prof2 = L.prof2 := rfl
@[simp] theorem LaneState.setSig_prof3 (i : Nat) (w : Word) : (L.setSig i w).prof3 = L.prof3 := rfl
@[simp] theorem LaneState.setSig_le0 (i : Nat) (w : Word) : (L.setSig i w).le0 = L.le0 := rfl
@[simp] theorem LaneState.setSig_le1 (i : Nat) (w : Word) : (L.setSig i w).le1 = L.le1 := rfl

@[simp] theorem LaneState.setByte_id (a : Nat) (b : Byte) : (L.setByte a b).id = L.id := rfl
@[simp] theorem LaneState.setByte_regs (a : Nat) (b : Byte) : (L.setByte a b).regs = L.regs := rfl
@[simp] theorem LaneState.setByte_sigs (a : Nat) (b : Byte) : (L.setByte a b).sigs = L.sigs := rfl
@[simp] theorem LaneState.setByte_locks (a : Nat) (b : Byte) : (L.setByte a b).locks = L.locks := rfl
@[simp] theorem LaneState.setByte_time (a : Nat) (b : Byte) : (L.setByte a b).time = L.time := rfl
@[simp] theorem LaneState.setByte_link0 (a : Nat) (b : Byte) : (L.setByte a b).link0 = L.link0 := rfl
@[simp] theorem LaneState.setByte_link1 (a : Nat) (b : Byte) : (L.setByte a b).link1 = L.link1 := rfl
@[simp] theorem LaneState.setByte_skim (a : Nat) (b : Byte) : (L.setByte a b).skim = L.skim := rfl
@[simp] theorem LaneState.setByte_lath (a : Nat) (b : Byte) : (L.setByte a b).lath = L.lath := rfl
@[simp] theorem LaneState.setByte_bus (a : Nat) (b : Byte) : (L.setByte a b).bus = L.bus := rfl
@[simp] theorem LaneState.setByte_belaySt (a : Nat) (b : Byte) : (L.setByte a b).belaySt = L.belaySt := rfl
@[simp] theorem LaneState.setByte_gate (a : Nat) (b : Byte) : (L.setByte a b).gate = L.gate := rfl
@[simp] theorem LaneState.setByte_aon (a : Nat) (b : Byte) : (L.setByte a b).aon = L.aon := rfl
@[simp] theorem LaneState.setByte_adc (a : Nat) (b : Byte) : (L.setByte a b).adc = L.adc := rfl
@[simp] theorem LaneState.setByte_qeo (a : Nat) (b : Byte) : (L.setByte a b).qeo = L.qeo := rfl
@[simp] theorem LaneState.setByte_edge (a : Nat) (b : Byte) : (L.setByte a b).edge = L.edge := rfl
@[simp] theorem LaneState.setByte_bridge (a : Nat) (b : Byte) : (L.setByte a b).bridge = L.bridge := rfl
@[simp] theorem LaneState.setByte_cde (a : Nat) (b : Byte) : (L.setByte a b).cde = L.cde := rfl
@[simp] theorem LaneState.setByte_tether (a : Nat) (b : Byte) : (L.setByte a b).tether = L.tether := rfl
@[simp] theorem LaneState.setByte_siu (a : Nat) (b : Byte) : (L.setByte a b).siu = L.siu := rfl
@[simp] theorem LaneState.setByte_pwr (a : Nat) (b : Byte) : (L.setByte a b).pwr = L.pwr := rfl
@[simp] theorem LaneState.setByte_triadCore (a : Nat) (b : Byte) : (L.setByte a b).triadCore = L.triadCore := rfl
@[simp] theorem LaneState.setByte_core1 (a : Nat) (b : Byte) : (L.setByte a b).core1 = L.core1 := rfl
@[simp] theorem LaneState.setByte_core2 (a : Nat) (b : Byte) : (L.setByte a b).core2 = L.core2 := rfl
@[simp] theorem LaneState.setByte_svc (a : Nat) (b : Byte) : (L.setByte a b).svc = L.svc := rfl
@[simp] theorem LaneState.setByte_memSt (a : Nat) (b : Byte) : (L.setByte a b).memSt = L.memSt := rfl
@[simp] theorem LaneState.setByte_lcs (a : Nat) (b : Byte) : (L.setByte a b).lcs = L.lcs := rfl
@[simp] theorem LaneState.setByte_nv (a : Nat) (b : Byte) : (L.setByte a b).nv = L.nv := rfl
@[simp] theorem LaneState.setByte_triad (a : Nat) (b : Byte) : (L.setByte a b).triad = L.triad := rfl
@[simp] theorem LaneState.setByte_ax0 (a : Nat) (b : Byte) : (L.setByte a b).ax0 = L.ax0 := rfl
@[simp] theorem LaneState.setByte_ax1 (a : Nat) (b : Byte) : (L.setByte a b).ax1 = L.ax1 := rfl
@[simp] theorem LaneState.setByte_ax2 (a : Nat) (b : Byte) : (L.setByte a b).ax2 = L.ax2 := rfl
@[simp] theorem LaneState.setByte_ax3 (a : Nat) (b : Byte) : (L.setByte a b).ax3 = L.ax3 := rfl
@[simp] theorem LaneState.setByte_fb0 (a : Nat) (b : Byte) : (L.setByte a b).fb0 = L.fb0 := rfl
@[simp] theorem LaneState.setByte_fb1 (a : Nat) (b : Byte) : (L.setByte a b).fb1 = L.fb1 := rfl
@[simp] theorem LaneState.setByte_fb2 (a : Nat) (b : Byte) : (L.setByte a b).fb2 = L.fb2 := rfl
@[simp] theorem LaneState.setByte_fb3 (a : Nat) (b : Byte) : (L.setByte a b).fb3 = L.fb3 := rfl
@[simp] theorem LaneState.setByte_fld0 (a : Nat) (b : Byte) : (L.setByte a b).fld0 = L.fld0 := rfl
@[simp] theorem LaneState.setByte_fld1 (a : Nat) (b : Byte) : (L.setByte a b).fld1 = L.fld1 := rfl
@[simp] theorem LaneState.setByte_fld2 (a : Nat) (b : Byte) : (L.setByte a b).fld2 = L.fld2 := rfl
@[simp] theorem LaneState.setByte_fld3 (a : Nat) (b : Byte) : (L.setByte a b).fld3 = L.fld3 := rfl
@[simp] theorem LaneState.setByte_prof0 (a : Nat) (b : Byte) : (L.setByte a b).prof0 = L.prof0 := rfl
@[simp] theorem LaneState.setByte_prof1 (a : Nat) (b : Byte) : (L.setByte a b).prof1 = L.prof1 := rfl
@[simp] theorem LaneState.setByte_prof2 (a : Nat) (b : Byte) : (L.setByte a b).prof2 = L.prof2 := rfl
@[simp] theorem LaneState.setByte_prof3 (a : Nat) (b : Byte) : (L.setByte a b).prof3 = L.prof3 := rfl
@[simp] theorem LaneState.setByte_le0 (a : Nat) (b : Byte) : (L.setByte a b).le0 = L.le0 := rfl
@[simp] theorem LaneState.setByte_le1 (a : Nat) (b : Byte) : (L.setByte a b).le1 = L.le1 := rfl

/-! ## Lanes of a module -/

variable (s : State)

@[simp] theorem State.lane_setLane (l m : Lane) (M : LaneState) :
    (s.setLane l M).lane m = if m = l then M else s.lane m := by cases l <;> cases m <;> rfl

@[simp] theorem State.setLane_pending (l : Lane) (M : LaneState) : (s.setLane l M).pending = s.pending := by
  cases l <;> rfl

@[simp] theorem State.setLane_draws (l : Lane) (M : LaneState) : (s.setLane l M).draws = s.draws := by
  cases l <;> rfl

@[simp] theorem State.setLane_rope (l : Lane) (M : LaneState) : (s.setLane l M).rope = s.rope := by
  cases l <;> rfl

@[simp] theorem State.flight_setLane (l : Lane) (M : LaneState) (x y : Lane) :
    (s.setLane l M).flight x y = s.flight x y := by cases l <;> rfl

/-- What is in flight after the wire from `x` to `y` has been replaced; no wire leads from a lane to itself. -/
theorem State.flight_setFlight (x y u v : Lane) (ms : List RopeMsg) :
    (s.setFlight x y ms).flight u v = if u = x ∧ v = y ∧ x ≠ y then ms else s.flight u v := by
  cases x <;> cases y <;> cases u <;> cases v <;> simp [State.setFlight, State.flight]

@[simp] theorem State.lane_setFlight (x y l : Lane) (ms : List RopeMsg) : (s.setFlight x y ms).lane l = s.lane l := by
  cases x <;> cases y <;> rfl

/-- A lane put back as it was leaves the state as it was. -/
@[simp] theorem State.setLane_lane (l : Lane) : s.setLane l (s.lane l) = s := by cases l <;> rfl

/-- Nothing is in flight from a lane to itself. -/
@[simp] theorem State.flight_self (x : Lane) : s.flight x x = [] := by cases x <;> rfl

end Sys2Proof.Machine
end

