-- ==== Sys2Proof/Laws/Fields.lean ====
section
/-! SUPPORT. What registers, fields, signals and bytes read as after a write. -/

namespace Sys2Proof.Machine

variable (L : LaneState)

/-! ## Numbers -/

theorem bits_lt (v hi lo : Nat) : bits v hi lo < 2 ^ (hi + 1 - lo) := Nat.mod_lt _ (by positivity)

/-- A number is its bits above a field, the field, and its bits below. -/
theorem bits_split (v hi lo : Nat) (h : lo ≤ hi) :
    v = v / 2 ^ (hi + 1) * 2 ^ (hi + 1) + bits v hi lo * 2 ^ lo + v % 2 ^ lo := by
  have e : 2 ^ (hi + 1) = 2 ^ lo * 2 ^ (hi + 1 - lo) := by rw [← pow_add]; congr 1; omega
  have h1 := Nat.div_add_mod v (2 ^ lo)
  have h2 := Nat.div_add_mod (v / 2 ^ lo) (2 ^ (hi + 1 - lo))
  rw [Nat.div_div_eq_div_mul, ← e] at h2
  unfold bits
  generalize v / 2 ^ lo % 2 ^ (hi + 1 - lo) = r at h2 ⊢
  generalize v / 2 ^ (hi + 1) = q at h2 ⊢
  rw [e, ← h1, ← h2]
  simp only [Nat.mul_add_mod, Nat.mod_mod]
  ring

/-- A number with a field replaced. -/
theorem setBits_eq (v hi lo x : Nat) (h : lo ≤ hi) :
    setBits v hi lo x = v / 2 ^ (hi + 1) * 2 ^ (hi + 1) + x % 2 ^ (hi + 1 - lo) * 2 ^ lo + v % 2 ^ lo := by
  have := bits_split v hi lo h
  unfold setBits
  omega

/-- A replaced field reads as what was put there. -/
theorem bits_setBits_same (v hi lo x : Nat) (h : lo ≤ hi) :
    bits (setBits v hi lo x) hi lo = x % 2 ^ (hi + 1 - lo) := by
  have e : 2 ^ (hi + 1) = 2 ^ (hi + 1 - lo) * 2 ^ lo := by rw [← pow_add]; congr 1; omega
  rw [setBits_eq v hi lo x h, bits, e, ← mul_assoc, ← add_mul, mul_comm _ (2 ^ lo), Nat.mul_add_div (by positivity),
    Nat.div_eq_of_lt (Nat.mod_lt _ (by positivity)), add_zero, mul_comm _ (2 ^ _), Nat.mul_add_mod, Nat.mod_mod]

/-- A field below a replaced one keeps its bits. -/
theorem bits_setBits_below (v hi lo x h2 l2 : Nat) (h : lo ≤ hi) (hb : h2 < lo) :
    bits (setBits v hi lo x) h2 l2 = bits v h2 l2 := by
  by_cases hl : l2 ≤ h2
  · rw [setBits_eq v hi lo x h]
    have e1 : 2 ^ (hi + 1) = 2 ^ (hi + 1 - lo) * 2 ^ lo := by rw [← pow_add]; congr 1; omega
    have e2 : 2 ^ lo = 2 ^ l2 * 2 ^ (h2 + 1 - l2) * 2 ^ (lo - (h2 + 1)) := by
      rw [← pow_add, ← pow_add]; congr 1; omega
    have key : ∀ k r : Nat, bits (k * 2 ^ lo + r) h2 l2 = bits r h2 l2 := by
      intro k r
      unfold bits
      have : k * 2 ^ lo + r = 2 ^ l2 * (2 ^ (h2 + 1 - l2) * (2 ^ (lo - (h2 + 1)) * k)) + r := by rw [e2]; ring
      rw [this, Nat.mul_add_div (by positivity), Nat.mul_add_mod]
    rw [e1, ← mul_assoc, ← add_mul, key]
    have h3 := key (v / 2 ^ lo) (v % 2 ^ lo)
    rw [mul_comm, Nat.div_add_mod] at h3
    exact h3.symm
  · have : h2 + 1 - l2 = 0 := by omega
    simp [bits, this, Nat.mod_one]

/-- A field above a replaced one keeps its bits. -/
theorem bits_setBits_above (v hi lo x h2 l2 : Nat) (h : lo ≤ hi) (hb : hi < l2) :
    bits (setBits v hi lo x) h2 l2 = bits v h2 l2 := by
  have e : 2 ^ l2 = 2 ^ (hi + 1) * 2 ^ (l2 - (hi + 1)) := by rw [← pow_add]; congr 1; omega
  have e2 : 2 ^ (hi + 1) = 2 ^ (hi + 1 - lo) * 2 ^ lo := by rw [← pow_add]; congr 1; omega
  have hx : x % 2 ^ (hi + 1 - lo) < 2 ^ (hi + 1 - lo) := Nat.mod_lt _ (by positivity)
  have hr : v % 2 ^ lo < 2 ^ lo := Nat.mod_lt _ (by positivity)
  have hlt : x % 2 ^ (hi + 1 - lo) * 2 ^ lo + v % 2 ^ lo < 2 ^ (hi + 1) := by
    rw [e2]
    nlinarith [Nat.mul_le_mul_right (2 ^ lo) (Nat.succ_le_of_lt hx)]
  unfold bits
  rw [setBits_eq v hi lo x h, e, ← Nat.div_div_eq_div_mul, ← Nat.div_div_eq_div_mul, add_assoc, mul_comm _ (2 ^ (hi + 1)),
    Nat.mul_add_div (by positivity), Nat.div_eq_of_lt hlt, add_zero]

/-- A word with a field replaced stays within 32 bits. -/
theorem setBits_lt (v hi lo x : Nat) (h : lo ≤ hi) (hh : hi ≤ 31) (hv : v < 2 ^ 32) : setBits v hi lo x < 2 ^ 32 := by
  rw [setBits_eq v hi lo x h]
  have e2 : 2 ^ (hi + 1) = 2 ^ (hi + 1 - lo) * 2 ^ lo := by rw [← pow_add]; congr 1; omega
  have e3 : 2 ^ 32 = 2 ^ (31 - hi) * 2 ^ (hi + 1) := by rw [← pow_add]; congr 1; omega
  have hx : x % 2 ^ (hi + 1 - lo) < 2 ^ (hi + 1 - lo) := Nat.mod_lt _ (by positivity)
  have hr : v % 2 ^ lo < 2 ^ lo := Nat.mod_lt _ (by positivity)
  have hlt : x % 2 ^ (hi + 1 - lo) * 2 ^ lo + v % 2 ^ lo < 2 ^ (hi + 1) := by
    rw [e2]
    nlinarith [Nat.mul_le_mul_right (2 ^ lo) (Nat.succ_le_of_lt hx)]
  have hq : v / 2 ^ (hi + 1) < 2 ^ (31 - hi) := by
    rw [Nat.div_lt_iff_lt_mul (by positivity), ← e3]; exact hv
  rw [e3, add_assoc]
  nlinarith [Nat.mul_le_mul_right (2 ^ (hi + 1)) (Nat.succ_le_of_lt hq)]

/-! ## Registers and fields -/

/-- Updates of other parts leave the registers. -/
@[simp] theorem LaneState.reg_setReg (a j : Nat) (w : Word) :
    (L.setReg a w).reg j = if j = a then w else L.reg j := Sparse.get_set R.regReset L.regs a w j

@[simp] theorem LaneState.reg_put (f : RF) (v j : Nat) :
    (L.put f v).reg j = if j = f.addr then wordN (setBits (L.reg f.addr).toNat f.hi f.lo v) else L.reg j :=
  L.reg_setReg f.addr j _

@[simp] theorem LaneState.reg_setSig (i j : Nat) (w : Word) : (L.setSig i w).reg j = L.reg j := rfl
@[simp] theorem LaneState.reg_setByte (a j : Nat) (b : Byte) : (L.setByte a b).reg j = L.reg j := rfl
@[simp] theorem LaneState.get_setSig (f : RF) (i : Nat) (w : Word) : (L.setSig i w).get f = L.get f := rfl
@[simp] theorem LaneState.get_setByte (f : RF) (a : Nat) (b : Byte) : (L.setByte a b).get f = L.get f := rfl

/-- A field is within its width. -/
theorem LaneState.get_lt (f : RF) : L.get f < 2 ^ (f.hi + 1 - f.lo) := bits_lt _ _ _

/-- A field reads as what was written there. -/
theorem LaneState.get_put_same (f : RF) (v : Nat) (h : f.lo ≤ f.hi) (hh : f.hi ≤ 31) :
    (L.put f v).get f = v % 2 ^ (f.hi + 1 - f.lo) := by
  simp only [LaneState.get, LaneState.reg_put, if_true, wordN, BitVec.toNat_ofNat]
  rw [Nat.mod_eq_of_lt (setBits_lt _ _ _ _ h hh (L.reg f.addr).isLt), bits_setBits_same _ _ _ _ h]

/-- A write to another register leaves a field. -/
theorem LaneState.get_put_ne (f g : RF) (v : Nat) (h : g.addr ≠ f.addr) : (L.put f v).get g = L.get g := by
  simp [LaneState.get, h]

/-- A write to a field of the same register leaves the fields above and below. -/
theorem LaneState.get_put_disj (f g : RF) (v : Nat) (ha : g.addr = f.addr) (h : f.lo ≤ f.hi) (hh : f.hi ≤ 31)
    (hd : f.hi < g.lo ∨ g.hi < f.lo) : (L.put f v).get g = L.get g := by
  simp only [LaneState.get, LaneState.reg_put, ha, if_true, wordN, BitVec.toNat_ofNat]
  rw [Nat.mod_eq_of_lt (setBits_lt _ _ _ _ h hh (L.reg f.addr).isLt)]
  rcases hd with hd | hd
  · exact bits_setBits_above _ _ _ _ _ _ h hd
  · exact bits_setBits_below _ _ _ _ _ _ h hd

theorem LaneState.get_setReg (a : Nat) (w : Word) (g : RF) :
    (L.setReg a w).get g = if g.addr = a then bits w.toNat g.hi g.lo else L.get g := by
  simp only [LaneState.get, LaneState.reg_setReg]; split <;> rfl

theorem LaneState.putS_def (f : RF) (v : Int) : L.putS f v = L.put f (wrapTo (f.hi + 1 - f.lo) v) := rfl
theorem LaneState.setF_def (f : RF) (b : Bool) : L.setF f b = L.put f (b2n b) := rfl
theorem LaneState.flag_def (f : RF) : L.flag f = L.put f 1 := rfl
theorem LaneState.flagIf_def (b : Bool) (f : RF) : L.flagIf b f = if b then L.put f 1 else L := rfl
theorem LaneState.count_def (f : RF) (k : Nat) : L.count f k = L.put f (satU (f.hi + 1 - f.lo) (L.get f + k)) := rfl
theorem LaneState.setBit_def (f : RF) (i : Nat) (b : Bool) :
    L.setBit f i b = L.put f (setBits (L.get f) i i (b2n b)) := rfl

/-! ## Signals and memory -/

@[simp] theorem LaneState.sig_setSig (i j : Nat) (w : Word) :
    (L.setSig i w).sig j = if j = i then w else L.sig j := Sparse.get_set (fun _ => 0) L.sigs i w j

@[simp] theorem LaneState.sig_setReg (a j : Nat) (w : Word) : (L.setReg a w).sig j = L.sig j := rfl
@[simp] theorem LaneState.sig_put (f : RF) (v j : Nat) : (L.put f v).sig j = L.sig j := rfl
@[simp] theorem LaneState.sig_setByte (a j : Nat) (b : Byte) : (L.setByte a b).sig j = L.sig j := rfl

@[simp] theorem LaneState.byte_setByte (a j : Nat) (b : Byte) :
    (L.setByte a b).byte j = if j = a then b else L.byte j := Sparse.get_set memReset L.mem a b j

@[simp] theorem LaneState.byte_setReg (a j : Nat) (w : Word) : (L.setReg a w).byte j = L.byte j := rfl
@[simp] theorem LaneState.byte_put (f : RF) (v j : Nat) : (L.put f v).byte j = L.byte j := rfl
@[simp] theorem LaneState.byte_setSig (i j : Nat) (w : Word) : (L.setSig i w).byte j = L.byte j := rfl

/-- A signal of a transaction reads as the word written there, every other signal as before. -/
theorem LaneState.sig_setSigs (i : Nat) (ws : List Word) (j : Nat) :
    (L.setSigs i ws).sig j = if i ≤ j ∧ j < i + ws.length then ws.getD (j - i) 0 else L.sig j := by
  induction ws generalizing L i with
  | nil => simp [LaneState.setSigs]
  | cons w ws ih =>
    rw [LaneState.setSigs, ih, LaneState.sig_setSig]
    simp only [List.length_cons]
    by_cases h : j = i
    · subst h; simp
    · by_cases h2 : i + 1 ≤ j ∧ j < i + 1 + ws.length
      · have : j - i = (j - (i + 1)) + 1 := by omega
        rw [if_pos h2, if_pos (by omega), this, List.getD_cons_succ]
      · rw [if_neg h2, if_neg h, if_neg (by omega)]

/-- A stored byte reads as its byte of the number, every other byte as before. -/
theorem LaneState.byte_store (a n v j : Nat) :
    (L.store a n v).byte j = if a ≤ j ∧ j < a + n then BitVec.ofNat 8 (v / 256 ^ (j - a)) else L.byte j := by
  induction n generalizing L a v with
  | zero => simp [LaneState.store]
  | succ n ih =>
    rw [LaneState.store, ih, LaneState.byte_setByte]
    by_cases h : j = a
    · subst h; simp
    · by_cases h2 : a + 1 ≤ j ∧ j < a + 1 + n
      · have : j - a = (j - (a + 1)) + 1 := by omega
        rw [if_pos h2, if_pos (by omega), this, pow_succ', Nat.div_div_eq_div_mul]
      · rw [if_neg h2, if_neg h, if_neg (by omega)]

theorem LaneState.byte_storeBytes (a : Nat) (bs : List Byte) (j : Nat) :
    (L.storeBytes a bs).byte j = if a ≤ j ∧ j < a + bs.length then bs.getD (j - a) 0 else L.byte j := by
  induction bs generalizing L a with
  | nil => simp [LaneState.storeBytes]
  | cons b bs ih =>
    rw [LaneState.storeBytes, ih, LaneState.byte_setByte]
    simp only [List.length_cons]
    by_cases h : j = a
    · subst h; simp
    · by_cases h2 : a + 1 ≤ j ∧ j < a + 1 + bs.length
      · have : j - a = (j - (a + 1)) + 1 := by omega
        rw [if_pos h2, if_pos (by omega), this, List.getD_cons_succ]
      · rw [if_neg h2, if_neg h, if_neg (by omega)]

/-- A load within what was stored gives the low bytes of the number. -/
theorem LaneState.load_store (a n v : Nat) : (L.store a n v).load a n = v % 256 ^ n := by
  have key : ∀ (m k : Nat) (b : Nat), (∀ j, j < m → (L.store a n v).byte (b + j) = BitVec.ofNat 8 (k / 256 ^ j)) →
      (L.store a n v).load b m = k % 256 ^ m := by
    intro m
    induction m with
    | zero => intro k b _; simp [LaneState.load, Nat.mod_one]
    | succ m ih =>
      intro k b h
      have h0 := h 0 (by omega)
      rw [LaneState.load, ih (k / 256) (b + 1)]
      · simp only [add_zero, pow_zero, Nat.div_one] at h0
        rw [h0, show 256 ^ (m + 1) = 256 * 256 ^ m from pow_succ' 256 m, Nat.mod_mul, BitVec.toNat_ofNat]
      · intro j hj
        have := h (j + 1) (by omega)
        rw [show b + 1 + j = b + (j + 1) by omega, this, pow_succ', Nat.div_div_eq_div_mul]
  apply key
  intro j hj
  rw [LaneState.byte_store, if_pos (by omega)]
  congr 3; omega

/-! ## The canonical form -/

theorem LaneState.wf_setReg (a : Nat) (w : Word) (h : L.wf = true) : (L.setReg a w).wf = true := by
  simp only [LaneState.wf, Bool.and_eq_true] at h ⊢
  exact ⟨⟨Sparse.wf_set _ _ _ h.1.1, h.1.2⟩, h.2⟩

theorem LaneState.wf_put (f : RF) (v : Nat) (h : L.wf = true) : (L.put f v).wf = true := L.wf_setReg _ _ h

theorem LaneState.wf_setSig (i : Nat) (w : Word) (h : L.wf = true) : (L.setSig i w).wf = true := by
  simp only [LaneState.wf, Bool.and_eq_true] at h ⊢
  exact ⟨⟨h.1.1, Sparse.wf_set _ _ _ h.1.2⟩, h.2⟩

theorem LaneState.wf_setByte (a : Nat) (b : Byte) (h : L.wf = true) : (L.setByte a b).wf = true := by
  simp only [LaneState.wf, Bool.and_eq_true] at h ⊢
  exact ⟨⟨h.1.1, h.1.2⟩, Sparse.wf_set _ _ _ h.2⟩

theorem LaneState.wf_setSigs (i : Nat) (ws : List Word) (h : L.wf = true) : (L.setSigs i ws).wf = true := by
  induction ws generalizing L i with
  | nil => exact h
  | cons w ws ih => exact ih _ _ (L.wf_setSig i w h)

theorem LaneState.wf_store (a n v : Nat) (h : L.wf = true) : (L.store a n v).wf = true := by
  induction n generalizing L a v with
  | zero => exact h
  | succ n ih => exact ih _ _ _ (L.wf_setByte a _ h)

theorem LaneState.wf_storeBytes (a : Nat) (bs : List Byte) (h : L.wf = true) : (L.storeBytes a bs).wf = true := by
  induction bs generalizing L a with
  | nil => exact h
  | cons b bs ih => exact ih _ _ (L.wf_setByte a b h)

end Sys2Proof.Machine
end

