-- ==== Sys2Proof/Laws/Kept.lean ====
section
/-! SUPPORT. Footprints: each update of a lane stays within a footprint that lists what it writes, and updates compose. A
proof that a command stays within its footprint goes through the command's text with these lemmas, one per update. -/

namespace Sys2Proof.Machine

variable {F G : Footprint} {L M N : LaneState}

theorem Kept.refl (F : Footprint) (L : LaneState) : Kept F L L :=
  ⟨fun p _ => by cases p <;> rfl, fun _ _ => rfl, fun _ _ => rfl, fun _ _ => rfl⟩

theorem Part.same_trans {p : Part} (h : p.same L M) (k : p.same M N) : p.same L N := by
  cases p <;> simp_all [Part.same]

/-- Footprints compose: a second change within a part of the footprint stays within it. -/
theorem Kept.trans (h : Kept F L M) (k : Kept G M N) (hp : ∀ p ∈ G.parts, p ∈ F.parts)
    (hr : ∀ a ∈ G.regs, a ∈ F.regs) (hs : ∀ i ∈ G.sigs, i ∈ F.sigs) (hb : ∀ a ∈ G.bytes, a ∈ F.bytes) :
    Kept F L N :=
  ⟨fun p q => Part.same_trans (h.1 p q) (k.1 p (fun x => q (hp p x))),
    fun a q => (k.2.1 a (fun x => q (hr a x))).trans (h.2.1 a q),
    fun i q => (k.2.2.1 i (fun x => q (hs i x))).trans (h.2.2.1 i q),
    fun a q => (k.2.2.2 a (fun x => q (hb a x))).trans (h.2.2.2 a q)⟩

/-- Two steps within one footprint. -/
theorem Kept.step (h : Kept F L M) (k : Kept F M N) : Kept F L N :=
  h.trans k (fun _ x => x) (fun _ x => x) (fun _ x => x) (fun _ x => x)

/-- A field of a register outside a footprint reads as before. -/
theorem Kept.get (h : Kept F L M) (f : RF) (hf : f.addr ∉ F.regs) : M.get f = L.get f := by
  simp [LaneState.get, h.2.1 _ hf]

theorem Kept.setReg (h : Kept F L M) {a : Nat} (w : Word) (ha : a ∈ F.regs) : Kept F L (M.setReg a w) :=
  h.step ⟨fun p _ => by cases p <;> rfl, fun j hj => by
    rw [LaneState.reg_setReg, if_neg (by rintro rfl; exact hj ha)], fun _ _ => rfl, fun _ _ => rfl⟩

theorem Kept.put (h : Kept F L M) {f : RF} (v : Nat) (hf : f.addr ∈ F.regs) : Kept F L (M.put f v) := h.setReg _ hf
theorem Kept.putS (h : Kept F L M) {f : RF} (v : Int) (hf : f.addr ∈ F.regs) : Kept F L (M.putS f v) := h.setReg _ hf
theorem Kept.setF (h : Kept F L M) {f : RF} (b : Bool) (hf : f.addr ∈ F.regs) : Kept F L (M.setF f b) := h.setReg _ hf
theorem Kept.flag (h : Kept F L M) {f : RF} (hf : f.addr ∈ F.regs) : Kept F L (M.flag f) := h.setReg _ hf
theorem Kept.setBit (h : Kept F L M) {f : RF} (i : Nat) (b : Bool) (hf : f.addr ∈ F.regs) :
    Kept F L (M.setBit f i b) := h.setReg _ hf
theorem Kept.count (h : Kept F L M) {f : RF} (k : Nat) (hf : f.addr ∈ F.regs) : Kept F L (M.count f k) :=
  h.setReg _ hf
theorem Kept.flagIf (h : Kept F L M) {f : RF} (b : Bool) (hf : f.addr ∈ F.regs) : Kept F L (M.flagIf b f) := by
  unfold LaneState.flagIf; split
  · exact h.flag hf
  · exact h

/-- A write of a master changes at most the register that it names. -/
theorem Kept.busWrite (h : Kept F L M) {b : Bool} {a : Nat} (w : Word) (ha : a ∈ F.regs) :
    Kept F L (M.busWrite b a w) := by
  unfold LaneState.busWrite; split
  · exact h
  · exact h.setReg _ ha

theorem Kept.setSig (h : Kept F L M) {i : Nat} (w : Word) (hi : i ∈ F.sigs) : Kept F L (M.setSig i w) :=
  h.step ⟨fun p _ => by cases p <;> rfl, fun _ _ => rfl, fun j hj => by
    rw [LaneState.sig_setSig, if_neg (by rintro rfl; exact hj hi)], fun _ _ => rfl⟩

theorem Kept.setSigs (h : Kept F L M) {i : Nat} (ws : List Word) (hi : ∀ j, i ≤ j → j < i + ws.length → j ∈ F.sigs) :
    Kept F L (M.setSigs i ws) := by
  induction ws generalizing M i with
  | nil => exact h
  | cons w ws ih =>
    refine ih (h.setSig w (hi i (Nat.le_refl i) (by simp))) (fun j a b => hi j (by omega) ?_)
    simp only [List.length_cons]; omega

theorem Kept.setByte (h : Kept F L M) {a : Nat} (b : Byte) (ha : a ∈ F.bytes) : Kept F L (M.setByte a b) :=
  h.step ⟨fun p _ => by cases p <;> rfl, fun _ _ => rfl, fun _ _ => rfl, fun j hj => by
    rw [LaneState.byte_setByte, if_neg (by rintro rfl; exact hj ha)]⟩

theorem Kept.store (h : Kept F L M) {a n : Nat} (v : Nat) (ha : ∀ j, a ≤ j → j < a + n → j ∈ F.bytes) :
    Kept F L (M.store a n v) := by
  induction n generalizing M a v with
  | zero => exact h
  | succ n ih => exact ih (h.setByte _ (ha a (by omega) (by omega))) _ (fun j x y => ha j (by omega) (by omega))

theorem Kept.setWord (h : Kept F L M) {a : Nat} (w : Word) (ha : ∀ j, a ≤ j → j < a + 4 → j ∈ F.bytes) :
    Kept F L (M.setWord a w) := h.store _ ha

theorem Kept.storeBytes (h : Kept F L M) {a : Nat} (bs : List Byte) (ha : ∀ j, a ≤ j → j < a + bs.length → j ∈ F.bytes) :
    Kept F L (M.storeBytes a bs) := by
  induction bs generalizing M a with
  | nil => exact h
  | cons b bs ih =>
    refine ih (h.setByte b (ha a (Nat.le_refl a) (by simp))) (fun j x y => ha j (by omega) ?_)
    simp only [List.length_cons]; omega

/-- A fold of updates that each stay within the footprint stays within it. -/
theorem Kept.foldl {α : Type} {xs : List α} {f : LaneState → α → LaneState} (h : Kept F L M)
    (hf : ∀ x ∈ xs, ∀ N, Kept F L N → Kept F L (f N x)) : Kept F L (xs.foldl f M) := by
  induction xs generalizing M with
  | nil => exact h
  | cons x xs ih =>
    exact ih (hf x (by simp) M h) (fun y hy => hf y (by simp [hy]))

theorem Kept.ite {c : Prop} {_ : Decidable c} (h : c → Kept F L M) (k : ¬c → Kept F L N) :
    Kept F L (if c then M else N) := by split <;> simp_all

theorem Kept.if_pos {c : Prop} {_ : Decidable c} (hc : c) (h : Kept F L M) : Kept F L (if c then M else N) := by
  rwa [ite_cond_eq_true _ _ (eq_true hc)]

theorem Kept.if_neg {c : Prop} {_ : Decidable c} (hc : ¬c) (h : Kept F L N) : Kept F L (if c then M else N) := by
  rwa [ite_cond_eq_false _ _ (eq_false hc)]

theorem Kept.when (h : Kept F L M) {b : Bool} {f : LaneState → LaneState}
    (hf : b = true → Kept F L (f M)) : Kept F L (M.when b f) := by
  unfold LaneState.when; split
  · exact hf ‹_›
  · exact h

/-! ## Parts -/

theorem Kept.with_id (h : Kept F L M) (x : _) (hp : .id ∈ F.parts) : Kept F L { M with id := x } :=
  h.step ⟨fun p q => by cases p <;> first | rfl | exact absurd hp q, fun _ _ => rfl, fun _ _ => rfl, fun _ _ => rfl⟩
theorem Kept.with_locks (h : Kept F L M) (x : _) (hp : .locks ∈ F.parts) : Kept F L { M with locks := x } :=
  h.step ⟨fun p q => by cases p <;> first | rfl | exact absurd hp q, fun _ _ => rfl, fun _ _ => rfl, fun _ _ => rfl⟩
theorem Kept.with_time (h : Kept F L M) (x : _) (hp : .time ∈ F.parts) : Kept F L { M with time := x } :=
  h.step ⟨fun p q => by cases p <;> first | rfl | exact absurd hp q, fun _ _ => rfl, fun _ _ => rfl, fun _ _ => rfl⟩
theorem Kept.with_skim (h : Kept F L M) (x : _) (hp : .skim ∈ F.parts) : Kept F L { M with skim := x } :=
  h.step ⟨fun p q => by cases p <;> first | rfl | exact absurd hp q, fun _ _ => rfl, fun _ _ => rfl, fun _ _ => rfl⟩
theorem Kept.with_lath (h : Kept F L M) (x : _) (hp : .lath ∈ F.parts) : Kept F L { M with lath := x } :=
  h.step ⟨fun p q => by cases p <;> first | rfl | exact absurd hp q, fun _ _ => rfl, fun _ _ => rfl, fun _ _ => rfl⟩
theorem Kept.with_bus (h : Kept F L M) (x : _) (hp : .bus ∈ F.parts) : Kept F L { M with bus := x } :=
  h.step ⟨fun p q => by cases p <;> first | rfl | exact absurd hp q, fun _ _ => rfl, fun _ _ => rfl, fun _ _ => rfl⟩
theorem Kept.with_belaySt (h : Kept F L M) (x : _) (hp : .belaySt ∈ F.parts) : Kept F L { M with belaySt := x } :=
  h.step ⟨fun p q => by cases p <;> first | rfl | exact absurd hp q, fun _ _ => rfl, fun _ _ => rfl, fun _ _ => rfl⟩
theorem Kept.with_gate (h : Kept F L M) (x : _) (hp : .gate ∈ F.parts) : Kept F L { M with gate := x } :=
  h.step ⟨fun p q => by cases p <;> first | rfl | exact absurd hp q, fun _ _ => rfl, fun _ _ => rfl, fun _ _ => rfl⟩
theorem Kept.with_aon (h : Kept F L M) (x : _) (hp : .aon ∈ F.parts) : Kept F L { M with aon := x } :=
  h.step ⟨fun p q => by cases p <;> first | rfl | exact absurd hp q, fun _ _ => rfl, fun _ _ => rfl, fun _ _ => rfl⟩
theorem Kept.with_adc (h : Kept F L M) (x : _) (hp : .adc ∈ F.parts) : Kept F L { M with adc := x } :=
  h.step ⟨fun p q => by cases p <;> first | rfl | exact absurd hp q, fun _ _ => rfl, fun _ _ => rfl, fun _ _ => rfl⟩
theorem Kept.with_qeo (h : Kept F L M) (x : _) (hp : .qeo ∈ F.parts) : Kept F L { M with qeo := x } :=
  h.step ⟨fun p q => by cases p <;> first | rfl | exact absurd hp q, fun _ _ => rfl, fun _ _ => rfl, fun _ _ => rfl⟩
theorem Kept.with_edge (h : Kept F L M) (x : _) (hp : .edge ∈ F.parts) : Kept F L { M with edge := x } :=
  h.step ⟨fun p q => by cases p <;> first | rfl | exact absurd hp q, fun _ _ => rfl, fun _ _ => rfl, fun _ _ => rfl⟩
theorem Kept.with_bridge (h : Kept F L M) (x : _) (hp : .bridge ∈ F.parts) : Kept F L { M with bridge := x } :=
  h.step ⟨fun p q => by cases p <;> first | rfl | exact absurd hp q, fun _ _ => rfl, fun _ _ => rfl, fun _ _ => rfl⟩
theorem Kept.with_cde (h : Kept F L M) (x : _) (hp : .cde ∈ F.parts) : Kept F L { M with cde := x } :=
  h.step ⟨fun p q => by cases p <;> first | rfl | exact absurd hp q, fun _ _ => rfl, fun _ _ => rfl, fun _ _ => rfl⟩
theorem Kept.with_tether (h : Kept F L M) (x : _) (hp : .tether ∈ F.parts) : Kept F L { M with tether := x } :=
  h.step ⟨fun p q => by cases p <;> first | rfl | exact absurd hp q, fun _ _ => rfl, fun _ _ => rfl, fun _ _ => rfl⟩
theorem Kept.with_siu (h : Kept F L M) (x : _) (hp : .siu ∈ F.parts) : Kept F L { M with siu := x } :=
  h.step ⟨fun p q => by cases p <;> first | rfl | exact absurd hp q, fun _ _ => rfl, fun _ _ => rfl, fun _ _ => rfl⟩
theorem Kept.with_pwr (h : Kept F L M) (x : _) (hp : .pwr ∈ F.parts) : Kept F L { M with pwr := x } :=
  h.step ⟨fun p q => by cases p <;> first | rfl | exact absurd hp q, fun _ _ => rfl, fun _ _ => rfl, fun _ _ => rfl⟩
theorem Kept.with_memSt (h : Kept F L M) (x : _) (hp : .memSt ∈ F.parts) : Kept F L { M with memSt := x } :=
  h.step ⟨fun p q => by cases p <;> first | rfl | exact absurd hp q, fun _ _ => rfl, fun _ _ => rfl, fun _ _ => rfl⟩
theorem Kept.with_lcs (h : Kept F L M) (x : _) (hp : .lcs ∈ F.parts) : Kept F L { M with lcs := x } :=
  h.step ⟨fun p q => by cases p <;> first | rfl | exact absurd hp q, fun _ _ => rfl, fun _ _ => rfl, fun _ _ => rfl⟩
theorem Kept.with_nv (h : Kept F L M) (x : _) (hp : .nv ∈ F.parts) : Kept F L { M with nv := x } :=
  h.step ⟨fun p q => by cases p <;> first | rfl | exact absurd hp q, fun _ _ => rfl, fun _ _ => rfl, fun _ _ => rfl⟩
theorem Kept.with_triad (h : Kept F L M) (x : _) (hp : .triad ∈ F.parts) : Kept F L { M with triad := x } :=
  h.step ⟨fun p q => by cases p <;> first | rfl | exact absurd hp q, fun _ _ => rfl, fun _ _ => rfl, fun _ _ => rfl⟩

@[simp] theorem axOf_val (n : Axis) : axOf n.val = n := by simp only [axOf]; ext; simp; omega

@[simp] theorem leOf_val (e : Fin 2) : leOf e.val = e := by simp only [leOf]; ext; simp; omega

theorem Kept.mapAx (h : Kept F L M) {n : Nat} (f : _) (hp : .ax (axOf n) ∈ F.parts) : Kept F L (M.mapAx n f) := by
  refine h.step ⟨fun p q => ?_, fun _ _ => ?_, fun _ _ => ?_, fun _ _ => ?_⟩
  · rcases n with _ | _ | _ | n <;> cases p <;> first
      | rfl
      | (rename_i m; fin_cases m <;> first | rfl | exact absurd hp q | exact absurd (by simpa [axOf] using hp) q)
  all_goals rcases n with _ | _ | _ | n <;> rfl
theorem Kept.mapFb (h : Kept F L M) {n : Nat} (f : _) (hp : .fb (axOf n) ∈ F.parts) : Kept F L (M.mapFb n f) := by
  refine h.step ⟨fun p q => ?_, fun _ _ => ?_, fun _ _ => ?_, fun _ _ => ?_⟩
  · rcases n with _ | _ | _ | n <;> cases p <;> first
      | rfl
      | (rename_i m; fin_cases m <;> first | rfl | exact absurd hp q | exact absurd (by simpa [axOf] using hp) q)
  all_goals rcases n with _ | _ | _ | n <;> rfl
theorem Kept.mapFl (h : Kept F L M) {n : Nat} (f : _) (hp : .fl (axOf n) ∈ F.parts) : Kept F L (M.mapFl n f) := by
  refine h.step ⟨fun p q => ?_, fun _ _ => ?_, fun _ _ => ?_, fun _ _ => ?_⟩
  · rcases n with _ | _ | _ | n <;> cases p <;> first
      | rfl
      | (rename_i m; fin_cases m <;> first | rfl | exact absurd hp q | exact absurd (by simpa [axOf] using hp) q)
  all_goals rcases n with _ | _ | _ | n <;> rfl
theorem Kept.mapPr (h : Kept F L M) {n : Nat} (f : _) (hp : .pr (axOf n) ∈ F.parts) : Kept F L (M.mapPr n f) := by
  refine h.step ⟨fun p q => ?_, fun _ _ => ?_, fun _ _ => ?_, fun _ _ => ?_⟩
  · rcases n with _ | _ | _ | n <;> cases p <;> first
      | rfl
      | (rename_i m; fin_cases m <;> first | rfl | exact absurd hp q | exact absurd (by simpa [axOf] using hp) q)
  all_goals rcases n with _ | _ | _ | n <;> rfl
theorem Kept.mapLe (h : Kept F L M) {e : Nat} (f : _) (hp : .le (leOf e) ∈ F.parts) : Kept F L (M.mapLe e f) := by
  refine h.step ⟨fun p q => ?_, fun _ _ => ?_, fun _ _ => ?_, fun _ _ => ?_⟩
  · rcases e with _ | e <;> cases p <;> first
      | rfl
      | (rename_i m; fin_cases m <;> first | rfl | exact absurd hp q | exact absurd (by simpa [leOf] using hp) q)
  all_goals rcases e with _ | e <;> rfl
theorem Kept.mapLink (h : Kept F L M) {k : _} (f : _) (hp : .link k ∈ F.parts) : Kept F L (M.mapLink k f) := by
  refine h.step ⟨fun p q => ?_, fun _ _ => ?_, fun _ _ => ?_, fun _ _ => ?_⟩
  · cases k <;> cases p <;> first
      | rfl
      | (rename_i m; cases m <;> first | rfl | exact absurd hp q)
  all_goals cases k <;> rfl
theorem Kept.mapCore (h : Kept F L M) {k : _} (f : _) (hp : .core k ∈ F.parts) : Kept F L (M.mapCore k f) := by
  refine h.step ⟨fun p q => ?_, fun _ _ => ?_, fun _ _ => ?_, fun _ _ => ?_⟩
  · cases k <;> cases p <;> first
      | rfl
      | (rename_i m; cases m <;> first | rfl | exact absurd hp q)
  all_goals cases k <;> rfl

/-! ## Completion -/

/-- A command that changes one lane completes, if what it does to the lane stays within the footprint and gives `P`. -/
theorem Does.of_onLane {s : State} {c : Instr} {l : Lane} {f : LaneState → LaneState}
    {P : LaneState → LaneState → Prop} (h : exec c s = onLane s l f) (hl : c.lane = l)
    (hk : Kept F (s.lane l) (f (s.lane l))) (hp : P (s.lane l) (f (s.lane l))) : Does s c F P := by
  subst hl
  exact ⟨_, h, hk, hp⟩

/-- The same for a command that takes a frame off a link. -/
theorem DoesOn.of_onLane {s s0 : State} {c : Instr} {l : Lane} {f : LaneState → LaneState}
    {P : LaneState → LaneState → Prop} (h : exec c s = onLane s0 l f) (hl : c.lane = l) (h0 : s0.lane l = s.lane l)
    (hk : Kept F (s.lane l) (f (s.lane l))) (hp : P (s.lane l) (f (s.lane l))) : DoesOn s s0 c F P := by
  subst hl
  refine ⟨f (s.lane c.lane), ?_, hk, hp⟩
  rw [h, onLane, h0]

/-- The same for a command that draws a free value. -/
theorem DoesFree.of_onLaneFree {s : State} {c : Instr} {l : Lane} {f : Word → LaneState → LaneState}
    {P : LaneState → LaneState → Prop} (h : exec c s = onLaneFree s l f) (hl : c.lane = l)
    (hk : Kept F (s.lane l) (f (Config.freeValue s.draws) (s.lane l)))
    (hp : P (s.lane l) (f (Config.freeValue s.draws) (s.lane l))) : DoesFree s c F P := by
  subst hl
  exact ⟨_, h, hk, hp⟩

/-! ## Shared operations -/

/-- Recording a violation writes the registers of WAT. -/
theorem Kept.recordViol (h : Kept F L M) (q : Req) (a : Nat) (b : Bool) (k : Nat)
    (hr : ∀ x ∈ [R.watCnt, R.watStat, R.watViol, R.watVaddr], x ∈ F.regs) : Kept F L (M.recordViol q a b k) := by
  have h := h.count (f := R.watCnt_n) 1 (hr _ (by decide))
  unfold LaneState.recordViol
  refine Kept.ite (fun _ => h.flag (hr _ (by decide))) (fun _ => ?_)
  exact ((((h.flag (hr _ (by decide))).put _ (hr _ (by decide))).put _ (hr _ (by decide))).put _
    (hr _ (by decide))).put _ (hr _ (by decide)) |>.setReg _ (hr _ (by decide))

theorem Kept.answer (h : Kept F L M) (m : Master) (w : Word) (hp : .bus ∈ F.parts) : Kept F L (M.answer m w) :=
  h.with_bus _ hp

theorem Kept.raise (h : Kept F L M) (code : Nat) (y : Lane) (hp : .belaySt ∈ F.parts) (hr : R.belayStat ∈ F.regs) :
    Kept F L (M.raise code y) := by
  unfold LaneState.raise
  exact (h.flagIf _ hr).with_belaySt _ hp

theorem Kept.raiseOwn (h : Kept F L M) (code : Nat) (hp : .belaySt ∈ F.parts) (hr : R.belayStat ∈ F.regs) :
    Kept F L (M.raiseOwn code) := h.raise _ _ hp hr

theorem Kept.queueMsg (h : Kept F L M) (r : Nat) (m : RopeMsg) (h0 : .link .l0 ∈ F.parts) (h1 : .link .l1 ∈ F.parts) :
    Kept F L (M.queueMsg r m) := by
  unfold LaneState.queueMsg
  have key : ∀ (k : Link) (N : LaneState), .link k ∈ F.parts → Kept F L N → ∀ f,
      Kept F L (if N.linkUp k then N.mapLink k f else N) :=
    fun k N hk hN f => Kept.ite (fun _ => hN.mapLink f hk) (fun _ => hN)
  exact key _ _ h1 (key _ _ h0 h _) _

theorem Kept.publish (h : Kept F L M) (r off : Nat) (ws : List Word) (h0 : .link .l0 ∈ F.parts)
    (h1 : .link .l1 ∈ F.parts)
    (hs : ∀ j, segBase M.id + off ≤ j → j < segBase M.id + off + ws.length → j ∈ F.sigs) :
    Kept F L (M.publish r off ws) := (h.setSigs ws hs).queueMsg _ _ h0 h1

end Sys2Proof.Machine
end

