-- ==== Sys2Proof/Laws/Ops.lean ====
section
/-! SUPPORT. Small laws of the named operations: numbers, collections, counts by index, access guards. -/

namespace Sys2Proof.Machine

@[simp] theorem b2n_true : b2n true = 1 := rfl
@[simp] theorem b2n_false : b2n false = 0 := rfl

theorem b2n_lt (b : Bool) : b2n b < 2 := by cases b <;> decide

@[simp] theorem mem_dropFrom {α : Type} [DecidableEq α] (x y : α) (l : List α) :
    y ∈ dropFrom x l ↔ y ∈ l ∧ y ≠ x := by simp [dropFrom]

@[simp] theorem mem_addTo {α : Type} [DecidableEq α] (x y : α) (l : List α) : y ∈ addTo x l ↔ y ∈ l ∨ y = x := by
  unfold addTo
  split
  · constructor
    · exact Or.inl
    · rintro (h | rfl) <;> assumption
  · simp

theorem wrapTo_lt (w : Nat) (i : Int) : wrapTo w i < 2 ^ w := by
  have : (0 : Int) < (2 ^ w : Nat) := by positivity
  have h1 := Int.emod_lt_of_pos i this
  have h2 := Int.emod_nonneg i (ne_of_gt this)
  unfold wrapTo
  omega

@[simp] theorem wrapTo_mod {w m : Nat} (i : Int) (h : 2 ^ w ≤ m) : wrapTo w i % m = wrapTo w i :=
  Nat.mod_eq_of_lt (lt_of_lt_of_le (wrapTo_lt w i) h)

theorem satU_lt (w x : Nat) : satU w x < 2 ^ w := by
  have : 0 < 2 ^ w := by positivity
  unfold satU; omega

@[simp] theorem satU_mod {w m : Nat} (x : Nat) (h : 2 ^ w ≤ m) : satU w x % m = satU w x :=
  Nat.mod_eq_of_lt (lt_of_lt_of_le (satU_lt w x) h)

@[simp] theorem b2n_mod {m : Nat} (b : Bool) (h : 2 ≤ m) : b2n b % m = b2n b :=
  Nat.mod_eq_of_lt (lt_of_lt_of_le (b2n_lt b) h)

@[simp] theorem b2n_eq_zero (b : Bool) : b2n b = 0 ↔ b = false := by cases b <;> simp [b2n]
@[simp] theorem b2n_eq_one (b : Bool) : b2n b = 1 ↔ b = true := by cases b <;> simp [b2n]
@[simp] theorem b2n_bne_zero (b : Bool) : (b2n b != 0) = b := by cases b <;> rfl

@[simp] theorem bits_mod {hi lo m : Nat} (v : Nat) (h : 2 ^ (hi + 1 - lo) ≤ m) : bits v hi lo % m = bits v hi lo :=
  Nat.mod_eq_of_lt (lt_of_lt_of_le (bits_lt v hi lo) h)

/-- A field of a word in which that field has been replaced. -/
theorem bits_wordN_same (w : Word) {hi lo x : Nat} (h : lo ≤ hi) (hh : hi ≤ 31) :
    bits (wordN (setBits w.toNat hi lo x)).toNat hi lo = x % 2 ^ (hi + 1 - lo) := by
  rw [wordN, BitVec.toNat_ofNat, Nat.mod_eq_of_lt (setBits_lt _ _ _ _ h hh w.isLt), bits_setBits_same _ _ _ _ h]

/-- Another field of a word in which a field has been replaced. -/
theorem bits_wordN_disj (w : Word) {hi lo x h2 l2 : Nat} (h : lo ≤ hi) (hh : hi ≤ 31) (hd : hi < l2 ∨ h2 < lo) :
    bits (wordN (setBits w.toNat hi lo x)).toNat h2 l2 = bits w.toNat h2 l2 := by
  rw [wordN, BitVec.toNat_ofNat, Nat.mod_eq_of_lt (setBits_lt _ _ _ _ h hh w.isLt)]
  rcases hd with hd | hd
  · exact bits_setBits_above _ _ _ _ _ _ h hd
  · exact bits_setBits_below _ _ _ _ _ _ h hd

/-- The low bits of a number that is within a field. -/
theorem bits_small {v hi : Nat} (h : v < 2 ^ (hi + 1)) : bits v hi 0 = v := by
  simp [bits, Nat.mod_eq_of_lt h]

/-- A field replaced by itself. -/
theorem setBits_bits (v hi lo : Nat) (h : lo ≤ hi) : setBits v hi lo (bits v hi lo) = v := by
  rw [setBits_eq v hi lo _ h, Nat.mod_eq_of_lt (bits_lt v hi lo)]
  exact (bits_split v hi lo h).symm

@[simp] theorem wordN_toNat (w : Word) : wordN w.toNat = w := by simp [wordN]

/-- A bit is the field of one bit. -/
theorem bit_eq_bits (v i : Nat) : bit v i = (bits v i i == 1) := by
  simp [bit, bits]

/-- The count at a key after a write of another. -/
@[simp] theorem NMap.get_set (m : NMap) (k v j : Nat) : (m.set k v).get j = if j = k then v else m.get j :=
  Sparse.get_set (fun _ => 0) m k v j

@[simp] theorem NMap.get_inc (m : NMap) (k j : Nat) : (m.inc k).get j = if j = k then m.get k + 1 else m.get j := by
  simp [NMap.inc]

variable (L : LaneState)

theorem LaneState.is_eq_true (f : RF) : L.is f = true ↔ L.get f ≠ 0 := by simp [LaneState.is]
theorem LaneState.is_eq_false (f : RF) : L.is f = false ↔ L.get f = 0 := by simp [LaneState.is]

/-- A flag reads as what was written there. -/
theorem LaneState.is_setF (f : RF) (b : Bool) (h : f.lo ≤ f.hi) (hh : f.hi ≤ 31) : (L.setF f b).is f = b := by
  have h2 : 2 ≤ 2 ^ (f.hi + 1 - f.lo) := by
    calc 2 = 2 ^ 1 := rfl
      _ ≤ _ := Nat.pow_le_pow_right (by omega) (by omega)
  simp [LaneState.is, LaneState.setF_def, L.get_put_same f _ h hh, b2n_mod b h2]

/-- A bit of a field reads as what was written there. -/
theorem LaneState.bitOf_setBit_same (f : RF) (i : Nat) (b : Bool) (h : f.lo + i ≤ f.hi) (hh : f.hi ≤ 31) :
    (L.setBit f i b).bitOf f i = b := by
  rw [LaneState.bitOf, LaneState.setBit_def, L.get_put_same f _ (by omega) hh, bit_eq_bits]
  have hd : 2 ^ (f.hi + 1 - f.lo) = 2 ^ (i + 1) * 2 ^ (f.hi - f.lo - i) := by rw [← pow_add]; congr 1; omega
  have h1 := bits_setBits_same (L.get f) i i (b2n b) (Nat.le_refl i)
  have h2 : bits (setBits (L.get f) i i (b2n b) % 2 ^ (f.hi + 1 - f.lo)) i i =
      bits (setBits (L.get f) i i (b2n b)) i i := by
    simp only [bits, Nat.add_sub_cancel_left, pow_one]
    rw [hd, pow_succ, mul_assoc, Nat.mod_mul_right_div_self]
    exact Nat.mod_mod_of_dvd _ ⟨_, rfl⟩
  rw [h2, h1]
  cases b <;> simp [b2n]

/-- Another bit of that field reads as before. -/
theorem LaneState.bitOf_setBit_ne (f : RF) (i j : Nat) (b : Bool) (hi : f.lo + i ≤ f.hi) (h : f.lo + j ≤ f.hi)
    (hh : f.hi ≤ 31) (hne : j ≠ i) : (L.setBit f i b).bitOf f j = L.bitOf f j := by
  rw [LaneState.bitOf, LaneState.bitOf, LaneState.setBit_def, L.get_put_same f _ (by omega) hh, bit_eq_bits, bit_eq_bits]
  have hd : 2 ^ (f.hi + 1 - f.lo) = 2 ^ (j + 1) * 2 ^ (f.hi - f.lo - j) := by rw [← pow_add]; congr 1; omega
  have h2 : bits (setBits (L.get f) i i (b2n b) % 2 ^ (f.hi + 1 - f.lo)) j j =
      bits (setBits (L.get f) i i (b2n b)) j j := by
    simp only [bits, Nat.add_sub_cancel_left, pow_one]
    rw [hd, pow_succ, mul_assoc, Nat.mod_mul_right_div_self]
    exact Nat.mod_mod_of_dvd _ ⟨_, rfl⟩
  rw [h2]
  rcases Nat.lt_or_gt_of_ne hne with k | k
  · rw [bits_setBits_below _ _ _ _ _ _ (Nat.le_refl i) k]
  · rw [bits_setBits_above _ _ _ _ _ _ (Nat.le_refl i) k]

/-! ## Folds -/

/-- What no step of a fold changes is as before. -/
theorem foldl_obs {α β : Type} (O : LaneState → β) (f : LaneState → α → LaneState) (xs : List α)
    (h : ∀ x ∈ xs, ∀ M, O (f M x) = O M) : O (xs.foldl f L) = O L := by
  induction xs generalizing L with
  | nil => rfl
  | cons x xs ih =>
    rw [List.foldl_cons, ih _ (fun y hy => h y (List.mem_cons_of_mem x hy)), h x (List.mem_cons_self ..)]

theorem foldl_range_obs {β : Type} (O : LaneState → β) (f : LaneState → Nat → LaneState) (n : Nat)
    (h : ∀ x, x < n → ∀ M, O (f M x) = O M) : O ((List.range n).foldl f L) = O L :=
  foldl_obs L O f _ (fun x hx => h x (List.mem_range.1 hx))

/-- Registers of an index set to one word read as that word. -/
theorem foldl_setReg (g : Nat → Nat) (w : Word) (xs : List Nat) (a : Nat) :
    (xs.foldl (fun M j => M.setReg (g j) w) L).reg a = if ∃ j ∈ xs, a = g j then w else L.reg a := by
  induction xs generalizing L with
  | nil => simp
  | cons x xs ih =>
    rw [List.foldl_cons, ih, LaneState.reg_setReg]
    by_cases h : ∃ j ∈ xs, a = g j
    · have : ∃ j ∈ x :: xs, a = g j := by
        obtain ⟨j, hj, e⟩ := h
        exact ⟨j, List.mem_cons_of_mem x hj, e⟩
      rw [if_pos h, if_pos this]
    · rw [if_neg h]
      by_cases e : a = g x
      · rw [if_pos e, if_pos ⟨x, List.mem_cons_self .., e⟩]
      · rw [if_neg e, if_neg]
        rintro ⟨j, hj, ej⟩
        rcases List.mem_cons.1 hj with rfl | hj
        · exact e ej
        · exact h ⟨j, hj, ej⟩

theorem LaneState.when_true {b : Bool} (f : LaneState → LaneState) (h : b = true) : L.when b f = f L := by
  simp [LaneState.when, h]

theorem LaneState.when_false {b : Bool} (f : LaneState → LaneState) (h : b = false) : L.when b f = L := by
  simp [LaneState.when, h]

/-- An allowed write is performed. -/
theorem LaneState.guardW_ok {q : Req} {a : Nat} {w : Word} (f : LaneState → LaneState)
    (h : L.judge q a true w = none) : L.guardW q a w f = f L := by simp [LaneState.guardW, h]

/-- A write that breaks a rule is recorded and not performed. -/
theorem LaneState.guardW_viol {q : Req} {a : Nat} {w : Word} {k : Nat} (f : LaneState → LaneState)
    (h : L.judge q a true w = some k) : L.guardW q a w f = L.recordViol q a true k := by
  simp [LaneState.guardW, h]

/-- An allowed read answers the master. -/
theorem LaneState.guardR_ok {q : Req} {a : Nat} (f : LaneState → Word × LaneState) (h : L.judge q a false 0#32 = none) :
    L.guardR q a f = (f L).2.answer q.m (f L).1 := by
  unfold LaneState.guardR; rw [h]

theorem LaneState.guardR_viol {q : Req} {a : Nat} {k : Nat} (f : LaneState → Word × LaneState)
    (h : L.judge q a false 0#32 = some k) : L.guardR q a f = (L.recordViol q a false k).answer q.m 0 := by
  unfold LaneState.guardR; rw [h]

end Sys2Proof.Machine
end

