-- ==== Sys2Proof/Laws/Records.lean ====
section
/-! SUPPORT. The records of a lane that are kept by axis, engine, link or core: what a change of one leaves in it, in the
others, and in registers, signals and memory. -/

namespace Sys2Proof.Machine

variable (L : LaneState)

@[simp] theorem LaneState.ax_mapAx (n : Nat) (f : AxisSt → AxisSt) : (L.mapAx n f).ax n = f (L.ax n) := by
  rcases n with _ | _ | _ | n <;> rfl
theorem LaneState.ax_mapAx_ne (n m : Axis) (f : AxisSt → AxisSt) (h : m ≠ n) : (L.mapAx n f).ax m = L.ax m := by
  fin_cases n <;> fin_cases m <;> first | rfl | exact absurd rfl h
@[simp] theorem LaneState.fb_mapFb (n : Nat) (f : FbSt → FbSt) : (L.mapFb n f).fb n = f (L.fb n) := by
  rcases n with _ | _ | _ | n <;> rfl
theorem LaneState.fb_mapFb_ne (n m : Axis) (f : FbSt → FbSt) (h : m ≠ n) : (L.mapFb n f).fb m = L.fb m := by
  fin_cases n <;> fin_cases m <;> first | rfl | exact absurd rfl h
@[simp] theorem LaneState.fl_mapFl (n : Nat) (f : FldSt → FldSt) : (L.mapFl n f).fl n = f (L.fl n) := by
  rcases n with _ | _ | _ | n <;> rfl
theorem LaneState.fl_mapFl_ne (n m : Axis) (f : FldSt → FldSt) (h : m ≠ n) : (L.mapFl n f).fl m = L.fl m := by
  fin_cases n <;> fin_cases m <;> first | rfl | exact absurd rfl h
@[simp] theorem LaneState.pr_mapPr (n : Nat) (f : ProfSt → ProfSt) : (L.mapPr n f).pr n = f (L.pr n) := by
  rcases n with _ | _ | _ | n <;> rfl
theorem LaneState.pr_mapPr_ne (n m : Axis) (f : ProfSt → ProfSt) (h : m ≠ n) : (L.mapPr n f).pr m = L.pr m := by
  fin_cases n <;> fin_cases m <;> first | rfl | exact absurd rfl h
@[simp] theorem LaneState.le_mapLe (e : Nat) (f : LeSt → LeSt) : (L.mapLe e f).le e = f (L.le e) := by
  rcases e with _ | e <;> rfl
theorem LaneState.le_mapLe_ne (e d : Fin 2) (f : LeSt → LeSt) (h : d ≠ e) : (L.mapLe e f).le d = L.le d := by
  fin_cases e <;> fin_cases d <;> first | rfl | exact absurd rfl h
@[simp] theorem LaneState.link_mapLink (k : Link) (f : LinkSt → LinkSt) : (L.mapLink k f).link k = f (L.link k) := by
  cases k <;> rfl
theorem LaneState.link_mapLink_ne (k j : Link) (f : LinkSt → LinkSt) (h : j ≠ k) : (L.mapLink k f).link j = L.link j := by
  cases k <;> cases j <;> first | rfl | exact absurd rfl h
@[simp] theorem LaneState.core_mapCore (k : Core) (f : CoreSt → CoreSt) : (L.mapCore k f).core k = f (L.core k) := by
  cases k <;> rfl
theorem LaneState.core_mapCore_ne (k j : Core) (f : CoreSt → CoreSt) (h : j ≠ k) : (L.mapCore k f).core j = L.core j := by
  cases k <;> cases j <;> first | rfl | exact absurd rfl h

/-! ## Registers, signals and memory -/

@[simp] theorem LaneState.reg_mapAx (n : Nat) (f : AxisSt → AxisSt) (a : Nat) : (L.mapAx n f).reg a = L.reg a := by
  rcases n with _ | _ | _ | n <;> rfl
@[simp] theorem LaneState.get_mapAx (n : Nat) (f : AxisSt → AxisSt) (g : RF) : (L.mapAx n f).get g = L.get g := by
  rcases n with _ | _ | _ | n <;> rfl
@[simp] theorem LaneState.sig_mapAx (n : Nat) (f : AxisSt → AxisSt) (i : Nat) : (L.mapAx n f).sig i = L.sig i := by
  rcases n with _ | _ | _ | n <;> rfl
@[simp] theorem LaneState.byte_mapAx (n : Nat) (f : AxisSt → AxisSt) (a : Nat) : (L.mapAx n f).byte a = L.byte a := by
  rcases n with _ | _ | _ | n <;> rfl
@[simp] theorem LaneState.id_mapAx (n : Nat) (f : AxisSt → AxisSt) : (L.mapAx n f).id = L.id := by
  rcases n with _ | _ | _ | n <;> rfl
@[simp] theorem LaneState.reg_mapFb (n : Nat) (f : FbSt → FbSt) (a : Nat) : (L.mapFb n f).reg a = L.reg a := by
  rcases n with _ | _ | _ | n <;> rfl
@[simp] theorem LaneState.get_mapFb (n : Nat) (f : FbSt → FbSt) (g : RF) : (L.mapFb n f).get g = L.get g := by
  rcases n with _ | _ | _ | n <;> rfl
@[simp] theorem LaneState.sig_mapFb (n : Nat) (f : FbSt → FbSt) (i : Nat) : (L.mapFb n f).sig i = L.sig i := by
  rcases n with _ | _ | _ | n <;> rfl
@[simp] theorem LaneState.byte_mapFb (n : Nat) (f : FbSt → FbSt) (a : Nat) : (L.mapFb n f).byte a = L.byte a := by
  rcases n with _ | _ | _ | n <;> rfl
@[simp] theorem LaneState.id_mapFb (n : Nat) (f : FbSt → FbSt) : (L.mapFb n f).id = L.id := by
  rcases n with _ | _ | _ | n <;> rfl
@[simp] theorem LaneState.reg_mapFl (n : Nat) (f : FldSt → FldSt) (a : Nat) : (L.mapFl n f).reg a = L.reg a := by
  rcases n with _ | _ | _ | n <;> rfl
@[simp] theorem LaneState.get_mapFl (n : Nat) (f : FldSt → FldSt) (g : RF) : (L.mapFl n f).get g = L.get g := by
  rcases n with _ | _ | _ | n <;> rfl
@[simp] theorem LaneState.sig_mapFl (n : Nat) (f : FldSt → FldSt) (i : Nat) : (L.mapFl n f).sig i = L.sig i := by
  rcases n with _ | _ | _ | n <;> rfl
@[simp] theorem LaneState.byte_mapFl (n : Nat) (f : FldSt → FldSt) (a : Nat) : (L.mapFl n f).byte a = L.byte a := by
  rcases n with _ | _ | _ | n <;> rfl
@[simp] theorem LaneState.id_mapFl (n : Nat) (f : FldSt → FldSt) : (L.mapFl n f).id = L.id := by
  rcases n with _ | _ | _ | n <;> rfl
@[simp] theorem LaneState.reg_mapPr (n : Nat) (f : ProfSt → ProfSt) (a : Nat) : (L.mapPr n f).reg a = L.reg a := by
  rcases n with _ | _ | _ | n <;> rfl
@[simp] theorem LaneState.get_mapPr (n : Nat) (f : ProfSt → ProfSt) (g : RF) : (L.mapPr n f).get g = L.get g := by
  rcases n with _ | _ | _ | n <;> rfl
@[simp] theorem LaneState.sig_mapPr (n : Nat) (f : ProfSt → ProfSt) (i : Nat) : (L.mapPr n f).sig i = L.sig i := by
  rcases n with _ | _ | _ | n <;> rfl
@[simp] theorem LaneState.byte_mapPr (n : Nat) (f : ProfSt → ProfSt) (a : Nat) : (L.mapPr n f).byte a = L.byte a := by
  rcases n with _ | _ | _ | n <;> rfl
@[simp] theorem LaneState.id_mapPr (n : Nat) (f : ProfSt → ProfSt) : (L.mapPr n f).id = L.id := by
  rcases n with _ | _ | _ | n <;> rfl
@[simp] theorem LaneState.reg_mapLe (n : Nat) (f : LeSt → LeSt) (a : Nat) : (L.mapLe n f).reg a = L.reg a := by
  rcases n with _ | n <;> rfl
@[simp] theorem LaneState.get_mapLe (n : Nat) (f : LeSt → LeSt) (g : RF) : (L.mapLe n f).get g = L.get g := by
  rcases n with _ | n <;> rfl
@[simp] theorem LaneState.sig_mapLe (n : Nat) (f : LeSt → LeSt) (i : Nat) : (L.mapLe n f).sig i = L.sig i := by
  rcases n with _ | n <;> rfl
@[simp] theorem LaneState.byte_mapLe (n : Nat) (f : LeSt → LeSt) (a : Nat) : (L.mapLe n f).byte a = L.byte a := by
  rcases n with _ | n <;> rfl
@[simp] theorem LaneState.id_mapLe (n : Nat) (f : LeSt → LeSt) : (L.mapLe n f).id = L.id := by
  rcases n with _ | n <;> rfl
@[simp] theorem LaneState.reg_mapLink (n : Link) (f : LinkSt → LinkSt) (a : Nat) : (L.mapLink n f).reg a = L.reg a := by
  cases n <;> rfl
@[simp] theorem LaneState.get_mapLink (n : Link) (f : LinkSt → LinkSt) (g : RF) : (L.mapLink n f).get g = L.get g := by
  cases n <;> rfl
@[simp] theorem LaneState.sig_mapLink (n : Link) (f : LinkSt → LinkSt) (i : Nat) : (L.mapLink n f).sig i = L.sig i := by
  cases n <;> rfl
@[simp] theorem LaneState.byte_mapLink (n : Link) (f : LinkSt → LinkSt) (a : Nat) : (L.mapLink n f).byte a = L.byte a := by
  cases n <;> rfl
@[simp] theorem LaneState.id_mapLink (n : Link) (f : LinkSt → LinkSt) : (L.mapLink n f).id = L.id := by
  cases n <;> rfl
@[simp] theorem LaneState.reg_mapCore (n : Core) (f : CoreSt → CoreSt) (a : Nat) : (L.mapCore n f).reg a = L.reg a := by
  cases n <;> rfl
@[simp] theorem LaneState.get_mapCore (n : Core) (f : CoreSt → CoreSt) (g : RF) : (L.mapCore n f).get g = L.get g := by
  cases n <;> rfl
@[simp] theorem LaneState.sig_mapCore (n : Core) (f : CoreSt → CoreSt) (i : Nat) : (L.mapCore n f).sig i = L.sig i := by
  cases n <;> rfl
@[simp] theorem LaneState.byte_mapCore (n : Core) (f : CoreSt → CoreSt) (a : Nat) : (L.mapCore n f).byte a = L.byte a := by
  cases n <;> rfl
@[simp] theorem LaneState.id_mapCore (n : Core) (f : CoreSt → CoreSt) : (L.mapCore n f).id = L.id := by
  cases n <;> rfl

/-! ## The records under writes of registers, signals and memory -/

@[simp] theorem LaneState.ax_setReg (r : Nat) (w : Word) (n : Nat) : (L.setReg r w).ax n = L.ax n := by
  unfold LaneState.ax; split <;> rfl
@[simp] theorem LaneState.ax_put (g : RF) (v : Nat) (n : Nat) : (L.put g v).ax n = L.ax n := by
  unfold LaneState.ax; split <;> rfl
@[simp] theorem LaneState.ax_setSig (i : Nat) (w : Word) (n : Nat) : (L.setSig i w).ax n = L.ax n := by
  unfold LaneState.ax; split <;> rfl
@[simp] theorem LaneState.ax_setByte (b : Nat) (w : Byte) (n : Nat) : (L.setByte b w).ax n = L.ax n := by
  unfold LaneState.ax; split <;> rfl
@[simp] theorem LaneState.fb_setReg (r : Nat) (w : Word) (n : Nat) : (L.setReg r w).fb n = L.fb n := by
  unfold LaneState.fb; split <;> rfl
@[simp] theorem LaneState.fb_put (g : RF) (v : Nat) (n : Nat) : (L.put g v).fb n = L.fb n := by
  unfold LaneState.fb; split <;> rfl
@[simp] theorem LaneState.fb_setSig (i : Nat) (w : Word) (n : Nat) : (L.setSig i w).fb n = L.fb n := by
  unfold LaneState.fb; split <;> rfl
@[simp] theorem LaneState.fb_setByte (b : Nat) (w : Byte) (n : Nat) : (L.setByte b w).fb n = L.fb n := by
  unfold LaneState.fb; split <;> rfl
@[simp] theorem LaneState.fl_setReg (r : Nat) (w : Word) (n : Nat) : (L.setReg r w).fl n = L.fl n := by
  unfold LaneState.fl; split <;> rfl
@[simp] theorem LaneState.fl_put (g : RF) (v : Nat) (n : Nat) : (L.put g v).fl n = L.fl n := by
  unfold LaneState.fl; split <;> rfl
@[simp] theorem LaneState.fl_setSig (i : Nat) (w : Word) (n : Nat) : (L.setSig i w).fl n = L.fl n := by
  unfold LaneState.fl; split <;> rfl
@[simp] theorem LaneState.fl_setByte (b : Nat) (w : Byte) (n : Nat) : (L.setByte b w).fl n = L.fl n := by
  unfold LaneState.fl; split <;> rfl
@[simp] theorem LaneState.pr_setReg (r : Nat) (w : Word) (n : Nat) : (L.setReg r w).pr n = L.pr n := by
  unfold LaneState.pr; split <;> rfl
@[simp] theorem LaneState.pr_put (g : RF) (v : Nat) (n : Nat) : (L.put g v).pr n = L.pr n := by
  unfold LaneState.pr; split <;> rfl
@[simp] theorem LaneState.pr_setSig (i : Nat) (w : Word) (n : Nat) : (L.setSig i w).pr n = L.pr n := by
  unfold LaneState.pr; split <;> rfl
@[simp] theorem LaneState.pr_setByte (b : Nat) (w : Byte) (n : Nat) : (L.setByte b w).pr n = L.pr n := by
  unfold LaneState.pr; split <;> rfl
@[simp] theorem LaneState.le_setReg (r : Nat) (w : Word) (n : Nat) : (L.setReg r w).le n = L.le n := by
  unfold LaneState.le; split <;> rfl
@[simp] theorem LaneState.le_put (g : RF) (v : Nat) (n : Nat) : (L.put g v).le n = L.le n := by
  unfold LaneState.le; split <;> rfl
@[simp] theorem LaneState.le_setSig (i : Nat) (w : Word) (n : Nat) : (L.setSig i w).le n = L.le n := by
  unfold LaneState.le; split <;> rfl
@[simp] theorem LaneState.le_setByte (b : Nat) (w : Byte) (n : Nat) : (L.setByte b w).le n = L.le n := by
  unfold LaneState.le; split <;> rfl
@[simp] theorem LaneState.link_setReg (r : Nat) (w : Word) (n : Link) : (L.setReg r w).link n = L.link n := by
  unfold LaneState.link; split <;> rfl
@[simp] theorem LaneState.link_put (g : RF) (v : Nat) (n : Link) : (L.put g v).link n = L.link n := by
  unfold LaneState.link; split <;> rfl
@[simp] theorem LaneState.link_setSig (i : Nat) (w : Word) (n : Link) : (L.setSig i w).link n = L.link n := by
  unfold LaneState.link; split <;> rfl
@[simp] theorem LaneState.link_setByte (b : Nat) (w : Byte) (n : Link) : (L.setByte b w).link n = L.link n := by
  unfold LaneState.link; split <;> rfl
@[simp] theorem LaneState.core_setReg (r : Nat) (w : Word) (n : Core) : (L.setReg r w).core n = L.core n := by
  unfold LaneState.core; split <;> rfl
@[simp] theorem LaneState.core_put (g : RF) (v : Nat) (n : Core) : (L.put g v).core n = L.core n := by
  unfold LaneState.core; split <;> rfl
@[simp] theorem LaneState.core_setSig (i : Nat) (w : Word) (n : Core) : (L.setSig i w).core n = L.core n := by
  unfold LaneState.core; split <;> rfl
@[simp] theorem LaneState.core_setByte (b : Nat) (w : Byte) (n : Core) : (L.setByte b w).core n = L.core n := by
  unfold LaneState.core; split <;> rfl

end Sys2Proof.Machine
end

