-- ==== Sys2Proof/Laws/Shared.lean ====
section
/-! SUPPORT. What the operations that several commands share can do: the footprint of each, and what it leaves in the
register that it is for. -/

namespace Sys2Proof.Machine

variable {F G : Footprint} {L M : LaneState}

/-! ## Footprints within footprints -/

theorem Footprint.Has.refl (F : Footprint) : F.Has F := ⟨fun _ h => h, fun _ h => h, fun _ h => h, fun _ h => h⟩

theorem Footprint.Has.trans {F G H : Footprint} (h : F.Has G) (k : G.Has H) : F.Has H :=
  ⟨fun _ x => h.1 _ (k.1 _ x), fun _ x => h.2.1 _ (k.2.1 _ x), fun _ x => h.2.2.1 _ (k.2.2.1 _ x),
    fun _ x => h.2.2.2 _ (k.2.2.2 _ x)⟩

theorem Footprint.has_left (F G : Footprint) : (F.add G).Has F :=
  ⟨fun _ x => List.mem_append_left _ x, fun _ x => List.mem_append_left _ x, fun _ x => List.mem_append_left _ x,
    fun _ x => List.mem_append_left _ x⟩

theorem Footprint.has_right (F G : Footprint) : (F.add G).Has G :=
  ⟨fun _ x => List.mem_append_right _ x, fun _ x => List.mem_append_right _ x, fun _ x => List.mem_append_right _ x,
    fun _ x => List.mem_append_right _ x⟩

theorem Footprint.Has.of_left {F G H : Footprint} (h : F.Has H) : (F.add G).Has H := (Footprint.has_left F G).trans h
theorem Footprint.Has.of_right {F G H : Footprint} (h : G.Has H) : (F.add G).Has H := (Footprint.has_right F G).trans h

/-- A change within a smaller footprint is one within the larger. -/
theorem Kept.mono (h : Kept G L M) (hf : F.Has G) : Kept F L M :=
  ⟨fun p q => h.1 p (fun x => q (hf.1 p x)), fun a q => h.2.1 a (fun x => q (hf.2.1 a x)),
    fun i q => h.2.2.1 i (fun x => q (hf.2.2.1 i x)), fun a q => h.2.2.2 a (fun x => q (hf.2.2.2 a x))⟩

theorem Foot.axes_has {n : Nat} (h : n < 4) : Foot.axes.Has (Foot.axis n) := by
  unfold Foot.axes
  obtain rfl | rfl | rfl | rfl : n = 0 ∨ n = 1 ∨ n = 2 ∨ n = 3 := by omega
  · exact (((Footprint.has_left _ _).of_left).of_left).of_left
  · exact (((Footprint.has_right _ _).of_left).of_left).of_left
  · exact ((Footprint.has_right _ _).of_left).of_left
  · exact (Footprint.has_right _ _).of_left

theorem Foot.axes_ax (n : Axis) : Part.ax n ∈ Foot.axes.parts := by
  apply List.mem_append_right
  fin_cases n <;> simp

theorem Foot.belay_axes : Foot.belay.Has Foot.axes := Footprint.has_left _ _
theorem Foot.excl_belay : Foot.excl.Has Foot.belay := Footprint.has_left _ _
theorem Foot.belay_mem : Part.belaySt ∈ Foot.belay.parts := List.mem_append_right _ (by simp)
theorem Foot.belay_state : R.belayState ∈ Foot.belay.regs := List.mem_append_right _ (by simp)
theorem Foot.belay_cause : R.belayCause ∈ Foot.belay.regs := List.mem_append_right _ (by simp)
theorem Foot.excl_stat : R.belayStat ∈ Foot.excl.regs := List.mem_append_right _ (by simp)
theorem Foot.excl_cnt : R.belayCnt ∈ Foot.excl.regs := List.mem_append_right _ (by simp)

/-! ## Axes -/

theorem Kept.legsTo (h : Kept F L M) {n : Nat} (out : Nat) (hp : .edge ∈ F.parts)
    (hr : ∀ u ∈ [3 * n, 3 * n + 1, 3 * n + 2], R.edgeEuLvl u ∈ F.regs) : Kept F L (M.legsTo n out) := by
  unfold LaneState.legsTo
  exact Kept.foldl (h.with_edge _ hp) (fun u hu N hN => Kept.ite (fun _ => hN.put _ (hr u hu)) (fun _ => hN))

theorem Kept.legsFollow (h : Kept F L M) {n : Nat} (st : Nat) (hp : .edge ∈ F.parts)
    (hr : ∀ u ∈ [3 * n, 3 * n + 1, 3 * n + 2], R.edgeEuLvl u ∈ F.regs) : Kept F L (M.legsFollow n st) := by
  unfold LaneState.legsFollow
  exact Kept.ite (fun _ => h.legsTo _ hp hr) (fun _ => Kept.ite (fun _ => h.legsTo _ hp hr) (fun _ => h))

/-- The legs of an axis are within the footprint of a change of its state. -/
theorem Foot.axis_legs (n : Nat) : ∀ u ∈ [3 * n, 3 * n + 1, 3 * n + 2], R.edgeEuLvl u ∈ (Foot.axis n).regs := by
  intro u hu
  simp only [List.mem_cons, List.not_mem_nil, or_false] at hu
  obtain rfl | rfl | rfl := hu <;> simp [Foot.axis]

theorem Kept.loopsFresh (h : Kept F L M) (n : Nat) (h0 : .le 0 ∈ F.parts) (h1 : .le 1 ∈ F.parts) :
    Kept F L (M.loopsFresh n) := by
  unfold LaneState.loopsFresh
  refine Kept.foldl h (fun e he N hN => hN.mapLe _ ?_)
  simp only [List.mem_cons, List.not_mem_nil, or_false] at he
  obtain rfl | rfl := he
  · exact h0
  · exact h1

theorem Kept.allFresh (h : Kept F L M) (h0 : .le 0 ∈ F.parts) (h1 : .le 1 ∈ F.parts) : Kept F L M.allFresh := by
  unfold LaneState.allFresh
  exact Kept.mapLe (e := 1) (Kept.mapLe (e := 0) h _ h0) _ h1

theorem Kept.profDrop (h : Kept F L M) {n : Nat} (hr : R.profState n ∈ F.regs) (hp : .pr (axOf n) ∈ F.parts) :
    Kept F L (M.profDrop n) := by
  unfold LaneState.profDrop
  have k : Kept F L ((M.put (R.profState_mode n) 0).put (R.profState_plan n) 0) := (h.put _ hr).put _ hr
  exact (Kept.ite (fun _ => (k.put _ hr).put _ hr) (fun _ => k)).mapPr _ hp

/-- A change of the state of an axis stays within `Foot.axis`. -/
theorem Kept.setAxis (h : Kept F L M) {n : Nat} (st : Nat) (hf : F.Has (Foot.axis n)) : Kept F L (M.setAxis n st) := by
  have hs : R.axpState n ∈ F.regs := hf.2.1 _ (by simp [Foot.axis])
  unfold LaneState.setAxis
  have k1 : ∀ (c : Prop) (_ : Decidable c), Kept F L (if c then M.loopsFresh n else M) := fun c _ =>
    Kept.ite (fun _ => h.loopsFresh n (hf.1 _ (by simp [Foot.axis])) (hf.1 _ (by simp [Foot.axis]))) (fun _ => h)
  have k2 : ∀ (c d : Prop) (_ : Decidable c) (_ : Decidable d), Kept F L (if d then
      ((((if c then M.loopsFresh n else M).put (R.axpState_state n) st).setSig (axisSig n 0x40) (wordN st)).legsFollow n st)
    else ((((if c then M.loopsFresh n else M).put (R.axpState_state n) st).setSig (axisSig n 0x40)
      (wordN st)).legsFollow n st).put (R.axpState_stopping n) 0) := fun c d ic id => by
    have k := (((k1 c ic).put (f := R.axpState_state n) st hs).setSig (wordN st) (i := axisSig n 0x40)
      (hf.2.2.1 _ (by simp [Foot.axis]))).legsFollow st (hf.1 _ (by simp [Foot.axis]))
      (fun u hu => hf.2.1 _ (Foot.axis_legs n u hu))
    exact Kept.ite (fun _ => k) (fun _ => k.put (f := R.axpState_stopping n) 0 hs)
  exact Kept.ite (fun _ => (k2 _ _ _ _).profDrop (hf.2.1 _ (by simp [Foot.axis])) (hf.1 _ (by simp [Foot.axis])))
    (fun _ => k2 _ _ _ _)

/-- The safe action of an axis stays within `Foot.axis`. -/
theorem Kept.safeAction (h : Kept F L M) {n : Nat} (hf : F.Has (Foot.axis n)) : Kept F L (M.safeAction n) := by
  unfold LaneState.safeAction
  exact Kept.ite (fun _ => h) (fun _ => (h.setAxis _ hf).setSig _ (hf.2.2.1 _ (by simp [Foot.axis])))

/-- The legs keep the state of every axis. -/
theorem LaneState.get_legsFollow {n : Nat} (st : Nat) (f : RF) (hf : f.addr < 0x400D0000) (L : LaneState) :
    (L.legsFollow n st).get f = L.get f := by
  let G : Footprint := { parts := [.edge], regs := [3 * n, 3 * n + 1, 3 * n + 2].map R.edgeEuLvl }
  have k : Kept G L (L.legsFollow n st) := (Kept.refl G L).legsFollow st (by simp [G])
    (fun u hu => List.mem_map_of_mem hu)
  refine k.get f (fun hm => ?_)
  obtain ⟨u, -, hu⟩ := List.mem_map.mp hm
  simp only [R.edgeEuLvl] at hu
  omega

/-- A change of the state of an axis sets its state. -/
@[simp] theorem LaneState.get_setAxis_state (L : LaneState) (n st : Nat) (hn : n < 4) :
    (L.setAxis n st).get (R.axpState_state n) = st % 8 := by
  have a : (R.axpState_state n).addr < 0x400D0000 := by simp [R.axpState_state, R.axpState]; omega
  have d : ∀ X : LaneState, (X.profDrop n).get (R.axpState_state n) = X.get (R.axpState_state n) := fun X => by
    let G : Footprint := { parts := [.pr (axOf n)], regs := [R.profState n] }
    refine (Kept.profDrop (Kept.refl G X) (by simp [G]) (by simp [G])).get _ ?_
    simp only [G, List.mem_singleton, R.axpState_state, R.axpState, R.profState]
    omega
  have e : ∀ X : LaneState, (X.put (R.axpState_stopping n) 0).get (R.axpState_state n) = X.get (R.axpState_state n) :=
    fun X => LaneState.get_put_disj X _ _ _ rfl (by simp [R.axpState_stopping]) (by simp [R.axpState_stopping])
      (by simp [R.axpState_stopping, R.axpState_state])
  have g : ∀ X : LaneState, (((X.put (R.axpState_state n) st).setSig (axisSig n 0x40) (wordN st)).legsFollow n st).get
      (R.axpState_state n) = st % 8 := fun X => by
    rw [LaneState.get_legsFollow st _ a]
    exact LaneState.get_put_same X _ _ (by simp [R.axpState_state]) (by simp [R.axpState_state])
  unfold LaneState.setAxis
  simp only [apply_ite (fun X : LaneState => X.get (R.axpState_state n)), d, e, g, ite_self]

/-- The safe action of an axis. -/
@[simp] theorem LaneState.get_safeAction_state (L : LaneState) (n : Nat) (hn : n < 4) :
    (L.safeAction n).get (R.axpState_state n) =
      if L.axis n = axOff then axOff else if L.is (R.axpCfg_safe n) then axAsc else axFree := by
  unfold LaneState.safeAction
  by_cases h : L.axis n = axOff
  · simp only [h, beq_self_eq_true, if_true]
    exact h
  · simp only [beq_iff_eq, h, if_false]
    show (L.setAxis n _).get (R.axpState_state n) = _
    rw [LaneState.get_setAxis_state _ _ _ hn]
    split <;> rfl

theorem Kept.markHigher (h : Kept F L M) {n : Nat} (hp : .ax (axOf n) ∈ F.parts) : Kept F L (M.markHigher n) :=
  Kept.ite (fun _ => h.mapAx _ hp) (fun _ => h)

/-! ## Plans of a profile -/

theorem Kept.startPlan (h : Kept F L M) {n : Nat} (mode : Nat) (x : Traj) (segs : List (Int × Nat)) (p v t : Int)
    (hf : F.Has (Foot.plan n)) : Kept F L (M.startPlan n mode x segs p v t) := by
  have hr : R.profState n ∈ F.regs := hf.2.1 _ (by simp [Foot.plan])
  unfold LaneState.startPlan
  exact (((h.put _ hr).put _ hr).put _ hr).mapPr _ (hf.1 _ (by simp [Foot.plan]))

theorem Kept.planRefused (h : Kept F L M) {n : Nat} (hf : F.Has (Foot.plan n)) : Kept F L (M.planRefused n) := by
  have hr : R.profStat n ∈ F.regs := hf.2.1 _ (by simp [Foot.plan])
  exact (h.flag hr).flag hr

theorem Kept.planPos (h : Kept F L M) {n : Nat} (x : Traj) (t : Int) (hf : F.Has (Foot.plan n)) :
    Kept F L (M.planPos n x t) := by
  have hr : R.profStat n ∈ F.regs := hf.2.1 _ (by simp [Foot.plan])
  unfold LaneState.planPos
  exact Kept.ite (fun _ => h.planRefused hf) (fun _ => ((h.flagIf _ hr).flagIf _ hr).startPlan _ _ _ _ _ _ hf)

theorem Kept.planVel (h : Kept F L M) {n : Nat} (x : Traj) (v : Int) (hf : F.Has (Foot.plan n)) :
    Kept F L (M.planVel n x v) := by
  unfold LaneState.planVel
  exact Kept.ite (fun _ => h.planRefused hf) (fun _ => h.startPlan _ _ _ _ _ _ hf)

theorem Kept.planStop (h : Kept F L M) {n : Nat} (mode : Nat) (x : Traj) (m : Limits) (hf : F.Has (Foot.plan n)) :
    Kept F L (M.planStop n mode x m) := by
  unfold LaneState.planStop
  exact Kept.ite (fun _ => h.planRefused hf) (fun _ => h.startPlan _ _ _ _ _ _ hf)

theorem Kept.planRest (h : Kept F L M) {n : Nat} (x : Traj) (hf : F.Has (Foot.plan n)) :
    Kept F L (M.planRest n x) := by
  have hs : R.profStat n ∈ F.regs := hf.2.1 _ (by simp [Foot.plan])
  unfold LaneState.planRest
  exact Kept.ite (fun _ => h.flag hs) (fun _ => h.planPos _ _ hf)

theorem Kept.enterTrack (h : Kept F L M) {n : Nat} (x : Traj) (hf : F.Has (Foot.plan n)) :
    Kept F L (M.enterTrack n x) := by
  have hr : R.profState n ∈ F.regs := hf.2.1 _ (by simp [Foot.plan])
  have hs : R.profStat n ∈ F.regs := hf.2.1 _ (by simp [Foot.plan])
  unfold LaneState.enterTrack
  split
  · exact Kept.ite (fun _ => (((h.put _ hr).put _ hr).put _ hr).mapPr _ (hf.1 _ (by simp [Foot.plan])))
      (fun _ => h.flag hs)
  · exact h.flag hs

theorem Kept.planOp (h : Kept F L M) {n : Nat} (op : Nat) (x : Traj) (hf : F.Has (Foot.plan n)) :
    Kept F L (M.planOp n op x) := by
  unfold LaneState.planOp
  exact Kept.ite (fun _ => h.planPos _ _ hf) (fun _ => Kept.ite (fun _ => h.planVel _ _ hf) (fun _ => h.enterTrack _ hf))

theorem Kept.replan (h : Kept F L M) {n : Nat} (hf : F.Has (Foot.plan n)) : Kept F L (M.replan n) := by
  have hs : R.profStat n ∈ F.regs := hf.2.1 _ (by simp [Foot.plan])
  unfold LaneState.replan
  simp only
  split
  · exact h.planPos _ _ hf
  · exact h.planVel _ _ hf
  · exact h.planStop _ _ _ hf
  · exact h.flag hs

theorem Kept.profHold (h : Kept F L M) {n : Nat} (hf : F.Has (Foot.plan n)) : Kept F L (M.profHold n) :=
  (h.mapPr _ (hf.1 _ (by simp [Foot.plan]))).planStop _ _ _ hf

theorem Kept.profStart (h : Kept F L M) {n : Nat} (hf : F.Has (Foot.plan n)) : Kept F L (M.profStart n) := by
  have hr : R.profState n ∈ F.regs := hf.2.1 _ (by simp [Foot.plan])
  have k : ∀ f, Kept F L ((M.put (R.profState_mode n) 0).mapPr n f) :=
    fun f => (h.put (f := R.profState_mode n) 0 hr).mapPr f (hf.1 _ (by simp [Foot.plan]))
  unfold LaneState.profStart
  simp only
  split
  · exact (Kept.ite (fun _ => ((k _).put _ hr).put _ hr) (fun _ => k _)).planOp _ _ hf
  · exact (Kept.ite (fun _ => ((k _).put _ hr).put _ hr) (fun _ => k _)).planRest _ hf

theorem Kept.profResume (h : Kept F L M) {n : Nat} (hf : F.Has (Foot.plan n)) : Kept F L (M.profResume n) := by
  have hr : R.profState n ∈ F.regs := hf.2.1 _ (by simp [Foot.plan])
  have k : ∀ f, Kept F L (M.mapPr n f) := fun f => h.mapPr f (hf.1 _ (by simp [Foot.plan]))
  unfold LaneState.profResume
  simp only
  split
  · exact (Kept.ite (fun _ => ((k _).put _ hr).put _ hr) (fun _ => k _)).planOp _ _ hf
  · split
    · exact (k _).planVel _ _ hf
    · exact (k _).enterTrack _ hf
    · exact (k _).planPos _ _ hf
    · exact (k _).planRest _ hf

theorem Kept.beginStop (h : Kept F L M) {n : Nat} (hf : F.Has (Foot.plan n)) (hr : R.axpState n ∈ F.regs) :
    Kept F L (M.beginStop n) := (h.put _ hr).planStop _ _ _ hf

/-! ## The Belay -/

theorem Kept.mapB (h : Kept F L M) (f : BelaySt → BelaySt) (hp : .belaySt ∈ F.parts) : Kept F L (M.mapB f) :=
  h.with_belaySt _ hp

theorem Kept.mirror (h : Kept F L M) (hr : R.belayState ∈ F.regs) (h0 : 0x38000 ∈ F.sigs) (h1 : 0x38001 ∈ F.sigs) :
    Kept F L M.mirror := ((h.setF (f := R.belayState_two_lane) _ hr).setSig _ h0).setSig _ h1

theorem Kept.dropCounts (h : Kept F L M) (was : List Lane) (hp : .belaySt ∈ F.parts) : Kept F L (M.dropCounts was) :=
  Kept.ite (fun _ => h) (fun _ => h.mapB _ hp)

theorem Foot.belay_m0 : 0x38000 ∈ Foot.belay.sigs := List.mem_append_right _ (by simp)
theorem Foot.belay_m1 : 0x38001 ∈ Foot.belay.sigs := List.mem_append_right _ (by simp)

/-- A change of the own Belay state stays within `Foot.belay`. -/
theorem Kept.setBelay (h : Kept F L M) (st cause : Nat) (hf : F.Has Foot.belay) : Kept F L (M.setBelay st cause) := by
  have hx : F.Has Foot.axes := hf.trans Foot.belay_axes
  have hb : Part.belaySt ∈ F.parts := hf.1 _ Foot.belay_mem
  have hs : R.belayState ∈ F.regs := hf.2.1 _ Foot.belay_state
  have ha : ∀ N, Kept F L N → Kept F L (N.forAxes (fun n M => (M.safeAction n).markHigher n)) := fun N hN =>
    Kept.foldl hN (fun n hn N hN =>
      (hN.safeAction (hx.trans (Foot.axes_has (List.mem_range.mp hn)))).markHigher (hx.1 _ (Foot.axes_ax _)))
  have h0 : Part.le 0 ∈ F.parts := (hx.trans (Foot.axes_has (n := 0) (by omega))).1 _ (by simp [Foot.axis])
  have h1 : Part.le 1 ∈ F.parts := (hx.trans (Foot.axes_has (n := 0) (by omega))).1 _ (by simp [Foot.axis])
  have k := (h.put (f := R.belayState_state) st hs).put (f := R.belayCause_own) cause (hf.2.1 _ Foot.belay_cause)
  unfold LaneState.setBelay
  refine Kept.mirror (Kept.dropCounts (Kept.mapB ?_ _ hb) _ hb) hs (hf.2.2.1 _ Foot.belay_m0) (hf.2.2.1 _ Foot.belay_m1)
  exact Kept.ite (fun _ => Kept.allFresh (Kept.ite (fun _ => ha _ k) (fun _ => k)) h0 h1)
    (fun _ => Kept.ite (fun _ => ha _ k) (fun _ => k))

/-- The mirrors keep the fields below BELAY_STATE.two_lane, and every other register. -/
theorem LaneState.get_mirror (L : LaneState) (f : RF) (hf : f.addr = R.belayState → f.hi < 20) :
    L.mirror.get f = L.get f := by
  have a : ∀ (X : LaneState) (i : Nat) (w : Word), (X.setSig i w).get f = X.get f := fun _ _ _ => rfl
  unfold LaneState.mirror
  rw [a, a]
  unfold LaneState.setF
  by_cases h : f.addr = R.belayState
  · exact LaneState.get_put_disj L _ f _ h (by decide) (by decide) (.inr (hf h))
  · exact LaneState.get_put_ne L _ f _ h

/-- A change of the Belay state: what it leaves in a field of BELAY_STATE or BELAY_CAUSE. -/
theorem LaneState.get_setBelay (L : LaneState) (st cause : Nat) (f : RF)
    (ha : f.addr = R.belayState ∨ f.addr = R.belayCause) (hf : f.addr = R.belayState → f.hi < 20) :
    (L.setBelay st cause).get f = ((L.put R.belayState_state st).put R.belayCause_own cause).get f := by
  have hlt : f.addr < 0x40080000 := by rcases ha with h | h <;> rw [h] <;> decide
  have c : ∀ (X : LaneState) (was : List Lane), (X.dropCounts was).get f = X.get f := fun X was => by
    unfold LaneState.dropCounts
    simp only
    split <;> rfl
  have b : ∀ (X : LaneState) (g : BelaySt → BelaySt), (X.mapB g).get f = X.get f := fun _ _ => rfl
  have e : ∀ X : LaneState, X.allFresh.get f = X.get f := fun _ => rfl
  have d : ∀ X : LaneState, (X.forAxes (fun n M => (M.safeAction n).markHigher n)).get f = X.get f := fun X => by
    refine Kept.get (F := Foot.axes) (Kept.foldl (Kept.refl _ _) (fun n hn N hN =>
      (hN.safeAction (Foot.axes_has (List.mem_range.mp hn))).markHigher (Foot.axes_ax _))) f (fun hm => ?_)
    have : ∀ a ∈ Foot.axes.regs, 0x40080000 ≤ a := by decide
    exact absurd (this _ hm) (by omega)
  unfold LaneState.setBelay
  rw [LaneState.get_mirror _ _ hf, c, b]
  simp only [apply_ite (fun X : LaneState => X.get f), d, e, ite_self]

/-- A change of the Belay state sets it. -/
@[simp] theorem LaneState.get_setBelay_state (L : LaneState) (st cause : Nat) :
    (L.setBelay st cause).get R.belayState_state = st % 16 := by
  rw [LaneState.get_setBelay _ _ _ _ (.inl rfl) (fun _ => by decide), LaneState.get_put_ne _ _ _ _ (by decide)]
  exact LaneState.get_put_same _ _ _ (by decide) (by decide)

/-- A change of the Belay state records its cause. -/
@[simp] theorem LaneState.get_setBelay_cause (L : LaneState) (st cause : Nat) :
    (L.setBelay st cause).get R.belayCause_own = cause % 256 := by
  rw [LaneState.get_setBelay _ _ _ _ (.inr rfl) (fun h => absurd h (by decide))]
  exact LaneState.get_put_same _ _ _ (by decide) (by decide)

theorem Kept.noteExcluded (h : Kept F L M) (y : Lane) (code : Nat) (hf : F.Has Foot.excl) :
    Kept F L (M.noteExcluded y code) := by
  have hc : (causeF y).addr ∈ F.regs := by
    have : (causeF y).addr = R.belayCause := by cases y <;> rfl
    rw [this]
    exact (hf.trans Foot.excl_belay).2.1 _ Foot.belay_cause
  exact ((((h.flag (hf.2.1 _ Foot.excl_stat)).count (f := R.belayCnt_excl) 1 (hf.2.1 _ Foot.excl_cnt)).put _ hc).mapB _
    ((hf.trans Foot.excl_belay).1 _ Foot.belay_mem))

/-- An exclusion of the own lane stays within `Foot.excl`. -/
theorem Kept.exclude (h : Kept F L M) (code : Nat) (hf : F.Has Foot.excl) : Kept F L (M.exclude code) := by
  have hb := hf.trans Foot.excl_belay
  have hs : R.belayStat ∈ F.regs := hf.2.1 _ Foot.excl_stat
  have k : ∀ N, Kept F L N → Kept F L (N.setBelay bsDead 0x19) := fun N hN => hN.setBelay _ _ hb
  have k2 : ∀ (b : Bool) (f : BelaySt → BelaySt) (y : Lane), Kept F L
      (((((M.flagIf b R.belayStat_rej_fail)).setBelay bsExcluded code).noteExcluded y code).mapB f) := fun b f y =>
    (((h.flagIf b hs).setBelay _ _ hb).noteExcluded _ _ hf).mapB _ (hb.1 _ Foot.belay_mem)
  exact Kept.ite (fun _ => k _ (k2 _ _ _)) (fun _ => k2 _ _ _)

/-- A cause whose action is self-exclusion stays within `Foot.excl`. -/
theorem Kept.selfExclude (h : Kept F L M) (code : Nat) (hf : F.Has Foot.excl) : Kept F L (M.selfExclude code) := by
  have hb := hf.trans Foot.excl_belay
  have hc : R.belayCause ∈ F.regs := hb.2.1 _ Foot.belay_cause
  unfold LaneState.selfExclude
  refine Kept.ite (fun _ => Kept.ite (fun _ => h) (fun _ => h.exclude _ hf)) (fun _ => ?_)
  refine Kept.ite (fun _ => h.exclude _ hf) (fun _ => Kept.ite (fun _ => h) (fun _ => ?_))
  refine Kept.ite (fun _ => h.put _ hc) (fun _ => ?_)
  exact ((Kept.ite (fun _ => h.setBelay _ _ hb) (fun _ => h.put _ hc)).flag (f := R.belayStat_self_excl)
    (hf.2.1 _ Foot.excl_stat)).mapB _ (hb.1 _ Foot.belay_mem)

/-- A decision against a peer stays within `Foot.excl`. -/
theorem Kept.decideAgainst (h : Kept F L M) (y : Lane) (code : Nat) (hf : F.Has Foot.excl) :
    Kept F L (M.decideAgainst y code) := by
  have hb := hf.trans Foot.excl_belay
  have hp := hb.1 _ Foot.belay_mem
  have hv : (viewField y).addr ∈ F.regs := by
    have : (viewField y).addr = R.belayState := by cases y <;> rfl
    rw [this]; exact hb.2.1 _ Foot.belay_state
  have hc : (causeF y).addr ∈ F.regs := by
    have : (causeF y).addr = R.belayCause := by cases y <;> rfl
    rw [this]; exact hb.2.1 _ Foot.belay_cause
  unfold LaneState.decideAgainst
  refine Kept.ite (fun _ => h) (fun _ => ?_)
  refine Kept.mirror (Kept.dropCounts (Kept.mapB ?_ _ hp) _ hp) (hb.2.1 _ Foot.belay_state)
    (hb.2.2.1 _ Foot.belay_m0) (hb.2.2.1 _ Foot.belay_m1)
  exact Kept.ite (fun _ => (h.put _ hv).noteExcluded _ _ hf) (fun _ => h.put _ hc)

theorem Kept.refreshView (h : Kept F L M) (y : Lane) (hr : R.belayState ∈ F.regs) (hp : .belaySt ∈ F.parts) :
    Kept F L (M.refreshView y) := by
  have hv : (viewField y).addr ∈ F.regs := by
    have : (viewField y).addr = R.belayState := by cases y <;> rfl
    rwa [this]
  unfold LaneState.refreshView
  refine Kept.ite (fun _ => h) (fun _ => Kept.ite (fun _ => Kept.ite (fun _ => (h.put _ hv).mapB _ hp)
    (fun _ => h.put _ hv)) (fun _ => h.put _ hv))

/-- The views of the peers change BELAY_STATE and its mirrors. -/
theorem Kept.refreshViews (h : Kept F L M) (hr : R.belayState ∈ F.regs) (hp : .belaySt ∈ F.parts)
    (h0 : 0x38000 ∈ F.sigs) (h1 : 0x38001 ∈ F.sigs) : Kept F L M.refreshViews := by
  have hv : ∀ y, (viewField y).addr ∈ F.regs := fun y => by
    have : (viewField y).addr = R.belayState := by cases y <;> rfl
    rwa [this]
  unfold LaneState.refreshViews
  refine Kept.mirror (Kept.dropCounts (Kept.put ?_ _ (hv _)) _ hp) hr h0 h1
  exact Kept.foldl h (fun y _ N hN => hN.refreshView y hr hp)

theorem Kept.enterBlind (h : Kept F L M) (hf : F.Has Foot.excl) : Kept F L M.enterBlind := by
  have hb := hf.trans Foot.excl_belay
  have hr : R.belayState ∈ F.regs := hb.2.1 _ Foot.belay_state
  exact ((h.setF (f := R.belayState_blind) _ hr).flag (f := R.belayStat_blind_evt) (hf.2.1 _ Foot.excl_stat)).mirror hr
    (hb.2.2.1 _ Foot.belay_m0) (hb.2.2.1 _ Foot.belay_m1)

/-- The classification of a link that is down stays within `Foot.excl` and the status of the link. -/
theorem Kept.classifyLink (h : Kept F L M) (k : Link) (hf : F.Has Foot.excl) (h0 : R.ropeStat0 ∈ F.regs)
    (h1 : R.ropeStat1 ∈ F.regs) : Kept F L (M.classifyLink k) := by
  have hp := (hf.trans Foot.excl_belay).1 _ Foot.belay_mem
  have hs : R.belayStat ∈ F.regs := hf.2.1 _ Foot.excl_stat
  have hk : (match k with | .l0 => R.ropeStat0_flink_evt | .l1 => R.ropeStat1_flink_evt).addr ∈ F.regs := by
    cases k
    · exact h0
    · exact h1
  unfold LaneState.classifyLink
  refine Kept.ite (fun _ => h) (fun _ => ?_)
  have c := (h.flag hk).mapB (fun B => { B with linkClass := B.linkClass.set k.idx 1 }) hp
  refine Kept.ite (fun _ => Kept.ite (fun _ => (c.raiseOwn _ hp hs).selfExclude _ hf) (fun _ => c.decideAgainst _ _ hf))
    (fun _ => Kept.ite (fun _ => c.enterBlind hf) (fun _ => c))

/-! ## The bridge die -/

theorem Kept.driveGate (h : Kept F L M) (soft : Nat → Bool) (g : Nat) (hp : .bridge ∈ F.parts) :
    Kept F L (M.driveGate soft g) := by
  unfold LaneState.driveGate
  exact Kept.ite (fun _ => Kept.ite (fun _ => h) (fun _ => h.with_bridge _ hp))
    (fun _ => Kept.ite (fun _ => h.with_bridge _ hp) (fun _ => h.with_bridge _ hp))

theorem Kept.driveGates (h : Kept F L M) (soft : Nat → Bool) (hp : .bridge ∈ F.parts) : Kept F L (M.driveGates soft) :=
  Kept.foldl (h.with_bridge _ hp) (fun g _ _ hN => hN.driveGate soft g hp)

theorem Kept.tripUpdate (h : Kept F L M) (soft : Nat → Bool) (hf : F.Has Foot.trip) : Kept F L (M.tripUpdate soft) := by
  have hp : Part.bridge ∈ F.parts := hf.1 _ (by simp [Foot.trip])
  have hr : R.tripStat ∈ F.regs := hf.2.1 _ (by simp [Foot.trip])
  unfold LaneState.tripUpdate
  refine Kept.driveGates (Kept.put (Kept.put (Kept.with_bridge h _ hp) _ ?_) _ ?_) _ hp
  · exact hr
  · exact hr

theorem Kept.setTrip (h : Kept F L M) (s : Nat) (b : Bool) (hf : F.Has Foot.trip) : Kept F L (M.setTrip s b) :=
  Kept.ite (fun _ => h.setBit _ _ (hf.2.1 _ (by simp [Foot.trip, R.tripSrc0_active])))
    (fun _ => h.setBit _ _ (hf.2.1 _ (by simp [Foot.trip, R.tripSrc1_active])))

theorem Kept.endTrip (h : Kept F L M) (s : Nat) (hf : F.Has Foot.trip) : Kept F L (M.endTrip s) :=
  (h.setTrip s _ hf).tripUpdate _ hf

/-- A trip that is raised stays within `Foot.trip`. -/
theorem Kept.raiseTrip (h : Kept F L M) (s : Nat) (soft : Nat → Bool) (hf : F.Has Foot.trip) :
    Kept F L (M.raiseTrip s soft) := by
  have hr : R.tripStat ∈ F.regs := hf.2.1 _ (by simp [Foot.trip])
  have k := h.setTrip s true hf
  unfold LaneState.raiseTrip
  refine Kept.tripUpdate (Kept.ite (fun _ => Kept.with_bridge ?_ _ (hf.1 _ (by simp [Foot.trip]))) (fun _ => k)) _ hf
  have k2 : ∀ (c : Prop) (_ : Decidable c), Kept F L (if c then M.setTrip s true else
      ((M.setTrip s true).setF R.tripStat_first_valid true).put R.tripStat_first s) := fun c _ =>
    Kept.ite (fun _ => k) (fun _ => (k.setF (f := R.tripStat_first_valid) _ hr).put (f := R.tripStat_first) _ hr)
  exact Kept.ite (fun _ => (k2 _ _).setBit _ _ (hf.2.1 _ (by simp [Foot.trip, R.tripFlag0_flag])))
    (fun _ => (k2 _ _).setBit _ _ (hf.2.1 _ (by simp [Foot.trip, R.tripFlag1_flag])))

theorem Kept.pulseTrip (h : Kept F L M) (s : Nat) (soft : Nat → Bool) (hf : F.Has Foot.trip) :
    Kept F L (M.pulseTrip s soft) := (h.raiseTrip s soft hf).endTrip s hf

theorem Kept.setEnable (h : Kept F L M) (b : Bool) (hf : F.Has Foot.trip) (hr : R.brgStat ∈ F.regs) :
    Kept F L (M.setEnable b) := by
  unfold LaneState.setEnable
  exact Kept.ite (fun _ => h) (fun _ => Kept.ite (fun _ => (h.setF _ hr).endTrip _ hf)
    (fun _ => (h.setF _ hr).raiseTrip _ _ hf))

end Sys2Proof.Machine
end

