-- ==== Sys2Proof/Laws/Core.lean ====
section
/-! SUPPORT. The issue of an instruction by a lane core, said once: what a ready core does is the instruction's own
effect. -/

namespace Sys2Proof.Machine

variable {F G : Footprint} {L M : LaneState}

/-- The fetch of a ready core finds its word and changes nothing. -/
theorem LaneState.Ready.fetch {i : Issue} {op : CoreOp} {w : Nat} (h : L.Ready i op w) :
    L.coreFetch i.core i.fetchEcc = (0, L) := by
  obtain ⟨-, h2, h3, h4, h5, -⟩ := h
  unfold LaneState.coreFetch
  simp only [h2, h3, h5, Bool.not_true, Bool.false_eq_true, if_false]
  split
  · rename_i t h
    rw [h] at h4
    simp only at h4
    simp [h4, LaneState.eccAccess]
  · simp [LaneState.eccAccess]

/-- The issue of a ready core: its instruction's own effect, or the next word where the predicate squashes it. -/
theorem LaneState.coreIssue_ready {i : Issue} {op : CoreOp} {w : Nat} (f : Nat → CoreSt → LaneState → CoreRes)
    (h : L.Ready i op w) :
    L.coreIssue i op f =
      if (L.core i.core).squashes w then L.coreAt i.core ((L.core i.core).pc.toNat + 4) (L.baseCost i.core op w)
      else match f w (L.core i.core) L with
        | .stall N => N
        | r => r.finish i.core (L.core i.core).pc.toNat (L.baseCost i.core op w) := by
  have hf := h.fetch
  obtain ⟨h1, -, -, -, -, h6, h7, h8, h9⟩ := h
  have hj : ∀ pc after, L.judged i.core .agree pc after = after := fun pc after => by
    unfold LaneState.judged; simp
  unfold LaneState.coreIssue
  simp only [h1, hf, h6, h7, h8, h9, hj, Bool.not_true, Bool.false_eq_true, if_false, ne_eq, not_true]
  all_goals (split <;> rfl)

/-- The issue of an instruction whose predicate lets it take effect. -/
theorem LaneState.coreIssue_fires {i : Issue} {op : CoreOp} {w : Nat} (f : Nat → CoreSt → LaneState → CoreRes)
    (h : L.Fires i op w) :
    L.coreIssue i op f = match f w (L.core i.core) L with
        | .stall N => N
        | r => r.finish i.core (L.core i.core).pc.toNat (L.baseCost i.core op w) := by
  rw [LaneState.coreIssue_ready f h.1, if_neg (by simp [h.2])]

theorem Kept.coreAt (h : Kept F L M) (c : Core) (pc cost : Nat) (hc : .core c ∈ F.parts) (ht : .triad ∈ F.parts) :
    Kept F L (M.coreAt c pc cost) := by
  unfold LaneState.coreAt
  exact Kept.ite (fun _ => h.mapCore _ hc) (fun _ => (h.mapCore _ hc).with_triad _ ht)

theorem Kept.coreExc (h : Kept F L M) (c : Core) (x : Exc) (toS : Bool) (hc : .core c ∈ F.parts)
    (ht : .triad ∈ F.parts) : Kept F L (M.coreExc c x toS) := by
  have k : ∀ (p : Prop) (_ : Decidable p) f g, Kept F L (if p then M.mapCore c f else M.mapCore c g) := fun p _ f g =>
    Kept.ite (fun _ => h.mapCore _ hc) (fun _ => h.mapCore _ hc)
  exact Kept.ite (fun _ => k _ _ _ _) (fun _ => (k _ _ _ _).with_triad _ ht)

/-- Where a core goes on at the next word, it has retired. -/
theorem retired_coreAt {c : Core} {D : CoreSt} {cost : Nat} (hM : M.core c = D) (ht : M.triad = L.triad)
    (hd : D.cycles = (L.core c).cycles) : Retired c L (M.coreAt c ((L.core c).pc.toNat + 4) cost) D cost := by
  have hp : wordN ((L.core c).pc.toNat + 4) = (L.core c).pc + 4 := by
    apply BitVec.eq_of_toNat_eq; simp [wordN, BitVec.toNat_add]
  unfold LaneState.coreAt Retired
  cases c <;> simp_all [LaneState.mapCore, LaneState.core]

/-- A core command that retires. -/
theorem Does.of_next {s : State} {c : Instr} {l : Lane} {i : Issue} {op : CoreOp} {w wait : Nat} {N : LaneState}
    {f : Nat → CoreSt → LaneState → CoreRes} {P : LaneState → LaneState → Prop} (hx : exec c s = coreRow l i op s f)
    (hl : c.lane = l) (h : (s.lane l).Fires i op w)
    (hf : f w ((s.lane l).core i.core) (s.lane l) = .next N wait)
    (hk : Kept F (s.lane l) (N.coreAt i.core (((s.lane l).core i.core).pc.toNat + 4)
      ((s.lane l).baseCost i.core op w + wait)))
    (hp : P (s.lane l) (N.coreAt i.core (((s.lane l).core i.core).pc.toNat + 4)
      ((s.lane l).baseCost i.core op w + wait))) : Does s c F P := by
  have e : (s.lane l).coreIssue i op f = N.coreAt i.core (((s.lane l).core i.core).pc.toNat + 4)
      ((s.lane l).baseCost i.core op w + wait) := by
    rw [LaneState.coreIssue_fires f h, hf]; rfl
  exact Does.of_onLane hx hl (by rw [e]; exact hk) (by rw [e]; exact hp)

end Sys2Proof.Machine
end

