-- ==== Sys2Proof/WellFormed.lean ====
section
/-! DEFINITION. Which commands can occur: the operands that the types leave too wide, one check each. The meanings do not
need it; a command that is not well-formed is none that a module can receive. -/

namespace Sys2Proof

open Sys2Proof.Machine

/-- Register accesses that commands make come from the core class, and the SVC is always secure (R380, R505). -/
def Machine.Req.legal (q : Req) : Bool :=
  match q.m with
  | .triad | .tc1 | .tc2 | .dbg => true
  | .svc => q.secure
  | _ => false

/-- Whether a command is well-formed. -/
def Instr.wellFormed : Instr → Bool
  | .powerOnReset _ _ => true
  | .laneReset _ => true
  | .brownOut _ => true
  | .registerWrite _ q a _ => q.legal && decide (0x40000000 ≤ a.toNat ∧ a.toNat < 0x401C0000 ∧ a.toNat % 4 = 0)
  | .blockLock _ q a _ => q.legal && decide (0x40000000 ≤ a.toNat ∧ a.toNat < 0x401C0000 ∧ a.toNat % 4 = 0)
  | .sysTickWrite _ q _ => q.legal
  | .sysTimeLoRead _ q => q.legal
  | .sysTimeHiRead _ q => q.legal
  | .lathRequest _ q _ addr _ => q.legal && decide (0x400E0000 ≤ addr.toNat ∧ addr.toNat < 0x40100000 ∧ addr.toNat % 4 = 0)
  | .lathFrameReceived _ _ => true
  | .periodBoundary _ => true
  | .fieldTickBoundary _ => true
  | .timeFrameSend _ _ _ => true
  | .timeFrameReceived _ _ _ _ => true
  | .timeReportSend _ => true
  | .timeReportReceived _ _ _ => true
  | .alignCorrection _ => true
  | .pairOffsetLapse _ x y => decide (x ≠ y)
  | .timeSuspectRaise _ _ => true
  | .timeSuspectClear _ _ => true
  | .tickParamReceived _ _ _ => true
  | .clockLoss _ _ => true
  | .handshakeTimeout _ _ _ => true
  | .oscFail _ => true
  | .ropeBlockSend _ _ => true
  | .ropeBlockReceived _ _ _ => true
  | .idleFrameSend _ _ => true
  | .ropeLinkDown _ _ _ => true
  | .ropeLinkUp _ _ => true
  | .skimJobDue _ _ => true
  | .skimStepPreempt _ _ => true
  | .dlcal _ _ _ => true
  | .adczero _ _ _ => true
  | .scrub _ _ _ _ => true
  | .nvscrub _ _ _ _ _ => true
  | .repair _ _ _ => true
  | .refx _ _ _ => true
  | .avsmon _ _ _ => true
  | .shuntz _ _ _ _ _ => true
  | .skimEnable _ q _ => q.legal
  | .skimHold _ q _ => q.legal
  | .skimClrCnt _ q => q.legal
  | .adcConversionComplete _ _ _ _ _ _ _ _ _ _ => true
  | .hkConversion _ _ _ => true
  | .decode _ _ => true
  | .estimate _ _ => true
  | .profile _ _ => true
  | .shareRecordQueue _ _ => true
  | .shareRecordReceived _ _ _ at5ns => decide (at5ns ≤ 50000)
  | .median _ _ => true
  | .stateDevRaise l _ y => decide (y ≠ l)
  | .commitTick _ _ => true
  | .promptCommit _ _ => true
  | .field _ _ => true
  | .edgeLoad _ _ _ => true
  | .monitorCheckFire _ _ _ => true
  | .vlimSet _ _ => true
  | .vlimClear _ _ => true
  | .arm _ _ q _ => q.legal
  | .disarm _ _ q _ => q.legal
  | .start _ _ q _ => q.legal
  | .stop _ _ q _ => q.legal
  | .hold _ _ q _ => q.legal
  | .resume _ _ q _ => q.legal
  | .free _ _ q _ => q.legal
  | .asc _ _ q _ => q.legal
  | .axpCmdDue _ _ => true
  | .stopReachAsc _ _ => true
  | .estopActive _ _ => true
  | .axpCntClr _ _ q => q.legal
  | .quadEdge _ _ _ _ _ => true
  | .fbTickUpdate _ _ => true
  | .sensLost _ _ => true
  | .indexEdge _ _ _ => true
  | .hallFilterAccept _ _ _ => true
  | .speedWindowEnd _ _ => true
  | .fbCmpLoWrite _ _ q _ => q.legal
  | .fbEofsWrite _ _ q _ => q.legal
  | .fbEqWrite _ _ q _ _ => q.legal
  | .fbPosLoRead _ _ q => q.legal
  | .fbPosHiRead _ _ q => q.legal
  | .fbClrIdxCnt _ _ q => q.legal
  | .fbClrMiss _ _ q => q.legal
  | .eqReset _ _ q => q.legal
  | .obsReset _ _ q => q.legal
  | .qeoStep _ _ => true
  | .startOffTick _ _ => true
  | .startDecision _ _ => true
  | .startRampEnd _ _ => true
  | .fldClrCnt _ _ q => q.legal
  | .rsReset _ _ q => q.legal
  | .fldRsWrite _ _ q _ => q.legal
  | .fbLock _ _ q _ => q.legal
  | .fldLock _ _ q _ => q.legal
  | .pos _ _ q _ => q.legal
  | .vel _ _ q _ => q.legal
  | .track _ _ q _ => q.legal
  | .replan _ _ q _ => q.legal
  | .profCmdDue _ _ => true
  | .streamLost _ _ => true
  | .profCheckFire _ _ _ => true
  | .profAction _ _ => true
  | .loopTrigger _ _ _ => true
  | .loopRunStart _ _ => true
  | .leBudgetExpire _ _ _ => true
  | .leNop _ _ _ => true
  | .leEnd _ _ _ _ => true
  | .leLdi _ _ _ => true
  | .leLui _ _ _ => true
  | .leMov _ _ _ => true
  | .leLdd _ _ _ => true
  | .leStd _ _ _ => true
  | .leLds _ _ _ _ => true
  | .leSts _ _ _ _ => true
  | .leAdd _ _ _ => true
  | .leSub _ _ _ => true
  | .leAdds _ _ _ => true
  | .leSubs _ _ _ => true
  | .leMulq _ _ _ => true
  | .leNeg _ _ _ => true
  | .leAbs _ _ _ => true
  | .leMin _ _ _ => true
  | .leMax _ _ _ => true
  | .leClmp _ _ _ => true
  | .leShl _ _ _ => true
  | .leSar _ _ _ => true
  | .leClra _ _ _ => true
  | .leWra _ _ _ => true
  | .leRda _ _ _ => true
  | .leCas _ _ _ => true
  | .leMacw _ _ _ => true
  | .leMacp _ _ _ => true
  | .leOut _ _ _ => true
  | .leLut _ _ _ => true
  | .leReg _ _ _ _ => true
  | .leCmp _ _ _ => true
  | .leSel _ _ _ => true
  | .leBf _ _ _ => true
  | .leJmp _ _ _ => true
  | .leShare _ _ _ _ => true
  | .leCommit _ _ _ _ => true
  | .leWait _ _ _ _ => true
  | .leWaitRelease _ _ _ _ => true
  | .lePre _ _ _ => true
  | .leRds _ _ _ => true
  | .seal _ _ q => q.legal
  | .unseal _ _ q => q.legal
  | .swap _ _ q _ => q.legal
  | .bankCheckComplete _ _ _ => true
  | .swapTakeEffect _ _ => true
  | .leLock _ _ q _ => q.legal
  | .leCtlRun _ _ q _ => q.legal
  | .leClrCnt _ _ q => q.legal
  | .edgeCompareFire _ _ _ => true
  | .timebaseBoundary _ _ _ => true
  | .edgeUpdHoldWrite _ q _ _ => q.legal
  | .edgeModeWrite _ q _ _ => q.legal
  | .edgeLvlWrite _ q _ _ => q.legal
  | .pulseStart _ _ => true
  | .pulseEnd _ _ => true
  | .edgeHaltEnter _ => true
  | .edgeHaltRelease _ => true
  | .edgeLock _ q _ => q.legal
  | .edgeCalComplete _ _ _ _ _ => true
  | .dlStale _ _ => true
  | .edgeLoss _ => true
  | .gateWireEdge _ _ _ => true
  | .turnOnStart _ _ => true
  | .gatePrimeEnd _ _ => true
  | .gateFloatEnd _ _ _ _ => true
  | .gateWatchFault _ _ => true
  | .overrideEnable _ q _ => q.legal
  | .switchNodeCrossing _ _ _ _ _ => true
  | .edgeInstantReport _ _ => true
  | .refreshPulseStart _ _ => true
  | .refreshPulseEnd _ _ => true
  | .bsWarnChange _ _ _ => true
  | .bsLow _ _ => true
  | .bsLowRelease _ _ => true
  | .scThresholdUpdate _ _ _ => true
  | .scLs _ _ _ => true
  | .scDc _ _ _ => true
  | .chopperRequestChange _ _ => true
  | .chopFault _ _ => true
  | .hardOv _ _ => true
  | .hardOvClear _ _ => true
  | .vlinkUv _ _ => true
  | .vgUv _ => true
  | .ot _ _ => true
  | .extTrip _ _ => true
  | .lathLoss _ => true
  | .tripActionRelease _ _ => true
  | .tripFlagClear _ q _ _ => q.legal
  | .tripFlagReport _ => true
  | .laneLathLoss _ => true
  | .brgClrCnt _ q => q.legal
  | .primeReset _ q => q.legal
  | .brgLock _ q _ => q.legal
  | .bootExit _ => true
  | .identityCheck _ => true
  | .syncExit _ => true
  | .powerOnActivate _ => true
  | .soloStart _ => true
  | .suspectEnter _ _ => true
  | .suspectClear _ => true
  | .selfExclusion _ _ => true
  | .excludedEnter _ => true
  | .peerExclusion _ => true
  | .exclusionCauseAction l y _ => decide (y ≠ l)
  | .devMulti _ => true
  | .ownPlaus _ _ => true
  | .disagree2 _ _ => true
  | .rejoinHoldoffExpire _ => true
  | .rejoinTransferSend _ _ _ => true
  | .rejoinTransferReceived _ _ _ => true
  | .rejoinTransferTimeout _ => true
  | .shadowEnter _ => true
  | .admission l y => decide (y ≠ l)
  | .serviceEnter _ => true
  | .belayRecordSend _ => true
  | .belayRecordReceived _ _ _ => true
  | .belayKick _ q _ => q.legal
  | .wdg _ => true
  | .voteOutputChange _ => true
  | .voteRefreshTimeout _ => true
  | .voteClassChange _ _ _ _ => true
  | .llArmReceived _ => true
  | .lastLaneLatch _ => true
  | .voteReport _ => true
  | .voteLine l y => decide (y ≠ l)
  | .limpEnter _ => true
  | .stopRequest _ => true
  | .limpTimerExpire _ => true
  | .enterService _ q => q.legal
  | .leaveService _ q => q.legal
  | .selfExclude _ q => q.legal
  | .revive _ q => q.legal
  | .belayClrCnt _ q => q.legal
  | .ropeClrCnt _ q => q.legal
  | .resyncResetEnd _ => true
  | .resyncSelftestEnd _ _ => true
  | .resyncCopyComplete _ => true
  | .resyncBoundary _ => true
  | .resyncComplete _ _ _ => true
  | .comparatorTestDue _ _ => true
  | .comparatorTestForce _ _ => true
  | .triadClrCnt _ q => q.legal
  | .tstNow _ q => q.legal
  | .forceAbstain _ q => q.legal
  | .breakModeRequest _ q => q.legal
  | .debugHalt _ _ => true
  | .breakpointHit _ _ _ => true
  | .debugResume _ _ => true
  | .debugStep _ => true
  | .debugRegRead _ _ _ => true
  | .debugRegWrite _ _ _ _ _ => true
  | .debugMemAccess _ _ _ _ _ _ _ => true
  | .debugBreakpointSet _ _ _ _ => true
  | .add _ _ => true
  | .sub _ _ => true
  | .and _ _ => true
  | .or _ _ => true
  | .xor _ _ => true
  | .andn _ _ => true
  | .shl _ _ => true
  | .shr _ _ => true
  | .sar _ _ => true
  | .min _ _ => true
  | .max _ _ => true
  | .minu _ _ => true
  | .maxu _ _ => true
  | .clz _ _ => true
  | .sextb _ _ => true
  | .sexth _ _ => true
  | .mul _ _ => true
  | .mulh _ _ => true
  | .mulhu _ _ => true
  | .div _ _ => true
  | .divu _ _ => true
  | .rem _ _ => true
  | .remu _ _ => true
  | .adds _ _ => true
  | .subs _ _ => true
  | .negs _ _ => true
  | .abss _ _ => true
  | .mulq _ _ => true
  | .shls _ _ => true
  | .clmp _ _ => true
  | .rndh _ _ => true
  | .cmp _ _ => true
  | .cmpi _ _ => true
  | .pand _ _ => true
  | .por _ _ => true
  | .pxor _ _ => true
  | .pandn _ _ => true
  | .addi _ _ => true
  | .andi _ _ => true
  | .ori _ _ => true
  | .xori _ _ => true
  | .shiShl _ _ => true
  | .shiShr _ _ => true
  | .shiSar _ _ => true
  | .shiShls _ _ => true
  | .lui _ _ => true
  | .movi _ _ => true
  | .ldw _ _ => true
  | .ldh _ _ => true
  | .ldhu _ _ => true
  | .ldb _ _ => true
  | .ldbu _ _ => true
  | .stw _ _ => true
  | .sth _ _ => true
  | .stb _ _ => true
  | .swp _ _ => true
  | .sld _ _ => true
  | .sst _ _ => true
  | .sget _ _ => true
  | .spub _ _ => true
  | .br _ _ => true
  | .call _ _ => true
  | .jr _ _ => true
  | .jalr _ _ => true
  | .crr _ _ => true
  | .crw _ _ => true
  | .crs _ _ => true
  | .crc _ _ => true
  | .trap _ _ => true
  | .scall _ _ => true
  | .eret _ _ => true
  | .park _ _ => true
  | .bkpt _ _ _ => true
  | .interruptEntry _ _ _ => true
  | .parkWake _ _ _ => true
  | .cordeeFrameReceived _ _ bytes _ _ _ => decide (22 ≤ bytes.length ∧ bytes.length ≤ 276)
  | .windowEndTruncate _ => true
  | .arbGapClose _ => true
  | .arbForward _ _ => true
  | .txSample _ _ _ => true
  | .frameSend _ _ _ _ => true
  | .basicCycleBoundary _ _ => true
  | .listenTimeout _ => true
  | .coldstartSend _ _ => true
  | .coldstartWindowEnd _ => true
  | .anchorEnter _ => true
  | .starStartupTimeout _ => true
  | .relayReceived _ _ _ _ => true
  | .rxDecision _ _ _ => true
  | .networkLost _ _ => true
  | .networkRestored _ _ => true
  | .tc10Wake _ _ => true
  | .cdeClrCnt _ q => q.legal
  | .cdeLock _ q _ => q.legal
  | .mirrorRecordSend _ => true
  | .mirrorRecordReceived _ bytes _ _ => decide (bytes.length = 1024)
  | .installation _ => true
  | .verdictRead _ _ => true
  | .verdictExpire _ => true
  | .tetherLock _ q _ => q.legal
  | .tetherClrCnt _ q => q.legal
  | .testPulseStart _ _ => true
  | .testPulseEnd _ _ _ _ _ _ => true
  | .tpReadbackFail _ _ => true
  | .channelFilterChange _ _ _ => true
  | .discrepancyFault _ _ => true
  | .jogSimTimeout _ _ => true
  | .siuManualReset _ q _ => q.legal
  | .siuResetEffect _ => true
  | .siuClrCnt _ q => q.legal
  | .siuFaultClear _ q _ _ => q.legal
  | .siuRecordReceived _ _ _ => true
  | .siuLock _ q _ => q.legal
  | .supplySwitchToBackup _ _ _ => true
  | .supplyReturnMain _ _ _ => true
  | .inputOvervoltage _ _ => true
  | .inputReverse _ => true
  | .bothInputsLost _ => true
  | .holdUpTimeout _ => true
  | .pmicRequest _ => true
  | .pmicPoll _ => true
  | .pmicResponse _ _ => true
  | .pmicRetryTimeout _ => true
  | .iinPoll _ => true
  | .pmicFwRequest _ q _ => q.legal
  | .pgoodDrop _ => true
  | .pgoodRise _ => true
  | .oscReady _ => true
  | .avsRun _ => true
  | .gateRequest _ q _ => q.legal
  | .domainGate _ d => decide (2 ≤ d.val)
  | .domainWakeOnAccess _ _ _ => true
  | .domainReady _ _ => true
  | .deadlineWake _ _ => true
  | .sleepCommand _ => true
  | .sleepArmExpire _ => true
  | .sleepStepComplete _ => true
  | .wakeSourceFire _ _ _ => true
  | .wakeFail _ code => decide (code.val ≠ 0)
  | .wakeRetry _ => true
  | .wakeFailSleep _ => true
  | .restore _ q => q.legal
  | .svcIrq _ q => q.legal
  | .pwrClrCnt _ q => q.legal
  | .pwrLock _ q _ => q.legal
  | .budgetEval _ _ _ => true
  | .ridgeTaskTrigger _ _ => true
  | .ridgePost _ q _ => q.legal
  | .ridgeNext _ q => q.legal
  | .eccWriteback _ => true
  | .program _ q => q.legal
  | .erase _ q => q.legal
  | .blank _ q => q.legal
  | .nvmcOpComplete _ _ => true
  | .nvmcClrCnt _ q => q.legal
  | .watCntClr _ q => q.legal
  | .mboxStageWrite _ q _ => q.legal
  | .mboxPost _ q _ _ => q.legal
  | .mboxMsgRead _ q _ => q.legal
  | .mboxPtrRead _ q _ => q.legal
  | .semaAcquire _ q _ => q.legal
  | .semaRelease _ q _ => q.legal
  | .semaFree _ q _ => q.legal
  | .auth _ q _ => q.legal
  | .challenge _ q => q.legal
  | .makerAuth _ q => q.legal
  | .close _ q => q.legal
  | .pwSet _ q _ => q.legal
  | .calOpen _ q => q.legal
  | .calClose _ q => q.legal
  | .dbgOpen _ q => q.legal
  | .lcAdvance _ q => q.legal
  | .lcReenter _ q => q.legal
  | .retire _ q => q.legal
  | .logReset _ q => q.legal
  | .lcsLaneReset _ q => q.legal
  | .lcsOpComplete _ => true
  | .lockoutExpire _ role => decide (role.val ≠ 0)
  | .sessionIdleTimeout _ => true
  | .challengeExpire _ => true
  | .lcsLogSubWrite _ q _ => q.legal
  | .logAppend _ => true
  | .imgCheck _ q _ => q.legal
  | .imgActivate _ q _ => q.legal
  | .imgConfirm _ q => q.legal
  | .attest _ q => q.legal
  | .keySet _ q _ => q.legal
  | .keyRevoke _ q _ => q.legal
  | .secOpComplete _ => true
  | .secureBoot _ => true
  | .warmCheck _ => true
  | .bootSelftest _ => true
  | .bistRun _ q _ => q.legal
  | .bistAbort _ q => q.legal
  | .bistTestComplete _ _ _ _ _ _ rows => decide (rows.length ≤ 163)
  | .tetherLinkDown _ _ => true
  | .tetherLinkUp _ => true
  | .supplyInputReturn _ _ _ => true
  | .otClear _ _ => true
  | .vlinkUvClear _ _ => true
  | .extTripRelease _ _ => true
  | .vgUvClear _ => true

end Sys2Proof
end

