-- ==== Sys2Proof/Tests/Slice0.lean ====
section
/-! SUPPORT. Tests: the witnesses of the statements' hypotheses, an ill-formed command for each check of WellFormed, and a
few commands run once against values taken from the spec or from the published standards it names. -/

section

open Sys2Proof Sys2Proof.Machine

set_option Elab.async false

theorem allLanes {p : Lane → Prop} (h : p .a ∧ p .b ∧ p .c) : ∀ y, p y := by
  intro y; cases y
  · exact h.1
  · exact h.2.1
  · exact h.2.2

theorem allLinks {p : Link → Prop} (h : p .l0 ∧ p .l1) : ∀ k, p k := by
  intro k; cases k
  · exact h.1
  · exact h.2

/-- Reset, with lane A changed. -/
def tst (f : LaneState → LaneState) : State := State.reset.setLane .a (f State.reset.laneA)

/-- Job `j` is due and runs next. -/
def skimReady (L : LaneState) (j : Nat) : LaneState :=
  let L := { L with skim := { L.skim with due := [j] } }
  (L.setF R.skimCtl_en true).setF (R.skimJobCfg_en j) true

/-- A run of loop 0 that stands at word 0. -/
def lr : LeRun := { loop := 0, pc := 0, f := false, cycles := 4, period := 0, view := ⟨0, 0, 0, 0, 0⟩ }

/-- Engine `e` runs `r`, with word `w` at its pc and a budget of 1000 cycles for its loop. -/
def leSet (L : LaneState) (e : Nat) (r : LeRun) (w : Nat) : LaneState :=
  let L := L.setWord (leMem e + 4 * r.pc) (wordN w)
  let L := L.setWord (leData e (0x40 * r.loop + 4)) 1000
  L.mapLe e (fun E => { E with run := some r })

/-- A core of a running lane with word `w` at its pc. -/
def coreSet (L : LaneState) (i : Issue) (w : Nat) : LaneState :=
  let L := { L with pwr := { L.pwr with bootStep := 4 } }
  let L := L.setWord 0x10000000 (wordN w)
  L.mapCore i.core (fun C => { C with pc := 0x10000000 })

/-- An empty transfer of lane B. -/
def tr0 : Transfer := { sender := .b, period := 0, k := 0, axes := [], loops := [] }

/-- An empty frame on P1. -/
def f0 : StarFrame := ⟨0, [], true, 0, 0⟩


/-- A number and its pair with the second component written out. -/
theorem cascadeOk {α β : Type} {x : α × β} {y : β} (h : x.2 = y) : x = (x.1, y) := by cases x; simpa using h

theorem bytesFrom_setWord (L : LaneState) (a n b : Nat) (w : Word) (h : a + n ≤ b ∨ b + 4 ≤ a) :
    (L.setWord b w).bytesFrom a n = L.bytesFrom a n := by
  induction n generalizing a with
  | zero => rfl
  | succ n ih =>
    rw [LaneState.bytesFrom, LaneState.bytesFrom, ih (a + 1) (by omega), LaneState.setWord, LaneState.byte_store, if_neg (by omega)]

theorem word_setWord (L : LaneState) (a : Nat) (w : Word) : (L.setWord a w).word a = w := by
  rw [LaneState.word, LaneState.setWord, LaneState.load_store, show (256 : Nat) ^ 4 = 2 ^ 32 by norm_num, Nat.mod_eq_of_lt w.isLt,
    wordN_toNat]

theorem word_setWord_ne (L : LaneState) (a b : Nat) (w : Word) (h : a + 4 ≤ b ∨ b + 4 ≤ a) : (L.setWord b w).word a = L.word a := by
  have hb : ∀ j, a ≤ j → j < a + 4 → (L.setWord b w).byte j = L.byte j := fun j h1 h2 => by
    rw [LaneState.setWord, LaneState.byte_store, if_neg (by omega)]
  simp only [LaneState.word, LaneState.load, hb a (by omega) (by omega), hb (a + 1) (by omega) (by omega),
    hb (a + 1 + 1) (by omega) (by omega), hb (a + 1 + 1 + 1) (by omega) (by omega)]

/-- The check word of the contents of bank `b` of engine `e`. -/
def bankCrc (L : LaneState) (e b : Nat) : Word :=
  crc32 (L.bytesFrom (leBank e b) 0xBC ++ L.bytesFrom (leBank e b + 0xC0) 0xBF40)

theorem crc_setWord (L : LaneState) (a n b m : Nat) (w : Word) (h : a + n + 4 ≤ b) :
    (crc32 ((L.setWord (a + n) w).bytesFrom a n ++ (L.setWord (a + n) w).bytesFrom b m) == (L.setWord (a + n) w).word (a + n)) =
      (crc32 (L.bytesFrom a n ++ L.bytesFrom b m) == w) := by
  rw [bytesFrom_setWord _ _ _ _ _ (.inl (Nat.le_refl _)), bytesFrom_setWord _ _ _ _ _ (.inr h), word_setWord]

theorem bankOk_setWord (L : LaneState) (e b : Nat) (w : Word) :
    (L.setWord (leBank e b + 0xBC) w).bankOk e b = (bankCrc L e b == w) := by
  unfold LaneState.bankOk bankCrc
  exact crc_setWord L _ _ _ _ _ (by omega)

/-- Bank `b` of engine `e` with the check word of its own contents. -/
def bankSet (L : LaneState) (e b : Nat) : LaneState := L.setWord (leBank e b + 0xBC) (bankCrc L e b)

/-- Bank `b` of engine `e` with another check word. -/
def bankBad (L : LaneState) (e b : Nat) : LaneState := L.setWord (leBank e b + 0xBC) (bankCrc L e b + 1)

theorem bankOk_bankSet (L : LaneState) (e b : Nat) : (bankSet L e b).bankOk e b = true := by
  rw [bankSet, bankOk_setWord]; exact beq_self_eq_true _

theorem bankOk_bankBad (L : LaneState) (e b : Nat) : (bankBad L e b).bankOk e b = false := by
  rw [bankBad, bankOk_setWord]
  generalize bankCrc L e b = w
  exact beq_eq_false_iff_ne.mpr (by bv_omega)

theorem reg_setWord (L : LaneState) (a : Nat) (w : Word) (j : Nat) : (L.setWord a w).reg j = L.reg j := by
  simp [LaneState.setWord, LaneState.store]

theorem get_setWord (L : LaneState) (a : Nat) (w : Word) (f : RF) : (L.setWord a w).get f = L.get f := by
  unfold LaneState.get; rw [reg_setWord]

theorem le_setWord (L : LaneState) (a : Nat) (w : Word) (e : Nat) : (L.setWord a w).le e = L.le e := by
  simp [LaneState.setWord, LaneState.store, LaneState.setByte, LaneState.le]

theorem locks_setWord (L : LaneState) (a : Nat) (w : Word) : (L.setWord a w).locks = L.locks := by
  simp [LaneState.setWord, LaneState.store, LaneState.setByte]

/-- The retained record with the check word of its own contents. -/
def retSet (L : LaneState) : LaneState :=
  let L := L.setF R.cairnRet_valid true
  let L := L.setWord 0x2803FF04 (L.reg R.sysTick)
  L.setWord 0x2803FF5C (crc32 (L.bytesFrom 0x2803FF00 92))

theorem retSet_crc (L : LaneState) : crc32 ((retSet L).bytesFrom 0x2803FF00 92) = (retSet L).word 0x2803FF5C := by
  simp only [retSet, word_setWord]
  rw [bytesFrom_setWord _ _ _ _ _ (.inl (by omega))]

theorem retSet_tick (L : LaneState) : (retSet L).word 0x2803FF04 = (retSet L).reg R.sysTick := by
  simp only [retSet]
  rw [word_setWord_ne _ _ _ _ (.inl (by omega)), word_setWord, reg_setWord, reg_setWord]

theorem retSet_rev (L : LaneState) : (retSet L).word 0x2803FF08 = L.word 0x2803FF08 := by
  simp only [retSet]
  rw [word_setWord_ne _ _ _ _ (.inl (by omega)), word_setWord_ne _ _ _ _ (.inr (by omega))]
  rfl

theorem retSet_reg (L : LaneState) (j : Nat) : (retSet L).reg j = (L.setF R.cairnRet_valid true).reg j := by
  simp only [retSet, reg_setWord]

theorem retSet_locks (L : LaneState) : (retSet L).locks = L.locks := by simp only [retSet, locks_setWord]; rfl

theorem lane_setLane_a (s : State) (L : LaneState) : (s.setLane .a L).lane .a = L := by
  cases s; exact rfl

/-- Lane A at reset with the locks that a restore asks for. -/
def retL : LaneState :=
  { State.reset.laneA with locks := R.sysLock :: (List.range 4).flatMap (fun n => [R.fldLock n, R.fbLock n]) }

theorem retSet_ok : crc32 ((retSet retL).bytesFrom 0x2803FF00 92) = (retSet retL).word 0x2803FF5C ∧
    (retSet retL).word 0x2803FF04 = (retSet retL).reg R.sysTick ∧
    ((retSet retL).word 0x2803FF08).toNat = (retSet retL).compat ∧ (retSet retL).locked R.sysLock = true ∧
    (∀ n, n < 4 → (retSet retL).locked (R.fldLock n) = true ∧ (retSet retL).locked (R.fbLock n) = true) ∧
    (retSet retL).judge ⟨.dbg, true⟩ R.pwrCmd true 1#32 = none ∧ (retSet retL).is R.cairnRet_valid = true := by
  refine ⟨retSet_crc _, retSet_tick _, ?_, ?_, ?_, rfl, ?_⟩
  · rw [retSet_rev, LaneState.compat, retSet_reg]; decide +kernel
  · rw [LaneState.locked, retSet_locks]; decide +kernel
  · simp only [LaneState.locked, retSet_locks]; decide +kernel
  · rw [LaneState.is, LaneState.get, retSet_reg]; decide +kernel

theorem crc_ne (L : LaneState) (a n : Nat) :
    let M := L.setWord (a + n) (crc32 (L.bytesFrom a n) + 1)
    crc32 (M.bytesFrom a n) ≠ M.word (a + n) := by
  intro M
  rw [show M.bytesFrom a n = L.bytesFrom a n from bytesFrom_setWord _ _ _ _ _ (.inl (Nat.le_refl _)),
    show M.word (a + n) = _ from word_setWord _ _ _]
  generalize crc32 (L.bytesFrom a n) = w
  bv_omega

/-- The retained record with another check word than that of its contents. -/
def retBad (L : LaneState) : LaneState := L.setWord (0x2803FF00 + 92) (crc32 (L.bytesFrom 0x2803FF00 92) + 1)

theorem retBad_ok (L : LaneState) : (retBad L).judge ⟨.dbg, true⟩ R.pwrCmd true 1#32 = none ∧
    crc32 ((retBad L).bytesFrom 0x2803FF00 92) ≠ (retBad L).word 0x2803FF5C := ⟨rfl, crc_ne L _ _⟩

/-- Every line of a fresh bank is erased. -/
theorem erased_of_mem (L : LaneState) (h : L.mem = []) (a n : Nat) (ha : a + n ≤ 0x00810000) :
    (L.bytesFrom a n).all (fun x => x == Config.erasedByte) = true := by
  induction n generalizing a with
  | zero => rfl
  | succ n ih =>
    rw [LaneState.bytesFrom, List.all_cons, ih (a + 1) (by omega), LaneState.byte, h, Sparse.get, memReset, if_pos (by omega)]
    simp

/-- A receive map of `n` unused entries. -/
def rxMap (n : Nat) : List (Nat × Byte) := (List.range n).map (fun e => (0x20340802 + 16 * e, 0x18))

theorem get_rxMap (n j : Nat) (d : Byte) (h : j % 16 ≠ 2) : Sparse.get d (rxMap n) j = d := by
  have key : ∀ l : List Nat, Sparse.get d (l.map (fun e => (0x20340802 + 16 * e, (0x18 : Byte)))) j = d := by
    intro l
    induction l with
    | nil => rfl
    | cons e l ih => rw [List.map_cons, Sparse.get, if_neg (by omega), ih]
  exact key _

theorem get_rxMap_mode (n e : Nat) (d : Byte) (h : e < n) : Sparse.get d (rxMap n) (0x20340802 + 16 * e) = 0x18 := by
  have key : ∀ l : List Nat, e ∈ l → Sparse.get d (l.map (fun e => (0x20340802 + 16 * e, (0x18 : Byte)))) (0x20340802 + 16 * e) = 0x18 := by
    intro l
    induction l with
    | nil => simp
    | cons x l ih =>
      intro hx
      rw [List.map_cons, Sparse.get]
      by_cases hxe : x = e
      · simp [hxe]
      · rw [if_neg (by omega), ih (by simpa [Ne.symm hxe] using hx)]
  exact key _ (List.mem_range.mpr h)

theorem rxLegal_rxMap (L : LaneState) (n e : Nat) (h : L.mem = rxMap n) (he : e < n) : L.rxLegal e = true := by
  have hb : ∀ j, j ≠ 2 → j < 4 → L.byte (0x20340800 + 16 * e + j) = 0 := fun j h2 hj => by
    rw [LaneState.byte, h, get_rxMap _ _ _ (by omega), memReset, if_neg (by omega)]
  have h2 : L.byte (0x20340800 + 16 * e + 2) = 0x18 := by
    rw [LaneState.byte, h, show 0x20340800 + 16 * e + 2 = 0x20340802 + 16 * e by omega, get_rxMap_mode _ _ _ he]
  have hw : L.rxW e 0 = 0x180000 := by
    simp only [LaneState.rxW, LaneState.word, LaneState.load, Nat.mul_zero, Nat.add_zero, Nat.add_assoc] at *
    have h0 : L.byte (0x20340800 + 16 * e) = 0 := by simpa using hb 0 (by omega) (by omega)
    simp [h0, hb 1 (by omega) (by omega), h2, hb 3 (by omega) (by omega), wordN]
  simp [LaneState.rxLegal, LaneState.rxMode, hw, bits]

theorem wEn_rxMap (L : LaneState) (n w : Nat) (h : L.mem = rxMap n) : L.wEn w = false := by
  have hb : ∀ j, j < 4 → L.byte (0x20340004 + 16 * w + j) = 0 := fun j hj => by
    rw [LaneState.byte, h, get_rxMap _ _ _ (by omega), memReset, if_neg (by omega)]
  have hw : L.winW w 1 = 0 := by
    rw [LaneState.winW, show 0x20340000 + 16 * w + 4 * 1 = 0x20340004 + 16 * w by omega]
    have h0 : L.byte (0x20340004 + 16 * w) = 0 := by simpa using hb 0 (by omega)
    simp only [LaneState.word, LaneState.load, Nat.add_assoc] at *
    simp [h0, hb 1 (by omega), hb 2 (by omega), hb 3 (by omega), wordN]
  simp [LaneState.wEn, hw, bit]

/-- A receive map of unused entries is legal where the rest of the schedule is. -/
theorem cdeLegal_rxMap (L : LaneState) (h : L.mem = rxMap 512)
    (hr : (decide (1 ≤ L.cdeM ∧ L.cdeM ≤ 64) && decide (5000 ≤ L.cdeBc ∧ L.cdeBc ≤ 50000) &&
      decide (4 * L.cdeBc % L.tServo = 0) && (!L.is R.cdeCfg_anchor || L.is R.cdeCfg_star_en)) = true) : L.cdeLegal = true := by
  have hw : windows.all (fun w => !L.wEn w || L.winLegal w) = true :=
    List.all_eq_true.mpr fun w _ => by rw [wEn_rxMap L _ w h]; rfl
  have hc : (List.range L.cdeM).all L.cycleLegal = true :=
    List.all_eq_true.mpr fun i _ => by
      have ha : windows.filter (fun w => L.wActive w i) = [] := by
        simp [LaneState.wActive, wEn_rxMap L _ _ h]
      rw [LaneState.cycleLegal, ha]; rfl
  unfold LaneState.cdeLegal
  rw [hr, hw, hc, Bool.true_and, Bool.true_and, Bool.true_and]
  exact List.all_eq_true.mpr fun e he => rxLegal_rxMap L 512 e h (List.mem_range.mp he)

/-- Lane A at reset with one basic cycle of 5000 ticks and a receive map of unused entries. -/
def rxL : LaneState := 
  { (State.reset.laneA.setReg R.cdeCycle (wordN (5000 + 0x10000))).setF R.cdeCfg_node_id true with mem := rxMap 512 }

theorem rxL_ok : rxL.cdeLegal = true ∧ rxL.judge ⟨.triad, true⟩ R.cdeLock true 0xC1A5 = none ∧
    bits (0xC1A5 : Word).toNat 15 0 = 0xC1A5 ∧ rxL.locked R.cdeLock = false ∧ rxL.is R.cdeCfg_node_id = true := by
  refine ⟨cdeLegal_rxMap _ (by rw [rxL]) ?_, ?_⟩ <;> decide +kernel

theorem bytesFrom_mem (L M : LaneState) (h : L.mem = M.mem) (a n : Nat) : L.bytesFrom a n = M.bytesFrom a n := by
  induction n generalizing a with
  | zero => rfl
  | succ n ih => rw [LaneState.bytesFrom, LaneState.bytesFrom, ih, LaneState.byte, LaneState.byte, h]

theorem word_mem (L M : LaneState) (h : L.mem = M.mem) (a : Nat) : L.word a = M.word a := by
  simp only [LaneState.word, LaneState.load, LaneState.byte, h]

/-- A lane in boot, with no bank a candidate. -/
def bootL : LaneState :=
  let L := State.reset.laneA.put R.lcsState_lc 2
  { L with
    pwr := { L.pwr with bootStep := 4 }, lcs := { L.lcs with bootDone := true, bootFail := false }
    mem := [0, 1].flatMap (fun b => (List.range 16).flatMap (fun k => (List.range 4).map (fun j => (lineAddr b k + 4 + j, 0)))) }

/-- That lane with a warm record of the digest of its bank 0. -/
def warmL : LaneState := { bootL with aon := { bootL.aon with warm := some (0, bootL.imgDigest 0) } }

theorem warmL_ok : warmL.romReady = true ∧ warmL.warmValid = true ∧ warmL.aon.warm = some (0, warmL.imgDigest 0) ∧
    warmL.lcs.bootFail = false := by
  refine ⟨by decide +kernel, by decide +kernel, ?_, rfl⟩
  have h : warmL.mem = bootL.mem := by rw [warmL]
  rw [show warmL.imgDigest 0 = bootL.imgDigest 0 by
    simp only [LaneState.imgDigest, LaneState.imgLen, LaneState.hdr, word_mem _ _ h, bytesFrom_mem _ _ h]]
  rw [warmL]

/-- Witnesses of the hypotheses of `StepRunsFront`. -/
theorem wit_StepRunsFront :
    ∃ s : State, s.pending = [] :=
    ⟨State.reset, rfl⟩

/-- Witnesses of the hypotheses of `LinksKept`. -/
theorem wit_LinksKept :
    ∃ s t : State, s.LinksLegal ∧ step s = .next t ∧ s.flight .b .a ≠ [] :=
    ⟨State.reset.setFlight .b .a [.time 0], State.reset.setFlight .b .a [.time 0], allLanes ⟨allLanes (by
      decide +kernel), allLanes (by decide +kernel), allLanes (by decide +kernel)⟩, rfl, by decide +kernel⟩

/-- Witnesses of the hypotheses of `LanesKeepIdentity`. -/
theorem wit_LanesKeepIdentity :
    ∃ s t : State, (∀ l, (s.lane l).id = l) ∧ step s = .next t :=
    ⟨State.reset, State.reset, allLanes (by decide +kernel), rfl⟩

/-- Witnesses of the hypotheses of `CanonicalFormKept`. -/
theorem wit_CanonicalFormKept :
    ∃ s t : State, (∀ l, (s.lane l).wf = true) ∧ step s = .next t ∧ s.laneA.mem ≠ [] :=
    ⟨tst fun L => L.setWord 0x20000000 5, tst fun L => L.setWord 0x20000000 5, allLanes (by decide +kernel), rfl, by
      decide +kernel⟩

/-- Witnesses of the hypotheses of `SkimTable`. -/
theorem wit_SkimTable :
    (∃ (s : State) (l : Lane) (j : Fin 16), (s.lane l).is R.skimCtl_en = true ∧ (s.lane l).is (R.skimJobCfg_en j) =
      true ∧ (s.lane l).jobKind j ≠ 0 ∧ (s.lane l).get (R.skimJobCfg_period j) ≠ 0 ∧ (s.lane l).get
      (R.skimJobCfg_period j) ≤ (s.lane l).skim.since.get j ∧ j.val ∉ (s.lane l).skim.due ∧ (s.lane l).domainOn
      ((s.lane l).jobDomain j) = true) ∧
    (∃ (s : State) (l : Lane) (j : Fin 16), (s.lane l).is R.skimCtl_en = true ∧ (s.lane l).is (R.skimJobCfg_en j) =
      true ∧ (s.lane l).jobKind j ≠ 0 ∧ (s.lane l).get (R.skimJobCfg_period j) ≠ 0 ∧ (s.lane l).get
      (R.skimJobCfg_period j) ≤ (s.lane l).skim.since.get j ∧ (s.lane l).domainOn ((s.lane l).jobDomain j) = false) ∧
    (∃ (s : State) (l : Lane) (j : Fin 16), (s.lane l).is R.skimCtl_en = true ∧ (s.lane l).is (R.skimJobCfg_en j) =
      true ∧ (s.lane l).jobKind j ≠ 0 ∧ (s.lane l).get (R.skimJobCfg_period j) ≠ 0 ∧ (s.lane l).get
      (R.skimJobCfg_period j) ≤ (s.lane l).skim.since.get j ∧ j.val ∈ (s.lane l).skim.due ∧ (s.lane l).domainOn
      ((s.lane l).jobDomain j) = true) ∧
    (∃ (s : State) (l : Lane) (j : Fin 16), (s.lane l).skimNext j = true) ∧
    (∃ (s : State) (l : Lane) (j : Fin 16), (s.lane l).skimNext j = true ∧ (s.lane l).jobKind j = jkAdczero) ∧
    (∃ (s : State) (l : Lane) (q : Req) (en : Bool), (s.lane l).judge q R.skimCtl true (skimCtlWord en ((s.lane l).is
      R.skimCtl_hold) false) = none) ∧
    (∃ (s : State) (l : Lane) (q : Req) (hold : Bool), (s.lane l).judge q R.skimCtl true (skimCtlWord ((s.lane l).is
      R.skimCtl_en) hold false) = none) ∧
    (∃ (s : State) (l : Lane) (q : Req), (s.lane l).judge q R.skimCtl true (skimCtlWord ((s.lane l).is R.skimCtl_en)
      ((s.lane l).is R.skimCtl_hold) true) = none) :=
  ⟨
    ⟨(tst fun L => let L := L.setF R.skimCtl_en true; let L := L.setF (R.skimJobCfg_en (0 : Fin 16)) true;
      let L := L.put (R.skimJobCfg_kind (0 : Fin 16)) 1; let L := L.put (R.skimJobCfg_period (0 : Fin 16)) 1;
      let L := { L with skim := { L.skim with since := [(0, 5)] } }; L), .a, 0, by decide +kernel⟩,
    ⟨(tst fun L => let L := L.setF R.skimCtl_en true; let L := L.setF (R.skimJobCfg_en (0 : Fin 16)) true;
      let L := L.put (R.skimJobCfg_kind (0 : Fin 16)) 1; let L := L.put (R.skimJobCfg_period (0 : Fin 16)) 1;
      let L := { L with skim := { L.skim with since := [(0, 5)] } }; let L := L.put R.pwrState_pwr 0; L), .a, 0, by
      decide +kernel⟩,
    ⟨(tst fun L => let L := L.setF R.skimCtl_en true; let L := L.setF (R.skimJobCfg_en (0 : Fin 16)) true;
      let L := L.put (R.skimJobCfg_kind (0 : Fin 16)) 1; let L := L.put (R.skimJobCfg_period (0 : Fin 16)) 1;
      let L := { L with skim := { L.skim with since := [(0, 5)] } };
      let L := { L with skim := { L.skim with due := [(0 : Fin 16).val] } }; L), .a, 0, by decide +kernel⟩,
    ⟨(tst fun L => let L := skimReady L (0 : Fin 16); L), .a, 0, by decide +kernel⟩,
    ⟨(tst fun L => let L := skimReady L (0 : Fin 16); let L := L.put (R.skimJobCfg_kind (0 : Fin 16)) jkAdczero; L),
      .a, 0, by decide +kernel⟩,
    ⟨(tst id), .a, ⟨.triad, true⟩, true, by decide +kernel⟩,
    ⟨(tst id), .a, ⟨.triad, true⟩, true, by decide +kernel⟩,
    ⟨(tst id), .a, ⟨.triad, true⟩, by decide +kernel⟩⟩

/-- Witnesses of the hypotheses of `LaneTime`. -/
theorem wit_LaneTime :
    (∃ (s : State) (l : Lane) (q : Req) (w : Word), (s.lane l).judge q R.sysTick true w = none ∧ tickLegal (bits
      w.toNat 11 0) (bits w.toNat 20 16) (s.lane l).basicCycle = true ∧ (s.lane l).locked R.sysLock = false) ∧
    (∃ (s : State) (l : Lane) (q : Req) (w : Word), (s.lane l).judge q R.sysTick true w = none ∧ tickLegal (bits
      w.toNat 11 0) (bits w.toNat 20 16) (s.lane l).basicCycle = true ∧ (s.lane l).locked R.sysLock = true) ∧
    (∃ (s : State) (l : Lane) (q : Req) (w : Word), (s.lane l).judge q R.sysTick true w = none ∧ tickLegal (bits
      w.toNat 11 0) (bits w.toNat 20 16) (s.lane l).basicCycle = false) ∧
    (∃ (s : State) (l : Lane) (q : Req), (s.lane l).judge q R.sysTimeLo false 0#32 = none) ∧
    (∃ (s : State) (l : Lane) (q : Req), (s.lane l).judge q R.sysTimeHi false 0#32 = none) ∧
    (∃ (s : State) (l x y : Lane) (d : Int) (k : Nat), x ≠ y ∧ 4 ≤ k ∧ (s.lane l).time.heldAB = some (d, k) ∧ (x = .a
      ∧ y = .b ∨ x = .b ∧ y = .a)) ∧
    (∃ (s : State) (l x y : Lane) (d : Int) (k : Nat), x ≠ y ∧ 4 ≤ k ∧ (s.lane l).time.heldBC = some (d, k) ∧ (x = .b
      ∧ y = .c ∨ x = .c ∧ y = .b)) ∧
    (∃ (s : State) (l x y : Lane) (d : Int) (k : Nat), x ≠ y ∧ 4 ≤ k ∧ (s.lane l).time.heldCA = some (d, k) ∧ (x = .c
      ∧ y = .a ∨ x = .a ∧ y = .c)) ∧
    (∃ (s : State) (l y : Lane), 2 ≤ (s.lane l).time.beyond.get y.idx ∧ (s.lane l).bitOf R.sysAlignStat_exclude y.idx
      = false ∧ participates ((s.lane l).view y) = true) ∧
    (∃ (s : State) (l y : Lane), 16 ≤ (s.lane l).time.within.get y.idx) :=
  ⟨
    ⟨(tst id), .a, ⟨.triad, true⟩, 0xA03E8, by decide +kernel⟩,
    ⟨(tst fun L => let L := { L with locks := addTo R.sysLock L.locks }; let L := { L with locks := [R.sysLock] }; L),
      .a, ⟨.triad, true⟩, 0xA03E8, by decide +kernel⟩,
    ⟨(tst id), .a, ⟨.triad, true⟩, 0, by decide +kernel⟩,
    ⟨(tst id), .a, ⟨.triad, true⟩, by decide +kernel⟩,
    ⟨(tst id), .a, ⟨.triad, true⟩, by decide +kernel⟩,
    ⟨(tst fun L => let L := { L with time := { L.time with heldAB := some ((0 : Int), (4 : Nat)) } }; L), .a, .a, .b,
      0, 4, by decide +kernel⟩,
    ⟨(tst fun L => let L := { L with time := { L.time with heldBC := some ((0 : Int), (4 : Nat)) } }; L), .a, .b, .c,
      0, 4, by decide +kernel⟩,
    ⟨(tst fun L => let L := { L with time := { L.time with heldCA := some ((0 : Int), (4 : Nat)) } }; L), .a, .c, .a,
      0, 4, by decide +kernel⟩,
    ⟨(tst fun L => let L := { L with time := { L.time with beyond := (L.time.beyond).set (.b : Lane).idx 2 } };
      let L := L.setBit R.sysAlignStat_exclude (.b : Lane).idx false; let L := L.put (viewField (.b : Lane)) bsActive;
      L), .a, .b, by decide +kernel⟩,
    ⟨(tst fun L => let L := { L with time := { L.time with within := (L.time.within).set (.b : Lane).idx 16 } }; L),
      .a, .b, by decide +kernel⟩⟩

/-- Witnesses of the hypotheses of `RopeTime`. -/
theorem wit_RopeTime :
    (∃ (s : State) (l : Lane), (s.lane l).linkUp .l0 = true ∧ (s.lane l).linkUp .l1 = true) ∧
    (∃ (s : State) (l : Lane), (s.lane l).linkUp .l0 = false ∧ (s.lane l).linkUp .l1 = false) ∧
    (∃ (s : State) (l : Lane) (k : Link) (p : Nat) (rest : List RopeMsg), s.arriving (l.peer k) l = .time p :: rest) ∧
    (∃ (s : State) (l : Lane) (tx txp rx rxp tx1 tx1p rx1 rx1p : Nat), (s.lane l).linkUp .l0 = true ∧ (s.lane
      l).linkUp .l1 = true ∧ (s.lane l).id = l ∧ ((s.lane l).link .l0).ownTx = some (tx, txp) ∧ ((s.lane l).link
      .l0).ownRx = some (rx, rxp, true) ∧ ((s.lane l).link .l1).ownTx = some (tx1, tx1p) ∧ ((s.lane l).link .l1).ownRx
      = some (rx1, rx1p, true)) ∧
    (∃ (s : State) (l : Lane) (k : Link) (p tx rx xTx xRx : Nat) (rest : List RopeMsg), s.arriving (l.peer k) l =
      .timeReport p p p tx rx none :: rest ∧ p = (s.lane l).pnum % 65536 ∧ ((s.lane l).link k).ownTx = some (xTx, p) ∧
      ((s.lane l).link k).ownRx = some (xRx, p, true) ∧ 1280 ≤ (pairMeasure xTx xRx tx rx).2 ∧ (pairMeasure xTx xRx tx
      rx).2 ≤ 10240 ∧ (s.lane l).id = l) ∧
    (∃ (s : State) (l : Lane) (k : Link) (p txp rxp tx rx : Nat) (third : Option Int) (rest : List RopeMsg),
      s.arriving (l.peer k) l = .timeReport p txp rxp tx rx third :: rest ∧ p ≠ (s.lane l).pnum % 65536) ∧
    (∃ (s : State) (l : Lane) (k : Link) (t c i : Word) (lc : Nat) (sp : Bool) (rest : List RopeMsg), s.arriving
      (l.peer k) l = .tickParam t c i lc sp :: rest) :=
  ⟨
    ⟨(tst fun L => let L := L.setF (linkUpF .l0) true; let L := L.setF (linkUpF .l1) true; L), .a, by decide +kernel⟩,
    ⟨(tst fun L => let L := L.setF (linkUpF .l0) false; let L := L.setF (linkUpF .l1) false; L), .a, by
      decide +kernel⟩,
    ⟨((tst id).setFlight (Lane.peer .a (.l0 : Link)) .a [.time (0 : Nat)]), .a, .l0, 0, ([]), by decide +kernel⟩,
    ⟨(tst fun L => let L := L.setF (linkUpF .l0) true; let L := L.setF (linkUpF .l1) true;
      let L := L.mapLink .l0 (fun X => { X with ownTx := some ((0 : Nat), (0 : Nat)) });
      let L := L.mapLink .l0 (fun X => { X with ownRx := some ((0 : Nat), (0 : Nat), true) });
      let L := L.mapLink .l1 (fun X => { X with ownTx := some ((0 : Nat), (0 : Nat)) });
      let L := L.mapLink .l1 (fun X => { X with ownRx := some ((0 : Nat), (0 : Nat), true) }); L), .a, 0, 0, 0, 0, 0,
      0, 0, 0, by decide +kernel⟩,
    ⟨((tst fun L => let L := L.mapLink (.l0 : Link) (fun X => { X with ownTx := some ((0 : Nat), (0 : Nat)) });
      let L := L.mapLink (.l0 : Link) (fun X => { X with ownRx := some ((2000 : Nat), (0 : Nat), true) });
      L).setFlight (Lane.peer .a (.l0 : Link)) .a [.timeReport (0 : Nat) (0 : Nat) (0 : Nat) (0 : Nat) (0 : Nat)
      none]), .a, .l0, 0, 0, 0, 0, 2000, ([]), by decide +kernel⟩,
    ⟨((tst id).setFlight (Lane.peer .a (.l0 : Link)) .a [.timeReport (1 : Nat) (0 : Nat) (0 : Nat) (0 : Nat) (0 : Nat)
      (none : Option Int)]), .a, .l0, 1, 0, 0, 0, 0, none, ([]), by decide +kernel⟩,
    ⟨((tst id).setFlight (Lane.peer .a (.l0 : Link)) .a [.tickParam (0 : Word) (0 : Word) (0 : Word) (0 : Nat) (true :
      Bool)]), .a, .l0, 0, 0, 0, 0, true, ([]), by decide +kernel⟩⟩

/-- Witnesses of the hypotheses of `RopeBlocks`. -/
theorem wit_RopeBlocks :
    (∃ (s : State) (l : Lane) (k : Link) (b : TxBlock) (rest : List TxBlock), ((s.lane l).link k).waiting = b :: rest
      ∧ (s.lane l).linkUp k = true ∧ b.msg.legal l = true) ∧
    (∃ (s : State) (l : Lane) (k : Link), ((s.lane l).link k).waiting = []) ∧
    (∃ (s : State) (l : Lane) (k : Link), (s.lane l).linkUp k = true) ∧
    (∃ (s : State) (l : Lane) (k : Link), (s.lane l).linkUp k = true ∧ (s.lane l).ropeErrLim < ((s.lane l).link
      k).errs) ∧
    (∃ (s : State) (l : Lane) (k : Link), (s.lane l).linkUp k = false ∧ atLeast1 ((s.lane l).get R.ropeCfg_up_n) ≤
      ((s.lane l).link k).cleanRun) ∧
    (∃ (s : State) (l : Lane) (q : Req), (s.lane l).judge q R.ropeCmd true 1#32 = none) ∧
    (∃ (s : State) (l : Lane) (k : Link) (start : Nat) (ws : List Word) (rest : List RopeMsg), s.arriving (l.peer k) l
      = .block start ws :: rest ∧ blockKind (start - segBase (l.peer k)) = .other) ∧
    (∃ (s : State) (l : Lane) (k : Link) (start : Nat) (ws : List Word) (rest : List RopeMsg), s.arriving (l.peer k) l
      = .block start ws :: rest) ∧
    (∃ (s : State) (l : Lane) (k : Link) (start : Nat) (ws : List Word) (rest : List RopeMsg), s.arriving (l.peer k) l
      = .block start ws :: rest ∧ blockKind (start - segBase (l.peer k)) = .siu) :=
  ⟨
    ⟨(tst
      fun L => let L := L.mapLink (.l0 : Link) (fun X => { X with waiting := (⟨2, .idle⟩ : TxBlock) :: ([] : List TxBlock) });
      let L := L.setF (linkUpF (.l0 : Link)) true; L), .a, .l0, ⟨2, .idle⟩, ([]), by decide +kernel⟩,
    ⟨(tst fun L => let L := L.mapLink (.l0 : Link) (fun X => { X with waiting := [] }); L), .a, .l0, by
      decide +kernel⟩,
    ⟨(tst fun L => let L := L.setF (linkUpF (.l0 : Link)) true; L), .a, .l0, by decide +kernel⟩,
    ⟨(tst fun L => let L := L.setF (linkUpF (.l0 : Link)) true;
      let L := L.mapLink (.l0 : Link) (fun X => { X with errs := 100000 }); L), .a, .l0, by decide +kernel⟩,
    ⟨(tst fun L => let L := L.setF (linkUpF (.l0 : Link)) false;
      let L := L.mapLink (.l0 : Link) (fun X => { X with cleanRun := 100000 }); L), .a, .l0, by decide +kernel⟩,
    ⟨(tst id), .a, ⟨.triad, true⟩, by decide +kernel⟩,
    ⟨((tst id).setFlight (Lane.peer .a (.l0 : Link)) .a [.block (0x32100 : Nat) ([5] : List Word)]), .a, .l0, 0x32100,
      ([5]), ([]), by decide +kernel⟩,
    ⟨((tst id).setFlight (Lane.peer .a (.l0 : Link)) .a [.block (0x32100 : Nat) ([5] : List Word)]), .a, .l0, 0x32100,
      ([5]), ([]), by decide +kernel⟩,
    ⟨((tst id).setFlight (Lane.peer .a (.l0 : Link)) .a [.block (0x32060 : Nat) ([5] : List Word)]), .a, .l0, 0x32060,
      ([5]), ([]), by decide +kernel⟩⟩

/-- Witnesses of the hypotheses of `CoreAlu`. -/
theorem wit_CoreAlu :
    ∀ x ∈ ([(.add, 0x00044300), (.sub, 0x00044301), (.and, 0x00044302), (.or, 0x00044303), (.xor, 0x00044304), (.andn,
      0x00044305), (.shl, 0x00044306), (.shr, 0x00044307), (.sar, 0x00044308), (.min, 0x00044309), (.max, 0x0004430A),
      (.minu, 0x0004430B), (.maxu, 0x0004430C), (.clz, 0x0004430D), (.sextb, 0x0004430E), (.sexth, 0x0004430F),
      (.addi, 0x28044000), (.andi, 0x30044000), (.ori, 0x38044000), (.xori, 0x40044000), (.shiShl, 0x48044000),
      (.shiShr, 0x48044020), (.shiSar, 0x48044040), (.shiShls, 0x48044060), (.movi, 0x60044000), (.lui, 0x58044000)] :
      List (CoreOp × Nat)), ∃ (s : State) (l : Lane) (i : Issue), (s.lane l).Fires i x.1 x.2 :=
    by intro x hx; exact ⟨(tst fun L => coreSet L ⟨.tc0, .agree, .ok, .ok, 0⟩ x.2), .a, ⟨.tc0, .agree, .ok, .ok, 0⟩,
      by unfold LaneState.Fires LaneState.Ready; revert x; decide +kernel⟩

/-- Witnesses of the hypotheses of `CoreMulFix`. -/
theorem wit_CoreMulFix :
    ∀ x ∈ ([(.mul, 0x08044300), (.mulh, 0x08044301), (.mulhu, 0x08044302), (.div, 0x08044308), (.divu, 0x08044309),
      (.rem, 0x0804430A), (.remu, 0x0804430B), (.adds, 0x10044300), (.subs, 0x10044301), (.negs, 0x10044302), (.abss,
      0x10044303), (.mulq, 0x10044304), (.shls, 0x10044305), (.clmp, 0x10044306), (.rndh, 0x10044307)] : List (CoreOp
      × Nat)), ∃ (s : State) (l : Lane) (i : Issue), (s.lane l).Fires i x.1 x.2 :=
    by intro x hx; exact ⟨(tst fun L => coreSet L ⟨.tc0, .agree, .ok, .ok, 0⟩ x.2), .a, ⟨.tc0, .agree, .ok, .ok, 0⟩,
      by unfold LaneState.Fires LaneState.Ready; revert x; decide +kernel⟩

/-- Witnesses of the hypotheses of `CorePredicates`. -/
theorem wit_CorePredicates :
    (∃ (s : State) (l : Lane) (i : Issue) (w : Nat), (s.lane l).Ready i .add w ∧ ((s.lane l).core i.core).squashes w =
      true) ∧
    (∀ x ∈ ([(.cmp, 0x18044300), (.cmpi, 0x50044000), (.pand, 0x20044300), (.por, 0x20044301), (.pxor, 0x20044302),
      (.pandn, 0x20044303)] : List (CoreOp × Nat)), ∃ (s : State) (l : Lane) (i : Issue), (s.lane l).Fires i x.1 x.2) :=
  ⟨
    ⟨(tst fun L => let L := coreSet L (⟨.tc0, .agree, .ok, .ok, 0⟩ : Issue) (0x4040300 : Nat); L), .a, ⟨.tc0, .agree,
      .ok, .ok, 0⟩, 0x4040300, by unfold LaneState.Ready; decide +kernel, by decide +kernel⟩,
    by intro x hx; exact ⟨(tst fun L => coreSet L ⟨.tc0, .agree, .ok, .ok, 0⟩ x.2), .a, ⟨.tc0, .agree, .ok, .ok, 0⟩,
      by unfold LaneState.Fires LaneState.Ready; revert x; decide +kernel⟩⟩

/-- Witnesses of the hypotheses of `CoreMemory`. -/
theorem wit_CoreMemory :
    (∃ (s : State) (l : Lane) (i : Issue) (w : Nat), (s.lane l).Fires i .ldw w ∧ (s.lane l).Passes i (((s.lane l).core
      i.core).memAddr .ldw w) 4 false 0) ∧
    (∃ (s : State) (l : Lane) (i : Issue) (w : Nat), (s.lane l).Fires i .ldh w ∧ (s.lane l).Passes i (((s.lane l).core
      i.core).memAddr .ldh w) 2 false 0) ∧
    (∃ (s : State) (l : Lane) (i : Issue) (w : Nat), (s.lane l).Fires i .ldhu w ∧ (s.lane l).Passes i (((s.lane
      l).core i.core).memAddr .ldhu w) 2 false 0) ∧
    (∃ (s : State) (l : Lane) (i : Issue) (w : Nat), (s.lane l).Fires i .ldb w ∧ (s.lane l).Passes i (((s.lane l).core
      i.core).memAddr .ldb w) 1 false 0) ∧
    (∃ (s : State) (l : Lane) (i : Issue) (w : Nat), (s.lane l).Fires i .ldbu w ∧ (s.lane l).Passes i (((s.lane
      l).core i.core).memAddr .ldbu w) 1 false 0) ∧
    (∃ (s : State) (l : Lane) (i : Issue) (w : Nat), (s.lane l).Fires i .stw w ∧ (s.lane l).Passes i (((s.lane l).core
      i.core).memAddr .stw w) 4 true (wordN ((s.lane l).laneWord (((s.lane l).core i.core).memAddr .stw w) 4
      ((((s.lane l).core i.core).gr (fD w)).toNat % 2 ^ 32)))) ∧
    (∃ (s : State) (l : Lane) (i : Issue) (w : Nat), (s.lane l).Fires i .sth w ∧ (s.lane l).Passes i (((s.lane l).core
      i.core).memAddr .sth w) 2 true (wordN ((s.lane l).laneWord (((s.lane l).core i.core).memAddr .sth w) 2
      ((((s.lane l).core i.core).gr (fD w)).toNat % 2 ^ 16)))) ∧
    (∃ (s : State) (l : Lane) (i : Issue) (w : Nat), (s.lane l).Fires i .stb w ∧ (s.lane l).Passes i (((s.lane l).core
      i.core).memAddr .stb w) 1 true (wordN ((s.lane l).laneWord (((s.lane l).core i.core).memAddr .stb w) 1
      ((((s.lane l).core i.core).gr (fD w)).toNat % 2 ^ 8)))) ∧
    (∃ (s : State) (l : Lane) (i : Issue) (w : Nat), (s.lane l).Fires i .swp w ∧ (s.lane l).Passes i (((s.lane l).core
      i.core).memAddr .swp w) 4 true (((s.lane l).core i.core).gr (fB w))) ∧
    (∃ (s : State) (l : Lane) (i : Issue) (w : Nat), (s.lane l).Fires i .sld w ∧ (s.lane l).SigOpen i (bits w 17 0) 1
      false [] ∧ i.dataEcc = .ok) ∧
    (∃ (s : State) (l : Lane) (i : Issue) (w : Nat), (s.lane l).Fires i .sst w ∧ (s.lane l).SigOpen i (bits w 17 0) 1
      true [((s.lane l).core i.core).gr (fD w)] ∧ 0x10000 ≤ bits w 17 0 ∧ bits w 17 0 < 0x30000) ∧
    (∃ (s : State) (l : Lane) (i : Issue) (w : Nat), (s.lane l).Fires i .sget w ∧ (s.lane l).SigOpen i (bits (((s.lane
      l).core i.core).gr (fA w)).toNat 17 0) (bits w 3 0 + 1) false [] ∧ i.dataEcc = .ok ∧ bits w 3 0 < 8 ∧ fD w +
      bits w 3 0 < 32 ∧ bits (((s.lane l).core i.core).gr (fA w)).toNat 17 0 + bits w 3 0 < 0x40000) ∧
    (∃ (s : State) (l : Lane) (i : Issue) (w : Nat), (s.lane l).Fires i .spub w ∧ (s.lane l).SigOpen i (bits (((s.lane
      l).core i.core).gr (fA w)).toNat 17 0) (bits w 3 0 + 1) true (((s.lane l).core i.core).grs (fB w) (bits w 3 0 +
      1)) ∧ bits w 3 0 < 8 ∧ fB w + bits w 3 0 < 32 ∧ 0x10000 ≤ bits (((s.lane l).core i.core).gr (fA w)).toNat 17 0 ∧
      bits (((s.lane l).core i.core).gr (fA w)).toNat 17 0 + bits w 3 0 < 0x30000) ∧
    (∃ (s : State) (l : Lane) (i : Issue) (w : Nat), (s.lane l).Fires i .ldw w ∧ ((s.lane l).core i.core).memAddr .ldw
      w % 4 ≠ 0 ∧ ((s.lane l).core i.core).crBit crStatus 4 = false) :=
  ⟨
    ⟨(tst fun L => let L := coreSet L (⟨.tc0, .agree, .ok, .ok, 0⟩ : Issue) (0x68044000 : Nat);
      let L := L.mapCore (⟨.tc0, .agree, .ok, .ok, 0⟩ : Issue).core (fun X => { X with g := [(2, 0x20000000)] }); L),
      .a, ⟨.tc0, .agree, .ok, .ok, 0⟩, 0x68044000, by unfold LaneState.Fires LaneState.Ready; decide +kernel,
      by unfold LaneState.Passes; decide +kernel⟩,
    ⟨(tst fun L => let L := coreSet L (⟨.tc0, .agree, .ok, .ok, 0⟩ : Issue) (0x70044000 : Nat);
      let L := L.mapCore (⟨.tc0, .agree, .ok, .ok, 0⟩ : Issue).core (fun X => { X with g := [(2, 0x20000000)] }); L),
      .a, ⟨.tc0, .agree, .ok, .ok, 0⟩, 0x70044000, by unfold LaneState.Fires LaneState.Ready; decide +kernel,
      by unfold LaneState.Passes; decide +kernel⟩,
    ⟨(tst fun L => let L := coreSet L (⟨.tc0, .agree, .ok, .ok, 0⟩ : Issue) (0x78044000 : Nat);
      let L := L.mapCore (⟨.tc0, .agree, .ok, .ok, 0⟩ : Issue).core (fun X => { X with g := [(2, 0x20000000)] }); L),
      .a, ⟨.tc0, .agree, .ok, .ok, 0⟩, 0x78044000, by unfold LaneState.Fires LaneState.Ready; decide +kernel,
      by unfold LaneState.Passes; decide +kernel⟩,
    ⟨(tst fun L => let L := coreSet L (⟨.tc0, .agree, .ok, .ok, 0⟩ : Issue) (0x80044000 : Nat);
      let L := L.mapCore (⟨.tc0, .agree, .ok, .ok, 0⟩ : Issue).core (fun X => { X with g := [(2, 0x20000000)] }); L),
      .a, ⟨.tc0, .agree, .ok, .ok, 0⟩, 0x80044000, by unfold LaneState.Fires LaneState.Ready; decide +kernel,
      by unfold LaneState.Passes; decide +kernel⟩,
    ⟨(tst fun L => let L := coreSet L (⟨.tc0, .agree, .ok, .ok, 0⟩ : Issue) (0x88044000 : Nat);
      let L := L.mapCore (⟨.tc0, .agree, .ok, .ok, 0⟩ : Issue).core (fun X => { X with g := [(2, 0x20000000)] }); L),
      .a, ⟨.tc0, .agree, .ok, .ok, 0⟩, 0x88044000, by unfold LaneState.Fires LaneState.Ready; decide +kernel,
      by unfold LaneState.Passes; decide +kernel⟩,
    ⟨(tst fun L => let L := coreSet L (⟨.tc0, .agree, .ok, .ok, 0⟩ : Issue) (0x90044000 : Nat);
      let L := L.mapCore (⟨.tc0, .agree, .ok, .ok, 0⟩ : Issue).core (fun X => { X with g := [(2, 0x20000000)] }); L),
      .a, ⟨.tc0, .agree, .ok, .ok, 0⟩, 0x90044000, by unfold LaneState.Fires LaneState.Ready; decide +kernel,
      by unfold LaneState.Passes; decide +kernel⟩,
    ⟨(tst fun L => let L := coreSet L (⟨.tc0, .agree, .ok, .ok, 0⟩ : Issue) (0x98044000 : Nat);
      let L := L.mapCore (⟨.tc0, .agree, .ok, .ok, 0⟩ : Issue).core (fun X => { X with g := [(2, 0x20000000)] }); L),
      .a, ⟨.tc0, .agree, .ok, .ok, 0⟩, 0x98044000, by unfold LaneState.Fires LaneState.Ready; decide +kernel,
      by unfold LaneState.Passes; decide +kernel⟩,
    ⟨(tst fun L => let L := coreSet L (⟨.tc0, .agree, .ok, .ok, 0⟩ : Issue) (0xa0044000 : Nat);
      let L := L.mapCore (⟨.tc0, .agree, .ok, .ok, 0⟩ : Issue).core (fun X => { X with g := [(2, 0x20000000)] }); L),
      .a, ⟨.tc0, .agree, .ok, .ok, 0⟩, 0xa0044000, by unfold LaneState.Fires LaneState.Ready; decide +kernel,
      by unfold LaneState.Passes; decide +kernel⟩,
    ⟨(tst fun L => let L := coreSet L (⟨.tc0, .agree, .ok, .ok, 0⟩ : Issue) (0xa8044300 : Nat);
      let L := L.mapCore (⟨.tc0, .agree, .ok, .ok, 0⟩ : Issue).core (fun X => { X with g := [(2, 0x20000000)] }); L),
      .a, ⟨.tc0, .agree, .ok, .ok, 0⟩, 0xa8044300, by unfold LaneState.Fires LaneState.Ready; decide +kernel,
      by unfold LaneState.Passes; decide +kernel⟩,
    ⟨(tst fun L => let L := coreSet L (⟨.tc0, .agree, .ok, .ok, 0⟩ : Issue) (0xb0000000 : Nat); L), .a, ⟨.tc0, .agree,
      .ok, .ok, 0⟩, 0xb0000000, by unfold LaneState.Fires LaneState.Ready; decide +kernel,
      by unfold LaneState.SigOpen; exact ⟨by decide +kernel, by decide +kernel, allLanes (by decide +kernel), by
      decide +kernel⟩, by decide +kernel⟩,
    ⟨(tst fun L => let L := coreSet L (⟨.tc0, .agree, .ok, .ok, 0⟩ : Issue) (0xB8460000 : Nat); L), .a, ⟨.tc0, .agree,
      .ok, .ok, 0⟩, 0xB8460000, by unfold LaneState.Fires LaneState.Ready; decide +kernel,
      by unfold LaneState.SigOpen; exact ⟨by decide +kernel, by decide +kernel, allLanes (by decide +kernel), by
      decide +kernel⟩, by decide +kernel⟩,
    ⟨(tst fun L => let L := coreSet L (⟨.tc0, .agree, .ok, .ok, 0⟩ : Issue) (0xc0044300 : Nat); L), .a, ⟨.tc0, .agree,
      .ok, .ok, 0⟩, 0xc0044300, by unfold LaneState.Fires LaneState.Ready; decide +kernel,
      by unfold LaneState.SigOpen; exact ⟨by decide +kernel, by decide +kernel, allLanes (by decide +kernel), by
      decide +kernel⟩, by decide +kernel⟩,
    ⟨(tst fun L => let L := coreSet L (⟨.tc0, .agree, .ok, .ok, 0⟩ : Issue) (0xc0044310 : Nat);
      let L := L.mapCore (⟨.tc0, .agree, .ok, .ok, 0⟩ : Issue).core (fun X => { X with g := [(2, 0x20000)] }); L), .a,
      ⟨.tc0, .agree, .ok, .ok, 0⟩, 0xc0044310, by unfold LaneState.Fires LaneState.Ready; decide +kernel,
      by unfold LaneState.SigOpen; exact ⟨by decide +kernel, by decide +kernel, allLanes (by decide +kernel), by
      decide +kernel⟩, by decide +kernel⟩,
    ⟨(tst fun L => let L := coreSet L (⟨.tc0, .agree, .ok, .ok, 0⟩ : Issue) (0x68044000 : Nat);
      let L := L.mapCore (⟨.tc0, .agree, .ok, .ok, 0⟩ : Issue).core (fun X => { X with g := [(2, 1)] }); L), .a,
      ⟨.tc0, .agree, .ok, .ok, 0⟩, 0x68044000, by unfold LaneState.Fires LaneState.Ready; decide +kernel, by
      decide +kernel⟩⟩

/-- Witnesses of the hypotheses of `CoreTransfers`. -/
theorem wit_CoreTransfers :
    (∃ (s : State) (l : Lane) (i : Issue) (w : Nat), (s.lane l).Fires i .br w) ∧
    (∃ (s : State) (l : Lane) (i : Issue) (w : Nat), (s.lane l).Fires i .call w) ∧
    (∃ (s : State) (l : Lane) (i : Issue) (w : Nat), (s.lane l).Fires i .jr w) ∧
    (∃ (s : State) (l : Lane) (i : Issue) (w : Nat), (s.lane l).Fires i .jalr w) ∧
    (∃ (s : State) (l : Lane) (i : Issue) (w : Nat), (s.lane l).Fires i .crr w ∧ bits w 10 0 ≤ 0x010 ∧ bits w 10 0 ≠
      crCycleLo ∧ (((s.lane l).core i.core).priv = true ∨ bits w 10 0 = crCid ∨ bits w 10 0 = crPred ∨ bits w 10 0 =
      crCycleHi)) ∧
    (∃ (s : State) (l : Lane) (i : Issue) (w : Nat), (s.lane l).Fires i .crr w ∧ bits w 10 0 = crCycleLo) ∧
    (∃ (s : State) (l : Lane) (i : Issue) (w : Nat), (s.lane l).Fires i .crw w ∧ bits w 10 0 ≤ 0x010 ∧ bits w 10 0 ≠
      crCycleLo ∧ ((s.lane l).core i.core).priv = true) ∧
    (∃ (s : State) (l : Lane) (i : Issue) (w : Nat), (s.lane l).Fires i .crs w ∧ bits w 10 0 ≤ 0x010 ∧ bits w 10 0 ≠
      crCycleLo ∧ bits w 10 0 ≠ crIpend ∧ ((s.lane l).core i.core).priv = true) ∧
    (∃ (s : State) (l : Lane) (i : Issue) (w : Nat), (s.lane l).Fires i .crc w ∧ bits w 10 0 ≤ 0x010 ∧ bits w 10 0 ≠
      crCycleLo ∧ bits w 10 0 ≠ crIpend ∧ bits w 10 0 ≠ crPmode ∧ ((s.lane l).core i.core).priv = true) ∧
    (∃ (s : State) (l : Lane) (i : Issue) (w : Nat), (s.lane l).Fires i .crw w ∧ bits w 10 0 ≤ 0x010 ∧ ((s.lane
      l).core i.core).priv = false ∧ ((s.lane l).core i.core).crBit crStatus 4 = false) :=
  ⟨
    ⟨(tst fun L => let L := coreSet L (⟨.tc0, .agree, .ok, .ok, 0⟩ : Issue) (0xc8000000 : Nat); L), .a, ⟨.tc0, .agree,
      .ok, .ok, 0⟩, 0xc8000000, by unfold LaneState.Fires LaneState.Ready; decide +kernel⟩,
    ⟨(tst fun L => let L := coreSet L (⟨.tc0, .agree, .ok, .ok, 0⟩ : Issue) (0xd0000000 : Nat); L), .a, ⟨.tc0, .agree,
      .ok, .ok, 0⟩, 0xd0000000, by unfold LaneState.Fires LaneState.Ready; decide +kernel⟩,
    ⟨(tst fun L => let L := coreSet L (⟨.tc0, .agree, .ok, .ok, 0⟩ : Issue) (0xd8044000 : Nat); L), .a, ⟨.tc0, .agree,
      .ok, .ok, 0⟩, 0xd8044000, by unfold LaneState.Fires LaneState.Ready; decide +kernel⟩,
    ⟨(tst fun L => let L := coreSet L (⟨.tc0, .agree, .ok, .ok, 0⟩ : Issue) (0xd8044001 : Nat); L), .a, ⟨.tc0, .agree,
      .ok, .ok, 0⟩, 0xd8044001, by unfold LaneState.Fires LaneState.Ready; decide +kernel⟩,
    ⟨(tst fun L => let L := coreSet L (⟨.tc0, .agree, .ok, .ok, 0⟩ : Issue) (0xe0044000 : Nat); L), .a, ⟨.tc0, .agree,
      .ok, .ok, 0⟩, 0xe0044000, by unfold LaneState.Fires LaneState.Ready; decide +kernel, by decide +kernel⟩,
    ⟨(tst fun L => let L := coreSet L (⟨.tc0, .agree, .ok, .ok, 0⟩ : Issue) (0xE004400C : Nat); L), .a, ⟨.tc0, .agree,
      .ok, .ok, 0⟩, 0xE004400C, by unfold LaneState.Fires LaneState.Ready; decide +kernel, by decide +kernel⟩,
    ⟨(tst fun L => let L := coreSet L (⟨.tc0, .agree, .ok, .ok, 0⟩ : Issue) (0xe0044800 : Nat); L), .a, ⟨.tc0, .agree,
      .ok, .ok, 0⟩, 0xe0044800, by unfold LaneState.Fires LaneState.Ready; decide +kernel, by decide +kernel⟩,
    ⟨(tst fun L => let L := coreSet L (⟨.tc0, .agree, .ok, .ok, 0⟩ : Issue) (0xe0045000 : Nat); L), .a, ⟨.tc0, .agree,
      .ok, .ok, 0⟩, 0xe0045000, by unfold LaneState.Fires LaneState.Ready; decide +kernel, by decide +kernel⟩,
    ⟨(tst fun L => let L := coreSet L (⟨.tc0, .agree, .ok, .ok, 0⟩ : Issue) (0xe0045800 : Nat); L), .a, ⟨.tc0, .agree,
      .ok, .ok, 0⟩, 0xe0045800, by unfold LaneState.Fires LaneState.Ready; decide +kernel, by decide +kernel⟩,
    ⟨(tst fun L => let L := coreSet L (⟨.tc0, .agree, .ok, .ok, 0⟩ : Issue) (0xe0044800 : Nat);
      let L := L.mapCore (⟨.tc0, .agree, .ok, .ok, 0⟩ : Issue).core (fun X => { X with cr := [(1, 2)] }); L), .a,
      ⟨.tc0, .agree, .ok, .ok, 0⟩, 0xe0044800, by unfold LaneState.Fires LaneState.Ready; decide +kernel, by
      decide +kernel⟩⟩

/-- Witnesses of the hypotheses of `CoreExceptions`. -/
theorem wit_CoreExceptions :
    (∃ (s : State) (l : Lane) (i : Issue) (w : Nat), (s.lane l).Fires i .trap w ∧ ((s.lane l).core i.core).crBit
      crStatus 4 = false) ∧
    (∃ (s : State) (l : Lane) (i : Issue) (w : Nat), (s.lane l).Fires i .scall w ∧ ((s.lane l).core i.core).crBit
      crStatus 4 = false) ∧
    (∃ (s : State) (l : Lane) (i : Issue) (w : Nat), (s.lane l).Fires i .bkpt w ∧ ((s.lane l).core i.core).crBit
      crStatus 4 = false) ∧
    (∃ (s : State) (l : Lane) (i : Issue) (w : Nat), (s.lane l).Fires i .trap w ∧ ((s.lane l).core i.core).crBit
      crStatus 4 = true) ∧
    (∃ (s : State) (l : Lane) (i : Issue), (s.lane l).coreRuns i.core = true ∧ fetchable i.core ((s.lane l).core
      i.core).pc.toNat = true ∧ (s.lane l).fetchViol ((s.lane l).coreReq i.core) ((s.lane l).core i.core).pc.toNat =
      none ∧ (match regionAt ((s.lane l).core i.core).pc.toNat with | .envm t => (s.lane l).nvBusyOn t | _ => false) =
      false ∧ i.fetchEcc = .ok ∧ coreOp ((s.lane l).word ((s.lane l).core i.core).pc.toNat).toNat = none ∧ ((s.lane
      l).core i.core).squashes ((s.lane l).word ((s.lane l).core i.core).pc.toNat).toNat = false ∧ i.vote = .agree ∧
      ((s.lane l).core i.core).crBit crStatus 4 = false) ∧
    (∃ (s : State) (l : Lane) (i : Issue) (w : Nat), (s.lane l).Fires i .eret w ∧ i.core ≠ .svc ∧ ((s.lane l).core
      i.core).priv = true ∧ (((s.lane l).core i.core).secure = true ∨ ((s.lane l).core i.core).crBit crStatus 9 =
      false)) ∧
    (∃ (s : State) (l : Lane) (i : Issue) (w : Nat), (s.lane l).Fires i .park w ∧ ((s.lane l).core i.core).priv = true
      ∧ (s.lane l).qualifying i.core ≠ 0 ∧ (s.lane l).parkMode i.core = (0, false)) ∧
    (∃ (s : State) (l : Lane) (i : Issue) (w : Nat), (s.lane l).Fires i .park w ∧ ((s.lane l).core i.core).priv = true
      ∧ (s.lane l).qualifying i.core = 0 ∧ (s.lane l).parkMode i.core = (1, false)) ∧
    (∃ (s : State) (l : Lane) (i : Issue) (w : Nat), (s.lane l).Fires i .park w ∧ i.core = .svc ∧ ((s.lane l).core
      i.core).priv = true ∧ (s.lane l).qualifying i.core = 0) ∧
    (∃ (s : State) (l : Lane) (c : Core), c ≠ .svc ∧ ((s.lane l).core c).parked = true ∧ (s.lane l).qualifying c ≠ 0 ∧
      (s.lane l).pwr.sleepStep = 0 ∧ (s.lane l).pwr.bootStep = 4 ∧ (s.lane l).triad.rsStep ≠ 5) ∧
    (∃ (s : State) (l : Lane) (c : Core) (n : Nat), (s.lane l).takeable c = some n ∧ n < 32 ∧ c ≠ .svc ∧ (s.lane
      l).coreRuns c = true ∧ (s.lane l).triad.stepping = false) :=
  ⟨
    ⟨(tst fun L => let L := coreSet L (⟨.tc0, .agree, .ok, .ok, 0⟩ : Issue) (0xe8000001 : Nat); L), .a, ⟨.tc0, .agree,
      .ok, .ok, 0⟩, 0xe8000001, by unfold LaneState.Fires LaneState.Ready; decide +kernel, by decide +kernel⟩,
    ⟨(tst fun L => let L := coreSet L (⟨.tc0, .agree, .ok, .ok, 0⟩ : Issue) (0xe8000002 : Nat); L), .a, ⟨.tc0, .agree,
      .ok, .ok, 0⟩, 0xe8000002, by unfold LaneState.Fires LaneState.Ready; decide +kernel, by decide +kernel⟩,
    ⟨(tst fun L => let L := coreSet L (⟨.tc0, .agree, .ok, .ok, 0⟩ : Issue) (0xe8000005 : Nat); L), .a, ⟨.tc0, .agree,
      .ok, .ok, 0⟩, 0xe8000005, by unfold LaneState.Fires LaneState.Ready; decide +kernel, by decide +kernel⟩,
    ⟨(tst fun L => let L := coreSet L (⟨.tc0, .agree, .ok, .ok, 0⟩ : Issue) (0xe8000001 : Nat);
      let L := L.mapCore (⟨.tc0, .agree, .ok, .ok, 0⟩ : Issue).core (fun X => { X with cr := [(1, 0x13)] }); L), .a,
      ⟨.tc0, .agree, .ok, .ok, 0⟩, 0xe8000001, by unfold LaneState.Fires LaneState.Ready; decide +kernel, by
      decide +kernel⟩,
    ⟨(tst fun L => let L := coreSet L (⟨.tc0, .agree, .ok, .ok, 0⟩ : Issue) 0xFFFFFFFF; L), .a, ⟨.tc0, .agree, .ok,
      .ok, 0⟩, by decide +kernel⟩,
    ⟨(tst fun L => let L := coreSet L (⟨.tc0, .agree, .ok, .ok, 0⟩ : Issue) (0xe8000003 : Nat); L), .a, ⟨.tc0, .agree,
      .ok, .ok, 0⟩, 0xe8000003, by unfold LaneState.Fires LaneState.Ready; decide +kernel, by decide +kernel⟩,
    ⟨(tst fun L => let L := coreSet L (⟨.tc0, .agree, .ok, .ok, 0⟩ : Issue) (0xe8000004 : Nat);
      let L := L.mapCore (⟨.tc0, .agree, .ok, .ok, 0⟩ : Issue).core (fun X => { X with cr := [(1, 3), (7, 0x40000000), (8, 0x40000000)] });
      L), .a, ⟨.tc0, .agree, .ok, .ok, 0⟩, 0xe8000004, by unfold LaneState.Fires LaneState.Ready; decide +kernel, by
      decide +kernel⟩,
    ⟨(tst fun L => let L := coreSet L (⟨.tc0, .agree, .ok, .ok, 0⟩ : Issue) (0xe8000004 : Nat);
      let L := L.mapCore (⟨.tc0, .agree, .ok, .ok, 0⟩ : Issue).core (fun X => { X with cr := [(1, 3), (10, 1)] }); L),
      .a, ⟨.tc0, .agree, .ok, .ok, 0⟩, 0xe8000004, by unfold LaneState.Fires LaneState.Ready; decide +kernel, by
      decide +kernel⟩,
    ⟨(tst fun L => let L := coreSet L (⟨.svc, .agree, .ok, .ok, 0⟩ : Issue) (0xe8000004 : Nat); L), .a, ⟨.svc, .agree,
      .ok, .ok, 0⟩, 0xe8000004, by unfold LaneState.Fires LaneState.Ready; decide +kernel, by decide +kernel⟩,
    ⟨(tst fun L => let L := L.mapCore (.tc0 : Core) (fun X => { X with parked := true });
      let L := { L with pwr := { L.pwr with sleepStep := 0 } };
      let L := { L with pwr := { L.pwr with bootStep := 4 } };
      let L := L.mapCore (.tc0 : Core) (fun X => { X with cr := [(1, 3), (7, 0x40000000), (8, 0x40000000)] }); L), .a,
      .tc0, by decide +kernel⟩,
    ⟨(tst fun L => let L := { L with triad := { L.triad with stepping := false } };
      let L := { L with pwr := { L.pwr with bootStep := 4 } };
      let L := L.mapCore (.tc0 : Core) (fun X => { X with cr := [(1, 0xB), (7, 0x40000000), (8, 0x40000000)] }); L),
      .a, .tc0, 30, by decide +kernel⟩⟩

/-- Witnesses of the hypotheses of `TriadResync`. -/
theorem wit_TriadResync :
    (∃ (s : State) (l : Lane), (s.lane l).rsAtStep 1 = true) ∧
    (∃ (s : State) (l : Lane), (s.lane l).rsAtStep 2 = true) ∧
    (∃ (s : State) (l : Lane), (s.lane l).rsAtStep 2 = true) ∧
    (∃ (s : State) (l : Lane), (s.lane l).rsAtStep 3 = true) ∧
    (∃ (s : State) (l : Lane), (s.lane l).rsAtStep 4 = true ∧ (s.lane l).triadWaits = false) ∧
    (∃ (s : State) (l : Lane), (s.lane l).rsAtStep 5 = true ∧ (s.lane l).triadCore.parked = false ∧ (s.lane
      l).triad.halted = []) ∧
    (∃ (s : State) (l : Lane), (s.lane l).comparing = true ∧ (s.lane l).triad.rsStep = 0) ∧
    (∃ (s : State) (l : Lane), (s.lane l).comparing = true ∧ (s.lane l).triad.rsStep ≠ 0) ∧
    (∃ (s : State) (l : Lane), (s.lane l).comparing = true ∧ (s.lane l).triad.rsStep = 0) ∧
    (∃ (s : State) (l : Lane), (s.lane l).comparing = true ∧ (s.lane l).triad.rsStep = 0) ∧
    (∃ (s : State) (l : Lane) (q : Req), (s.lane l).judge q R.triadCmd true 1#32 = none) ∧
    (∃ (s : State) (l : Lane) (q : Req), (s.lane l).judge q R.triadCmd true 2#32 = none) :=
  ⟨
    ⟨(tst fun L => let L := { L with triad := { L.triad with rsStep := 1 } }; L), .a, by decide +kernel⟩,
    ⟨(tst fun L => let L := { L with triad := { L.triad with rsStep := 2 } }; L), .a, by decide +kernel⟩,
    ⟨(tst fun L => let L := { L with triad := { L.triad with rsStep := 2 } }; L), .a, by decide +kernel⟩,
    ⟨(tst fun L => let L := { L with triad := { L.triad with rsStep := 3 } }; L), .a, by decide +kernel⟩,
    ⟨(tst fun L => let L := { L with triad := { L.triad with rsStep := 4 } }; L), .a, by decide +kernel⟩,
    ⟨(tst fun L => let L := { L with triad := { L.triad with rsStep := 5 } };
      let L := { L with triadCore := { L.triadCore with parked := false } };
      let L := { L with triad := { L.triad with halted := [] } }; L), .a, by decide +kernel⟩,
    ⟨(tst fun L => let L := { L with pwr := { L.pwr with bootStep := 4 } };
      let L := { L with triad := { L.triad with rsStep := 0 } }; L), .a, by decide +kernel⟩,
    ⟨(tst fun L => let L := { L with pwr := { L.pwr with bootStep := 4 } };
      let L := { L with triad := { L.triad with rsStep := 1 } }; L), .a, by decide +kernel⟩,
    ⟨(tst fun L => let L := { L with pwr := { L.pwr with bootStep := 4 } };
      let L := { L with triad := { L.triad with rsStep := 0 } }; L), .a, by decide +kernel⟩,
    ⟨(tst fun L => let L := { L with pwr := { L.pwr with bootStep := 4 } };
      let L := { L with triad := { L.triad with rsStep := 0 } }; L), .a, by decide +kernel⟩,
    ⟨(tst id), .a, ⟨.triad, true⟩, by decide +kernel⟩,
    ⟨(tst id), .a, ⟨.triad, true⟩, by decide +kernel⟩⟩

/-- Witnesses of the hypotheses of `TriadDebug`. -/
theorem wit_TriadDebug :
    (∃ (s : State) (l : Lane), (s.lane l).debugReaches = true ∧ (s.lane l).voting = true) ∧
    (∃ (s : State) (l : Lane) (addr : Word), (s.lane l).debugReaches = true ∧ (true, addr.toNat) ∈ (s.lane
      l).triad.breaks ∧ (s.lane l).coreRuns .tc0 = true ∧ (s.lane l).voting = true) ∧
    (∃ (s : State) (l : Lane) (i : Issue) (w : Nat), (s.lane l).Fires i .bkpt w ∧ (s.lane l).debugAllowed = true ∧
      i.core = .tc0) ∧
    (∃ (s : State) (l : Lane), (s.lane l).debugReaches = true ∧ (s.lane l).triad.halted ≠ []) ∧
    (∃ (s : State) (l : Lane), (s.lane l).debugReaches = true ∧ (s.lane l).triad.halted ≠ []) ∧
    (∃ (s : State) (l : Lane), (s.lane l).debugReaches = true) ∧
    (∃ (s : State) (l : Lane) (n : BitVec 11), (s.lane l).debugReaches = true ∧ n.toNat ≤ 0x010 ∧ n.toNat ≠ crCycleLo) ∧
    (∃ (s : State) (l : Lane), (s.lane l).debugReaches = true) ∧
    (∃ (s : State) (l : Lane) (a : Word), (s.lane l).Passes ⟨.tc0, .agree, .ok, .ok, 0⟩ a.toNat 4 false 0 ∧ (s.lane
      l).debugReaches = true ∧ 0 ∈ (s.lane l).triad.halted) ∧
    (∃ (s : State) (l : Lane) (a w : Word), (s.lane l).Passes ⟨.tc0, .agree, .ok, .ok, 0⟩ a.toNat 4 true w ∧ (s.lane
      l).debugReaches = true ∧ 0 ∈ (s.lane l).triad.halted) ∧
    (∃ (s : State) (l : Lane), (s.lane l).debugReaches = true) ∧
    (∃ (s : State) (l : Lane) (q : Req), (s.lane l).judge q R.triadDbg true 1#32 = none ∧ (s.lane l).breakAllowed =
      false) ∧
    (∃ (s : State) (l : Lane) (q : Req), (s.lane l).judge q R.triadDbg true 1#32 = none ∧ (s.lane l).breakAllowed =
      true ∧ (s.lane l).is R.triadDbg_force_abstain = false) ∧
    (∃ (s : State) (l : Lane) (q : Req) (t : Nat), (s.lane l).judge q R.triadDbg true 2#32 = none ∧ (s.lane
      l).breakAllowed = true ∧ (s.lane l).triad.abstainAt = some t ∧ t + 5000 ≤ (s.lane l).coarse ∧ ((s.lane l).belay
      = bsBoot ∨ (s.lane l).belay = bsSync ∨ (s.lane l).belay = bsExcluded ∨ (s.lane l).belay = bsService) ∧ (s.lane
      l).get R.lcsLog_n < 4096) ∧
    (∃ (s : State) (l : Lane) (q : Req), (s.lane l).judge q R.triadDbg true 2#32 = none ∧ (s.lane l).breakAllowed =
      false) :=
  ⟨
    ⟨(tst fun L => let L := { L with pwr := { L.pwr with bootStep := 4 } };
      let L := { L with lcs := { L.lcs with debugOpen := true } }; L), .a, by decide +kernel⟩,
    ⟨(tst fun L => let L := { L with pwr := { L.pwr with bootStep := 4 } };
      let L := { L with lcs := { L.lcs with debugOpen := true } };
      let L := { L with triad := { L.triad with breaks := [(true, (0 : Word).toNat)] } };
      let L := L.put R.triadStat_split 0; L), .a, 0, by decide +kernel⟩,
    ⟨(tst fun L => let L := coreSet L (⟨.tc0, .agree, .ok, .ok, 0⟩ : Issue) (0xe8000005 : Nat);
      let L := { L with lcs := { L.lcs with debugOpen := true } }; L), .a, ⟨.tc0, .agree, .ok, .ok, 0⟩, 0xe8000005,
      by unfold LaneState.Fires LaneState.Ready; decide +kernel, by decide +kernel⟩,
    ⟨(tst fun L => let L := { L with pwr := { L.pwr with bootStep := 4 } };
      let L := { L with lcs := { L.lcs with debugOpen := true } };
      let L := { L with triad := { L.triad with halted := [0] } }; L), .a, by decide +kernel⟩,
    ⟨(tst fun L => let L := { L with pwr := { L.pwr with bootStep := 4 } };
      let L := { L with lcs := { L.lcs with debugOpen := true } };
      let L := { L with triad := { L.triad with halted := [0] } }; L), .a, by decide +kernel⟩,
    ⟨(tst fun L => let L := { L with pwr := { L.pwr with bootStep := 4 } };
      let L := { L with lcs := { L.lcs with debugOpen := true } }; L), .a, by decide +kernel⟩,
    ⟨(tst fun L => let L := { L with pwr := { L.pwr with bootStep := 4 } };
      let L := { L with lcs := { L.lcs with debugOpen := true } }; L), .a, 0, by decide +kernel⟩,
    ⟨(tst fun L => let L := { L with pwr := { L.pwr with bootStep := 4 } };
      let L := { L with lcs := { L.lcs with debugOpen := true } }; L), .a, by decide +kernel⟩,
    ⟨(tst fun L => let L := { L with pwr := { L.pwr with bootStep := 4 } };
      let L := { L with lcs := { L.lcs with debugOpen := true } };
      let L := { L with triad := { L.triad with halted := [0] } }; L), .a, 0x20000000,
      by unfold LaneState.Passes; decide +kernel, by decide +kernel⟩,
    ⟨(tst fun L => let L := { L with pwr := { L.pwr with bootStep := 4 } };
      let L := { L with lcs := { L.lcs with debugOpen := true } };
      let L := { L with triad := { L.triad with halted := [0] } }; L), .a, 0x20000000, 0,
      by unfold LaneState.Passes; decide +kernel, by decide +kernel⟩,
    ⟨(tst fun L => let L := { L with pwr := { L.pwr with bootStep := 4 } };
      let L := { L with lcs := { L.lcs with debugOpen := true } }; L), .a, by decide +kernel⟩,
    ⟨(tst id), .a, ⟨.triad, true⟩, by decide +kernel⟩,
    ⟨(tst fun L => let L := L.setF R.triadDbg_force_abstain false; let L := L.put R.lcsState_lc 1;
      let L := L.put R.lcsState_role 3; L), .a, ⟨.triad, true⟩, by decide +kernel⟩,
    ⟨(tst fun L => let L := { L with triad := { L.triad with abstainAt := some (0 : Nat) } };
      let L := L.put R.belayState_state bsBoot; let L := L.put R.lcsState_lc 1; let L := L.put R.lcsState_role 3;
      let L := L.setNow (64 * 5000); L), .a, ⟨.triad, true⟩, 0, by decide +kernel⟩,
    ⟨(tst id), .a, ⟨.triad, true⟩, by decide +kernel⟩⟩

/-- Witnesses of the hypotheses of `AxisSampling`. -/
theorem wit_AxisSampling :
    (∃ (cu cv cw cs cc : BitVec 14), (∀ c ∈ [cu, cv, cw, cs, cc], c ≠ 0 ∧ c ≠ 16383#14)) ∧
    (∃ (cu cv cw cs cc : BitVec 14), (∀ c ∈ [cu, cv, cw, cs, cc], c ≠ 0 ∧ c ≠ 16383#14)) ∧
    (∃ (ch : Fin 32), ch ≠ 12) :=
  ⟨
    ⟨(1#14), (1#14), (1#14), (1#14), (16382#14), by simp only [List.forall_mem_cons]; decide +kernel⟩,
    ⟨(1#14), (1#14), (1#14), (1#14), (16382#14), by simp only [List.forall_mem_cons]; decide +kernel⟩,
    ⟨0, by decide +kernel⟩⟩

/-- Witnesses of the hypotheses of `AxisShares`. -/
theorem wit_AxisShares :
    (∃ (s : State) (l : Lane) (n : Axis), (s.lane l).axis n ≠ axOff ∧ participates (s.lane l).belay = true ∧ ((s.lane
      l).ax n).ownDone = true) ∧
    (∃ (s : State) (l : Lane) (n : Axis), (s.lane l).axis n ≠ axOff ∧ participates (s.lane l).belay = true ∧ ((s.lane
      l).ax n).ownDone = false ∧ (s.lane l).loopPrompt n = false) ∧
    (∃ (s : State) (l : Lane) (k : Link) (n : Axis) (w : Word) (ws : List Word) (rest : List RopeMsg) (at5 : Nat),
      s.arriving (l.peer k) l = .block (segBase (l.peer k) + 8 * n) (w :: ws) :: rest ∧ at5 ≤ (s.lane l).get
      (R.axpSched1_share_dl n) ∧ bits w.toNat 31 16 = (s.lane l).pnum % 65536) ∧
    (∃ (s : State) (l : Lane) (k : Link) (n : Axis) (w : Word) (ws : List Word) (rest : List RopeMsg) (at5 : Nat),
      s.arriving (l.peer k) l = .block (segBase (l.peer k) + 8 * n) (w :: ws) :: rest ∧ (s.lane l).get
      (R.axpSched1_share_dl n) < at5) ∧
    (∃ (s : State) (l : Lane) (n : Axis), (s.lane l).axis n ≠ axOff ∧ participates (s.lane l).belay = true) ∧
    (∃ (s : State) (l : Lane) (n : Axis) (y : Lane), 2 ≤ ((s.lane l).ax n).stateDiff.get y.idx ∧ y ≠ (s.lane l).id) :=
  ⟨
    ⟨(tst fun L => let L := L.put (R.axpState_state (0 : Axis)) axDrive; let L := L.put R.belayState_state bsActive;
      let L := L.mapAx (0 : Axis) (fun X => { X with ownDone := true }); L), .a, 0, by decide +kernel⟩,
    ⟨(tst fun L => let L := L.put (R.axpState_state (0 : Axis)) axDrive; let L := L.put R.belayState_state bsActive;
      let L := L.mapAx (0 : Axis) (fun X => { X with ownDone := false }); L), .a, 0, by decide +kernel⟩,
    ⟨((tst id).setFlight (Lane.peer .a (.l0 : Link)) .a [.block (segBase (Lane.peer .a (.l0 : Link)) + 8 * (0 : Axis))
      ((0 : Word) :: ([] : List Word))]), .a, .l0, 0, 0, ([]), ([]), 0, by decide +kernel⟩,
    ⟨((tst id).setFlight (Lane.peer .a (.l0 : Link)) .a [.block (segBase (Lane.peer .a (.l0 : Link)) + 8 * (0 : Axis))
      ((0 : Word) :: ([] : List Word))]), .a, .l0, 0, 0, ([]), ([]), 300000, by decide +kernel⟩,
    ⟨(tst fun L => let L := L.put (R.axpState_state (0 : Axis)) axDrive; let L := L.put R.belayState_state bsActive;
      L), .a, 0, by decide +kernel⟩,
    ⟨(tst fun L => let L := L.mapAx (0 : Axis) (fun X => { X with stateDiff := X.stateDiff.set (.b : Lane).idx 2 });
      L), .a, 0, .b, by decide +kernel⟩⟩

/-- Witnesses of the hypotheses of `AxisCommit`. -/
theorem wit_AxisCommit :
    (∃ (s : State) (l : Lane) (n : Axis), (s.lane l).pairMode = false ∧ (s.lane l).axis n ≠ axOff ∧ participates
      (s.lane l).belay = true ∧ (s.lane l).tickIdx = (s.lane l).get (R.axpSched2_commit_tick n) ∧ (s.lane
      l).loopPrompt n = false) ∧
    (∃ (s : State) (l : Lane) (n : Axis) (w : Word) (t : Nat), ((s.lane l).ax n).prompt = some (w, t) ∧ t ≤ (s.lane
      l).coarse ∧ (s.lane l).coarse % (s.lane l).tTick = 0) ∧
    (∃ (s : State) (l : Lane) (n : Axis) (k : Fin 8), (s.lane l).axis n ≠ axOff ∧ (s.lane l).get (R.axpMonThr_persist
      n k) ≠ 0 ∧ (s.lane l).get (R.axpMonThr_persist n k) ≤ ((s.lane l).ax n).monRun.get k ∧ k.val ∉ ((s.lane l).ax
      n).monFired ∧ (s.lane l).get (R.axpMonThr_act n k) = 0) ∧
    (∃ (s : State) (l : Lane) (n : Axis) (k : Fin 8), (s.lane l).axis n ≠ axOff ∧ (s.lane l).get (R.axpMonThr_persist
      n k) ≠ 0 ∧ (s.lane l).get (R.axpMonThr_persist n k) ≤ ((s.lane l).ax n).monRun.get k ∧ k.val ∉ ((s.lane l).ax
      n).monFired ∧ (s.lane l).get (R.axpMonThr_act n k) = 1) ∧
    (∃ (s : State) (l : Lane) (n : Axis) (k : Fin 8), (s.lane l).axis n ≠ axOff ∧ (s.lane l).get (R.axpMonThr_persist
      n k) ≠ 0 ∧ (s.lane l).get (R.axpMonThr_persist n k) ≤ ((s.lane l).ax n).monRun.get k ∧ k.val ∉ ((s.lane l).ax
      n).monFired ∧ (s.lane l).get (R.axpMonThr_act n k) = 2) :=
  ⟨
    ⟨(tst fun L => let L := L.put (R.axpState_state (0 : Axis)) axDrive; let L := L.put R.belayState_state bsActive;
      let L := L.put (R.axpSched2_commit_tick (0 : Axis)) 0; L), .a, 0, by decide +kernel⟩,
    ⟨(tst fun L => let L := L.mapAx (0 : Axis) (fun X => { X with prompt := some ((0 : Word), (0 : Nat)) }); L), .a,
      0, 0, 0, by decide +kernel⟩,
    ⟨(tst fun L => let L := L.put (R.axpState_state (0 : Axis)) axDrive;
      let L := L.put (R.axpMonThr_persist (0 : Axis) (0 : Fin 8)) 1;
      let L := L.mapAx (0 : Axis) (fun X => { X with monRun := X.monRun.set (0 : Fin 8) 200 });
      let L := L.put (R.axpMonThr_act (0 : Axis) (0 : Fin 8)) 0; L), .a, 0, 0, by decide +kernel⟩,
    ⟨(tst fun L => let L := L.put (R.axpState_state (0 : Axis)) axDrive;
      let L := L.put (R.axpMonThr_persist (0 : Axis) (0 : Fin 8)) 1;
      let L := L.mapAx (0 : Axis) (fun X => { X with monRun := X.monRun.set (0 : Fin 8) 200 });
      let L := L.put (R.axpMonThr_act (0 : Axis) (0 : Fin 8)) 1; L), .a, 0, 0, by decide +kernel⟩,
    ⟨(tst fun L => let L := L.put (R.axpState_state (0 : Axis)) axDrive;
      let L := L.put (R.axpMonThr_persist (0 : Axis) (0 : Fin 8)) 1;
      let L := L.mapAx (0 : Axis) (fun X => { X with monRun := X.monRun.set (0 : Fin 8) 200 });
      let L := L.put (R.axpMonThr_act (0 : Axis) (0 : Fin 8)) 2; L), .a, 0, 0, by decide +kernel⟩⟩

/-- Witnesses of the hypotheses of `AxisCommands`. -/
theorem wit_AxisCommands :
    (∀ n2 ∈ [1, 2, 3, 4, 5, 6, 7, 8], ∃ (s : State) (l : Lane) (n : Axis) (q : Req) (at8 : BitVec 8), (s.lane l).judge
      q (R.axpCmd n) true (wordN (n2 + 256 * at8.toNat)) = none ∧ (at8.toNat + 256 - (s.lane l).pnum % 256) % 256 ≠ 0
      ∧ (at8.toNat + 256 - (s.lane l).pnum % 256) % 256 ≤ 128) ∧
    (∀ n2 ∈ [1, 2, 3, 4, 5, 6, 7, 8], ∃ (s : State) (l : Lane) (n : Axis) (q : Req) (at8 : BitVec 8), (s.lane l).judge
      q (R.axpCmd n) true (wordN (n2 + 256 * at8.toNat)) = none ∧ ((at8.toNat + 256 - (s.lane l).pnum % 256) % 256 = 0
      ∨ 129 ≤ (at8.toNat + 256 - (s.lane l).pnum % 256) % 256)) ∧
    (∃ (s : State) (l : Lane) (n : Axis), (s.lane l).is (R.axpState_pend n) = true ∧ ((s.lane l).ax n).pendAt =
      (s.lane l).pnum % 256 ∧ (s.lane l).coarse % (s.lane l).tServo = 0 ∧ ((s.lane l).ax n).higherAt ≠ some (s.lane
      l).pnum ∧ (s.lane l).mirrored n = false ∧ (s.lane l).get (R.axpState_pend_op n) = 1 ∧ (s.lane l).axis n = axOff
      ∧ participates (s.lane l).belay = true ∧ (s.lane l).locked (R.axpLock n) = true ∧ (s.lane l).loopPrompt n =
      false ∧ (s.lane l).armChecks n = true ∧ (s.lane l).schedLegal n = true ∧ (s.lane l).loopsFit n = true) ∧
    (∃ (s : State) (l : Lane) (n : Axis), (s.lane l).is (R.axpState_pend n) = true ∧ ((s.lane l).ax n).pendAt =
      (s.lane l).pnum % 256 ∧ (s.lane l).coarse % (s.lane l).tServo = 0 ∧ ((s.lane l).ax n).higherAt ≠ some (s.lane
      l).pnum ∧ (s.lane l).mirrored n = false ∧ (s.lane l).get (R.axpState_pend_op n) = 2 ∧ (s.lane l).axis n =
      axArmed) ∧
    (∃ (s : State) (l : Lane) (n : Axis), (s.lane l).is (R.axpState_pend n) = true ∧ ((s.lane l).ax n).pendAt =
      (s.lane l).pnum % 256 ∧ (s.lane l).coarse % (s.lane l).tServo = 0 ∧ ((s.lane l).ax n).higherAt ≠ some (s.lane
      l).pnum ∧ (s.lane l).mirrored n = false ∧ (s.lane l).get (R.axpState_pend_op n) = 3 ∧ (s.lane l).axis n =
      axArmed ∧ (s.lane l).startReady n = true) ∧
    (∃ (s : State) (l : Lane) (n : Axis), (s.lane l).is (R.axpState_pend n) = true ∧ ((s.lane l).ax n).pendAt =
      (s.lane l).pnum % 256 ∧ (s.lane l).coarse % (s.lane l).tServo = 0 ∧ ((s.lane l).ax n).higherAt ≠ some (s.lane
      l).pnum ∧ (s.lane l).mirrored n = false ∧ (s.lane l).get (R.axpState_pend_op n) = 4 ∧ (s.lane l).axis n =
      axDrive) ∧
    (∃ (s : State) (l : Lane) (n : Axis), (s.lane l).is (R.axpState_pend n) = true ∧ ((s.lane l).ax n).pendAt =
      (s.lane l).pnum % 256 ∧ (s.lane l).coarse % (s.lane l).tServo = 0 ∧ ((s.lane l).ax n).higherAt ≠ some (s.lane
      l).pnum ∧ (s.lane l).mirrored n = false ∧ (s.lane l).get (R.axpState_pend_op n) = 5 ∧ (s.lane l).axis n =
      axDrive ∧ (s.lane l).is (R.axpState_stopping n) = false) ∧
    (∃ (s : State) (l : Lane) (n : Axis), (s.lane l).is (R.axpState_pend n) = true ∧ ((s.lane l).ax n).pendAt =
      (s.lane l).pnum % 256 ∧ (s.lane l).coarse % (s.lane l).tServo = 0 ∧ ((s.lane l).ax n).higherAt ≠ some (s.lane
      l).pnum ∧ (s.lane l).mirrored n = false ∧ (s.lane l).get (R.axpState_pend_op n) = 6 ∧ (s.lane l).axis n =
      axHold) ∧
    (∃ (s : State) (l : Lane) (n : Axis), (s.lane l).is (R.axpState_pend n) = true ∧ ((s.lane l).ax n).pendAt =
      (s.lane l).pnum % 256 ∧ (s.lane l).coarse % (s.lane l).tServo = 0 ∧ ((s.lane l).ax n).higherAt ≠ some (s.lane
      l).pnum ∧ (s.lane l).mirrored n = false ∧ (s.lane l).get (R.axpState_pend_op n) = 7 ∧ (s.lane l).axis n ≠ axOff) ∧
    (∃ (s : State) (l : Lane) (n : Axis), (s.lane l).is (R.axpState_pend n) = true ∧ ((s.lane l).ax n).pendAt =
      (s.lane l).pnum % 256 ∧ (s.lane l).coarse % (s.lane l).tServo = 0 ∧ ((s.lane l).ax n).higherAt ≠ some (s.lane
      l).pnum ∧ (s.lane l).mirrored n = false ∧ (s.lane l).get (R.axpState_pend_op n) = 8 ∧ (s.lane l).axis n ≠ axOff) ∧
    (∃ (s : State) (l : Lane) (n : Axis), (s.lane l).is (R.axpState_pend n) = true ∧ ((s.lane l).ax n).pendAt =
      (s.lane l).pnum % 256 ∧ (s.lane l).coarse % (s.lane l).tServo = 0 ∧ ((s.lane l).ax n).higherAt = some (s.lane
      l).pnum) ∧
    (∃ (s : State) (l : Lane) (n : Axis), (s.lane l).is (R.axpState_pend n) = true ∧ ((s.lane l).ax n).pendAt =
      (s.lane l).pnum % 256 ∧ (s.lane l).coarse % (s.lane l).tServo = 0 ∧ ((s.lane l).ax n).higherAt = none ∧ (s.lane
      l).axis n = axOff ∧ (s.lane l).get (R.axpState_pend_op n) ∈ [2, 3, 4, 5, 6, 7, 8]) ∧
    (∃ (s : State) (l : Lane) (n : Axis), (s.lane l).is (R.axpState_stopping n) = true ∧ (s.lane l).fbFlag n 0 = true
      ∧ (s.lane l).sig (axisSig n 0x22) = 0 ∧ (s.lane l).coarse % (s.lane l).tServo = 0) ∧
    (∃ (s : State) (l : Lane) (n : Axis), (s.lane l).is (R.axpCfg_estop_en n) = true ∧ (s.lane l).estopActive ((s.lane
      l).get (R.axpCfg_estop_fn n)) = true ∧ (s.lane l).axis n ≠ axOff ∧ (s.lane l).axis n ≠ axAsc) ∧
    (∃ (s : State) (l : Lane) (n : Axis) (q : Req), (s.lane l).judge q (R.axpCntClr n) true 1#32 = none) :=
  ⟨
    by intro n2 hn; exact ⟨((tst id)), .a, 0, ⟨.triad, true⟩, 1, by revert n2; decide +kernel⟩,
    by intro n2 hn; exact ⟨((tst id)), .a, 0, ⟨.triad, true⟩, 0, by revert n2; decide +kernel⟩,
    ⟨(tst fun L => let L := L.setF (R.axpState_pend (0 : Axis)) true;
      let L := L.put (R.axpState_pend_op (0 : Axis)) 1; let L := L.put (R.axpState_state (0 : Axis)) axOff;
      let L := L.put R.belayState_state bsActive; let L := { L with locks := addTo (R.axpLock (0 : Axis)) L.locks };
      let L := L.put (R.axpSched2_commit_tick (0 : Axis)) 4; let L := L.put (R.axpSched1_share_dl (0 : Axis)) 3000;
      let L := L.put (R.axpSched0_decode_end (0 : Axis)) 160; let L := L.put (R.axpSched0_profile_end (0 : Axis)) 300;
      let L := L.put (R.axpSched1_loop_end (0 : Axis)) 2000; let L := L.setWord (leData 0 4) 0x640064; L), .a, 0, by
      decide +kernel⟩,
    ⟨(tst fun L => let L := L.setF (R.axpState_pend (0 : Axis)) true;
      let L := L.put (R.axpState_pend_op (0 : Axis)) 2; let L := L.put (R.axpState_state (0 : Axis)) axArmed; L), .a,
      0, by decide +kernel⟩,
    ⟨(tst fun L => let L := L.setF (R.axpState_pend (0 : Axis)) true;
      let L := L.put (R.axpState_pend_op (0 : Axis)) 3; let L := L.put (R.axpState_state (0 : Axis)) axArmed;
      let L := L.put (R.fldPsib_psib (0 : Axis)) 1; let L := L.put (R.fldPm_val (0 : Axis)) 1;
      let L := L.put (R.fldLd_val (0 : Axis)) 1; let L := L.put (R.fldLq_val (0 : Axis)) 1; L), .a, 0, by
      decide +kernel⟩,
    ⟨(tst fun L => let L := L.setF (R.axpState_pend (0 : Axis)) true;
      let L := L.put (R.axpState_pend_op (0 : Axis)) 4; let L := L.put (R.axpState_state (0 : Axis)) axDrive; L), .a,
      0, by decide +kernel⟩,
    ⟨(tst fun L => let L := L.setF (R.axpState_pend (0 : Axis)) true;
      let L := L.put (R.axpState_pend_op (0 : Axis)) 5; let L := L.put (R.axpState_state (0 : Axis)) axDrive;
      let L := L.setF (R.axpState_stopping (0 : Axis)) false; L), .a, 0, by decide +kernel⟩,
    ⟨(tst fun L => let L := L.setF (R.axpState_pend (0 : Axis)) true;
      let L := L.put (R.axpState_pend_op (0 : Axis)) 6; let L := L.put (R.axpState_state (0 : Axis)) axHold; L), .a,
      0, by decide +kernel⟩,
    ⟨(tst fun L => let L := L.setF (R.axpState_pend (0 : Axis)) true;
      let L := L.put (R.axpState_pend_op (0 : Axis)) 7; let L := L.put (R.axpState_state (0 : Axis)) axDrive; L), .a,
      0, by decide +kernel⟩,
    ⟨(tst fun L => let L := L.setF (R.axpState_pend (0 : Axis)) true;
      let L := L.put (R.axpState_pend_op (0 : Axis)) 8; let L := L.put (R.axpState_state (0 : Axis)) axDrive; L), .a,
      0, by decide +kernel⟩,
    ⟨(tst fun L => let L := L.setF (R.axpState_pend (0 : Axis)) true;
      let L := L.mapAx (0 : Axis) (fun X => { X with higherAt := some 0 }); L), .a, 0, by decide +kernel⟩,
    ⟨(tst fun L => let L := L.setF (R.axpState_pend (0 : Axis)) true;
      let L := L.mapAx (0 : Axis) (fun X => { X with higherAt := none });
      let L := L.put (R.axpState_state (0 : Axis)) axOff; let L := L.put (R.axpState_pend_op (0 : Axis)) 2; L), .a, 0,
      by decide +kernel⟩,
    ⟨(tst fun L => let L := L.setF (R.axpState_stopping (0 : Axis)) true; let L := L.setSig (axisSig (0 : Axis) 9) 1;
      L), .a, 0, by decide +kernel⟩,
    ⟨(tst fun L => let L := L.setF (R.axpCfg_estop_en (0 : Axis)) true;
      let L := L.put (R.axpState_state (0 : Axis)) axDrive; L), .a, 0, by decide +kernel⟩,
    ⟨(tst id), .a, 0, ⟨.triad, true⟩, by decide +kernel⟩⟩

/-- Witnesses of the hypotheses of `FieldControl`. -/
theorem wit_FieldControl :
    (∃ (s : State) (l : Lane) (n : Axis), (s.lane l).axis n = axFree ∧ participates (s.lane l).belay = true) ∧
    (∃ (s : State) (l : Lane) (n : Axis), (s.lane l).axis n ≠ axOff ∧ participates (s.lane l).belay = true) ∧
    (∃ (s : State) (l : Lane) (n : Axis), (s.lane l).regulates n = true ∧ participates (s.lane l).belay = true ∧
      (s.lane l).axis n ≠ axOff ∧ ((s.lane l).fl n).src ≠ 3) ∧
    (∃ (s : State) (l : Lane) (n : Axis), (s.lane l).regulates n = false ∧ participates (s.lane l).belay = true ∧
      (s.lane l).axis n ≠ axOff) ∧
    (∃ (s : State) (l : Lane) (n : Axis), 2 ≤ ((s.lane l).fl n).limRun ∧ (s.lane l).is (R.fldStat_vlim n) = false) ∧
    (∃ (s : State) (l : Lane) (n : Axis), 2 * (s.lane l).nTicks ≤ ((s.lane l).fl n).freeRun) ∧
    (∃ (s : State) (l : Lane) (n : Axis), ((s.lane l).fl n).offInterval = true) ∧
    (∃ (s : State) (l : Lane) (n : Axis), (s.lane l).axis n ≠ axOff ∧ ((s.lane l).fl n).offInterval = true ∧ 2 ≤
      ((s.lane l).fl n).offTicks ∧ ((s.lane l).fl n).conducting = true ∧ max 2 ((s.lane l).get (R.fldStart_t_max n)) ≤
      ((s.lane l).fl n).offTicks) ∧
    (∃ (s : State) (l : Lane) (n : Axis), ((s.lane l).fl n).offInterval = true ∧ 2 ≤ ((s.lane l).fl n).offTicks ∧
      ((s.lane l).fl n).conducting = false) ∧
    (∃ (s : State) (l : Lane) (n : Axis) (j : Nat), ((s.lane l).fl n).ramp = some j ∧ atLeast1 ((s.lane l).get
      (R.fldStart_ramp n)) ≤ j) ∧
    (∃ (s : State) (l : Lane) (n : Axis) (q : Req), (s.lane l).judge q (R.fldCmd n) true 1#32 = none) ∧
    (∃ (s : State) (l : Lane) (n : Axis) (q : Req), (s.lane l).judge q (R.fldCmd n) true 2#32 = none) ∧
    (∃ (s : State) (l : Lane) (n : Axis) (q : Req) (w : Word), (s.lane l).judge q (R.fldRs n) true w = none) ∧
    (∃ (s : State) (l : Lane) (n : Axis) (q : Req) (w : Word), (s.lane l).judge q (R.fldLock n) true w = none ∧ bits
      w.toNat 15 0 = 0xC1A5) :=
  ⟨
    ⟨(tst fun L => let L := L.put (R.axpState_state (0 : Axis)) axFree; let L := L.put R.belayState_state bsActive;
      L), .a, 0, by decide +kernel⟩,
    ⟨(tst fun L => let L := L.put (R.axpState_state (0 : Axis)) axDrive; let L := L.put R.belayState_state bsActive;
      L), .a, 0, by decide +kernel⟩,
    ⟨(tst fun L => let L := L.put (R.axpState_state (0 : Axis)) axDrive; let L := L.put R.belayState_state bsActive;
      let L := L.put (R.axpState_state (0 : Axis)) axDrive; L), .a, 0, by decide +kernel⟩,
    ⟨(tst fun L => let L := L.put R.belayState_state bsActive; let L := L.put (R.axpState_state (0 : Axis)) axDrive;
      let L := L.put (R.axpState_state (0 : Axis)) axArmed; L), .a, 0, by decide +kernel⟩,
    ⟨(tst fun L => let L := L.mapFl (0 : Axis) (fun X => { X with limRun := 2 });
      let L := L.setF (R.fldStat_vlim (0 : Axis)) false; L), .a, 0, by decide +kernel⟩,
    ⟨(tst fun L => let L := L.mapFl (0 : Axis) (fun X => { X with freeRun := 100 }); L), .a, 0, by decide +kernel⟩,
    ⟨(tst fun L => let L := L.mapFl (0 : Axis) (fun X => { X with offInterval := true }); L), .a, 0, by
      decide +kernel⟩,
    ⟨(tst fun L => let L := L.put (R.axpState_state (0 : Axis)) axDrive;
      let L := L.mapFl (0 : Axis) (fun X => { X with offInterval := true });
      let L := L.mapFl (0 : Axis) (fun X => { X with offTicks := 2 });
      let L := L.mapFl (0 : Axis) (fun X => { X with conducting := true });
      let L := L.mapFl (0 : Axis) (fun X => { X with offTicks := 100000 }); L), .a, 0, by decide +kernel⟩,
    ⟨(tst fun L => let L := L.mapFl (0 : Axis) (fun X => { X with offInterval := true });
      let L := L.mapFl (0 : Axis) (fun X => { X with offTicks := 2 });
      let L := L.mapFl (0 : Axis) (fun X => { X with conducting := false }); L), .a, 0, by decide +kernel⟩,
    ⟨(tst fun L => let L := L.mapFl (0 : Axis) (fun X => { X with ramp := some (1000 : Nat) }); L), .a, 0, 1000, by
      decide +kernel⟩,
    ⟨(tst id), .a, 0, ⟨.triad, true⟩, by decide +kernel⟩,
    ⟨(tst id), .a, 0, ⟨.triad, true⟩, by decide +kernel⟩,
    ⟨(tst id), .a, 0, ⟨.triad, true⟩, 0, by decide +kernel⟩,
    ⟨(tst id), .a, 0, ⟨.triad, true⟩, 0xC1A5, by decide +kernel⟩⟩

/-- Witnesses of the hypotheses of `FeedbackCounting`. -/
theorem wit_FeedbackCounting :
    (∃ (s : State) (l : Lane) (n : Axis) (a b : Bool), ((s.lane l).fb n).started = true ∧ (quadPlace a b + 4 -
      quadPlace ((s.lane l).fb n).levelA ((s.lane l).fb n).levelB) % 4 = 1) ∧
    (∃ (s : State) (l : Lane) (n : Axis) (a b : Bool), ((s.lane l).fb n).started = true ∧ (quadPlace a b + 4 -
      quadPlace ((s.lane l).fb n).levelA ((s.lane l).fb n).levelB) % 4 = 3) ∧
    (∃ (s : State) (l : Lane) (n : Axis) (a b : Bool), ((s.lane l).fb n).started = true ∧ a ≠ ((s.lane l).fb n).levelA
      ∧ b ≠ ((s.lane l).fb n).levelB) ∧
    (∃ (s : State) (l : Lane) (n : Axis), ((s.lane l).fb n).started = true) ∧
    (∃ (s : State) (l : Lane) (n : Axis), ((s.lane l).fb n).started = true ∧ atLeast1 ((s.lane l).get (R.fbAfe_persist
      n)) ≤ ((s.lane l).fb n).invalidRun) ∧
    (∃ (s : State) (l : Lane) (n : Axis), ((s.lane l).fb n).started = true ∧ (s.lane l).is (R.fbCfg_idx_en n) = true ∧
      (s.lane l).is (R.fbCfg_idx_qual n) = false ∧ ((s.lane l).fb n).idxStamps = []) ∧
    (∃ (s : State) (l : Lane) (n : Axis) (stamp : BitVec 64), ((s.lane l).fb n).started = true ∧ (s.lane l).is
      (R.fbCfg_idx_en n) = true ∧ (s.lane l).is (R.fbCfg_idx_qual n) = false ∧ stamp.toNat ∈ ((s.lane l).fb
      n).idxStamps) ∧
    (∃ (s : State) (l : Lane) (n : Axis) (h : BitVec 3), (s.lane l).hallSector n h.toNat = 7) ∧
    (∃ (s : State) (l : Lane) (n : Axis) (h : BitVec 3), (s.lane l).hallSector n h.toNat ≠ 7 ∧ ((s.lane l).fb
      n).lastLegal = none) ∧
    (∃ (s : State) (l : Lane) (n : Axis), ((s.lane l).fb n).started = true ∧ (s.lane l).pnum % atLeast1 ((s.lane
      l).get (R.fbSpdCtl_win n)) = 0 ∧ ((s.lane l).fb n).upSeen = false ∧ ((s.lane l).fb n).downSeen = false ∧ 7 ≤
      ((s.lane l).fb n).quiet) ∧
    (∃ (s : State) (l : Lane) (n : Axis), ((s.lane l).fb n).started = true ∧ (s.lane l).pnum % atLeast1 ((s.lane
      l).get (R.fbSpdCtl_win n)) = 0 ∧ ((s.lane l).fb n).upSeen = true ∧ ((s.lane l).fb n).downSeen = true) ∧
    (∃ (s : State) (l : Lane) (n : Axis), ((s.lane l).fb n).started = true ∧ n.val ∉ (s.lane l).belaySt.fbLost) ∧
    (∃ (s : State) (l : Lane) (n : Axis), ((s.lane l).fb n).started = false) ∧
    (∃ (s : State) (l : Lane), (s.lane l).is R.qeoCtl_en = false) ∧
    (∃ (s : State) (l : Lane), (s.lane l).is R.qeoCtl_en = true ∧ (s.lane l).get R.qeoCtl_mode = 0) ∧
    (∃ (s : State) (l : Lane), (s.lane l).is R.qeoCtl_en = true ∧ (s.lane l).get R.qeoCtl_mode ≠ 0) :=
  ⟨
    ⟨(tst fun L => let L := L.mapFb (0 : Axis) (fun X => { X with started := true }); L), .a, 0, false, true, by
      decide +kernel⟩,
    ⟨(tst fun L => let L := L.mapFb (0 : Axis) (fun X => { X with started := true }); L), .a, 0, true, false, by
      decide +kernel⟩,
    ⟨(tst fun L => let L := L.mapFb (0 : Axis) (fun X => { X with started := true }); L), .a, 0, true, true, by
      decide +kernel⟩,
    ⟨(tst fun L => let L := L.mapFb (0 : Axis) (fun X => { X with started := true }); L), .a, 0, by decide +kernel⟩,
    ⟨(tst fun L => let L := L.mapFb (0 : Axis) (fun X => { X with started := true });
      let L := L.mapFb (0 : Axis) (fun X => { X with invalidRun := 1000 }); L), .a, 0, by decide +kernel⟩,
    ⟨(tst fun L => let L := L.mapFb (0 : Axis) (fun X => { X with started := true });
      let L := L.setF (R.fbCfg_idx_en (0 : Axis)) true; let L := L.setF (R.fbCfg_idx_qual (0 : Axis)) false;
      let L := L.mapFb (0 : Axis) (fun X => { X with idxStamps := [] }); L), .a, 0, by decide +kernel⟩,
    ⟨(tst fun L => let L := L.mapFb (0 : Axis) (fun X => { X with started := true });
      let L := L.setF (R.fbCfg_idx_en (0 : Axis)) true; let L := L.setF (R.fbCfg_idx_qual (0 : Axis)) false;
      let L := L.mapFb (0 : Axis) (fun X => { X with idxStamps := [(0 : BitVec 64).toNat] }); L), .a, 0, 0, by
      decide +kernel⟩,
    ⟨(tst id), .a, 0, 0, by decide +kernel⟩,
    ⟨(tst fun L => let L := L.mapFb (0 : Axis) (fun X => { X with lastLegal := none }); L), .a, 0, 1, by
      decide +kernel⟩,
    ⟨(tst fun L => let L := L.mapFb (0 : Axis) (fun X => { X with started := true });
      let L := L.mapFb (0 : Axis) (fun X => { X with upSeen := false });
      let L := L.mapFb (0 : Axis) (fun X => { X with downSeen := false });
      let L := L.mapFb (0 : Axis) (fun X => { X with quiet := 7 }); L), .a, 0, by decide +kernel⟩,
    ⟨(tst fun L => let L := L.mapFb (0 : Axis) (fun X => { X with started := true });
      let L := L.mapFb (0 : Axis) (fun X => { X with upSeen := true });
      let L := L.mapFb (0 : Axis) (fun X => { X with downSeen := true }); L), .a, 0, by decide +kernel⟩,
    ⟨(tst fun L => let L := L.mapFb (0 : Axis) (fun X => { X with started := true }); L), .a, 0, by decide +kernel⟩,
    ⟨(tst fun L => let L := L.mapFb (0 : Axis) (fun X => { X with started := false }); L), .a, 0, by decide +kernel⟩,
    ⟨(tst fun L => let L := L.setF R.qeoCtl_en false; L), .a, by decide +kernel⟩,
    ⟨(tst fun L => let L := L.setF R.qeoCtl_en true; let L := L.put R.qeoCtl_mode 0; L), .a, by decide +kernel⟩,
    ⟨(tst fun L => let L := L.setF R.qeoCtl_en true; let L := L.put R.qeoCtl_mode 1; L), .a, by decide +kernel⟩⟩

/-- Witnesses of the hypotheses of `FeedbackRegisters`. -/
theorem wit_FeedbackRegisters :
    (∃ (s : State) (l : Lane) (n : Axis) (q : Req) (w : Word), (s.lane l).judge q (R.fbCmpLo n) true w = none) ∧
    (∃ (s : State) (l : Lane) (n : Axis) (q : Req) (w : Word), (s.lane l).judge q (R.fbEofs n) true w = none ∧ (s.lane
      l).fbCalOpen n = true) ∧
    (∃ (s : State) (l : Lane) (n : Axis) (q : Req) (w : Word), (s.lane l).judge q (R.fbEofs n) true w = none ∧ (s.lane
      l).fbCalOpen n = false) ∧
    (∃ (s : State) (l : Lane) (n : Axis) (q : Req) (r : Fin 3) (w : Word), (s.lane l).judge q (eqReg n r) true w =
      none) ∧
    (∃ (s : State) (l : Lane) (n : Axis) (q : Req), (s.lane l).judge q (R.fbPosLo n) false 0#32 = none) ∧
    (∃ (s : State) (l : Lane) (n : Axis) (q : Req), (s.lane l).judge q (R.fbPosHi n) false 0#32 = none) ∧
    (∃ (s : State) (l : Lane) (n : Axis) (q : Req), (s.lane l).judge q (R.fbCmd n) true 1#32 = none) ∧
    (∃ (s : State) (l : Lane) (n : Axis) (q : Req), (s.lane l).judge q (R.fbCmd n) true 2#32 = none) ∧
    (∃ (s : State) (l : Lane) (n : Axis) (q : Req), (s.lane l).judge q (R.fbCmd n) true 4#32 = none) ∧
    (∃ (s : State) (l : Lane) (n : Axis) (q : Req), (s.lane l).judge q (R.fbCmd n) true 8#32 = none ∧ (s.lane
      l).fbCalOpen n = true) ∧
    (∃ (s : State) (l : Lane) (n : Axis) (q : Req), (s.lane l).judge q (R.fbCmd n) true 8#32 = none ∧ (s.lane
      l).fbCalOpen n = false) ∧
    (∃ (s : State) (l : Lane) (n : Axis) (q : Req) (w : Word), (s.lane l).judge q (R.fbLock n) true w = none ∧ bits
      w.toNat 15 0 = 0xC1A5 ∧ (s.lane l).get (R.fbCfg_periods n) ≠ 0 ∧ (s.lane l).get (R.fbCfg_pp n) ≠ 0 ∧ ((s.lane
      l).fb n).started = false) ∧
    (∃ (s : State) (l : Lane) (n : Axis) (q : Req) (w : Word), (s.lane l).judge q (R.fbLock n) true w = none ∧ bits
      w.toNat 15 0 = 0xC1A5 ∧ ((s.lane l).fb n).started = true) :=
  ⟨
    ⟨(tst id), .a, 0, ⟨.triad, true⟩, 0, by decide +kernel⟩,
    ⟨(tst fun L => let L := L.put R.lcsState_cal_grant 2; L), .a, 0, ⟨.triad, true⟩, 0, by decide +kernel⟩,
    ⟨(tst id), .a, 0, ⟨.triad, true⟩, 0, by decide +kernel⟩,
    ⟨(tst id), .a, 0, ⟨.triad, true⟩, 0, 0, by decide +kernel⟩,
    ⟨(tst id), .a, 0, ⟨.triad, true⟩, by decide +kernel⟩,
    ⟨(tst id), .a, 0, ⟨.triad, true⟩, by decide +kernel⟩,
    ⟨(tst id), .a, 0, ⟨.triad, true⟩, by decide +kernel⟩,
    ⟨(tst id), .a, 0, ⟨.triad, true⟩, by decide +kernel⟩,
    ⟨(tst id), .a, 0, ⟨.triad, true⟩, by decide +kernel⟩,
    ⟨(tst fun L => let L := L.put R.lcsState_cal_grant 2; L), .a, 0, ⟨.triad, true⟩, by decide +kernel⟩,
    ⟨(tst id), .a, 0, ⟨.triad, true⟩, by decide +kernel⟩,
    ⟨(tst fun L => let L := L.put (R.fbCfg_periods (0 : Axis)) 1; let L := L.put (R.fbCfg_pp (0 : Axis)) 1;
      let L := L.mapFb (0 : Axis) (fun X => { X with started := false }); L), .a, 0, ⟨.triad, true⟩, 0xC1A5, by
      decide +kernel⟩,
    ⟨(tst fun L => let L := L.mapFb (0 : Axis) (fun X => { X with started := true }); L), .a, 0, ⟨.triad, true⟩,
      0xC1A5, by decide +kernel⟩⟩

/-- Witnesses of the hypotheses of `Profiles`. -/
theorem wit_Profiles :
    (∀ n2 ∈ [1, 2, 3, 4], ∃ (s : State) (l : Lane) (n : Axis) (q : Req) (at8 : BitVec 8), (s.lane l).judge q
      (R.profCmd n) true (wordN (n2 + 256 * at8.toNat)) = none ∧ (at8.toNat + 256 - (s.lane l).pnum % 256) % 256 ≠ 0 ∧
      (at8.toNat + 256 - (s.lane l).pnum % 256) % 256 ≤ 128) ∧
    (∀ n2 ∈ [1, 2, 3, 4], ∃ (s : State) (l : Lane) (n : Axis) (q : Req) (at8 : BitVec 8), (s.lane l).judge q
      (R.profCmd n) true (wordN (n2 + 256 * at8.toNat)) = none ∧ ((at8.toNat + 256 - (s.lane l).pnum % 256) % 256 = 0
      ∨ 129 ≤ (at8.toNat + 256 - (s.lane l).pnum % 256) % 256)) ∧
    (∃ (s : State) (l : Lane) (n : Axis) (op : Nat), op ≤ 3 ∧ ((s.lane l).pr n).pend = some (op, (s.lane l).pnum %
      256) ∧ (s.lane l).coarse % (s.lane l).tServo = 0 ∧ ((s.lane l).axis n = axArmed ∨ (s.lane l).axis n = axHold)) ∧
    (∃ (s : State) (l : Lane) (n : Axis), ((s.lane l).pr n).pend = some (2, (s.lane l).pnum % 256) ∧ (s.lane l).coarse
      % (s.lane l).tServo = 0 ∧ (s.lane l).axis n = axDrive ∧ (s.lane l).is (R.axpState_stopping n) = false ∧ ((s.lane
      l).limits n).ok = true) ∧
    (∃ (s : State) (l : Lane) (n : Axis) (op : Nat), ((s.lane l).pr n).pend = some (op, (s.lane l).pnum % 256) ∧
      (s.lane l).coarse % (s.lane l).tServo = 0 ∧ ((s.lane l).axis n = axOff ∨ (s.lane l).axis n = axFree ∨ (s.lane
      l).axis n = axAsc)) ∧
    (∃ (s : State) (l : Lane) (n : Axis), (s.lane l).pairMode = false ∧ participates (s.lane l).belay = true ∧
      ((s.lane l).axis n = axArmed ∨ (s.lane l).axDriving n = true)) ∧
    (∃ (s : State) (l : Lane) (n : Axis) (a : Sample), ((s.lane l).pr n).around (s.lane l).pnum = (some a, none) ∧
      (s.lane l).get (R.profState_mode n) = 3 ∧ (atLeast1 ((s.lane l).get (R.profStrm_starve n)) : Int) < (s.lane
      l).pnum - a.due ∧ ((s.lane l).limits n).ok = true) ∧
    (∃ (s : State) (l : Lane) (n : Axis) (k : Fin 3), (s.lane l).get (R.profFerrCtl_persist n) ≠ 0 ∧ (s.lane l).get
      (R.profFerrCtl_persist n) ≤ ((s.lane l).pr n).runs.get k ∧ k.val ∉ ((s.lane l).pr n).fired) ∧
    (∃ (s : State) (l : Lane) (n : Axis), (s.lane l).coarse % (s.lane l).tServo = 0 ∧ ((s.lane l).ax n).higherAt ≠
      some (s.lane l).pnum ∧ (s.lane l).axis n = axDrive ∧ ((s.lane l).ax n).profActs = [1] ∧ (s.lane l).is
      (R.axpState_stopping n) = false) ∧
    (∃ (s : State) (l : Lane) (n : Axis), (s.lane l).coarse % (s.lane l).tServo = 0 ∧ ((s.lane l).ax n).higherAt ≠
      some (s.lane l).pnum ∧ (s.lane l).axis n = axDrive ∧ ((s.lane l).ax n).profActs = [2]) ∧
    (∃ (s : State) (l : Lane) (n : Axis), (s.lane l).coarse % (s.lane l).tServo = 0 ∧ ((s.lane l).ax n).higherAt ≠
      some (s.lane l).pnum ∧ (s.lane l).axis n = axDrive ∧ ((s.lane l).ax n).profActs = [3]) ∧
    (∃ (s : State) (l : Lane) (n : Axis), (s.lane l).coarse % (s.lane l).tServo = 0 ∧ ((s.lane l).ax n).higherAt ≠
      some (s.lane l).pnum ∧ (s.lane l).axis n = axDrive ∧ ((s.lane l).ax n).profActs = [4]) :=
  ⟨
    by intro n2 hn; exact ⟨((tst id)), .a, 0, ⟨.triad, true⟩, 1, by revert n2; decide +kernel⟩,
    by intro n2 hn; exact ⟨((tst id)), .a, 0, ⟨.triad, true⟩, 0, by revert n2; decide +kernel⟩,
    ⟨(tst fun L => let L := L.mapPr (0 : Axis) (fun X => { X with pend := some ((0 : Nat), 0) });
      let L := L.put (R.axpState_state (0 : Axis)) axArmed; L), .a, 0, 0, by decide +kernel⟩,
    ⟨(tst fun L => let L := L.mapPr (0 : Axis) (fun X => { X with pend := some (2, 0) });
      let L := L.put (R.axpState_state (0 : Axis)) axDrive; let L := L.setF (R.axpState_stopping (0 : Axis)) false;
      let L := L.put (R.profVmax_lim (0 : Axis)) 1000; let L := L.put (R.profAmax_lim (0 : Axis)) 1000;
      let L := L.put (R.profJmax_lim (0 : Axis)) 1000; L), .a, 0, by decide +kernel⟩,
    ⟨(tst fun L => let L := L.mapPr (0 : Axis) (fun X => { X with pend := some ((0 : Nat), 0) });
      let L := L.put (R.axpState_state (0 : Axis)) axOff; L), .a, 0, 0, by decide +kernel⟩,
    ⟨(tst fun L => let L := L.put R.belayState_state bsActive; let L := L.put (R.axpState_state (0 : Axis)) axArmed;
      L), .a, 0, by decide +kernel⟩,
    ⟨(tst fun L => let L := L.put (R.profState_mode (0 : Axis)) 3; let L := L.put (R.profVmax_lim (0 : Axis)) 1000;
      let L := L.put (R.profAmax_lim (0 : Axis)) 1000; let L := L.put (R.profJmax_lim (0 : Axis)) 1000;
      let L := L.mapPr (0 : Axis) (fun X => { X with samples := [⟨-100, false, 0, 0⟩] }); L), .a, 0, ⟨-100, false, 0,
      0⟩, by decide +kernel⟩,
    ⟨(tst fun L => let L := L.put (R.profFerrCtl_persist (0 : Axis)) 1;
      let L := L.mapPr (0 : Axis) (fun X => { X with runs := [(0, 200)] }); L), .a, 0, 0, by decide +kernel⟩,
    ⟨(tst fun L => let L := L.put (R.axpState_state (0 : Axis)) axDrive;
      let L := L.mapAx (0 : Axis) (fun X => { X with profActs := [1] });
      let L := L.setF (R.axpState_stopping (0 : Axis)) false; L), .a, 0, by decide +kernel⟩,
    ⟨(tst fun L => let L := L.put (R.axpState_state (0 : Axis)) axDrive;
      let L := L.mapAx (0 : Axis) (fun X => { X with profActs := [2] }); L), .a, 0, by decide +kernel⟩,
    ⟨(tst fun L => let L := L.put (R.axpState_state (0 : Axis)) axDrive;
      let L := L.mapAx (0 : Axis) (fun X => { X with profActs := [3] }); L), .a, 0, by decide +kernel⟩,
    ⟨(tst fun L => let L := L.put (R.axpState_state (0 : Axis)) axDrive;
      let L := L.mapAx (0 : Axis) (fun X => { X with profActs := [4] }); L), .a, 0, by decide +kernel⟩⟩

/-- Witnesses of the hypotheses of `EdgeUnits`. -/
theorem wit_EdgeUnits :
    (∃ (s : State) (l : Lane) (n : Axis) (seq : List (Nat × Nat)), ((s.lane l).fl n).seq = some seq ∧ (s.lane
      l).regulates n = true ∧ (s.lane l).is R.edgeStat_cal_done = true ∧ (s.lane l).is R.edgeStat_halt = false ∧
      (s.lane l).edge.releasing = false ∧ (∀ p ∈ seq, p.1 ≤ cmpNone)) ∧
    (∃ (s : State) (l : Lane) (u : Fin 16) (off : Bool), u.val < 12 ∧ (s.lane l).euMode u = euField ∧ u.val / 3 ∈
      (s.lane l).edge.loaded ∧ (s.lane l).regulates (u.val / 3) = true ∧ (s.lane l).activeCmp u off < (s.lane
      l).tbFine ((s.lane l).euTb u) ∧ 2 * u.val + b2n off ∉ (s.lane l).edge.fired ∧ (s.lane l).is R.edgeStat_halt =
      false ∧ u.val ∉ (s.lane l).edge.held ∧ (off = true ∨ (s.lane l).activeCmp u true ≠ (s.lane l).activeCmp u
      false)) ∧
    (∃ (s : State) (l : Lane) (u : Fin 16) (off : Bool), (s.lane l).euMode u = euPwm ∧ (s.lane l).tbRuns ((s.lane
      l).euTb u) = true ∧ (s.lane l).is R.edgeStat_cal_done = true ∧ (s.lane l).activeCmp u off < (s.lane l).tbFine
      ((s.lane l).euTb u) ∧ 2 * u.val + b2n off ∉ (s.lane l).edge.fired ∧ (s.lane l).is R.edgeStat_halt = false ∧
      u.val ∉ (s.lane l).edge.held ∧ (off = true ∨ (s.lane l).activeCmp u true ≠ (s.lane l).activeCmp u false)) ∧
    (∃ (s : State) (l : Lane), (s.lane l).is R.edgeStat_cal_done = true) ∧
    (∃ (s : State) (l : Lane) (tb : Fin 4), tb.val < 3 ∧ (s.lane l).is R.edgeStat_cal_done = true ∧ (s.lane l).is
      (tbEnF tb) = true ∧ (s.lane l).coarse % (s.lane l).tServo = 0) ∧
    (∃ (s : State) (l : Lane) (q : Req) (w : Word), (s.lane l).judge q R.edgeUpdHold true w = none) ∧
    (∃ (s : State) (l : Lane) (q : Req) (u : Fin 16) (w : Word), (s.lane l).judge q (R.edgeEuCfg u) true w = none ∧
      modeAllowed u (bits w.toNat 2 0) = false) ∧
    (∃ (s : State) (l : Lane) (q : Req) (u : Fin 16) (w : Word), (s.lane l).judge q (R.edgeEuCfg u) true w = none ∧
      modeAllowed u (bits w.toNat 2 0) = true) ∧
    (∃ (s : State) (l : Lane) (q : Req) (u : Fin 16) (w : Word), (s.lane l).judge q (R.edgeEuLvl u) true w = none ∧
      (s.lane l).euMode u = euStatic ∧ u.val ∉ (s.lane l).edge.held) ∧
    (∃ (s : State) (l : Lane) (q : Req) (u : Fin 16) (w : Word), (s.lane l).judge q (R.edgeEuLvl u) true w = none ∧
      (s.lane l).euMode u ≠ euStatic) ∧
    (∃ (s : State) (l : Lane) (u : Fin 16) (t : Nat), (s.lane l).edge.pulseReq = [(u.val, t)] ∧ (s.lane l).euMode u =
      euPulse ∧ (s.lane l).is R.edgeStat_halt = false ∧ u.val ∉ (s.lane l).edge.held ∧ (s.lane l).edge.pulseEnd.get u
      ≤ t) ∧
    (∃ (s : State) (l : Lane) (u : Fin 16) (t : Nat), (s.lane l).edge.pulseReq = [(u.val, t)] ∧ (s.lane l).euMode u =
      euPulse ∧ (s.lane l).is R.edgeStat_halt = false ∧ u.val ∉ (s.lane l).edge.held ∧ t < (s.lane
      l).edge.pulseEnd.get u) ∧
    (∃ (s : State) (l : Lane) (u : Fin 16), (s.lane l).euMode u = euPulse ∧ (s.lane l).get (R.edgeEuLvl_out u) = 2) ∧
    (∃ (s : State) (l : Lane), (s.lane l).haltCause = true ∧ (s.lane l).is R.edgeStat_halt = false) ∧
    (∃ (s : State) (l : Lane), (s.lane l).haltCause = false ∧ (s.lane l).is R.edgeStat_halt = true) ∧
    (∃ (s : State) (l : Lane) (q : Req) (w : Word), (s.lane l).judge q R.edgeLock true w = none ∧ bits w.toNat 15 0 =
      0xC1A5 ∧ (s.lane l).locked R.edgeLock = false) ∧
    (∃ (s : State) (l : Lane) (a b c d : BitVec 12), (∀ x ∈ [a, b, c, d], (s.lane l).n16Ok x.toNat = true) ∧ (s.lane
      l).edge.calRunning = true) ∧
    (∃ (s : State) (l : Lane) (a b c d : BitVec 12), (∃ x ∈ [a, b, c, d], (s.lane l).n16Ok x.toNat = false) ∧ (s.lane
      l).edge.calRunning = true) ∧
    (∃ (s : State) (l : Lane) (g : Fin 4), (s.lane l).get R.edgeDlAge_age < (s.lane l).get (R.edgeDlStat_age g.val)) :=
  ⟨
    ⟨(tst fun L => let L := L.mapFl (0 : Axis) (fun X => { X with seq := some ([] : List (Nat × Nat)) });
      let L := L.put (R.axpState_state (0 : Axis)) axDrive; let L := L.setF R.edgeStat_cal_done true;
      let L := L.setF R.edgeStat_halt false; let L := { L with edge := { L.edge with releasing := false } }; L), .a,
      0, ([]), by decide +kernel⟩,
    ⟨(tst fun L => let L := L.put (R.edgeEuCfg_mode (0 : Fin 16)) euField;
      let L := { L with edge := { L.edge with loaded := [(0 : Fin 16).val / 3] } };
      let L := L.put (R.axpState_state ((0 : Fin 16).val / 3)) axDrive; let L := L.setF R.edgeStat_halt false;
      let L := L.put (R.edgeEuOff_cmp (0 : Fin 16)) 5; let L := L.put (R.edgeEuOn_cmp (0 : Fin 16)) 7; L), .a, 0,
      true, by decide +kernel⟩,
    ⟨(tst fun L => let L := L.put (R.edgeEuCfg_mode (12 : Fin 16)) euPwm; let L := L.setF R.edgeStat_cal_done true;
      let L := L.setF R.edgeStat_halt false;
      let L := { L with edge := { L.edge with actOff := [(12, 5)], actOn := [(12, 7)] } };
      let L := L.put (R.edgeEuCfg_tb 12) 3; L), .a, 12, true, by decide +kernel⟩,
    ⟨(tst fun L => let L := L.setF R.edgeStat_cal_done true; L), .a, by decide +kernel⟩,
    ⟨(tst fun L => let L := L.setF R.edgeStat_cal_done true; let L := L.setF (tbEnF (0 : Fin 4)) true; L), .a, 0, by
      decide +kernel⟩,
    ⟨(tst id), .a, ⟨.triad, true⟩, 0, by decide +kernel⟩,
    ⟨(tst id), .a, ⟨.triad, true⟩, 0, 2, by decide +kernel⟩,
    ⟨(tst id), .a, ⟨.triad, true⟩, 0, 0, by decide +kernel⟩,
    ⟨(tst fun L => let L := L.put (R.edgeEuCfg_mode (13 : Fin 16)) euStatic; L), .a, ⟨.triad, true⟩, 13, 0, by
      decide +kernel⟩,
    ⟨(tst id), .a, ⟨.triad, true⟩, 0, 0, by decide +kernel⟩,
    ⟨(tst fun L => let L := { L with edge := { L.edge with pulseReq := [((13 : Fin 16).val, (5 : Nat))] } };
      let L := L.put (R.edgeEuCfg_mode (13 : Fin 16)) euPulse; let L := L.setF R.edgeStat_halt false; L), .a, 13, 5,
      by decide +kernel⟩,
    ⟨(tst fun L => let L := { L with edge := { L.edge with pulseReq := [((13 : Fin 16).val, (5 : Nat))] } };
      let L := L.put (R.edgeEuCfg_mode (13 : Fin 16)) euPulse; let L := L.setF R.edgeStat_halt false;
      let L := { L with edge := { L.edge with pulseEnd := [(13, 9)] } }; L), .a, 13, 5, by decide +kernel⟩,
    ⟨(tst fun L => let L := L.put (R.edgeEuCfg_mode (13 : Fin 16)) euPulse;
      let L := L.put (R.edgeEuLvl_out (13 : Fin 16)) 2; L), .a, 13, by decide +kernel⟩,
    ⟨(tst fun L => let L := L.setF R.edgeStat_halt false;
      let L := { L with triad := { L.triad with frozen := true } }; L), .a, by decide +kernel⟩,
    ⟨(tst fun L => let L := L.setF R.edgeStat_halt true; L), .a, by decide +kernel⟩,
    ⟨(tst id), .a, ⟨.triad, true⟩, 0xC1A5, by decide +kernel⟩,
    ⟨(tst fun L => let L := { L with edge := { L.edge with calRunning := true } }; L), .a, 1648, 1648, 1648, 1648,
      by simp only [List.forall_mem_cons]; decide +kernel, by decide +kernel⟩,
    ⟨(tst fun L => let L := { L with edge := { L.edge with calRunning := true } }; L), .a, 0, 0, 0, 0, ⟨_, .head _, by
      decide +kernel⟩, by decide +kernel⟩,
    ⟨(tst fun L => let L := L.put (R.edgeDlStat_age (0 : Fin 4).val) 5000; L), .a, 0, by decide +kernel⟩⟩

/-- Witnesses of the hypotheses of `BridgeGates`. -/
theorem wit_BridgeGates :
    (∃ (s : State) (l : Lane) (g : Fin 25), (s.lane l).wireLevel g ≠ decide (g.val ∈ (s.lane l).bridge.wire)) ∧
    (∃ (s : State) (l : Lane) (g : Fin 25), g.val < 24 ∧ (s.lane l).wireLevel g = true ∧ g.val ∉ (s.lane
      l).bridge.wire ∧ gateMate g ∈ (s.lane l).bridge.wire ∧ (s.lane l).is R.brgStat_ovr = false ∧ g.val ∉ (s.lane
      l).bridge.on ∧ gateMate g ∉ (s.lane l).bridge.on ∧ (s.lane l).bitOf R.brgIlk_leg (g.val / 2) = false ∧ g.val / 2
      ∉ (s.lane l).bridge.ilkHold) ∧
    (∃ (s : State) (l : Lane) (g : Fin 25), g.val ∈ (s.lane l).bridge.waiting ∧ gateMate g ∉ (s.lane l).bridge.on) ∧
    (∃ (s : State) (l : Lane) (g : Fin 25), (s.lane l).bridge.phase.get g = 1) ∧
    (∃ (s : State) (l : Lane) (g : Fin 25), (s.lane l).bridge.phase.get g = 2 ∧ g.val ∈ (s.lane l).bridge.on ∧ (s.lane
      l).primeAdapt g true = true) ∧
    (∃ (s : State) (l : Lane) (g : Fin 25), (s.lane l).bridge.phase.get g = 2 ∧ g.val ∉ (s.lane l).bridge.on ∧ (s.lane
      l).primeAdapt g false = false) ∧
    (∃ (s : State) (l : Lane) (q : Req) (w : Word), (s.lane l).judge q R.brgOvrEn true w = none ∧ bit w.toNat 0 = true
      ∧ (s.lane l).get R.lcsState_lc ≠ 1 ∧ (s.lane l).get R.lcsState_lc ≠ 2) ∧
    (∃ (s : State) (l : Lane) (q : Req) (w : Word), (s.lane l).judge q R.brgOvrEn true w = none ∧ (bit w.toNat 0 =
      false ∨ (s.lane l).get R.lcsState_lc = 1 ∨ (s.lane l).get R.lcsState_lc = 2)) ∧
    (∃ (s : State) (l : Lane) (ph : Fin 12) (up byWire : Bool) (v : Nat) (rest : List EdgeReport), (s.lane
      l).bridge.reports = ⟨ph.val, up, byWire, v⟩ :: rest) ∧
    (∃ (s : State) (l : Lane) (ph : Fin 12) (up : Bool) (v : Nat) (rest : List EdgeReport), (s.lane l).bridge.reports
      = ⟨ph.val, up, false, v⟩ :: rest) ∧
    (∃ (s : State) (l : Lane) (ph : Fin 12), (s.lane l).followsWires (ph.val / 3) = true ∧ (s.lane l).gateReq (2 *
      ph.val + 1) = true ∧ 2 * ph.val ∉ (s.lane l).bridge.on ∧ ph.val ∉ (s.lane l).bridge.refresh) ∧
    (∃ (s : State) (l : Lane) (ph : Fin 12), ph.val ∈ (s.lane l).bridge.refresh) ∧
    (∃ (s : State) (l : Lane) (ph : Fin 12), (s.lane l).bitOf R.brgStat_bs_low ph = true) ∧
    (∃ (s : State) (l : Lane) (ph : Fin 12), 2 * ph.val ∈ (s.lane l).bridge.on) :=
  ⟨
    ⟨(tst fun L => let L := L.put (R.edgeEuLvl_out 0) 1; let L := L.put R.belayState_state bsActive; L), .a, 0, by
      decide +kernel⟩,
    ⟨(tst fun L => let L := { L with bridge := { L.bridge with wire := [gateMate (0 : Fin 25)] } };
      let L := L.setF R.brgStat_ovr false; let L := L.setBit R.brgIlk_leg ((0 : Fin 25).val / 2) false;
      let L := L.put (R.edgeEuLvl_out 0) 1; let L := L.put R.belayState_state bsActive; L), .a, 0, by decide +kernel⟩,
    ⟨(tst fun L => let L := { L with bridge := { L.bridge with waiting := [(0 : Fin 25).val] } };
      let L := { L with gate := { L.gate with armHeld := false } }; L), .a, 0, by decide +kernel⟩,
    ⟨(tst fun L => let L := { L with bridge := { L.bridge with phase := (L.bridge.phase).set (0 : Fin 25) 1 } }; L),
      .a, 0, by decide +kernel⟩,
    ⟨(tst fun L => let L := { L with bridge := { L.bridge with phase := (L.bridge.phase).set (0 : Fin 25) 2 } };
      let L := { L with bridge := { L.bridge with on := [(0 : Fin 25).val] } }; L), .a, 0, by decide +kernel⟩,
    ⟨(tst fun L => let L := { L with bridge := { L.bridge with phase := (L.bridge.phase).set (24 : Fin 25) 2 } }; L),
      .a, 24, by decide +kernel⟩,
    ⟨(tst fun L => let L := L.put R.lcsState_lc 3; L), .a, ⟨.triad, true⟩, 1, by decide +kernel⟩,
    ⟨(tst id), .a, ⟨.triad, true⟩, 0, by decide +kernel⟩,
    ⟨(tst
      fun L => let L := { L with bridge := { L.bridge with reports := ⟨(0 : Fin 12).val, (true : Bool), (true : Bool), (0 : Nat)⟩ :: ([] : List EdgeReport) } };
      L), .a, 0, true, true, 0, ([]), by decide +kernel⟩,
    ⟨(tst
      fun L => let L := { L with bridge := { L.bridge with reports := ⟨(0 : Fin 12).val, (true : Bool), false, (0 : Nat)⟩ :: ([] : List EdgeReport) } };
      L), .a, 0, true, 0, ([]), by decide +kernel⟩,
    ⟨(tst fun L => let L := L.setBit R.brgCfg_port_en 0 true; let L := L.put R.brgStat_locked 1;
      let L := L.put R.brgStat_ena 1; let L := { L with bridge := { L.bridge with wire := [1] } }; L), .a, 0, by
      decide +kernel⟩,
    ⟨(tst fun L => let L := { L with bridge := { L.bridge with refresh := [(0 : Fin 12).val] } }; L), .a, 0, by
      decide +kernel⟩,
    ⟨(tst fun L => let L := L.setBit R.brgStat_bs_low (0 : Fin 12) true; L), .a, 0, by decide +kernel⟩,
    ⟨(tst fun L => let L := { L with bridge := { L.bridge with on := [2 * (0 : Fin 12).val] } }; L), .a, 0, by
      decide +kernel⟩⟩

/-- Witnesses of the hypotheses of `BridgeTrips`. -/
theorem wit_BridgeTrips :
    (∃ (s : State) (l : Lane) (ph : Fin 12) (m : BitVec 8), 2 * ph.val ∈ (s.lane l).bridge.on ∧ 2 * ph.val ∉ (s.lane
      l).bridge.unconf ∧ (s.lane l).scThreshold ph < m.toNat) ∧
    (∃ (s : State) (l : Lane) (p : Fin 4) (m : BitVec 8), bits ((s.lane l).reg R.brgDcth).toNat (8 * p.val + 7) (8 *
      p.val) < m.toNat) ∧
    (∃ (s : State) (l : Lane) (v : BitVec 8), (s.lane l).get R.brgVl0_ch_on ≤ v.toNat) ∧
    (∃ (s : State) (l : Lane) (v : BitVec 8), v.toNat < (s.lane l).get R.brgVl0_ch_on ∧ v.toNat ≤ (s.lane l).get
      R.brgVl0_ch_off) ∧
    (∃ (s : State) (l : Lane) (v : BitVec 8), v.toNat < (s.lane l).get R.brgVl0_ch_on ∧ (s.lane l).get R.brgVl0_ch_off
      < v.toNat) ∧
    (∃ (s : State) (l : Lane) (v : BitVec 8), (s.lane l).is R.brgStat_chop_req = true ∧ (s.lane l).get R.brgVl0_ch_flt
      ≤ v.toNat) ∧
    (∃ (s : State) (l : Lane) (v : BitVec 8), (s.lane l).hov ≤ v.toNat) ∧
    (∃ (s : State) (l : Lane) (v : BitVec 8), (s.lane l).tripActive 32 = true ∧ v.toNat + 8 < (s.lane l).hov) ∧
    (∃ (s : State) (l : Lane) (v : BitVec 8), v.toNat < (s.lane l).get R.brgVl1_uv) ∧
    (∃ (s : State) (l : Lane) (v : BitVec 8), (s.lane l).get R.brgVl1_uv ≤ v.toNat) ∧
    (∃ (s : State) (l : Lane) (p : Fin 4), p.val ∈ (s.lane l).bridge.marker ∧ (s.lane l).portAction p = 0) ∧
    (∃ (s : State) (l : Lane) (q : Req) (w : Word), (s.lane l).judge q R.tripFlag0 true w = none) ∧
    (∃ (s : State) (l : Lane) (f : Nat) (rest : List Nat), (s.lane l).bridge.flagsOut = f :: rest) ∧
    (∃ (s : State) (l : Lane) (q : Req) (w : Word), (s.lane l).judge q R.brgLock true w = none ∧ bits w.toNat 15 0 =
      0xC1A5 ∧ (s.lane l).locked R.brgLock = false) ∧
    (∃ (s : State) (l : Lane) (q : Req), (s.lane l).judge q R.brgCmd true 1#32 = none) ∧
    (∃ (s : State) (l : Lane) (q : Req), (s.lane l).judge q R.brgCmd true 2#32 = none) :=
  ⟨
    ⟨(tst fun L => let L := { L with bridge := { L.bridge with on := [2 * (0 : Fin 12).val] } };
      let L := L.put (R.brgSca_th_max 0) 10; L), .a, 0, 255, by decide +kernel⟩,
    ⟨(tst id), .a, 0, 255, by decide +kernel⟩,
    ⟨(tst id), .a, 255, by decide +kernel⟩,
    ⟨(tst id), .a, 0, by decide +kernel⟩,
    ⟨(tst id), .a, 223, by decide +kernel⟩,
    ⟨(tst fun L => let L := L.setF R.brgStat_chop_req true; L), .a, 255, by decide +kernel⟩,
    ⟨(tst id), .a, 255, by decide +kernel⟩,
    ⟨(tst fun L => let L := L.put R.tripSrc1_active 1; L), .a, 0, by decide +kernel⟩,
    ⟨(tst id), .a, 0, by decide +kernel⟩,
    ⟨(tst id), .a, 255, by decide +kernel⟩,
    ⟨(tst fun L => let L := { L with bridge := { L.bridge with marker := [(0 : Fin 4).val] } }; L), .a, 0, by
      decide +kernel⟩,
    ⟨(tst id), .a, ⟨.triad, true⟩, 0, by decide +kernel⟩,
    ⟨(tst fun L => let L := { L with bridge := { L.bridge with flagsOut := (0 : Nat) :: ([] : List Nat) } }; L), .a,
      0, ([]), by decide +kernel⟩,
    ⟨(tst id), .a, ⟨.triad, true⟩, 0xC1A5, by decide +kernel⟩,
    ⟨(tst id), .a, ⟨.triad, true⟩, by decide +kernel⟩,
    ⟨(tst id), .a, ⟨.triad, true⟩, by decide +kernel⟩⟩

/-- Witnesses of the hypotheses of `BelayPowerOn`. -/
theorem wit_BelayPowerOn :
    (∃ (s : State) (l : Lane), (s.lane l).belay = bsBoot ∧ (s.lane l).lcs.imageOk = true ∧ tickLegal (s.lane l).tTick
      (s.lane l).nTicks (s.lane l).basicCycle = true ∧ (s.lane l).is R.edgeStat_cal_done = true ∧ (s.lane l).locked
      R.belayLock = true ∧ (s.lane l).is R.brgStat_locked = true) ∧
    (∃ (s : State) (l : Lane), (s.lane l).belay = bsSync ∧ (s.lane l).identOk = false) ∧
    (∃ (s : State) (l : Lane), (∀ y, y ≠ (s.lane l).id → participates ((s.lane l).view y) = false) ∧ (s.lane l).belay
      = bsSync ∧ 8 ≤ (s.lane l).time.syncRun ∧ (s.lane l).tickRefOk = true ∧ (s.lane l).identOk = true ∧ (s.lane l).is
      R.triadStat_split = false) ∧
    (∃ (s : State) (l y : Lane), (s.lane l).belay = bsSync ∧ 8 ≤ (s.lane l).time.syncRun ∧ (s.lane l).tickRefOk = true
      ∧ (s.lane l).identOk = true ∧ (s.lane l).is R.triadStat_split = false ∧ y ≠ (s.lane l).id ∧ participates
      ((s.lane l).view y) = true ∧ (∀ z ∈ (s.lane l).drivingLanes, bits ((s.lane l).brec z 5) 31 16 = (s.lane
      l).compat) ∧ (s.lane l).linkUp .l0 = true ∧ (s.lane l).linkUp .l1 = true ∧ (s.lane l).atPeriod = true) ∧
    (∃ (s : State) (l : Lane) (p : Nat), (∀ y, participates ((s.lane l).view y) = false) ∧ (s.lane l).belay = bsSync ∧
      (s.lane l).belaySt.ready = true ∧ (s.lane l).belaySt.twoReady = some p ∧ p + 8 ≤ (s.lane l).pnum ∧ (s.lane
      l).pnum % 64 = 0 ∧ (s.lane l).atPeriod = true) ∧
    (∃ (s : State) (l : Lane) (t : Nat), (∀ y, participates ((s.lane l).view y) = false) ∧ (s.lane l).belay = bsSync ∧
      (s.lane l).belaySt.ready = true ∧ (s.lane l).is R.belayStart_solo_en = true ∧ (s.lane l).belaySt.aloneSince =
      some t ∧ t + (s.lane l).get R.belayStart_solo_t * 200000 ≤ (s.lane l).coarse ∧ (s.lane l).atPeriod = true) ∧
    (∃ (s : State) (l : Lane) (q : Req) (w : Word), (s.lane l).judge q R.belayKick true w = none ∧ bits w.toNat 15 0 =
      0x5EED) ∧
    (∃ (s : State) (l : Lane) (q : Req) (w : Word), (s.lane l).judge q R.belayKick true w = none ∧ bits w.toNat 15 0 ≠
      0x5EED) ∧
    (∃ (s : State) (l : Lane), (s.lane l).get R.belayWdg_period ≠ 0 ∧ (s.lane l).get R.belayWdg_period ≤ (s.lane
      l).belaySt.wdg) :=
  ⟨
    ⟨(tst fun L => let L := L.put R.belayState_state bsBoot;
      let L := { L with lcs := { L.lcs with imageOk := true } }; let L := L.setF R.edgeStat_cal_done true;
      let L := { L with locks := addTo R.belayLock L.locks }; let L := L.setF R.brgStat_locked true; L), .a, by
      decide +kernel⟩,
    ⟨(tst fun L => let L := L.put R.belayState_state bsSync; let L := L.put (viewField .b) bsActive;
      let L := L.setF (linkUpF .l0) true; let L := L.mapLink .l0 (fun X => { X with peerIdent := some (5, 9) }); L),
      .a, by decide +kernel⟩,
    ⟨(tst fun L => let L := L.put R.belayState_state bsSync; let L := { L with time := { L.time with syncRun := 8 } };
      let L := L.setF R.triadStat_split false; L), .a, allLanes (by decide +kernel), by decide +kernel⟩,
    ⟨(tst fun L => let L := L.put R.belayState_state bsSync; let L := { L with time := { L.time with syncRun := 8 } };
      let L := L.setF R.triadStat_split false; let L := L.put (viewField (.b : Lane)) bsActive;
      let L := L.setF (linkUpF .l0) true; let L := L.setF (linkUpF .l1) true; L), .a, .b, by decide +kernel⟩,
    ⟨(tst fun L => let L := L.put R.belayState_state bsSync;
      let L := { L with belaySt := { L.belaySt with ready := true } };
      let L := { L with belaySt := { L.belaySt with twoReady := some (0 : Nat) } };
      let L := L.setNow (64 * 5000 * 64); L), .a, 0, allLanes (by decide +kernel), by decide +kernel⟩,
    ⟨(tst fun L => let L := L.put R.belayState_state bsSync;
      let L := { L with belaySt := { L.belaySt with ready := true } }; let L := L.setF R.belayStart_solo_en true;
      let L := { L with belaySt := { L.belaySt with aloneSince := some (0 : Nat) } };
      let L := L.setNow (64 * 5000 * 1000000); L), .a, 0, allLanes (by decide +kernel), by decide +kernel⟩,
    ⟨(tst id), .a, ⟨.triad, true⟩, 0x5EED, by decide +kernel⟩,
    ⟨(tst id), .a, ⟨.triad, true⟩, 0, by decide +kernel⟩,
    ⟨(tst fun L => let L := L.put R.belayWdg_period 1;
      let L := { L with belaySt := { L.belaySt with wdg := 100000 } }; L), .a, by decide +kernel⟩⟩

/-- Witnesses of the hypotheses of `BelayExclusion`. -/
theorem wit_BelayExclusion :
    (∃ (s : State) (l : Lane) (code : BitVec 8), (s.lane l).belay = bsActive ∧ (s.lane l).isRaised code.toNat (s.lane
      l).id = true ∧ (s.lane l).causeAction code.toNat = 1) ∧
    (∃ (s : State) (l : Lane), (s.lane l).belay = bsSuspect ∧ (s.lane l).belaySt.selfExcluding = false ∧ 16 ≤ (s.lane
      l).belaySt.cleanRun ∧ (s.lane l).atPeriod = true) ∧
    (∃ (s : State) (l : Lane) (code : BitVec 8), (s.lane l).isRaised code.toNat (s.lane l).id = true ∧ (s.lane
      l).causeAction code.toNat = 2 ∧ code.toNat ≠ 0x0A ∧ code.toNat ≠ 0x13 ∧ driving (s.lane l).belay = true ∧
      (s.lane l).belaySt.selfExcluding = false) ∧
    (∃ (s : State) (l : Lane) (code : BitVec 8), (s.lane l).isRaised code.toNat (s.lane l).id = true ∧ (s.lane
      l).causeAction code.toNat = 2 ∧ (((code.toNat = 0x0A ∨ code.toNat = 0x13) ∧ (s.lane l).belay ≠ bsDead ∧ (s.lane
      l).belay ≠ bsExcluded) ∨ (s.lane l).belay = bsShadow ∨ (s.lane l).belay = bsRejoin)) ∧
    (∃ (s : State) (l : Lane), (s.lane l).belaySt.selfExcluding = true ∧ (s.lane l).atPeriod = true) ∧
    (∃ (s : State) (l : Lane), driving (s.lane l).belay = true ∧ 2 ≤ (lanes.filter (fun y => (s.lane l).voteIn y ==
      voteAgainst)).length) ∧
    (∃ (s : State) (l y : Lane) (code : BitVec 8), (∀ z : Lane, z.idx < y.idx → ∀ c ∈ [0x01, 0x02, 0x03], (s.lane
      l).countDue z c = false) ∧ y ≠ (s.lane l).id ∧ driving (s.lane l).belay = true ∧ (s.lane l).peerDue y code.toNat
      = true ∧ y.idx ∉ (s.lane l).belaySt.against ∧ (s.lane l).belaySt.exclNow = none) ∧
    (∃ (s : State) (l y z : Lane) (code : BitVec 8) (c : Nat), y ≠ (s.lane l).id ∧ driving (s.lane l).belay = true ∧
      (s.lane l).peerDue y code.toNat = true ∧ driving ((s.lane l).view y) = true ∧ z.idx < y.idx ∧ c ∈ [0x01, 0x02,
      0x03] ∧ (s.lane l).countDue z c = true) ∧
    (∃ (s : State) (l : Lane), (s.lane l).countDue (s.lane l).id 0x01 = true ∧ driving (s.lane l).belay = true ∧
      (s.lane l).belaySt.selfExcluding = false) ∧
    (∃ (s : State) (l : Lane) (n : Axis), (s.lane l).drivingLanes.length = 2 ∧ 2 ≤ (s.lane l).belaySt.plausRun.get n ∧
      driving (s.lane l).belay = true ∧ (s.lane l).belaySt.selfExcluding = false) ∧
    (∃ (s : State) (l : Lane) (q : Req), (s.lane l).judge q R.belayCmd true 3#32 = none ∧ driving (s.lane l).belay =
      true ∧ (s.lane l).belaySt.selfExcluding = false) :=
  ⟨
    ⟨(tst fun L => let L := L.put R.belayState_state bsActive;
      let L := { L with belaySt := { L.belaySt with raised := [(5, .a)] } }; L), .a, 0x05, by decide +kernel⟩,
    ⟨(tst fun L => let L := L.put R.belayState_state bsSuspect;
      let L := { L with belaySt := { L.belaySt with selfExcluding := false } };
      let L := { L with belaySt := { L.belaySt with cleanRun := 16 } }; L), .a, by decide +kernel⟩,
    ⟨(tst fun L => let L := L.put R.belayState_state bsActive;
      let L := { L with belaySt := { L.belaySt with selfExcluding := false } };
      let L := { L with belaySt := { L.belaySt with raised := [(0x0B, .a)] } }; L), .a, 0x0B, by decide +kernel⟩,
    ⟨(tst fun L => let L := { L with belaySt := { L.belaySt with raised := [(0x0A, .a)] } }; L), .a, 0x0A, by
      decide +kernel⟩,
    ⟨(tst fun L => let L := { L with belaySt := { L.belaySt with selfExcluding := true } }; L), .a, by decide +kernel⟩,
    ⟨(tst fun L => let L := L.put R.belayState_state bsActive; let L := L.put R.belayVote_in 0x2A; L), .a, by
      decide +kernel⟩,
    ⟨(tst fun L => let L := L.put R.belayState_state bsActive;
      let L := { L with belaySt := { L.belaySt with exclNow := none } };
      let L := { L with belaySt := { L.belaySt with stateDev := [(1, 1000)] } }; L), .a, .b, 0x02, allLanes (by
      decide +kernel), by decide +kernel⟩,
    ⟨(tst fun L => let L := L.put R.belayState_state bsActive; let L := L.put (viewField (.b : Lane)) bsActive;
      let L := { L with belaySt := { L.belaySt with stateDev := [(1, 1000), (0, 1000)] } };
      let L := L.put (viewField .c) bsActive; L), .a, .b, .a, 0x02, 2, by decide +kernel⟩,
    ⟨(tst fun L => let L := L.put R.belayState_state bsActive;
      let L := { L with belaySt := { L.belaySt with selfExcluding := false } };
      let L := { L with belaySt := { L.belaySt with dev := [(0, 1000)] } }; L), .a, by decide +kernel⟩,
    ⟨(tst
      fun L => let L := { L with belaySt := { L.belaySt with plausRun := (L.belaySt.plausRun).set (0 : Axis) 2 } };
      let L := L.put R.belayState_state bsActive;
      let L := { L with belaySt := { L.belaySt with selfExcluding := false } };
      let L := L.put (viewField .b) bsActive; let L := L.put (viewField .a) bsActive;
      let L := { L with belaySt := { L.belaySt with plausRun := [(0, 2)] } }; L), .a, 0, by decide +kernel⟩,
    ⟨(tst fun L => let L := L.put R.belayState_state bsActive;
      let L := { L with belaySt := { L.belaySt with selfExcluding := false } }; L), .a, ⟨.triad, true⟩, by
      decide +kernel⟩⟩

/-- Witnesses of the hypotheses of `BelayLimp`. -/
theorem wit_BelayLimp :
    (∃ (s : State) (l : Lane), 1 ≤ (s.lane l).belaySt.multiRun ∧ (s.lane l).disTime (s.lane l).belaySt.multiRun =
      true) ∧
    (∃ (s : State) (l : Lane) (n : Axis), driving (s.lane l).belay = true ∧ 1 ≤ (s.lane l).belaySt.disRun.get n ∧
      (s.lane l).disTime ((s.lane l).belaySt.disRun.get n) = true ∧ (s.lane l).belaySt.stopAt = none) ∧
    (∃ (s : State) (l : Lane) (n : Axis), driving (s.lane l).belay = true ∧ n.val ∈ (s.lane l).limpAxes ∧ (s.lane
      l).bitOf R.belayState_limp_axes n = false) ∧
    (∃ (s : State) (l : Lane) (t : Nat), (s.lane l).belaySt.limpAt = some t ∧ (s.lane l).belaySt.stopAt = none ∧ t +
      (s.lane l).get R.belayLimp_t_req * 200000000 ≤ (s.lane l).coarse) ∧
    (∃ (s : State) (l : Lane) (t : Nat), (s.lane l).belaySt.stopAt = some t ∧ (s.lane l).is R.belayReq_hold = false ∧
      t + (s.lane l).get R.belayLimp_t_hold * 200000000 ≤ (s.lane l).coarse) :=
  ⟨
    ⟨(tst fun L => let L := { L with belaySt := { L.belaySt with multiRun := 1 } };
      let L := { L with belaySt := { L.belaySt with multiRun := 1000000000 } }; L), .a, by decide +kernel⟩,
    ⟨(tst fun L => let L := L.put R.belayState_state bsActive;
      let L := { L with belaySt := { L.belaySt with disRun := (L.belaySt.disRun).set (0 : Axis) 1 } };
      let L := { L with belaySt := { L.belaySt with stopAt := none } };
      let L := { L with belaySt := { L.belaySt with disRun := [(0, 1000000000)] } }; L), .a, 0, by decide +kernel⟩,
    ⟨(tst fun L => let L := L.put R.belayState_state bsActive;
      let L := L.setBit R.belayState_limp_axes (0 : Axis) false; let L := L.put R.belayState_blind 1; L), .a, 0, by
      decide +kernel⟩,
    ⟨(tst fun L => let L := { L with belaySt := { L.belaySt with limpAt := some (0 : Nat) } };
      let L := { L with belaySt := { L.belaySt with stopAt := none } }; let L := L.setNow (64 * 5000 * 100000000000);
      L), .a, 0, by decide +kernel⟩,
    ⟨(tst fun L => let L := { L with belaySt := { L.belaySt with stopAt := some (0 : Nat) } };
      let L := L.setF R.belayReq_hold false; let L := L.setNow (64 * 5000 * 100000000000); L), .a, 0, by
      decide +kernel⟩⟩

/-- Witnesses of the hypotheses of `BelayRejoin`. -/
theorem wit_BelayRejoin :
    (∃ (s : State) (l : Lane) (k : Link), driving (s.lane l).belay = true ∧ (s.lane l).drivingLanes.head? = some
      (s.lane l).id ∧ (s.lane l).view ((s.lane l).id.peer k) = bsRejoin ∧ (s.lane l).linkUp k = true ∧ (s.lane
      l).atPeriod = true ∧ ((s.lane l).id.peer k).idx ∉ (s.lane l).belaySt.sent) ∧
    (∃ (s : State) (l : Lane) (k : Link) (t : Transfer) (rest : List RopeMsg), s.arriving (l.peer k) l = .transfer t
      :: rest ∧ (s.lane l).belay = bsRejoin) ∧
    (∃ (s : State) (l : Lane) (k : Link) (t : Transfer) (rest : List RopeMsg), s.arriving (l.peer k) l = .transfer t
      :: rest ∧ (s.lane l).belay ≠ bsRejoin) ∧
    (∃ (s : State) (l : Lane), (s.lane l).belay = bsRejoin ∧ (s.lane l).belaySt.transfer = none ∧ (s.lane
      l).belaySt.rejoinAt + 400000 ≤ (s.lane l).coarse) ∧
    (∃ (s : State) (l : Lane) (t : Transfer), (s.lane l).belaySt.transfer = some t ∧ t.loops = [] ∧ (s.lane l).belay =
      bsRejoin ∧ (s.lane l).pnum = t.period + t.k ∧ (s.lane l).atPeriod = true) ∧
    (∃ (s : State) (l : Lane) (t : Transfer), (s.lane l).belaySt.transfer = some t ∧ (s.lane l).belay = bsRejoin ∧
      (s.lane l).pnum = t.period + t.k ∧ (s.lane l).atPeriod = true) ∧
    (∃ (s : State) (l : Lane), 64 ≤ (s.lane l).belaySt.shadowRun.get (s.lane l).id.idx ∧ (s.lane l).pnum % 8 = 0 ∧
      (s.lane l).atPeriod = true ∧ (s.lane l).belay = bsShadow) ∧
    (∃ (s : State) (l y : Lane), y ≠ (s.lane l).id ∧ 64 ≤ (s.lane l).belaySt.shadowRun.get y.idx ∧ (s.lane l).pnum % 8
      = 0 ∧ (s.lane l).atPeriod = true ∧ (s.lane l).view y = bsShadow ∧ driving (s.lane l).belay = true) ∧
    (∃ (s : State) (l : Lane) (p : Nat), (s.lane l).belaySt.serviceAt = some p ∧ (s.lane l).belay = bsActive ∧ p + 17
      ≤ (s.lane l).pnum ∧ (s.lane l).atPeriod = true) ∧
    (∃ (s : State) (l : Lane), (s.lane l).belaySt.recSent = false ∧ (s.lane l).nTicks ≤ (s.lane l).tickIdx + 1) ∧
    (∃ (s : State) (l : Lane) (k : Link) (ws : List Word) (rest : List RopeMsg), s.arriving (l.peer k) l = .block
      (segBase (l.peer k) + 0x40) ws :: rest) ∧
    (∃ (s : State) (l : Lane) (q : Req), (∀ y, (s.lane l).view y = bsActive) ∧ (s.lane l).judge q R.belayCmd true 1#32
      = none ∧ (∀ n : Axis, (s.lane l).axis n ≠ axLimp) ∧ (s.lane l).is R.belayStat_disagree_2 = false) ∧
    (∃ (s : State) (l : Lane) (q : Req), (∃ y, (s.lane l).view y ≠ bsActive) ∧ (s.lane l).judge q R.belayCmd true 1#32
      = none) ∧
    (∃ (s : State) (l : Lane) (q : Req), (s.lane l).judge q R.belayCmd true 2#32 = none ∧ (s.lane l).belay =
      bsService) ∧
    (∃ (s : State) (l : Lane) (q : Req), (s.lane l).judge q R.belayCmd true 2#32 = none ∧ (s.lane l).belay ≠
      bsService) ∧
    (∃ (s : State) (l : Lane) (q : Req), (s.lane l).judge q R.belayCmd true 4#32 = none ∧ (s.lane l).belay = bsDead ∧
      2 ≤ (s.lane l).role ∧ (s.lane l).is R.lcsState_log_full = false ∧ (s.lane l).get R.lcsState_cal_grant = 0 ∧
      (s.lane l).get R.lcsLog_n < 4096) ∧
    (∃ (s : State) (l : Lane) (q : Req), (s.lane l).judge q R.belayCmd true 4#32 = none ∧ (s.lane l).belay ≠ bsDead) ∧
    (∃ (s : State) (l : Lane) (q : Req), (s.lane l).judge q R.belayCmd true 0x100#32 = none) :=
  ⟨
    ⟨(tst fun L => let L := L.put R.belayState_state bsActive;
      let L := L.put (viewField (L.id.peer (.l0 : Link))) bsRejoin; let L := L.setF (linkUpF (.l0 : Link)) true; L),
      .a, .l0, by decide +kernel⟩,
    ⟨((tst fun L => let L := L.put R.belayState_state bsRejoin; L).setFlight (Lane.peer .a (.l0 : Link)) .a [.transfer
      (tr0 : Transfer)]), .a, .l0, tr0, ([]), by decide +kernel⟩,
    ⟨((tst id).setFlight (Lane.peer .a (.l0 : Link)) .a [.transfer (tr0 : Transfer)]), .a, .l0, tr0, ([]), by
      decide +kernel⟩,
    ⟨(tst fun L => let L := L.put R.belayState_state bsRejoin;
      let L := { L with belaySt := { L.belaySt with transfer := none } }; let L := L.setNow (64 * 5000 * 128); L), .a,
      by decide +kernel⟩,
    ⟨(tst fun L => let L := { L with belaySt := { L.belaySt with transfer := some (tr0 : Transfer) } };
      let L := L.put R.belayState_state bsRejoin; L), .a, tr0, by decide +kernel⟩,
    ⟨(tst fun L => let L := { L with belaySt := { L.belaySt with transfer := some (tr0 : Transfer) } };
      let L := L.put R.belayState_state bsRejoin; L), .a, tr0, by decide +kernel⟩,
    ⟨(tst fun L => let L := L.put R.belayState_state bsShadow;
      let L := { L with belaySt := { L.belaySt with shadowRun := [(0, 64)] } }; L), .a, by decide +kernel⟩,
    ⟨(tst
      fun L => let L := { L with belaySt := { L.belaySt with shadowRun := (L.belaySt.shadowRun).set (.b : Lane).idx 64 } };
      let L := L.put (viewField (.b : Lane)) bsShadow; let L := L.put R.belayState_state bsActive; L), .a, .b, by
      decide +kernel⟩,
    ⟨(tst fun L => let L := { L with belaySt := { L.belaySt with serviceAt := some (0 : Nat) } };
      let L := L.put R.belayState_state bsActive; let L := L.setNow (64 * 5000 * 64); L), .a, 0, by decide +kernel⟩,
    ⟨(tst fun L => let L := { L with belaySt := { L.belaySt with recSent := false } }; let L := L.setNow (64 * 4000);
      L), .a, by decide +kernel⟩,
    ⟨((tst id).setFlight (Lane.peer .a (.l0 : Link)) .a [.block (segBase (Lane.peer .a (.l0 : Link)) + 0x40) ([] :
      List Word)]), .a, .l0, ([]), ([]), by decide +kernel⟩,
    ⟨(tst fun L => let L := L.setF R.belayStat_disagree_2 false; let L := L.put (viewField .a) bsActive;
      let L := L.put (viewField .b) bsActive; let L := L.put (viewField .c) bsActive;
      let L := L.put R.belayState_state bsActive; L), .a, ⟨.triad, true⟩, allLanes (by decide +kernel), by
      decide +kernel⟩,
    ⟨(tst id), .a, ⟨.triad, true⟩, ⟨.b, by decide +kernel⟩, by decide +kernel⟩,
    ⟨(tst fun L => let L := L.put R.belayState_state bsService; L), .a, ⟨.triad, true⟩, by decide +kernel⟩,
    ⟨(tst id), .a, ⟨.triad, true⟩, by decide +kernel⟩,
    ⟨(tst fun L => let L := L.put R.belayState_state bsDead; let L := L.setF R.lcsState_log_full false;
      let L := L.put R.lcsState_cal_grant 0; let L := L.put R.lcsState_role 2; L), .a, ⟨.triad, true⟩, by
      decide +kernel⟩,
    ⟨(tst id), .a, ⟨.triad, true⟩, by decide +kernel⟩,
    ⟨(tst id), .a, ⟨.triad, true⟩, by decide +kernel⟩⟩

/-- Witnesses of the hypotheses of `Votes`. -/
theorem wit_Votes :
    (∃ (s : State) (l : Lane), (∀ y, y ≠ (s.lane l).id → driving ((s.lane l).view y) = false) ∧ driving (s.lane
      l).belay = true ∧ (s.lane l).aon.twoFault = true) ∧
    (∃ (s : State) (l : Lane), (s.lane l).lastLaneVotes = true ∧ (s.lane l).gate.armHeld = true) ∧
    (∃ (s : State) (l : Lane), (∀ k, (s.lane l).linkUp k = true) ∧ (∀ y, (s.lane l).gateCls y < 4)) ∧
    (∃ (s : State) (l : Lane) (k j : Link), (∀ y, (s.lane l).gateCls y = voteFor) ∧ j ≠ k ∧ (s.lane l).linkUp k =
      false ∧ (s.lane l).linkUp j = true ∧ (s.lane l).belaySt.linkClass.get k.idx ≠ 1 ∧ driving (s.lane l).belay =
      true ∧ (s.lane l).drivingLanes.length = 2 ∧ (s.lane l).id.peer k ∈ (s.lane l).drivingLanes) ∧
    (∃ (s : State) (l y : Lane), 3 ≤ (s.lane l).belaySt.voteDiff.get y.idx ∧ y ≠ (s.lane l).id) :=
  ⟨
    ⟨(tst fun L => let L := L.put R.belayState_state bsActive;
      let L := { L with aon := { L.aon with twoFault := true } }; L), .a, allLanes (by decide +kernel), by
      decide +kernel⟩,
    ⟨(tst fun L => let L := { L with gate := { L.gate with armHeld := true } };
      let L := { L with gate := { L.gate with cls := [(0, 1)] } }; L), .a, by decide +kernel⟩,
    ⟨(tst fun L => let L := L.setF (linkUpF .l0) true; let L := L.setF (linkUpF .l1) true; L), .a, allLinks (by
      decide +kernel), allLanes (by decide +kernel)⟩,
    ⟨(tst fun L => let L := L.put R.belayState_state bsActive; let L := L.setF (linkUpF .l1) true;
      let L := { L with gate := { L.gate with cls := [(0, 1), (1, 1), (2, 1)] } };
      let L := L.put (viewField .a) bsActive; let L := L.put (viewField .b) bsActive;
      let L := L.put R.belayState_state bsActive; L), .a, .l0, .l1, allLanes (by decide +kernel), by decide +kernel⟩,
    ⟨(tst
      fun L => let L := { L with belaySt := { L.belaySt with voteDiff := (L.belaySt.voteDiff).set (.b : Lane).idx 3 } };
      L), .a, .b, by decide +kernel⟩⟩

/-- Witnesses of the hypotheses of `LoopAlu`. -/
theorem wit_LoopAlu :
    (∃ (s : State) (l : Lane) (e : Fin 2) (r : LeRun), (s.lane l).LeReady e r 0x00 1) ∧
    (∃ (s : State) (l : Lane) (e : Fin 2) (r : LeRun), (s.lane l).LeReady e r 0x15 1) ∧
    (∃ (s : State) (l : Lane) (e : Fin 2) (r : LeRun), (s.lane l).LeReady e r 0x16 1) ∧
    (∃ (s : State) (l : Lane) (e : Fin 2) (r : LeRun), (s.lane l).LeReady e r 0x19 2) ∧
    (∃ (s : State) (l : Lane) (e : Fin 2) (r : LeRun), (s.lane l).LeReady e r 0x1A 2) ∧
    (∃ (s : State) (l : Lane) (e : Fin 2) (r : LeRun), (s.lane l).LeReady e r 0x1E 1) ∧
    (∃ (s : State) (l : Lane) (e : Fin 2) (r : LeRun), (s.lane l).LeReady e r 0x20 1 ∧ leImm14 ((s.lane l).leWord e
      r.pc) ≠ 0 ∧ r.pc + leImm14 ((s.lane l).leWord e r.pc) ≤ 0xFFF) ∧
    (∃ (s : State) (l : Lane) (e : Fin 2) (r : LeRun), (s.lane l).LeReady e r 0x21 1 ∧ leImm14 ((s.lane l).leWord e
      r.pc) ≠ 0 ∧ r.pc + leImm14 ((s.lane l).leWord e r.pc) ≤ 0xFFF) ∧
    (∃ (s : State) (l : Lane) (e : Fin 2) (r : LeRun), (s.lane l).LeReady e r 0x21 1 ∧ (leImm14 ((s.lane l).leWord e
      r.pc) = 0 ∨ 0xFFF < r.pc + leImm14 ((s.lane l).leWord e r.pc))) ∧
    (∃ (s : State) (l : Lane) (e : Fin 2) (r : LeRun), ((s.lane l).le e).run = some r ∧ r.wait = none) ∧
    (∃ (s : State) (l : Lane) (e : Fin 2) (r : LeRun), (s.lane l).LeReady e r 0x00 1) ∧
    (∃ (s : State) (l : Lane) (e : Fin 2) (r : LeRun), ((s.lane l).le e).run = some r ∧ (r.wait ≠ none ∨ (s.lane
      l).dBudget e r.loop < r.cycles + (s.lane l).leMinCost e r)) ∧
    (∀ x ∈ ([(0x02, 1), (0x03, 1), (0x04, 1), (0x09, 1), (0x0A, 1), (0x0B, 1), (0x0C, 1), (0x0D, 2), (0x0E, 1), (0x0F,
      1), (0x10, 1), (0x11, 1), (0x12, 1), (0x13, 1), (0x14, 1), (0x17, 1), (0x1F, 1)] : List (Nat × Nat)), ∃ (s :
      State) (l : Lane) (e : Fin 2) (r : LeRun), (s.lane l).LeReady e r x.1 x.2) :=
  ⟨
    ⟨(tst fun L => let L := leSet L (0 : Fin 2) (lr : LeRun) 0; L), .a, 0, lr,
      by unfold LaneState.LeReady; decide +kernel⟩,
    ⟨(tst fun L => let L := leSet L (0 : Fin 2) (lr : LeRun) 1409286144; L), .a, 0, lr,
      by unfold LaneState.LeReady; decide +kernel⟩,
    ⟨(tst fun L => let L := leSet L (0 : Fin 2) (lr : LeRun) 1476395008; L), .a, 0, lr,
      by unfold LaneState.LeReady; decide +kernel⟩,
    ⟨(tst fun L => let L := leSet L (0 : Fin 2) (lr : LeRun) 1677721600; L), .a, 0, lr,
      by unfold LaneState.LeReady; decide +kernel⟩,
    ⟨(tst fun L => let L := leSet L (0 : Fin 2) (lr : LeRun) 1744830464; L), .a, 0, lr,
      by unfold LaneState.LeReady; decide +kernel⟩,
    ⟨(tst fun L => let L := leSet L (0 : Fin 2) (lr : LeRun) 2013265920; L), .a, 0, lr,
      by unfold LaneState.LeReady; decide +kernel⟩,
    ⟨(tst fun L => let L := leSet L (0 : Fin 2) (lr : LeRun) 2147483648;
      let L := leSet L (0 : Fin 2) (lr : LeRun) 0x80000001; L), .a, 0, lr,
      by unfold LaneState.LeReady; decide +kernel, by decide +kernel⟩,
    ⟨(tst fun L => let L := leSet L (0 : Fin 2) (lr : LeRun) 2214592512;
      let L := leSet L (0 : Fin 2) (lr : LeRun) 0x84000001; L), .a, 0, lr,
      by unfold LaneState.LeReady; decide +kernel, by decide +kernel⟩,
    ⟨(tst fun L => let L := leSet L (0 : Fin 2) (lr : LeRun) 2214592512; L), .a, 0, lr,
      by unfold LaneState.LeReady; decide +kernel, by decide +kernel⟩,
    ⟨(tst fun L => let L := L.mapLe (0 : Fin 2) (fun X => { X with run := some (lr : LeRun) }); L), .a, 0, lr, by
      decide +kernel⟩,
    ⟨(tst fun L => let L := leSet L (0 : Fin 2) (lr : LeRun) 0; L), .a, 0, lr,
      by unfold LaneState.LeReady; decide +kernel⟩,
    ⟨(tst fun L => let L := L.mapLe (0 : Fin 2) (fun X => { X with run := some (lr : LeRun) }); L), .a, 0, lr, by
      decide +kernel⟩,
    by intro x hx; exact ⟨(tst fun L => leSet L 0 lr (x.1 * 2 ^ 26)), .a, 0, lr,
      by unfold LaneState.LeReady; revert x; decide +kernel⟩⟩

/-- Witnesses of the hypotheses of `LoopData`. -/
theorem wit_LoopData :
    (∃ (s : State) (l : Lane) (e : Fin 2) (r : LeRun), (s.lane l).LeReady e r 0x05 2 ∧ leReadable (leAddr r ((s.lane
      l).leWord e r.pc)) = true) ∧
    (∃ (s : State) (l : Lane) (e : Fin 2) (r : LeRun), (s.lane l).LeReady e r 0x05 2 ∧ leReadable (leAddr r ((s.lane
      l).leWord e r.pc)) = false) ∧
    (∃ (s : State) (l : Lane) (e : Fin 2) (r : LeRun), (s.lane l).LeReady e r 0x06 1 ∧ leStorable (leAddr r ((s.lane
      l).leWord e r.pc)) = true) ∧
    (∃ (s : State) (l : Lane) (e : Fin 2) (r : LeRun), (s.lane l).LeReady e r 0x06 1 ∧ leStorable (leAddr r ((s.lane
      l).leWord e r.pc)) = false) ∧
    (∃ (s : State) (l : Lane) (e : Fin 2) (v : Fin 4) (r : LeRun), (s.lane l).LeReady e r 0x07 (6 + v.val)) ∧
    (∃ (s : State) (l : Lane) (e : Fin 2) (v : Fin 4) (r : LeRun), (s.lane l).LeReady e r 0x08 (6 + v.val) ∧ (∀ y,
      inSeg y (leImm18 ((s.lane l).leWord e r.pc)) = false)) ∧
    (∃ (s : State) (l : Lane) (e : Fin 2) (v : Fin 4) (r : LeRun), (s.lane l).LeReady e r 0x08 (6 + v.val) ∧ (s.lane
      l).inPeerSeg (leImm18 ((s.lane l).leWord e r.pc)) = true) ∧
    (∃ (s : State) (l : Lane) (e : Fin 2) (r : LeRun) (N : LaneState) (y : Int), (s.lane l).LeReady e r 0x18 ((s.lane
      l).leMinCost e r) ∧ (s.lane l).cascade e { r with pc := r.pc + 1 } (List.range' (bits ((s.lane l).leWord e r.pc)
      13 9) (bits ((s.lane l).leWord e r.pc) 5 0)) (if (s.lane l).dPacked e r.loop then satS 16 (rshRound 16 (r.qv
      (leA ((s.lane l).leWord e r.pc)))) else r.qv (leA ((s.lane l).leWord e r.pc))) = (N, .ok y) ∧ bits ((s.lane
      l).leWord e r.pc) 5 0 ≠ 0 ∧ bits ((s.lane l).leWord e r.pc) 13 9 + bits ((s.lane l).leWord e r.pc) 5 0 ≤ (s.lane
      l).dNsec e r.loop) ∧
    (∃ (s : State) (l : Lane) (e : Fin 2) (r : LeRun), (s.lane l).LeReady e r 0x18 ((s.lane l).leMinCost e r) ∧ (bits
      ((s.lane l).leWord e r.pc) 5 0 = 0 ∨ (s.lane l).dNsec e r.loop < bits ((s.lane l).leWord e r.pc) 13 9 + bits
      ((s.lane l).leWord e r.pc) 5 0)) ∧
    (∃ (s : State) (l : Lane) (e : Fin 2) (r : LeRun) (lo hi : Int), (s.lane l).LeReady e r 0x1B ((s.lane l).leMinCost
      e r) ∧ (s.lane l).outLimits e { r with pc := r.pc + 1 } = some (lo, hi) ∧ lo ≤ hi ∧ (∀ j ∈ r.upd, (s.lane
      l).secOk e r.loop j = true)) ∧
    (∃ (s : State) (l : Lane) (e : Fin 2) (r : LeRun), (s.lane l).LeReady e r 0x1C 5 ∧ (1 ≤ (bits (((s.lane l).word
      (leData e (0x400 + 8 * bits ((s.lane l).leWord e r.pc) 3 0))).toNat) 17 14) ∧ (bits (((s.lane l).word (leData e
      (0x400 + 8 * bits ((s.lane l).leWord e r.pc) 3 0))).toNat) 17 14) ≤ 10 ∧ leReadable (bits (((s.lane l).word
      (leData e (0x400 + 8 * bits ((s.lane l).leWord e r.pc) 3 0))).toNat) 13 0) = true ∧ (bits (((s.lane l).word
      (leData e (0x400 + 8 * bits ((s.lane l).leWord e r.pc) 3 0))).toNat) 13 0) + 4 * (2 ^ (bits (((s.lane l).word
      (leData e (0x400 + 8 * bits ((s.lane l).leWord e r.pc) 3 0))).toNat) 17 14) + 1) ≤ 0x4000)) ∧
    (∃ (s : State) (l : Lane) (e : Fin 2) (r : LeRun), (s.lane l).LeReady e r 0x1C 5 ∧ ((bits (((s.lane l).word
      (leData e (0x400 + 8 * bits ((s.lane l).leWord e r.pc) 3 0))).toNat) 17 14) = 0 ∨ 10 < (bits (((s.lane l).word
      (leData e (0x400 + 8 * bits ((s.lane l).leWord e r.pc) 3 0))).toNat) 17 14))) ∧
    (∃ (s : State) (l : Lane) (e : Fin 2) (r : LeRun), (s.lane l).LeReady e r 0x22 2 ∧ r.shared = false ∧ (s.lane
      l).names ((s.lane l).dAxis e r.loop) e r.loop = true ∧ (s.lane l).dPrompt e r.loop = false) ∧
    (∃ (s : State) (l : Lane) (e : Fin 2) (r : LeRun), (s.lane l).LeReady e r 0x22 2 ∧ r.shared = true) ∧
    (∃ (s : State) (l : Lane) (e : Fin 2) (r : LeRun), (s.lane l).LeReady e r 0x23 2 ∧ r.shared = false ∧ (s.lane
      l).names ((s.lane l).dAxis e r.loop) e r.loop = true ∧ (s.lane l).dPrompt e r.loop = true) ∧
    (∃ (s : State) (l : Lane) (e : Fin 2) (r : LeRun), (s.lane l).LeReady e r 0x23 2 ∧ (∀ y, inSeg y ((s.lane
      l).dOutId e r.loop) = false) ∧ r.shared = false ∧ (s.lane l).named e r.loop = false) ∧
    (∃ (s : State) (l : Lane) (e : Fin 2) (stamp : BitVec 64) (r : LeRun), (s.lane l).LeReady e r 0x24 1 ∧ ((s.lane
      l).waitDone e { r with pc := r.pc + 1 } (leA ((s.lane l).leWord e r.pc)) (leImm14 ((s.lane l).leWord e r.pc))
      (stamp.toNat / 64 - r.period * (s.lane l).tServo)) = true) ∧
    (∃ (s : State) (l : Lane) (e : Fin 2) (stamp : BitVec 64) (r : LeRun), (s.lane l).LeReady e r 0x24 1 ∧ ((s.lane
      l).waitDone e { r with pc := r.pc + 1 } (leA ((s.lane l).leWord e r.pc)) (leImm14 ((s.lane l).leWord e r.pc))
      (stamp.toNat / 64 - r.period * (s.lane l).tServo)) = false) ∧
    (∃ (s : State) (l : Lane) (e : Fin 2) (stamp : BitVec 64) (waited : BitVec 16) (r : LeRun) (m t : Nat), ((s.lane
      l).le e).run = some r ∧ r.wait = some (m, t) ∧ (s.lane l).waitDone e r m t (stamp.toNat / 64 - r.period *
      (s.lane l).tServo) = true ∧ r.cycles + waited.toNat ≤ (s.lane l).dBudget e r.loop) ∧
    (∃ (s : State) (l : Lane) (e : Fin 2) (r : LeRun), (s.lane l).LeReady e r 0x25 2 ∧ (bits ((s.lane l).leWord e
      r.pc) 13 9) < (s.lane l).dNsec e r.loop ∧ (s.lane l).secOk e r.loop (bits ((s.lane l).leWord e r.pc) 13 9) =
      true) ∧
    (∃ (s : State) (l : Lane) (e : Fin 2) (r : LeRun), (s.lane l).LeReady e r 0x25 2 ∧ (s.lane l).dNsec e r.loop ≤
      (bits ((s.lane l).leWord e r.pc) 13 9)) ∧
    (∃ (s : State) (l : Lane) (e : Fin 2) (r : LeRun), (s.lane l).LeReady e r 0x26 1 ∧ leReadable ((s.lane l).secAddr
      e r.loop (bits ((s.lane l).leWord e r.pc) 13 9)) = true ∧ (s.lane l).secAddr e r.loop (bits ((s.lane l).leWord e
      r.pc) 13 9) + 8 ≤ 0x4000) ∧
    (∃ (s : State) (l : Lane) (e : Fin 2) (v : Fin 7) (r : LeRun), (s.lane l).LeReady e r 0x1D (12 + v.val) ∧ (s.lane
      l).dSched e r.loop ≠ 0 ∧ r.loop ∉ ((s.lane l).le e).inited) ∧
    (∃ (s : State) (l : Lane) (e : Fin 2) (v : Fin 7) (r : LeRun), (s.lane l).LeReady e r 0x1D (12 + v.val) ∧ (s.lane
      l).dSched e r.loop ≠ 0 ∧ r.loop ∈ ((s.lane l).le e).inited ∧ (s.lane l).swapReady e = true) ∧
    (∃ (s : State) (l : Lane) (e : Fin 2) (v : Fin 7) (r : LeRun), (s.lane l).LeReady e r 0x1D (12 + v.val) ∧ (s.lane
      l).dSched e r.loop = 0) :=
  ⟨
    ⟨(tst fun L => let L := leSet L (0 : Fin 2) (lr : LeRun) 335544320; L), .a, 0, lr,
      by unfold LaneState.LeReady; decide +kernel, by decide +kernel⟩,
    ⟨(tst fun L => let L := leSet L (0 : Fin 2) (lr : LeRun) 335544320;
      let L := leSet L (0 : Fin 2) (lr : LeRun) 0x14003FFF; L), .a, 0, lr,
      by unfold LaneState.LeReady; decide +kernel, by decide +kernel⟩,
    ⟨(tst fun L => let L := leSet L (0 : Fin 2) (lr : LeRun) 402653184;
      let L := leSet L (0 : Fin 2) (lr : LeRun) 0x18000120; L), .a, 0, lr,
      by unfold LaneState.LeReady; decide +kernel, by decide +kernel⟩,
    ⟨(tst fun L => let L := leSet L (0 : Fin 2) (lr : LeRun) 402653184; L), .a, 0, lr,
      by unfold LaneState.LeReady; decide +kernel, by decide +kernel⟩,
    ⟨(tst fun L => let L := leSet L (0 : Fin 2) (lr : LeRun) 469762048; L), .a, 0, 0, lr,
      by unfold LaneState.LeReady; decide +kernel⟩,
    ⟨(tst fun L => let L := leSet L (0 : Fin 2) (lr : LeRun) 536870912; L), .a, 0, 0, lr,
      by unfold LaneState.LeReady; decide +kernel, allLanes (by decide +kernel)⟩,
    ⟨(tst fun L => let L := leSet L (0 : Fin 2) (lr : LeRun) 536870912;
      let L := leSet L (0 : Fin 2) (lr : LeRun) 0x20032000; L), .a, 0, 0, lr,
      by unfold LaneState.LeReady; decide +kernel, by decide +kernel⟩,
    ⟨(tst fun L => let L := leSet L (0 : Fin 2) (lr : LeRun) 1610612736;
      let L := leSet L (0 : Fin 2) (lr : LeRun) 0x60000001; let L := L.setWord (leData (0 : Fin 2) 0) 0x00100000;
      let L := L.setWord (leData (0 : Fin 2) 12) 0x480; L), .a, 0, lr, _, 0,
      by unfold LaneState.LeReady; decide +kernel, cascadeOk (by decide +kernel), by decide +kernel⟩,
    ⟨(tst fun L => let L := leSet L (0 : Fin 2) (lr : LeRun) 1610612736; L), .a, 0, lr,
      by unfold LaneState.LeReady; decide +kernel, by decide +kernel⟩,
    ⟨(tst fun L => let L := leSet L (0 : Fin 2) (lr : LeRun) 1811939328; L), .a, 0, lr, 0, 0,
      by unfold LaneState.LeReady; decide +kernel, by decide +kernel⟩,
    ⟨(tst fun L => let L := leSet L (0 : Fin 2) (lr : LeRun) 1879048192;
      let L := L.setWord (leData (0 : Fin 2) 0x400) 0x4100; L), .a, 0, lr,
      by unfold LaneState.LeReady; decide +kernel, by decide +kernel⟩,
    ⟨(tst fun L => let L := leSet L (0 : Fin 2) (lr : LeRun) 1879048192; L), .a, 0, lr,
      by unfold LaneState.LeReady; decide +kernel, by decide +kernel⟩,
    ⟨(tst fun L => let L := leSet L (0 : Fin 2) (lr : LeRun) 2281701376; let L := L.put (R.axpState_state 0) axDrive;
      L), .a, 0, lr, by unfold LaneState.LeReady; decide +kernel, by decide +kernel⟩,
    ⟨(tst fun L => let L := leSet L (0 : Fin 2) ({ lr with shared := true } : LeRun) 2281701376; L), .a, 0, ({ lr with
      shared := true }), by unfold LaneState.LeReady; decide +kernel, by decide +kernel⟩,
    ⟨(tst fun L => let L := leSet L (0 : Fin 2) (lr : LeRun) 2348810240; let L := L.put (R.axpState_state 0) axDrive;
      let L := L.setWord (leData (0 : Fin 2) 0) 0x40000; L), .a, 0, lr, by unfold LaneState.LeReady; decide +kernel,
      by decide +kernel⟩,
    ⟨(tst fun L => let L := leSet L (0 : Fin 2) (lr : LeRun) 2348810240; L), .a, 0, lr,
      by unfold LaneState.LeReady; decide +kernel, allLanes (by decide +kernel), by decide +kernel⟩,
    ⟨(tst fun L => let L := leSet L (0 : Fin 2) (lr : LeRun) 2415919104; L), .a, 0, 0, lr,
      by unfold LaneState.LeReady; decide +kernel, by decide +kernel⟩,
    ⟨(tst fun L => let L := leSet L (0 : Fin 2) (lr : LeRun) 2415919104;
      let L := leSet L (0 : Fin 2) (lr : LeRun) 0x90003FFF; L), .a, 0, 0, lr,
      by unfold LaneState.LeReady; decide +kernel, by decide +kernel⟩,
    ⟨(tst
      fun L => let L := L.mapLe (0 : Fin 2) (fun X => { X with run := some ({ lr with wait := some (0, 0) } : LeRun) });
      let L := L.setWord (leData (0 : Fin 2) 4) 1000; L), .a, 0, 0, 0, ({ lr with wait := some (0, 0) }), 0, 0, by
      decide +kernel⟩,
    ⟨(tst fun L => let L := leSet L (0 : Fin 2) (lr : LeRun) 2483027968;
      let L := L.setWord (leData (0 : Fin 2) 0) 0x00100000; let L := L.setWord (leData (0 : Fin 2) 12) 0x480; L), .a,
      0, lr, by unfold LaneState.LeReady; decide +kernel, by decide +kernel⟩,
    ⟨(tst fun L => let L := leSet L (0 : Fin 2) (lr : LeRun) 2483027968; L), .a, 0, lr,
      by unfold LaneState.LeReady; decide +kernel, by decide +kernel⟩,
    ⟨(tst fun L => let L := leSet L (0 : Fin 2) (lr : LeRun) 2550136832; L), .a, 0, lr,
      by unfold LaneState.LeReady; decide +kernel, by decide +kernel⟩,
    ⟨(tst fun L => let L := leSet L (0 : Fin 2) (lr : LeRun) 1946157056;
      let L := L.setWord (leData (0 : Fin 2) 0) 0x04000000; L), .a, 0, 0, lr,
      by unfold LaneState.LeReady; decide +kernel, by decide +kernel⟩,
    ⟨(tst fun L => let L := leSet L (0 : Fin 2) (lr : LeRun) 1946157056;
      let L := L.mapLe (0 : Fin 2) (fun X => { X with inited := [(lr : LeRun).loop] });
      let L := L.setWord (leData (0 : Fin 2) 0) 0x04000000; let L := L.put (R.leBankStat_swap_pend (0 : Fin 2)) 1;
      let L := L.put (R.leBankStat_ibs (0 : Fin 2)) 2; L), .a, 0, 0, lr, by unfold LaneState.LeReady; decide +kernel,
      by decide +kernel⟩,
    ⟨(tst fun L => let L := leSet L (0 : Fin 2) (lr : LeRun) 1946157056; L), .a, 0, 0, lr,
      by unfold LaneState.LeReady; decide +kernel, by decide +kernel⟩⟩

/-- Witnesses of the hypotheses of `LoopRuns`. -/
theorem wit_LoopRuns :
    (∃ (s : State) (l : Lane) (e : Fin 2) (k : Fin 16), (s.lane l).dTrig e k ≤ 1 ∧ (s.lane l).loopMayRun e k = true ∧
      ((s.lane l).le e).ready.any (fun p => p.2 == k.val) = false ∧ ((s.lane l).le e).run.any (fun r => r.loop ==
      k.val) = false) ∧
    (∃ (s : State) (l : Lane) (e : Fin 2) (k : Fin 16), (s.lane l).dTrig e k ≤ 1 ∧ (s.lane l).loopMayRun e k = true ∧
      ((s.lane l).le e).ready.any (fun p => p.2 == k.val) = true) ∧
    (∃ (s : State) (l : Lane) (e : Fin 2) (k : Fin 16) (t : Nat), ((s.lane l).le e).run = none ∧ ((s.lane l).le
      e).ready = [(t, k.val)] ∧ (s.lane l).leCanRun e = true ∧ (s.lane l).bitOf (R.leLoopEn_en e) k = true ∧ ((s.lane
      l).dTrig e k ≠ 0 ∨ (s.lane l).axRuns ((s.lane l).dAxis e k) = true) ∧ (s.lane l).is (R.leLoopStat_blending e k)
      = false) ∧
    (∃ (s : State) (l : Lane) (e : Fin 2) (r : LeRun), (s.lane l).LeReady e r 0x01 1) ∧
    (∃ (s : State) (l : Lane) (e : Fin 2) (q : Req), (s.lane l).judge q (R.leBankCmd e) true 1#32 = none ∧ (s.lane
      l).get (R.leBankStat_ibs e) = 0) ∧
    (∃ (s : State) (l : Lane) (e : Fin 2) (q : Req), (s.lane l).judge q (R.leBankCmd e) true 1#32 = none ∧ (s.lane
      l).get (R.leBankStat_ibs e) ≠ 0) ∧
    (∃ (s : State) (l : Lane) (e : Fin 2) (q : Req), (s.lane l).judge q (R.leBankCmd e) true 2#32 = none ∧ ((s.lane
      l).get (R.leBankStat_ibs e) = 1 ∨ (s.lane l).get (R.leBankStat_ibs e) = 2)) ∧
    (∃ (s : State) (l : Lane) (e : Fin 2) (q : Req) (at8 : BitVec 8), (s.lane l).judge q (R.leBankCmd e) true (wordN
      (3 + 256 * at8.toNat)) = none ∧ (s.lane l).get (R.leBankStat_ibs e) ≠ 3 ∧ (at8.toNat + 256 - (s.lane l).pnum %
      256) % 256 ≤ 128) ∧
    (∃ (s : State) (l : Lane) (e : Fin 2) (q : Req) (at8 : BitVec 8), (s.lane l).judge q (R.leBankCmd e) true (wordN
      (3 + 256 * at8.toNat)) = none ∧ (s.lane l).get (R.leBankStat_ibs e) = 3) ∧
    (∃ (s : State) (l : Lane) (e : Fin 2), (s.lane l).bankOk e 0 = true ∧ ((s.lane l).le e).check = 1) ∧
    (∃ (s : State) (l : Lane) (e : Fin 2), (s.lane l).bankOk e 0 = false ∧ ((s.lane l).le e).check = 1) ∧
    (∃ (s : State) (l : Lane) (e : Fin 2), (s.lane l).bankOk e (1 - (s.lane l).activeBank e) = true ∧ (s.lane l).get
      (R.leBankStat_ibs e) = 1) ∧
    (∃ (s : State) (l : Lane) (e : Fin 2), (s.lane l).bankOk e (1 - (s.lane l).activeBank e) = false ∧ (s.lane l).get
      (R.leBankStat_ibs e) = 1) ∧
    (∃ (s : State) (l : Lane) (e : Fin 2), (s.lane l).swapReady e = true ∧ (s.lane l).is (R.leBankStat_blending e) =
      false ∧ (s.lane l).coarse % (s.lane l).tServo = 0 ∧ ((s.lane l).le e).inited.Nodup ∧ (∀ k ∈ ((s.lane l).le
      e).inited, k < 16)) ∧
    (∃ (s : State) (l : Lane) (e : Fin 2) (q : Req) (w : Word), (s.lane l).judge q (R.leLock e) true w = none ∧ bits
      w.toNat 15 0 = 0xC1A5 ∧ (s.lane l).locked (R.leLock e) = false) ∧
    (∃ (s : State) (l : Lane) (e : Fin 2) (q : Req) (run : Bool), (s.lane l).judge q (R.leCtl e) true (wordN (b2n
      run)) = none) ∧
    (∃ (s : State) (l : Lane) (e : Fin 2) (q : Req), (s.lane l).judge q (R.leCmd e) true 1#32 = none) :=
  ⟨
    ⟨(tst fun L => let L := L.mapLe (0 : Fin 2) (fun X => { X with check := 2 });
      let L := L.put (R.leCtl_run (0 : Fin 2)) 1; let L := L.put R.belayState_state bsActive;
      let L := L.setWord (leData (0 : Fin 2) 4) 0x00010100; let L := L.setBit (R.leLoopEn_en (0 : Fin 2)) 0 true;
      let L := L.setWord (leData (0 : Fin 2) 0) 0x1000; L), .a, 0, 0, by decide +kernel⟩,
    ⟨(tst fun L => let L := L.mapLe (0 : Fin 2) (fun X => { X with check := 2 });
      let L := L.put (R.leCtl_run (0 : Fin 2)) 1; let L := L.put R.belayState_state bsActive;
      let L := L.setWord (leData (0 : Fin 2) 4) 0x00010100; let L := L.setBit (R.leLoopEn_en (0 : Fin 2)) 0 true;
      let L := L.setWord (leData (0 : Fin 2) 0) 0x1000;
      let L := L.mapLe (0 : Fin 2) (fun X => { X with ready := [(0, 0)] }); L), .a, 0, 0, by decide +kernel⟩,
    ⟨(tst fun L => let L := L.mapLe (0 : Fin 2) (fun X => { X with run := none });
      let L := L.mapLe (0 : Fin 2) (fun X => { X with ready := [((0 : Nat), (0 : Fin 16).val)] });
      let L := L.setBit (R.leLoopEn_en (0 : Fin 2)) (0 : Fin 16) true;
      let L := L.setF (R.leLoopStat_blending (0 : Fin 2) (0 : Fin 16)) false;
      let L := L.mapLe (0 : Fin 2) (fun X => { X with check := 2 }); let L := L.put (R.leCtl_run (0 : Fin 2)) 1;
      let L := L.put R.belayState_state bsActive; let L := L.setWord (leData (0 : Fin 2) 0) 0x1000; L), .a, 0, 0, 0,
      by decide +kernel⟩,
    ⟨(tst fun L => let L := leSet L (0 : Fin 2) (lr : LeRun) 67108864; L), .a, 0, lr,
      by unfold LaneState.LeReady; decide +kernel⟩,
    ⟨(tst fun L => let L := L.put (R.leBankStat_ibs (0 : Fin 2)) 0; L), .a, 0, ⟨.triad, true⟩, by decide +kernel⟩,
    ⟨(tst fun L => let L := L.put (R.leBankStat_ibs (0 : Fin 2)) 1; L), .a, 0, ⟨.triad, true⟩, by decide +kernel⟩,
    ⟨(tst fun L => let L := L.put (R.leBankStat_ibs (0 : Fin 2)) 1; L), .a, 0, ⟨.triad, true⟩, by decide +kernel⟩,
    ⟨(tst id), .a, 0, ⟨.triad, true⟩, 0, by decide +kernel⟩,
    ⟨(tst fun L => let L := L.put (R.leBankStat_ibs (0 : Fin 2)) 3; L), .a, 0, ⟨.triad, true⟩, 0, by decide +kernel⟩,
    ⟨(tst fun L => bankSet (L.mapLe 0 (fun X => { X with check := 1 })) 0 0), .a, 0, bankOk_bankSet _ 0 0, (congrArg
      LeSt.check (le_setWord _ _ _ _)).trans (by decide +kernel)⟩,
    ⟨(tst fun L => bankBad (L.mapLe 0 (fun X => { X with check := 1 })) 0 0), .a, 0, bankOk_bankBad _ 0 0, (congrArg
      LeSt.check (le_setWord _ _ _ _)).trans (by decide +kernel)⟩,
    ⟨(tst fun L => bankSet (L.put (R.leBankStat_ibs 0) 1) 0 1), .a, 0, bankOk_bankSet _ 0 1, (get_setWord _ _ _
      _).trans (by decide +kernel)⟩,
    ⟨(tst fun L => bankBad (L.put (R.leBankStat_ibs 0) 1) 0 1), .a, 0, bankOk_bankBad _ 0 1, (get_setWord _ _ _
      _).trans (by decide +kernel)⟩,
    ⟨(tst fun L => let L := L.setF (R.leBankStat_blending (0 : Fin 2)) false;
      let L := L.put (R.leBankStat_swap_pend (0 : Fin 2)) 1; let L := L.put (R.leBankStat_ibs (0 : Fin 2)) 2; L), .a,
      0, by decide +kernel⟩,
    ⟨(tst id), .a, 0, ⟨.triad, true⟩, 0xC1A5, by decide +kernel⟩,
    ⟨(tst id), .a, 0, ⟨.triad, true⟩, true, by decide +kernel⟩,
    ⟨(tst id), .a, 0, ⟨.triad, true⟩, by decide +kernel⟩⟩

/-- Witnesses of the hypotheses of `CordeeReception`. -/
theorem wit_CordeeReception :
    (∃ (s : State) (l : Lane) (p : Fin 6) (bs : List Byte) (ok : Bool) (sfd : BitVec 64), (s.lane l).is
      R.cdeCfg_star_en = false ∧ p.val = (s.lane l).uplink ∧ (s.lane l).node ≠ nodeOff ∧ (s.lane l).frameValid
      (parseFrame bs) ok (sfd.toNat - (s.lane l).portDelay p) = false) ∧
    (∃ (s : State) (l : Lane) (p : Fin 6) (bs : List Byte) (ok : Bool) (sfd : BitVec 64), (s.lane l).is
      R.cdeCfg_star_en = false ∧ p.val = (s.lane l).uplink ∧ (s.lane l).node = nodeListen ∧ (s.lane l).frameValid
      (parseFrame bs) ok (sfd.toNat - (s.lane l).portDelay p) = true ∧ (parseFrame bs).ftype = 1) ∧
    (∃ (s : State) (l : Lane) (p : Fin 6) (bs : List Byte) (ok : Bool) (sfd : BitVec 64) (e : Nat), (s.lane l).is
      R.cdeCfg_star_en = false ∧ (s.lane l).is R.cdeCfg_relay_en = false ∧ p.val = (s.lane l).uplink ∧ (s.lane l).node
      = nodeSynced ∧ (s.lane l).frameValid (parseFrame bs) ok (sfd.toNat - (s.lane l).portDelay p) = true ∧
      (parseFrame bs).ftype = 0 ∧ (s.lane l).rxEntries (s.lane l).cdeNet (parseFrame bs).fid ((s.lane l).cycleOf
      (sfd.toNat - (s.lane l).portDelay p)) = [e] ∧ (s.lane l).cde.rxSt e = { entry := e } ∧ (s.lane l).rxMode e = 0) ∧
    (∃ (s : State) (l : Lane) (p : Fin 6) (bs : List Byte), (s.lane l).is R.cdeCfg_star_en = true ∧ (s.lane l).star =
      starRun ∧ ((parseFrame bs).sender ≠ (s.lane l).portNode p ∨ (s.lane l).portNode p = 0)) ∧
    (∃ (s : State) (l : Lane) (p : Fin 6) (bs : List Byte), (s.lane l).is R.cdeCfg_star_en = true ∧ (s.lane l).star =
      starQuiet ∧ (s.lane l).node = nodeOff ∧ (parseFrame bs).sender = (s.lane l).portNode p ∧ (s.lane l).portNode p ≠
      0 ∧ (parseFrame bs).ftype = 2 ∧ (s.lane l).portNode p ∈ (s.lane l).coldIds ∧ (∀ q ∈ (s.lane l).cde.lastCold, q.1
      ≠ p.val)) ∧
    (∃ (s : State) (l : Lane) (F : StarFrame), (s.lane l).cde.running = some F ∧ F.port < 6) ∧
    (∃ (s : State) (l : Lane) (w : Nat), (s.lane l).cde.gap = some (w, true)) ∧
    (∃ (s : State) (l : Lane) (w : Nat) (F : StarFrame), (s.lane l).cde.gap = some (w, false) ∧ arbWinner (s.lane
      l).cde.held = some F ∧ (s.lane l).node = nodeOff) ∧
    (∃ (s : State) (l : Lane) (k : Link) (net fid cycle : Nat) (payload : List Byte) (rest : List RopeMsg), s.arriving
      (l.peer k) l = .relay net fid cycle payload :: rest) ∧
    (∃ (s : State) (l : Lane) (k : Link) (now : BitVec 64) (net fid cycle : Nat) (payload : List Byte) (rest : List
      RopeMsg) (e : Nat), s.arriving (l.peer k) l = .relay net fid cycle payload :: rest ∧ (s.lane l).node ≠ nodeOff ∧
      cycle = (s.lane l).cycleOf now.toNat ∧ (s.lane l).rxEntries net fid cycle = [e] ∧ (s.lane l).cde.rxSt e = {
      entry := e } ∧ (s.lane l).rxMode e = 0) ∧
    (∃ (s : State) (l : Lane) (e : Fin 512) (now : BitVec 64) (net : Nat) (ws : List Word), (s.lane l).cde.started =
      true ∧ (s.lane l).rxMode e = 1 ∧ (s.lane l).rxDue e ((s.lane l).cycleOf now.toNat) = true ∧ ((s.lane l).cde.rxSt
      e).written = false ∧ ((s.lane l).cde.rxSt e).copies = [(net, ws)]) ∧
    (∃ (s : State) (l : Lane) (e : Fin 512) (now : BitVec 64), (s.lane l).cde.started = true ∧ (s.lane l).rxMode e ≠ 3
      ∧ (s.lane l).rxDue e ((s.lane l).cycleOf now.toNat) = true ∧ (s.lane l).cde.rxSt e = { entry := e.val }) ∧
    (∃ (s : State) (l y : Lane), 3 ≤ (s.lane l).cde.lostRun.get y.idx ∧ (s.lane l).bitOf R.cdeState_net_ok y.idx =
      true) ∧
    (∃ (s : State) (l y : Lane), 3 ≤ (s.lane l).cde.seenRun.get y.idx) :=
  ⟨
    ⟨(tst fun L => let L := L.setF R.cdeCfg_star_en false; let L := L.put R.cdeState_node 1; L), .a, 0, ([]), true, 0,
      by decide +kernel⟩,
    ⟨(tst fun L => let L := L.setF R.cdeCfg_star_en false; let L := L.put R.cdeState_node nodeListen;
      let L := L.put R.cdeEtype_etype 0x88B5; L), .a, 0, (buildFrame 0x88B5 1 0 0 0 0 0 16 false []), true, 0, by
      decide +kernel⟩,
    ⟨(tst fun L => let L := L.setF R.cdeCfg_star_en false; let L := L.setF R.cdeCfg_relay_en false;
      let L := L.put R.cdeState_node nodeSynced; let L := L.put R.cdeEtype_etype 0x88B5;
      let L := L.setWord 0x20340004 2; let L := L.setWord 0x20340008 5; let L := L.setWord 0x20340800 0x10005;
      let L := L.setWord 0x20340804 0x50000; L), .a, 0, (buildFrame 0x88B5 0 0 0 5 0 0 8 false []), true, 0, 0, by
      decide +kernel⟩,
    ⟨(tst fun L => let L := L.setF R.cdeCfg_star_en true; let L := L.put R.cdeState_star starRun; L), .a, 0, ([]), by
      decide +kernel⟩,
    ⟨(tst fun L => let L := L.setF R.cdeCfg_star_en true; let L := L.put R.cdeState_star starQuiet;
      let L := L.put R.cdeState_node nodeOff; let L := L.setReg R.cdePortmap0 3; let L := L.setReg R.cdeCold 3;
      let L := L.put R.cdeState_node 0; L), .a, 0, (buildFrame 0x88B5 2 3 0 0 0 0 16 false []), by decide +kernel⟩,
    ⟨(tst fun L => let L := { L with cde := { L.cde with running := some (f0 : StarFrame) } }; L), .a, f0, by
      decide +kernel⟩,
    ⟨(tst fun L => let L := { L with cde := { L.cde with gap := some ((0 : Nat), true) } }; L), .a, 0, by
      decide +kernel⟩,
    ⟨(tst fun L => let L := { L with cde := { L.cde with gap := some ((0 : Nat), false) } };
      let L := L.put R.cdeState_node nodeOff; let L := L.put R.cdeState_node 0;
      let L := { L with cde := { L.cde with held := [f0] } }; L), .a, 0, f0, by decide +kernel⟩,
    ⟨((tst id).setFlight (Lane.peer .a (.l0 : Link)) .a [.relay (0 : Nat) (0 : Nat) (0 : Nat) ([] : List Byte)]), .a,
      .l0, 0, 0, 0, ([]), ([]), by decide +kernel⟩,
    ⟨((tst fun L => let L := L.put R.cdeState_node 1; let L := L.setWord 0x20340800 0x10005; L).setFlight (Lane.peer
      .a (.l0 : Link)) .a [.relay (0 : Nat) (5 : Nat) (0 : Nat) ([] : List Byte)]), .a, .l0, 0, 0, 5, 0, ([]), ([]),
      0, by decide +kernel⟩,
    ⟨(tst fun L => let L := { L with cde := { L.cde with started := true } }; let L := L.setWord 0x20340800 0x80000;
      let L := { L with cde := { L.cde with rx := [{ entry := 0, copies := [((0 : Nat), ([] : List Word))] }] } }; L),
      .a, 0, 0, 0, ([]), by decide +kernel⟩,
    ⟨(tst fun L => let L := { L with cde := { L.cde with started := true } }; L), .a, 0, 0, by decide +kernel⟩,
    ⟨(tst fun L => let L := { L with cde := { L.cde with lostRun := (L.cde.lostRun).set (.b : Lane).idx 3 } };
      let L := L.setBit R.cdeState_net_ok (.b : Lane).idx true; L), .a, .b, by decide +kernel⟩,
    ⟨(tst fun L => let L := { L with cde := { L.cde with seenRun := (L.cde.seenRun).set (.b : Lane).idx 3 } }; L), .a,
      .b, by decide +kernel⟩⟩

/-- Witnesses of the hypotheses of `CordeeNode`. -/
theorem wit_CordeeNode :
    (∃ (s : State) (l : Lane) (w : Fin 128) (t : BitVec 64), (s.lane l).wTx w = true ∧ (s.lane l).wActive w ((s.lane
      l).cycleOf t.toNat) = true ∧ (s.lane l).nodeSends w = true ∧ (s.lane l).wSync w = false ∧ (s.lane l).wArb w =
      false) ∧
    (∃ (s : State) (l : Lane) (w : Fin 128) (t : BitVec 64), (s.lane l).wTx w = true ∧ (s.lane l).wActive w ((s.lane
      l).cycleOf t.toNat) = true ∧ (s.lane l).nodeSends w = true ∧ (s.lane l).wSync w = false ∧ (s.lane l).wArb w =
      true ∧ (∀ q ∈ (s.lane l).cde.queue, q.1 ≠ (s.lane l).wFid w) ∧ (s.lane l).cde.queue.length < 8) ∧
    (∃ (s : State) (l : Lane) (w : Fin 128) (t : BitVec 64), (s.lane l).wTx w = true ∧ (s.lane l).wActive w ((s.lane
      l).cycleOf t.toNat) = true ∧ (s.lane l).nodeSends w = true ∧ (s.lane l).wSync w = false ∧ (s.lane l).wArb w =
      true ∧ (∀ q ∈ (s.lane l).cde.queue, q.1 ≠ (s.lane l).wFid w) ∧ 8 ≤ (s.lane l).cde.queue.length) ∧
    (∃ (s : State) (l : Lane) (w : Fin 128) (t : BitVec 64) (body : _), (s.lane l).wTx w = true ∧ (s.lane l).wActive w
      ((s.lane l).cycleOf t.toNat) = true ∧ (s.lane l).nodeSends w = true ∧ (s.lane l).is R.cdeCfg_star_en = false ∧
      (s.lane l).wSync w = false ∧ (s.lane l).wArb w = false ∧ (s.lane l).cde.sampled = some (w.val, body)) ∧
    (∃ (s : State) (l : Lane) (w : Fin 128) (t : BitVec 64) (fid body : _), (s.lane l).wTx w = true ∧ (s.lane
      l).wActive w ((s.lane l).cycleOf t.toNat) = true ∧ (s.lane l).nodeSends w = true ∧ (s.lane l).is
      R.cdeCfg_star_en = false ∧ (s.lane l).wSync w = false ∧ (s.lane l).wArb w = true ∧ lowestFid (s.lane
      l).cde.queue = some (fid, body)) ∧
    (∃ (s : State) (l : Lane), (s.lane l).node = nodeAnchor) ∧
    (∃ (s : State) (l : Lane), (s.lane l).node = nodeSynced ∧ (s.lane l).cde.syncs = []) ∧
    (∃ (s : State) (l : Lane) (d : Int), (s.lane l).node = nodeSynced ∧ cycleD (s.lane l).cde.syncs = some d) ∧
    (∃ (s : State) (l : Lane), (s.lane l).node = nodeListen ∧ (s.lane l).is R.cdeCfg_cs_en = true ∧ (s.lane
      l).cde.listenAt + (s.lane l).tListen ≤ (s.lane l).coarse) ∧
    (∃ (s : State) (l : Lane), (s.lane l).node = nodeCold ∧ (s.lane l).cde.coldSent = false ∧ (s.lane l).get
      R.cdeCfg_node_id ∈ (s.lane l).coldIds ∧ (s.lane l).is R.cdeCfg_star_en = false) ∧
    (∃ (s : State) (l : Lane), (s.lane l).node = nodeCold ∧ (s.lane l).cde.coldSent = false ∧ (s.lane l).get
      R.cdeCfg_node_id ∈ (s.lane l).coldIds ∧ (s.lane l).is R.cdeCfg_star_en = true ∧ (s.lane l).star = starQuiet ∧ (∀
      q ∈ (s.lane l).cde.lastCold, q.1 ≠ 6)) ∧
    (∃ (s : State) (l : Lane), (s.lane l).node = nodeCold ∧ (s.lane l).cde.coldSent = true) ∧
    (∃ (s : State) (l : Lane), (s.lane l).node ≠ nodeOff ∧ (s.lane l).node ≠ nodeAnchor ∧ (s.lane l).is
      R.cdeCfg_anchor = true ∧ (s.lane l).belay ≠ bsBoot ∧ (s.lane l).belay ≠ bsSync) ∧
    (∃ (s : State) (l : Lane), (s.lane l).star = starStartup ∧ (s.lane l).cde.startupAt + 2 * (s.lane l).tListen ≤
      (s.lane l).coarse) ∧
    (∃ (s : State) (l : Lane) (q : Req), (s.lane l).judge q R.cdeCmd true 1#32 = none) ∧
    (∃ (s : State) (l : Lane) (q : Req) (w : Word), (s.lane l).cdeLegal = true ∧ (s.lane l).judge q R.cdeLock true w =
      none ∧ bits w.toNat 15 0 = 0xC1A5 ∧ (s.lane l).locked R.cdeLock = false ∧ (s.lane l).is R.cdeCfg_node_id = true) ∧
    (∃ (s : State) (l : Lane) (q : Req) (w : Word), (s.lane l).judge q R.cdeLock true w = none ∧ bits w.toNat 15 0 =
      0xC1A5 ∧ (s.lane l).locked R.cdeLock = false ∧ (s.lane l).cdeLegal = false) :=
  ⟨
    ⟨(tst fun L => let L := L.put R.cdeState_node 4; let L := L.setWord 0x20340004 0xC0002;
      let L := L.put (R.belayState_state) bsActive; L), .a, 0, 0, by decide +kernel⟩,
    ⟨(tst fun L => let L := L.put R.cdeState_node 4; let L := L.setWord 0x20340004 0xC0003;
      let L := L.put (R.belayState_state) bsActive; L), .a, 0, 0, by decide +kernel⟩,
    ⟨(tst fun L => let L := L.put R.cdeState_node 4; let L := L.setWord 0x20340004 0xC0003;
      let L := L.put (R.belayState_state) bsActive;
      let L := { L with cde := { L.cde with queue := (List.range 8).map (fun k => (k + 1, [])) } }; L), .a, 0, 0, by
      decide +kernel⟩,
    ⟨(tst fun L => let L := L.setF R.cdeCfg_star_en false;
      let L := { L with cde := { L.cde with sampled := some ((0 : Fin 128).val, ([] : List Byte)) } };
      let L := L.put R.cdeState_node 4; let L := L.setWord 0x20340004 0xC0002; L), .a, 0, 0, ([] : List Byte), by
      decide +kernel⟩,
    ⟨(tst fun L => let L := L.setF R.cdeCfg_star_en false; let L := L.put R.cdeState_node 4;
      let L := L.setWord 0x20340004 0xC0003; let L := { L with cde := { L.cde with queue := [(5, [])] } }; L), .a, 0,
      0, 5, ([] : List Byte), by decide +kernel⟩,
    ⟨(tst fun L => let L := L.put R.cdeState_node nodeAnchor; L), .a, by decide +kernel⟩,
    ⟨(tst fun L => let L := L.put R.cdeState_node nodeSynced; let L := { L with cde := { L.cde with syncs := [] } };
      L), .a, by decide +kernel⟩,
    ⟨(tst fun L => let L := L.put R.cdeState_node nodeSynced;
      let L := { L with cde := { L.cde with syncs := [(true, 5)] } }; L), .a, 5, by decide +kernel⟩,
    ⟨(tst fun L => let L := L.put R.cdeState_node nodeListen; let L := L.setF R.cdeCfg_cs_en true;
      let L := L.setNow (64 * 5000 * 64000); L), .a, by decide +kernel⟩,
    ⟨(tst fun L => let L := L.put R.cdeState_node nodeCold;
      let L := { L with cde := { L.cde with coldSent := false } }; let L := L.setF R.cdeCfg_star_en false;
      let L := L.put R.cdeCfg_node_id 3; let L := L.setReg R.cdeCold 3; L), .a, by decide +kernel⟩,
    ⟨(tst fun L => let L := L.put R.cdeState_node nodeCold;
      let L := { L with cde := { L.cde with coldSent := false } }; let L := L.setF R.cdeCfg_star_en true;
      let L := L.put R.cdeState_star starQuiet; let L := L.put R.cdeCfg_node_id 3; let L := L.setReg R.cdeCold 3; L),
      .a, by decide +kernel⟩,
    ⟨(tst fun L => let L := L.put R.cdeState_node nodeCold;
      let L := { L with cde := { L.cde with coldSent := true } }; L), .a, by decide +kernel⟩,
    ⟨(tst fun L => let L := L.put R.cdeState_node 1; let L := L.put R.cdeState_node 1;
      let L := L.setF R.cdeCfg_anchor true; let L := L.put R.belayState_state bsActive; L), .a, by decide +kernel⟩,
    ⟨(tst fun L => let L := L.put R.cdeState_star starStartup; let L := L.setNow (64 * 5000 * 64000); L), .a, by
      decide +kernel⟩,
    ⟨(tst id), .a, ⟨.triad, true⟩, by decide +kernel⟩,
    ⟨State.reset.setLane .a rxL, .a, ⟨.triad, true⟩, 0xC1A5, by simpa only [lane_setLane_a] using rxL_ok⟩,
    ⟨(tst id), .a, ⟨.triad, true⟩, 0xC1A5, by decide +kernel⟩⟩

/-- Witnesses of the hypotheses of `PairLink`. -/
theorem wit_PairLink :
    (∃ (s : State) (l : Lane), (s.lane l).pairMode = true ∧ (s.lane l).is R.tetherState_link_up = true ∧ (s.lane
      l).tickIdx = (s.lane l).get (R.axpSched2_commit_tick (s.lane l).pairAxis)) ∧
    (∃ (s : State) (l : Lane) (bytes : List Byte), (s.lane l).pairMode = true ∧ (s.lane l).is R.tetherState_link_up =
      true ∧ bytes.length = 1024) ∧
    (∃ (s : State) (l : Lane) (silent : Bool), (s.lane l).is R.tetherState_link_up = true ∧ (silent = true ∨ atLeast1
      ((s.lane l).get R.tetherLink_err_lim) < (s.lane l).tether.errs)) ∧
    (∃ (s : State) (l : Lane), (s.lane l).is R.tetherState_link_up = false ∧ atLeast1 ((s.lane l).get
      R.tetherLink_up_n) ≤ (s.lane l).tether.cleanRun) ∧
    (∃ (s : State) (l : Lane) (q : Req) (w : Word), (s.lane l).judge q R.tetherLock true w = none ∧ bits w.toNat 15 0
      = 0xC1A5 ∧ (s.lane l).locked R.tetherLock = false) ∧
    (∃ (s : State) (l : Lane) (q : Req), (s.lane l).judge q R.tetherCmd true 1#32 = none) ∧
    (∃ (s : State) (l : Lane) (q : Req) (w : Word), (s.lane l).judge q R.tetherLock true w = none ∧ (bits w.toNat 15 0
      ≠ 0xC1A5 ∨ (s.lane l).locked R.tetherLock = true)) :=
  ⟨
    ⟨(tst fun L => let L := L.put R.tetherState_pstate psDriving; let L := L.setF R.tetherState_link_up true;
      let L := L.setNow (64 * 1000); let L := L.put (R.axpSched2_commit_tick 0) 1; L), .a, by decide +kernel⟩,
    ⟨(tst fun L => let L := L.put R.tetherState_pstate psDriving; let L := L.setF R.tetherState_link_up true; L), .a,
      (List.replicate 1024 0), by decide +kernel⟩,
    ⟨(tst fun L => let L := L.setF R.tetherState_link_up true; L), .a, true, by decide +kernel⟩,
    ⟨(tst fun L => let L := L.setF R.tetherState_link_up false;
      let L := { L with tether := { L.tether with cleanRun := 10000 } }; L), .a, by decide +kernel⟩,
    ⟨(tst id), .a, ⟨.triad, true⟩, 0xC1A5, by decide +kernel⟩,
    ⟨(tst id), .a, ⟨.triad, true⟩, by decide +kernel⟩,
    ⟨(tst id), .a, ⟨.triad, true⟩, 0, by decide +kernel⟩⟩

/-- Witnesses of the hypotheses of `PairVerdicts`. -/
theorem wit_PairVerdicts :
    (∃ (s : State) (l : Lane) (now : BitVec 64), (s.lane l).pairMode = true ∧ (s.lane l).cde.started = true ∧ (s.lane
      l).rxMode ((s.lane l).get R.tetherVsrc_entry) ≠ 3 ∧ (s.lane l).rxDue ((s.lane l).get R.tetherVsrc_entry)
      ((s.lane l).cycleOf now.toNat) = true ∧ ((s.lane l).cde.rxSt ((s.lane l).get R.tetherVsrc_entry)).written = true
      ∧ (s.lane l).tether.vseq ≠ some (bits ((s.lane l).sig ((s.lane l).get R.tetherVsrc_id)).toNat 31 16) ∧ (bits
      ((s.lane l).sig ((s.lane l).get R.tetherVsrc_id)).toNat 3 0 = 1 ∨ bits ((s.lane l).sig ((s.lane l).get
      R.tetherVsrc_id)).toNat 3 0 = 2) ∧ bits ((s.lane l).sig ((s.lane l).get R.tetherVsrc_id)).toNat 7 4 = 0) ∧
    (∃ (s : State) (l : Lane) (now : BitVec 64), (s.lane l).pairMode = true ∧ (s.lane l).cde.started = true ∧ (s.lane
      l).rxMode ((s.lane l).get R.tetherVsrc_entry) ≠ 3 ∧ (s.lane l).rxDue ((s.lane l).get R.tetherVsrc_entry)
      ((s.lane l).cycleOf now.toNat) = true ∧ ((s.lane l).cde.rxSt ((s.lane l).get R.tetherVsrc_entry)).written = true
      ∧ (s.lane l).tether.vseq = some (bits ((s.lane l).sig ((s.lane l).get R.tetherVsrc_id)).toNat 31 16)) ∧
    (∃ (s : State) (l : Lane), (s.lane l).is R.tetherState_vvalid = true ∧ (s.lane l).get R.tetherState_exp_left = 0) ∧
    (∃ (s : State) (l : Lane) (skip : Bool), (s.lane l).tether.install = some skip ∧ (s.lane l).tether.recValid =
      false) ∧
    (∃ (s : State) (l : Lane) (skip : Bool) (n : Axis), (s.lane l).tether.install = some skip ∧ (s.lane
      l).tether.recValid = true ∧ (s.lane l).is R.tetherState_link_up = true ∧ (s.lane l).mirroredAxes = [n.val] ∧
      (s.lane l).load (0x2039F030 + n.val) 1 = axDrive ∧ (s.lane l).axis n = axFree ∧ (s.lane l).startReady n = true) :=
  ⟨
    ⟨(tst fun L => let L := L.put R.tetherState_pstate psDriving;
      let L := { L with cde := { L.cde with started := true } };
      let L := { L with cde := { L.cde with rx := [{ entry := 0, written := true }] } }; let L := L.setSig 0 1; L),
      .a, 0, by decide +kernel⟩,
    ⟨(tst fun L => let L := L.put R.tetherState_pstate psDriving;
      let L := { L with cde := { L.cde with started := true } };
      let L := { L with cde := { L.cde with rx := [{ entry := 0, written := true }] } };
      let L := { L with tether := { L.tether with vseq := some 0 } }; L), .a, 0, by decide +kernel⟩,
    ⟨(tst fun L => let L := L.setF R.tetherState_vvalid true; let L := L.put R.tetherState_exp_left 0; L), .a, by
      decide +kernel⟩,
    ⟨(tst fun L => let L := { L with tether := { L.tether with install := some (true : Bool) } };
      let L := { L with tether := { L.tether with recValid := false } }; L), .a, true, by decide +kernel⟩,
    ⟨(tst fun L => let L := { L with tether := { L.tether with install := some (true : Bool) } };
      let L := { L with tether := { L.tether with recValid := true } }; let L := L.setF R.tetherState_link_up true;
      let L := L.put (R.axpState_state (0 : Axis)) axFree; let L := L.put R.tetherState_pstate psDriving;
      let L := L.put R.tetherCfg_axes 1; let L := L.store 0x2039F030 1 axDrive;
      let L := L.put (R.fldPsib_psib (0 : Axis)) 1; let L := L.put (R.fldPm_val (0 : Axis)) 1;
      let L := L.put (R.fldLd_val (0 : Axis)) 1; let L := L.put (R.fldLq_val (0 : Axis)) 1; L), .a, true, 0, by
      decide +kernel⟩⟩

/-- Witnesses of the hypotheses of `SafetyChannels`. -/
theorem wit_SafetyChannels :
    (∃ (s : State) (l : Lane) (j : Fin 4), (s.lane l).tpOn j = true) ∧
    (∃ (s : State) (l : Lane) (j : Fin 4), j.val ∈ (s.lane l).siu.pulsing) ∧
    (∃ (s : State) (l : Lane) (f : Fin 8), f.val ∈ (s.lane l).evaluated ∧ (s.lane l).siu.discAt.get (2 * f.val) ≠ 0 ∧
      (s.lane l).siu.discAt.get (2 * f.val) + (s.lane l).tDisc f ≤ (s.lane l).coarse + 1) ∧
    (∃ (s : State) (l : Lane) (f : Fin 8), f.val ∈ (s.lane l).evaluated ∧ (s.lane l).fnType f = fnJog ∧ f.val ∈
      (s.lane l).siu.jogArmed ∧ (s.lane l).siu.jogAt.get (2 * f.val) ≠ 0 ∧ (s.lane l).siu.jogAt.get (2 * f.val + 1) =
      0 ∧ (s.lane l).actuated f 1 = false ∧ (s.lane l).letGo f 0 = false ∧ (s.lane l).tSim < (s.lane l).coarse + 1 -
      (s.lane l).siu.jogAt.get (2 * f.val)) :=
  ⟨
    ⟨(tst fun L => let L := L.setBit R.siuTp_en 0 true; L), .a, 0, by decide +kernel⟩,
    ⟨(tst fun L => let L := { L with siu := { L.siu with pulsing := [(0 : Fin 4).val] } }; L), .a, 0, by
      decide +kernel⟩,
    ⟨(tst fun L => let L := L.put R.siuState_locked 1; let L := L.put R.siuState_owned 1;
      let L := { L with siu := { L.siu with discAt := [(0, 1)] } }; let L := L.setNow (64 * 5000 * 1000000); L), .a,
      0, by decide +kernel⟩,
    ⟨(tst fun L => let L := { L with siu := { L.siu with jogArmed := [(0 : Fin 8).val] } };
      let L := { L with siu := { L.siu with jogAt := (L.siu.jogAt).set (2 * (0 : Fin 8).val + 1) 0 } };
      let L := L.put R.siuState_locked 1; let L := L.put R.siuState_owned 1; let L := L.put (R.siuFn_type 0) fnJog;
      let L := { L with siu := { L.siu with jogAt := [(0, 1)] } }; let L := L.setNow (64 * 5000 * 1000000); L), .a, 0,
      by decide +kernel⟩⟩

/-- Witnesses of the hypotheses of `SafetyCommands`. -/
theorem wit_SafetyCommands :
    (∃ (s : State) (l : Lane) (q : Req) (f : BitVec 8), (s.lane l).judge q R.siuCmd true (wordN f.toNat) = none) ∧
    (∃ (s : State) (l : Lane), (s.lane l).atPeriod = true) ∧
    (∃ (s : State) (l : Lane) (q : Req), (s.lane l).judge q R.siuCmd true 0x100#32 = none) ∧
    (∃ (s : State) (l : Lane) (q : Req) (f : Fin 8) (w : BitVec 6), (s.lane l).judge q (R.siuFst f) true (wordN
      w.toNat) = none) ∧
    (∃ (s : State) (l : Lane) (q : Req) (w : Word), (s.lane l).judge q R.siuLock true w = none ∧ bits w.toNat 15 0 =
      0xC1A5 ∧ (s.lane l).locked R.siuLock = false) ∧
    (∃ (s : State) (l : Lane) (q : Req) (w : Word), (s.lane l).judge q R.siuLock true w = none ∧ (bits w.toNat 15 0 ≠
      0xC1A5 ∨ (s.lane l).locked R.siuLock = true)) :=
  ⟨
    ⟨(tst id), .a, ⟨.triad, true⟩, 0, by decide +kernel⟩,
    ⟨(tst id), .a, by decide +kernel⟩,
    ⟨(tst id), .a, ⟨.triad, true⟩, by decide +kernel⟩,
    ⟨(tst id), .a, ⟨.triad, true⟩, 0, 0, by decide +kernel⟩,
    ⟨(tst id), .a, ⟨.triad, true⟩, 0xC1A5, by decide +kernel⟩,
    ⟨(tst id), .a, ⟨.triad, true⟩, 0, by decide +kernel⟩⟩

/-- Witnesses of the hypotheses of `SupplyInputs`. -/
theorem wit_SupplyInputs :
    (∃ (s : State) (l : Lane) (vm vb : BitVec 17), (s.lane l).supSel = 0 ∧ (vm.toNat + 300 < vb.toNat ∨ vm.toNat <
      (s.lane l).uvMv) ∧ (s.lane l).uvMv ≤ vb.toNat ∧ vb.toNat < (s.lane l).ovMv ∧ (s.lane l).pwr.ovBack = false) ∧
    (∃ (s : State) (l : Lane) (vm vb : BitVec 17), (s.lane l).supSel = 1 ∧ (s.lane l).uvMv + 400 ≤ vm.toNat ∧ vb.toNat
      ≤ vm.toNat + 100 ∧ vm.toNat < (s.lane l).ovMv ∧ (s.lane l).pwr.ovMain = false) ∧
    (∃ (s : State) (l : Lane), (s.lane l).supSel = 2) ∧
    (∃ (s : State) (l : Lane) (main : Bool), (s.lane l).supSel = (if main then 0 else 1)) ∧
    (∃ (s : State) (l : Lane), (s.lane l).supSel = 0) ∧
    (∃ (s : State) (l : Lane), (s.lane l).supSel = 2 ∧ driving (s.lane l).belay = true ∧ (s.lane
      l).belaySt.selfExcluding = false) :=
  ⟨
    ⟨(tst fun L => let L := L.put R.pwrSupStat_sel 0; let L := { L with pwr := { L.pwr with ovBack := false } }; L),
      .a, 0, 12000, by decide +kernel⟩,
    ⟨(tst fun L => let L := L.put R.pwrSupStat_sel 1; let L := { L with pwr := { L.pwr with ovMain := false } }; L),
      .a, 12000, 12000, by decide +kernel⟩,
    ⟨(tst fun L => let L := L.put R.pwrSupStat_sel 2; L), .a, by decide +kernel⟩,
    ⟨(tst id), .a, true, by decide +kernel⟩,
    ⟨(tst fun L => let L := L.put R.pwrSupStat_sel 0; L), .a, by decide +kernel⟩,
    ⟨(tst fun L => let L := L.put R.pwrSupStat_sel 2; let L := L.put R.belayState_state bsActive;
      let L := { L with belaySt := { L.belaySt with selfExcluding := false } }; let L := L.put R.pwrSupStat_sel 2; L),
      .a, by decide +kernel⟩⟩

/-- Witnesses of the hypotheses of `PmicLink`. -/
theorem wit_PmicLink :
    (∃ (s : State) (l : Lane) (r : PmicReq) (rest : List PmicReq), (s.lane l).pwr.cur = none ∧ (s.lane l).pwr.queue =
      r :: rest) ∧
    (∃ (s : State) (l : Lane) (r : PmicReq) (seq k : Nat), (s.lane l).pwr.cur = some (r, seq, k)) ∧
    (∃ (s : State) (l : Lane) (r : PmicReq) (seq k : Nat) (frame : Word), (s.lane l).pwr.cur = some (r, seq, k) ∧
      (bits frame.toNat 7 0 ≠ crc8 frame.toNat ∨ bits frame.toNat 31 30 ≠ seq ∨ bits frame.toNat 27 24 ≠ r.reg)) ∧
    (∃ (s : State) (l : Lane) (r : PmicReq) (seq k : Nat) (frame : Word), (s.lane l).pwr.cur = some (r, seq, k) ∧
      r.cls = 2 ∧ k < 4 ∧ bits frame.toNat 7 0 = crc8 frame.toNat ∧ bits frame.toNat 31 30 = seq ∧ bits frame.toNat 27
      24 = r.reg ∧ bits frame.toNat 29 28 = 1) ∧
    (∃ (s : State) (l : Lane) (r : PmicReq) (seq k : Nat) (frame : Word), (s.lane l).pwr.cur = some (r, seq, k) ∧
      r.cls = 1 ∧ r.reg = 1 ∧ bits frame.toNat 7 0 = crc8 frame.toNat ∧ bits frame.toNat 31 30 = seq ∧ bits
      frame.toNat 27 24 = 1 ∧ bits frame.toNat 29 28 = 2) ∧
    (∃ (s : State) (l : Lane) (seq k : Nat) (frame : Word), (s.lane l).pwr.cur = some (reqRails, seq, k) ∧ (s.lane
      l).pwr.bootStep = 1 ∧ bits frame.toNat 7 0 = crc8 frame.toNat ∧ bits frame.toNat 31 30 = seq ∧ bits frame.toNat
      27 24 = 2 ∧ bits frame.toNat 29 28 = 1) ∧
    (∃ (s : State) (l : Lane) (r : PmicReq) (seq k : Nat), (s.lane l).pwr.cur = some (r, seq, k) ∧ k < 3) ∧
    (∃ (s : State) (l : Lane) (r : PmicReq) (seq : Nat), (s.lane l).pwr.cur = some (r, seq, 3) ∧ r.cls = 2) ∧
    (∃ (s : State) (l : Lane), (s.lane l).pwr.cur = none ∧ (∀ r ∈ (s.lane l).pwr.queue, r.cls ≤ 2)) ∧
    (∃ (s : State) (l : Lane) (q : Req) (w : Word), (s.lane l).judge q R.pwrPmicReq true w = none ∧ (bits w.toNat 5 4
      = 1 ∨ bits w.toNat 5 4 = 2) ∧ (s.lane l).pwr.cur = none ∧ (∀ r ∈ (s.lane l).pwr.queue, r.cls ≠ 2)) ∧
    (∃ (s : State) (l : Lane), (s.lane l).is R.pwrSupStat_pgood = true ∧ (s.lane l).get R.pwrState_state ≠ 3) ∧
    (∃ (s : State) (l : Lane), (s.lane l).pwr.bootStep = 3) ∧
    (∃ (s : State) (l : Lane) (g : Nat), (s.lane l).is R.pwrAvs_en = true ∧ g < 8 ∧ (s.lane l).pwr.avsAt.get g = 0 ∧
      (s.lane l).pwr.frozen = false) ∧
    (∃ (s : State) (l : Lane) (g : Nat), (s.lane l).is R.pwrAvs_en = true ∧ (s.lane l).pwr.frozen = false ∧ (∀ k, k <
      8 → (s.lane l).pwr.avsAt.get k ≠ 0 ∧ (s.lane l).coarse + 1 ≤ (s.lane l).pwr.avsAt.get k + 800000 * atLeast1
      ((s.lane l).get R.pwrAvs_per)) ∧ g < 8 ∧ (s.lane l).avsMargin g ((s.lane l).pwr.avs.get g) < (s.lane l).getS
      R.pwrAvs_emg) :=
  ⟨
    ⟨(tst fun L => let L := { L with pwr := { L.pwr with cur := none } };
      let L := { L with pwr := { L.pwr with queue := (reqRails : PmicReq) :: ([] : List PmicReq) } }; L), .a,
      reqRails, ([]), by decide +kernel⟩,
    ⟨(tst fun L => let L := { L with pwr := { L.pwr with cur := some ((reqRails : PmicReq), (0 : Nat), (0 : Nat)) } };
      L), .a, reqRails, 0, 0, by decide +kernel⟩,
    ⟨(tst fun L => let L := { L with pwr := { L.pwr with cur := some ((reqRails : PmicReq), (0 : Nat), (0 : Nat)) } };
      L), .a, reqRails, 0, 0, 0, by decide +kernel⟩,
    ⟨(tst
      fun L => let L := { L with pwr := { L.pwr with cur := some (({ cls := 2, write := true, reg := 8, data := 0 } : PmicReq), (0 : Nat), (0 : Nat)) } };
      L), .a, ({ cls := 2, write := true, reg := 8, data := 0 }), 0, 0, (pmicFrame 0 1 8 5), by decide +kernel⟩,
    ⟨(tst
      fun L => let L := { L with pwr := { L.pwr with cur := some ((reqVcore 40 : PmicReq), (0 : Nat), (0 : Nat)) } };
      L), .a, (reqVcore 40), 0, 0, (pmicFrame 0 2 1 0), by decide +kernel⟩,
    ⟨(tst fun L => let L := { L with pwr := { L.pwr with cur := some (reqRails, (0 : Nat), (0 : Nat)) } };
      let L := { L with pwr := { L.pwr with bootStep := 1 } }; L), .a, 0, 0, (pmicFrame 0 1 2 0), by decide +kernel⟩,
    ⟨(tst fun L => let L := { L with pwr := { L.pwr with cur := some ((reqRails : PmicReq), (0 : Nat), (0 : Nat)) } };
      L), .a, reqRails, 0, 0, by decide +kernel⟩,
    ⟨(tst
      fun L => let L := { L with pwr := { L.pwr with cur := some (({ cls := 2, write := true, reg := 8, data := 0 } : PmicReq), (0 : Nat), 3) } };
      L), .a, ({ cls := 2, write := true, reg := 8, data := 0 }), 0, by decide +kernel⟩,
    ⟨(tst fun L => let L := { L with pwr := { L.pwr with cur := none } }; L), .a, by decide +kernel⟩,
    ⟨(tst fun L => let L := { L with pwr := { L.pwr with cur := none } }; L), .a, ⟨.triad, true⟩, 0x18, by
      decide +kernel⟩,
    ⟨(tst fun L => let L := L.setF R.pwrSupStat_pgood true; L), .a, by decide +kernel⟩,
    ⟨(tst fun L => let L := { L with pwr := { L.pwr with bootStep := 3 } }; L), .a, by decide +kernel⟩,
    ⟨(tst fun L => let L := L.setF R.pwrAvs_en true;
      let L := { L with pwr := { L.pwr with avsAt := (L.pwr.avsAt).set (0 : Nat) 0 } };
      let L := { L with pwr := { L.pwr with frozen := false } }; L), .a, 0, by decide +kernel⟩,
    ⟨(tst fun L => let L := L.setF R.pwrAvs_en true; let L := { L with pwr := { L.pwr with frozen := false } };
      let L := { L with pwr := { L.pwr with avsAt := (List.range 8).map (fun k => (k, 1)) } };
      let L := L.put (R.pwrAvsTgt_tgt 0) 100; L), .a, 0, by decide +kernel⟩⟩

/-- Witnesses of the hypotheses of `PowerStates`. -/
theorem wit_PowerStates :
    (∃ (s : State) (l : Lane) (q : Req) (w : Word), (s.lane l).judge q R.pwrGate true w = none) ∧
    (∃ (s : State) (l : Lane) (d : Fin 12), (s.lane l).bitOf R.pwrGate_req d = true ∧ gateable d = true ∧ (s.lane
      l).domainBusy d = false ∧ (s.lane l).domainOn d = true ∧ d.val ∉ (s.lane l).pwr.waking) ∧
    (∃ (s : State) (l : Lane) (d : Fin 12) (m : Master), (s.lane l).domainOn d = false ∧ m ≠ .skim) ∧
    (∃ (s : State) (l : Lane) (d : Fin 12), d.val ∈ (s.lane l).pwr.waking) ∧
    (∃ (s : State) (l : Lane) (k : Fin 2), bit ((s.lane l).reg (pwrDlReg k)).toNat 4 = true ∧ (s.lane l).domainOn
      (bits ((s.lane l).reg (pwrDlReg k)).toNat 3 0) = false) ∧
    (∃ (s : State) (l : Lane) (i cnt : Nat), (s.lane l).pwr.sleepOk = true ∧ i = (s.lane l).get R.pwrSleepSrc_id ∧ cnt
      = ((s.lane l).sig (i + 1)).toNat ∧ bits ((s.lane l).sig i).toNat 31 16 = 1 ∧ (s.lane l).sleepTagOk i = true ∧
      (s.lane l).aon.sleepCnt < cnt ∧ (s.lane l).allOff = true) ∧
    (∃ (s : State) (l : Lane) (i cnt : Nat), (s.lane l).pwr.sleepOk = true ∧ i = (s.lane l).get R.pwrSleepSrc_id ∧ cnt
      = ((s.lane l).sig (i + 1)).toNat ∧ (bits ((s.lane l).sig i).toNat 31 16 ≠ 1 ∨ (s.lane l).sleepTagOk i = false ∨
      cnt ≤ (s.lane l).aon.sleepCnt ∨ (s.lane l).allOff = false)) ∧
    (∃ (s : State) (l : Lane), (s.lane l).is R.pwrSleep_armed = true ∧ (s.lane l).pwr.sleepStep = 0 ∧ (s.lane
      l).pwr.armedAt + 20000000 ≤ (s.lane l).coarse) ∧
    (∃ (s : State) (l : Lane), (s.lane l).pwr.sleepStep = 1) ∧
    (∃ (s : State) (l : Lane), (s.lane l).pwr.sleepStep = 3) ∧
    (∃ (s : State) (l : Lane) (seq k : Nat) (frame : Word), (s.lane l).pwr.cur = some (reqSleep, seq, k) ∧ (s.lane
      l).pwr.heldSrc = [] ∧ bits frame.toNat 7 0 = crc8 frame.toNat ∧ bits frame.toNat 31 30 = seq ∧ bits frame.toNat
      27 24 = 5 ∧ bits frame.toNat 29 28 = 1) ∧
    (∃ (s : State) (l : Lane) (src : Fin 5), (s.lane l).bitOf R.pwrWakeEn_en src = true ∧ src.val ≠ 3 ∧ (s.lane l).get
      R.pwrState_state = 3 ∧ (s.lane l).pwr.bootStep = 0) ∧
    (∃ (s : State) (l : Lane) (src : Fin 5), (s.lane l).bitOf R.pwrWakeEn_en src = true ∧ src.val ≠ 3 ∧ (s.lane l).get
      R.pwrState_state ≠ 3 ∧ (s.lane l).pwr.sleepStep < 2 ∧ (s.lane l).is R.pwrSleep_armed = true) ∧
    (∃ (s : State) (l : Lane), (s.lane l).bitOf R.pwrWakeEn_en 0 = true ∧ (s.lane l).get R.pwrState_state = 3 ∧
      (s.lane l).pwr.bootStep = 0) ∧
    (∃ (s : State) (l : Lane), (s.lane l).bitOf R.pwrWakeEn_en 0 = false) ∧
    (∃ (s : State) (l : Lane) (code : Fin 4), code.val ≠ 0 ∧ code.val ≠ 3 ∧ (s.lane l).pwr.bootStep = code.val) ∧
    (∃ (s : State) (l : Lane), (s.lane l).pwr.bootStep = 3 ∧ (s.lane l).belay ≠ bsDead ∧ (s.lane l).belay ≠
      bsExcluded) ∧
    (∃ (s : State) (l : Lane), (s.lane l).is R.cairnFail_code = true ∧ (s.lane l).pwr.bootStep = 0) ∧
    (∃ (s : State) (l : Lane), (s.lane l).is R.cairnFail_code = true ∧ (s.lane l).pwr.bootStep = 0 ∧ (s.lane l).linkUp
      .l0 = false ∧ (s.lane l).linkUp .l1 = false ∧ (s.lane l).pwr.heldSrc = []) ∧
    (∃ (s : State) (l : Lane) (q : Req), crc32 ((s.lane l).bytesFrom 0x2803FF00 92) = (s.lane l).word 0x2803FF5C ∧
      (s.lane l).word 0x2803FF04 = (s.lane l).reg R.sysTick ∧ ((s.lane l).word 0x2803FF08).toNat = (s.lane l).compat ∧
      (s.lane l).locked R.sysLock = true ∧ (∀ n, n < 4 → (s.lane l).locked (R.fldLock n) = true ∧ (s.lane l).locked
      (R.fbLock n) = true) ∧ (s.lane l).judge q R.pwrCmd true 1#32 = none ∧ (s.lane l).is R.cairnRet_valid = true) ∧
    (∃ (s : State) (l : Lane) (q : Req), (s.lane l).judge q R.pwrCmd true 1#32 = none ∧ crc32 ((s.lane l).bytesFrom
      0x2803FF00 92) ≠ (s.lane l).word 0x2803FF5C) ∧
    (∃ (s : State) (l : Lane) (q : Req), (s.lane l).judge q R.pwrCmd true 4#32 = none) ∧
    (∃ (s : State) (l : Lane) (q : Req), (s.lane l).judge q R.pwrCmd true 2#32 = none) ∧
    (∃ (s : State) (l : Lane) (q : Req) (w : Word), (s.lane l).judge q R.pwrLock true w = none ∧ bits w.toNat 15 0 =
      0xC1A5 ∧ (s.lane l).locked R.pwrLock = false) :=
  ⟨
    ⟨(tst id), .a, ⟨.triad, true⟩, 0, by decide +kernel⟩,
    ⟨(tst fun L => let L := L.setBit R.pwrGate_req (2 : Fin 12) true; L), .a, 2, by decide +kernel⟩,
    ⟨(tst fun L => let L := L.put R.pwrState_pwr 0; L), .a, 0, .triad, by decide +kernel⟩,
    ⟨(tst fun L => let L := { L with pwr := { L.pwr with waking := [(0 : Fin 12).val] } }; L), .a, 0, by
      decide +kernel⟩,
    ⟨(tst fun L => let L := L.put R.pwrDl0_en 1; let L := L.put R.pwrState_pwr 0; L), .a, 0, by decide +kernel⟩,
    ⟨(tst fun L => let L := { L with pwr := { L.pwr with sleepOk := true } }; let L := L.setSig 0 0x10000;
      let L := L.setSig 1 1; let L := { L with nv := { L.nv with sleepKey := some [1] } };
      let L := [2, 3, 4, 5].foldl (fun (M : LaneState) k => M.setSig k (wordN ((((hmacSha384 [1] (wordBytes 0x10000 ++ wordBytes 1 ++ wordBytes L.ident.1)).drop (4 * (k - 2))).take 4).foldr (fun b a => b.toNat + 256 * a) 0))) L;
      L), .a, 0, 1, by decide +kernel⟩,
    ⟨(tst fun L => let L := { L with pwr := { L.pwr with sleepOk := true } }; L), .a, 0, 0, by decide +kernel⟩,
    ⟨(tst fun L => let L := L.setF R.pwrSleep_armed true; let L := { L with pwr := { L.pwr with sleepStep := 0 } };
      let L := L.setNow (64 * 5000 * 1000000); L), .a, by decide +kernel⟩,
    ⟨(tst fun L => let L := { L with pwr := { L.pwr with sleepStep := 1 } }; L), .a, by decide +kernel⟩,
    ⟨(tst fun L => let L := { L with pwr := { L.pwr with sleepStep := 3 } }; L), .a, by decide +kernel⟩,
    ⟨(tst fun L => let L := { L with pwr := { L.pwr with cur := some (reqSleep, (0 : Nat), (0 : Nat)) } };
      let L := { L with pwr := { L.pwr with heldSrc := [] } }; L), .a, 0, 0, (pmicFrame 0 1 5 0), by decide +kernel⟩,
    ⟨(tst fun L => let L := L.setBit R.pwrWakeEn_en (0 : Fin 5) true; let L := L.put R.pwrState_state 3;
      let L := { L with pwr := { L.pwr with bootStep := 0 } }; L), .a, 0, by decide +kernel⟩,
    ⟨(tst fun L => let L := L.setBit R.pwrWakeEn_en (0 : Fin 5) true; let L := L.setF R.pwrSleep_armed true; L), .a,
      0, by decide +kernel⟩,
    ⟨(tst fun L => let L := L.setBit R.pwrWakeEn_en 0 true; let L := L.put R.pwrState_state 3;
      let L := { L with pwr := { L.pwr with bootStep := 0 } }; L), .a, by decide +kernel⟩,
    ⟨(tst fun L => let L := L.setBit R.pwrWakeEn_en 0 false; L), .a, by decide +kernel⟩,
    ⟨(tst fun L => let L := { L with pwr := { L.pwr with bootStep := (1 : Fin 4).val } };
      let L := { L with pwr := { L.pwr with bootStep := 1 } }; L), .a, 1, by decide +kernel⟩,
    ⟨(tst fun L => let L := { L with pwr := { L.pwr with bootStep := 3 } }; L), .a, by decide +kernel⟩,
    ⟨(tst fun L => let L := L.setF R.cairnFail_code true; let L := { L with pwr := { L.pwr with bootStep := 0 } }; L),
      .a, by decide +kernel⟩,
    ⟨(tst fun L => let L := L.setF R.cairnFail_code true; let L := { L with pwr := { L.pwr with bootStep := 0 } };
      let L := L.setF (linkUpF .l0) false; let L := L.setF (linkUpF .l1) false;
      let L := { L with pwr := { L.pwr with heldSrc := [] } }; L), .a, by decide +kernel⟩,
    ⟨State.reset.setLane .a (retSet retL), .a, ⟨.dbg, true⟩, by simpa only [lane_setLane_a] using retSet_ok⟩,
    ⟨State.reset.setLane .a (retBad State.reset.laneA), .a, ⟨.dbg, true⟩,
      by simpa only [lane_setLane_a] using retBad_ok State.reset.laneA⟩,
    ⟨(tst id), .a, ⟨.triad, true⟩, by decide +kernel⟩,
    ⟨(tst id), .a, ⟨.triad, true⟩, by decide +kernel⟩,
    ⟨(tst id), .a, ⟨.triad, true⟩, 0xC1A5, by decide +kernel⟩⟩

/-- Witnesses of the hypotheses of `RidgeTasks`. -/
theorem wit_RidgeTasks :
    (∃ (s : State) (l : Lane) (n : Fin 64), (s.lane l).taskOn n false = true ∧ (s.lane l).pnum % atLeast1 ((s.lane
      l).get (R.ridgeTaskCfg_period n)) = 0 ∧ (s.lane l).taskReady n = false ∧ ((s.lane l).is R.ridgeStat_running =
      false ∨ (s.lane l).get R.ridgeStat_task ≠ n.val)) ∧
    (∃ (s : State) (l : Lane) (n : Fin 64), (s.lane l).taskOn n false = true ∧ (s.lane l).pnum % atLeast1 ((s.lane
      l).get (R.ridgeTaskCfg_period n)) = 0 ∧ ((s.lane l).taskReady n = true ∨ (s.lane l).is R.ridgeStat_running =
      true ∧ (s.lane l).get R.ridgeStat_task = n.val)) ∧
    (∃ (s : State) (l : Lane) (q : Req) (task : BitVec 6), (s.lane l).judge q R.ridgePost true (task.setWidth 32) =
      none ∧ (s.lane l).taskOn task.toNat true = true ∧ (s.lane l).taskReady task.toNat = false ∧ ((s.lane l).is
      R.ridgeStat_running = false ∨ (s.lane l).get R.ridgeStat_task ≠ task.toNat)) ∧
    (∃ (s : State) (l : Lane) (sec : Bool) (n : Nat), (s.lane l).judge ⟨.triad, sec⟩ R.ridgeNext false 0#32 = none ∧ n
      < 64 ∧ (s.lane l).is R.ridgeCtl_en = true ∧ (s.lane l).taskReady n = true ∧ (s.lane l).admits n = true ∧ (∀ m, m
      < 64 → (s.lane l).taskReady m = true → (s.lane l).admits m = true → (s.lane l).taskBefore n m = true)) ∧
    (∃ (s : State) (l : Lane) (sec : Bool), (s.lane l).judge ⟨.triad, sec⟩ R.ridgeNext false 0#32 = none ∧ (∀ n, n <
      64 → (s.lane l).taskReady n = true → (s.lane l).admits n = false)) ∧
    (∃ (s : State) (l : Lane) (q : Req), (s.lane l).judge q R.ridgeNext false 0#32 = none ∧ q.m ≠ .triad) :=
  ⟨
    ⟨(tst fun L => let L := L.setF R.ridgeStat_running false; let L := L.put R.ridgeCtl_en 1;
      let L := L.put (R.ridgeTaskCfg_en (0 : Fin 64)) 1; let L := L.put (R.ridgeTaskCfg_trig (0 : Fin 64)) 1; L), .a,
      0, by decide +kernel⟩,
    ⟨(tst fun L => let L := L.put R.ridgeCtl_en 1; let L := L.put (R.ridgeTaskCfg_en (0 : Fin 64)) 1;
      let L := L.put (R.ridgeTaskCfg_trig (0 : Fin 64)) 1; let L := L.setReady (0 : Fin 64) true; L), .a, 0, by
      decide +kernel⟩,
    ⟨(tst fun L => let L := L.setF R.ridgeStat_running false; let L := L.put R.ridgeCtl_en 1;
      let L := L.put (R.ridgeTaskCfg_en 0) 1; L), .a, ⟨.triad, true⟩, 0, by decide +kernel⟩,
    ⟨(tst fun L => let L := L.setF R.ridgeCtl_en true; let L := L.setReady (0 : Nat) true; L), .a, true, 0, by
      decide +kernel⟩,
    ⟨(tst id), .a, true, by decide +kernel⟩,
    ⟨(tst id), .a, ⟨.dbg, true⟩, by decide +kernel⟩⟩

/-- Witnesses of the hypotheses of `NvmOperations`. -/
theorem wit_NvmOperations :
    (∀ n2 ∈ [1, 2, 3], ∃ (s : State) (l : Lane) (q : Req), (s.lane l).judge q R.nvmcCmd true (wordN n2) = none ∧
      (s.lane l).nvRefused n2 = false) ∧
    (∀ n2 ∈ [1, 2, 3], ∃ (s : State) (l : Lane) (q : Req), (s.lane l).judge q R.nvmcCmd true (wordN n2) = none ∧
      (s.lane l).nvRefused n2 = true) ∧
    (∃ (s : State) (l : Lane) (a : Nat), (s.lane l).memSt.nvOp = some (nvProgram, a)) ∧
    (∃ (s : State) (l : Lane) (a : Nat), (s.lane l).memSt.nvOp = some (nvProgram, a)) ∧
    (∃ (s : State) (l : Lane) (a : Nat), (s.lane l).memSt.nvOp = some (nvErase, a)) ∧
    (∃ (s : State) (l : Lane) (a : Nat), (s.lane l).memSt.nvOp = some (nvBlank, a) ∧ (s.lane l).is R.nvmcStat_err =
      false) ∧
    (∃ (s : State) (l : Lane) (q : Req), (s.lane l).judge q R.nvmcClr true 1#32 = none) ∧
    (∃ (s : State) (l : Lane) (q : Req), (s.lane l).judge q R.watCnt true 0x10000#32 = none ∧ q.secure = true ∧
      (s.lane l).is R.watStat_locked = false) :=
  ⟨
    by intro n2 hn; exact ⟨((tst fun L => let L := L.put R.nvmcAddr_tgt 1; L)), .a, ⟨.triad, true⟩,
      by revert n2; decide +kernel⟩,
    by intro n2 hn; exact ⟨((tst id)), .a, ⟨.triad, true⟩, by revert n2; decide +kernel⟩,
    ⟨(tst fun L => let L := { L with memSt := { L.memSt with nvOp := some (nvProgram, (0 : Nat)) } }; L), .a, 0, by
      decide +kernel⟩,
    ⟨(tst fun L => let L := { L with memSt := { L.memSt with nvOp := some (nvProgram, (0 : Nat)) } }; L), .a, 0, by
      decide +kernel⟩,
    ⟨(tst fun L => let L := { L with memSt := { L.memSt with nvOp := some (nvErase, (0 : Nat)) } }; L), .a, 0, by
      decide +kernel⟩,
    ⟨(tst fun L => let L := { L with memSt := { L.memSt with nvOp := some (nvBlank, (0 : Nat)) } };
      let L := L.setF R.nvmcStat_err false; L), .a, 0, by decide +kernel⟩,
    ⟨(tst id), .a, ⟨.triad, true⟩, by decide +kernel⟩,
    ⟨(tst fun L => let L := L.setF R.watStat_locked false; L), .a, ⟨.triad, true⟩, by decide +kernel⟩⟩

/-- Witnesses of the hypotheses of `Messaging`. -/
theorem wit_Messaging :
    (∃ (s : State) (l : Lane) (q : Req) (tag : BitVec 16), (s.lane l).judge q R.mboxStage true (tag.setWidth 32) =
      none) ∧
    (∃ (s : State) (l : Lane) (q : Req) (n : Fin 32) (ptr : Word), (s.lane l).judge q (R.mboxPost n) true ptr = none ∧
      q.m.isCore = true ∧ (q.secure = true ∨ (s.lane l).is (R.mboxCfg_sec n) = false)) ∧
    (∃ (s : State) (l : Lane) (q : Req) (n : Fin 32) (b : MboxMsg), (s.lane l).judge q (R.mboxMsg n) false 0#32 = none
      ∧ (q.m.isCore = false ∨ q.secure = true ∨ (s.lane l).is (R.mboxCfg_sec n) = false) ∧ (s.lane l).msgOf n = some
      b) ∧
    (∃ (s : State) (l : Lane) (q : Req) (n : Fin 32) (b : MboxMsg), (s.lane l).judge q (R.mboxPtr n) false 0#32 = none
      ∧ (q.m.isCore = false ∨ q.secure = true ∨ (s.lane l).is (R.mboxCfg_sec n) = false) ∧ (s.lane l).msgOf n = some b
      ∧ (∀ c ∈ (s.lane l).memSt.cap, c.master ≠ q.m.id ∨ c.box ≠ n.val)) ∧
    (∃ (s : State) (l : Lane) (q : Req) (n : Fin 64), (s.lane l).judge q (R.sema n) false 0#32 = none ∧ (q.m.isCore =
      false ∨ q.secure = true ∨ (s.lane l).semaSecure n = false)) ∧
    (∃ (s : State) (l : Lane) (q : Req) (n : Fin 64), (s.lane l).judge q (R.sema n) true 0#32 = none ∧ (s.lane l).get
      (R.sema_owner n) = q.m.id) ∧
    (∃ (s : State) (l : Lane) (q : Req) (n : Fin 64), (s.lane l).judge q (R.sema n) true 0#32 = none ∧ (s.lane l).get
      (R.sema_owner n) ≠ q.m.id) ∧
    (∃ (s : State) (l : Lane) (q : Req) (idx : BitVec 6), (s.lane l).judge q R.semaFree true (idx.setWidth 32) = none
      ∧ q.secure = true) :=
  ⟨
    ⟨(tst id), .a, ⟨.triad, true⟩, 0, by decide +kernel⟩,
    ⟨(tst id), .a, ⟨.triad, true⟩, 0, 0, by decide +kernel⟩,
    ⟨(tst fun L => let L := { L with memSt := { L.memSt with box := [(⟨0, 0, 0, 1, 0, 0, 0⟩ : MboxMsg)] } }; L), .a,
      ⟨.triad, true⟩, 0, ⟨0, 0, 0, 1, 0, 0, 0⟩, by decide +kernel⟩,
    ⟨(tst fun L => let L := { L with memSt := { L.memSt with box := [(⟨0, 0, 0, 1, 0, 0, 0⟩ : MboxMsg)] } }; L), .a,
      ⟨.triad, true⟩, 0, ⟨0, 0, 0, 1, 0, 0, 0⟩, by decide +kernel⟩,
    ⟨(tst id), .a, ⟨.triad, true⟩, 0, by decide +kernel⟩,
    ⟨(tst fun L => let L := L.put (R.sema_owner (0 : Fin 64)) (⟨.triad, true⟩ : Req).m.id; L), .a, ⟨.triad, true⟩, 0,
      by decide +kernel⟩,
    ⟨(tst id), .a, ⟨.triad, true⟩, 0, by decide +kernel⟩,
    ⟨(tst id), .a, ⟨.triad, true⟩, 0, by decide +kernel⟩⟩

/-- Witnesses of the hypotheses of `LifeCycleCommands`. -/
theorem wit_LifeCycleCommands :
    (∀ n2 ∈ [opChallenge, opMakerAuth, opClose, opCalOpen, opCalClose, opDbgOpen, opLcAdvance, opLcReenter, opRetire,
      opLogReset], ∃ (s : State) (l : Lane) (q : Req), (s.lane l).judge q R.lcsCmd true (lcsWord n2 0) = none ∧
      (s.lane l).is R.lcsStat_busy = false ∧ (s.lane l).lockedOut (if n2 = opMakerAuth then 3 else 0) = false ∧
      (s.lane l).lcsAccepts n2 0 = true) ∧
    (∀ n2 ∈ [opChallenge, opMakerAuth, opClose, opCalOpen, opCalClose, opDbgOpen, opLcAdvance, opLcReenter, opRetire,
      opLogReset], ∃ (s : State) (l : Lane) (q : Req), (s.lane l).judge q R.lcsCmd true (lcsWord n2 0) = none ∧
      ((s.lane l).is R.lcsStat_busy = true ∨ (s.lane l).lcsAccepts n2 0 = false)) ∧
    (∀ n2 ∈ [opAuth, opPwSet], ∃ (s : State) (l : Lane) (q : Req) (role : BitVec 2), (s.lane l).judge q R.lcsCmd true
      (lcsWord n2 role.toNat) = none ∧ (s.lane l).is R.lcsStat_busy = false ∧ (s.lane l).lockedOut (if n2 = opAuth
      then role.toNat else 0) = false ∧ (s.lane l).lcsAccepts n2 role.toNat = true) ∧
    (∀ n2 ∈ [opAuth, opPwSet], ∃ (s : State) (l : Lane) (q : Req) (role : BitVec 2), (s.lane l).judge q R.lcsCmd true
      (lcsWord n2 role.toNat) = none ∧ (s.lane l).is R.lcsStat_busy = false ∧ ((s.lane l).lcsAccepts n2 role.toNat =
      false ∨ n2 = opAuth ∧ (s.lane l).lockedOut role.toNat = true)) ∧
    (∃ (s : State) (l : Lane), (s.lane l).role ≠ 0 ∧ (s.lane l).lcs.actAt + atLeast1 ((s.lane l).get R.lcsCfg_idle) *
      minuteTicks ≤ (s.lane l).aon.now ∧ (s.lane l).get R.lcsState_cal_grant = 0) ∧
    (∃ (s : State) (l : Lane), (s.lane l).role ≠ 0 ∧ (s.lane l).lcs.actAt + atLeast1 ((s.lane l).get R.lcsCfg_idle) *
      minuteTicks ≤ (s.lane l).aon.now ∧ (s.lane l).get R.lcsState_cal_grant ≠ 0 ∧ (s.lane l).get R.lcsLog_n < 4096) ∧
    (∃ (s : State) (l : Lane) (t : Nat), (s.lane l).lcs.chalAt = some t ∧ t + minuteTicks ≤ (s.lane l).aon.now) ∧
    (∃ (s : State) (l : Lane) (role : Fin 4), (s.lane l).lockedOut role = true ∧ (s.lane l).aon.lockEnd.get role ≤
      (s.lane l).aon.now + 1) ∧
    (∃ (s : State) (l : Lane) (q : Req), (s.lane l).judge q R.lcsCmd true 13#32 = none ∧ (s.lane l).is R.lcsStat_busy
      = false ∧ 2 ≤ (s.lane l).role ∧ ((s.lane l).belay = bsService ∨ (s.lane l).belay = bsBoot ∨ (s.lane l).belay =
      bsSync ∨ (s.lane l).belay = bsExcluded) ∧ (s.lane l).get R.lcsState_cal_grant = 0 ∧ (s.lane l).memSt.nvOp =
      none) ∧
    (∃ (s : State) (l : Lane) (q : Req), (s.lane l).judge q R.lcsCmd true 13#32 = none ∧ (s.lane l).role < 2) ∧
    (∃ (s : State) (l : Lane) (q : Req) (sub : BitVec 12), (s.lane l).judge q R.lcsLogSub true (sub.setWidth 32) =
      none) ∧
    (∃ (s : State) (l : Lane) (kind sub : Nat) (w1 w2 : Word) (rest : List (Nat × Nat × Word × Word)), (s.lane
      l).lcs.logDue = (kind, sub, w1, w2) :: rest ∧ sub < 4096 ∧ (s.lane l).get R.lcsLog_n < 4096) :=
  ⟨
    by intro n2 hn; exact ⟨((tst
      fun L => let L := L.put R.lcsState_role (if n2 = opLcReenter ∨ n2 = opRetire ∨ n2 = opLogReset then 3 else 2);
      let L := L.put R.lcsState_lc (if n2 = opLcReenter then 3 else 2);
      let L := { L with lcs := { L.lcs with chalAt := if n2 = opMakerAuth then some 0 else none } }; L)), .a, ⟨.triad,
      true⟩, by revert n2; decide +kernel⟩,
    by intro n2 hn; exact ⟨((tst fun L => let L := L.setF R.lcsStat_busy true; L)), .a, ⟨.triad, true⟩,
      by revert n2; decide +kernel⟩,
    by intro n2 hn; exact ⟨((tst fun L => let L := L.setF R.lcsStat_busy false; let L := L.put R.lcsState_role 1;
      let L := L.put R.secPwLen_len 8; let L := L.setReg (R.secPw 0) 0x41414141;
      let L := L.setReg (R.secPw 1) 0x41414141; L)), .a, ⟨.triad, true⟩, 1, by revert n2; decide +kernel⟩,
    by intro n2 hn; exact ⟨((tst fun L => let L := L.setF R.lcsStat_busy false; L)), .a, ⟨.triad, true⟩, 0,
      by revert n2; decide +kernel⟩,
    ⟨(tst fun L => let L := L.put R.lcsState_cal_grant 0; let L := L.put R.lcsState_role 1;
      let L := { L with aon := { L.aon with now := 1000000000000000 } }; L), .a, by decide +kernel⟩,
    ⟨(tst fun L => let L := L.put R.lcsState_cal_grant 1; let L := L.put R.lcsState_role 1;
      let L := { L with aon := { L.aon with now := 1000000000000000 } }; L), .a, by decide +kernel⟩,
    ⟨(tst fun L => let L := { L with lcs := { L.lcs with chalAt := some (0 : Nat) } };
      let L := { L with aon := { L.aon with now := 1000000000000000 } }; L), .a, 0, by decide +kernel⟩,
    ⟨(tst fun L => let L := { L with aon := { L.aon with lockEnd := [(1, 1)] } }; L), .a, 1, by decide +kernel⟩,
    ⟨(tst fun L => let L := L.setF R.lcsStat_busy false; let L := L.put R.belayState_state bsService;
      let L := L.put R.lcsState_cal_grant 0; let L := { L with memSt := { L.memSt with nvOp := none } };
      let L := L.put R.lcsState_role 2; L), .a, ⟨.triad, true⟩, by decide +kernel⟩,
    ⟨(tst id), .a, ⟨.triad, true⟩, by decide +kernel⟩,
    ⟨(tst id), .a, ⟨.triad, true⟩, 0, by decide +kernel⟩,
    ⟨(tst
      fun L => let L := { L with lcs := { L.lcs with logDue := ((0 : Nat), (0 : Nat), (0 : Word), (0 : Word)) :: ([] : List (Nat × Nat × Word × Word)) } };
      L), .a, 0, 0, 0, 0, ([]), by decide +kernel⟩⟩

/-- Witnesses of the hypotheses of `LifeCycleEffects`. -/
theorem wit_LifeCycleEffects :
    (∃ (s : State) (l : Lane), (s.lane l).lcs.op = none) ∧
    (∃ (s : State) (l : Lane) (o : LcsOp), (s.lane l).lcs.op = some o ∧ o.op = opAuth ∧ o.ok = true ∧ 1 ≤ o.role ∧
      o.role < 4 ∧ (s.lane l).get R.lcsState_cal_grant = 0) ∧
    (∃ (s : State) (l : Lane) (o : LcsOp), (s.lane l).lcs.op = some o ∧ o.op = opAuth ∧ o.ok = false ∧ 1 ≤ o.role ∧
      o.role < 4 ∧ (s.lane l).get (failF o.role) < 4) ∧
    (∃ (s : State) (l : Lane) (o : LcsOp), (s.lane l).lcs.op = some o ∧ o.op = opAuth ∧ o.ok = false ∧ 1 ≤ o.role ∧
      o.role < 4 ∧ 4 ≤ (s.lane l).get (failF o.role) ∧ (s.lane l).get R.lcsLog_n < 4096) ∧
    (∃ (s : State) (l : Lane) (o : LcsOp), (s.lane l).lcs.op = some o ∧ o.op = opChallenge) ∧
    (∃ (s : State) (l : Lane) (o : LcsOp), (s.lane l).lcs.op = some o ∧ o.op = opCalOpen) ∧
    (∃ (s : State) (l : Lane) (o : LcsOp), (s.lane l).lcs.op = some o ∧ o.op = opLcAdvance ∧ (s.lane l).get
      R.lcsState_cal_grant = 0 ∧ (s.lane l).get R.lcsLog_n < 4096) ∧
    (∃ (s : State) (l : Lane) (o : LcsOp), (s.lane l).lcs.op = some o ∧ o.op = opRetire ∧ (s.lane l).get
      R.lcsState_cal_grant = 0) ∧
    (∃ (s : State) (l : Lane) (o : LcsOp), (s.lane l).lcs.op = some o ∧ o.op = opLogReset) :=
  ⟨
    ⟨(tst fun L => let L := { L with lcs := { L.lcs with op := none } }; L), .a, by decide +kernel⟩,
    ⟨(tst fun L => let L := { L with lcs := { L.lcs with op := some (⟨opAuth, 1, true, []⟩ : LcsOp) } };
      let L := L.put R.lcsState_cal_grant 0; L), .a, ⟨opAuth, 1, true, []⟩, by decide +kernel⟩,
    ⟨(tst fun L => let L := { L with lcs := { L.lcs with op := some (⟨opAuth, 1, false, []⟩ : LcsOp) } }; L), .a,
      ⟨opAuth, 1, false, []⟩, by decide +kernel⟩,
    ⟨(tst fun L => let L := { L with lcs := { L.lcs with op := some (⟨opAuth, 1, false, []⟩ : LcsOp) } };
      let L := L.put R.lcsFail_f_op 4; L), .a, ⟨opAuth, 1, false, []⟩, by decide +kernel⟩,
    ⟨(tst fun L => let L := { L with lcs := { L.lcs with op := some (⟨opChallenge, 0, true, []⟩ : LcsOp) } }; L), .a,
      ⟨opChallenge, 0, true, []⟩, by decide +kernel⟩,
    ⟨(tst fun L => let L := { L with lcs := { L.lcs with op := some (⟨opCalOpen, 0, true, []⟩ : LcsOp) } }; L), .a,
      ⟨opCalOpen, 0, true, []⟩, by decide +kernel⟩,
    ⟨(tst fun L => let L := { L with lcs := { L.lcs with op := some (⟨opLcAdvance, 0, true, []⟩ : LcsOp) } };
      let L := L.put R.lcsState_cal_grant 0; L), .a, ⟨opLcAdvance, 0, true, []⟩, by decide +kernel⟩,
    ⟨(tst fun L => let L := { L with lcs := { L.lcs with op := some (⟨opRetire, 0, true, []⟩ : LcsOp) } };
      let L := L.put R.lcsState_cal_grant 0; L), .a, ⟨opRetire, 0, true, []⟩, by decide +kernel⟩,
    ⟨(tst fun L => let L := { L with lcs := { L.lcs with op := some (⟨opLogReset, 0, true, []⟩ : LcsOp) } }; L), .a,
      ⟨opLogReset, 0, true, []⟩, by decide +kernel⟩⟩

/-- Witnesses of the hypotheses of `SecurityEngine`. -/
theorem wit_SecurityEngine :
    (∀ n2 ∈ [secImgCheck, secImgActivate], ∃ (s : State) (l : Lane) (q : Req) (bank : Fin 2), (s.lane l).judge q
      R.secCmd true (secWord n2 bank 0) = none) ∧
    (∀ n2 ∈ [secImgConfirm, secAttest], ∃ (s : State) (l : Lane) (q : Req), (s.lane l).judge q R.secCmd true (secWord
      n2 0 0) = none) ∧
    (∀ n2 ∈ [secKeySet, secKeyRevoke], ∃ (s : State) (l : Lane) (q : Req) (slot : BitVec 4), (s.lane l).judge q
      R.secCmd true (secWord n2 0 slot.toNat) = none) ∧
    (∃ (s : State) (l : Lane) (b slot : Nat), (s.lane l).lcs.secOp = some (secImgCheck, b, slot)) ∧
    (∃ (s : State) (l : Lane) (b slot : Nat), (s.lane l).lineErased b lineActivate = true ∧ (s.lane l).lcs.secOp =
      some (secImgActivate, b, slot) ∧ b < 2 ∧ (s.lane l).get R.lcsLog_n < 4096) ∧
    (∃ (s : State) (l : Lane) (b bank slot : Nat), (s.lane l).lcs.secOp = some (secImgConfirm, bank, slot) ∧ b =
      (s.lane l).get R.secStat_boot_bank) ∧
    (∃ (s : State) (l : Lane) (bank slot : Nat), (s.lane l).lcs.secOp = some (secAttest, bank, slot)) ∧
    (∃ (s : State) (l : Lane) (bank : Nat), (s.lane l).lcs.secOp = some (secKeySet, bank, 8) ∧ (s.lane l).get
      R.lcsLog_n < 4096) ∧
    (∃ (s : State) (l : Lane) (bank slot : Nat), (s.lane l).lcs.secOp = some (secKeyRevoke, bank, slot) ∧ slot < 4 ∧
      (s.lane l).get R.lcsLog_n < 4096) ∧
    (∃ (s : State) (l : Lane), (s.lane l).romReady = true ∧ (s.lane l).warmValid = false ∧ (s.lane l).lcs.imageOk =
      false) ∧
    (∃ (s : State) (l : Lane) (b : Nat), (s.lane l).romReady = true ∧ (s.lane l).warmValid = true ∧ (s.lane
      l).aon.warm = some (b, (s.lane l).imgDigest b) ∧ (s.lane l).lcs.bootFail = false) ∧
    (∃ (s : State) (l : Lane), (s.lane l).pwr.bootStep = 4 ∧ (s.lane l).lcs.bootSet = false ∧ (s.lane l).lcs.bootDone
      = false) :=
  ⟨
    by intro n2 hn; exact ⟨((tst id)), .a, ⟨.triad, true⟩, 0, by revert n2; decide +kernel⟩,
    by intro n2 hn; exact ⟨((tst id)), .a, ⟨.triad, true⟩, by revert n2; decide +kernel⟩,
    by intro n2 hn; exact ⟨((tst id)), .a, ⟨.triad, true⟩, 0, by revert n2; decide +kernel⟩,
    ⟨(tst fun L => let L := { L with lcs := { L.lcs with secOp := some (secImgCheck, (0 : Nat), (0 : Nat)) } }; L),
      .a, 0, 0, by decide +kernel⟩,
    ⟨(tst fun L => let L := { L with lcs := { L.lcs with secOp := some (secImgActivate, (0 : Nat), (0 : Nat)) } }; L),
      .a, 0, 0, erased_of_mem _ rfl _ _ (by decide), by decide +kernel⟩,
    ⟨(tst fun L => let L := { L with lcs := { L.lcs with secOp := some (secImgConfirm, (0 : Nat), (0 : Nat)) } }; L),
      .a, 0, 0, 0, by decide +kernel⟩,
    ⟨(tst fun L => let L := { L with lcs := { L.lcs with secOp := some (secAttest, (0 : Nat), (0 : Nat)) } }; L), .a,
      0, 0, by decide +kernel⟩,
    ⟨(tst fun L => let L := { L with lcs := { L.lcs with secOp := some (secKeySet, (0 : Nat), 8) } }; L), .a, 0, by
      decide +kernel⟩,
    ⟨(tst fun L => let L := { L with lcs := { L.lcs with secOp := some (secKeyRevoke, (0 : Nat), (0 : Nat)) } }; L),
      .a, 0, 0, by decide +kernel⟩,
    ⟨(tst fun L => let L := { L with lcs := { L.lcs with imageOk := false } };
      let L := { L with pwr := { L.pwr with bootStep := 4 } };
      let L := { L with lcs := { L.lcs with bootDone := true } }; let L := L.put R.lcsState_lc 2; L), .a, by
      decide +kernel⟩,
    ⟨State.reset.setLane .a warmL, .a, 0, by simpa only [lane_setLane_a] using warmL_ok⟩,
    ⟨(tst fun L => let L := { L with pwr := { L.pwr with bootStep := 4 } };
      let L := { L with lcs := { L.lcs with bootSet := false } };
      let L := { L with lcs := { L.lcs with bootDone := false } }; L), .a, by decide +kernel⟩⟩

/-- Witnesses of the hypotheses of `SelfTests`. -/
theorem wit_SelfTests :
    (∃ (s : State) (l : Lane) (q : Req) (mask : BitVec 11) (t : Nat) (rest : List Nat), (s.lane l).judge q R.bistCmd
      true (mask.setWidth 32 ||| 0x10000#32) = none ∧ (s.lane l).is R.bistStat_busy = false ∧ (List.range 11).filter
      (fun k => mask.getLsbD k) = t :: rest ∧ mask.getLsbD 1 = false ∧ (∀ k, k < 11 → mask.getLsbD k = true → (s.lane
      l).bistMay k = true)) ∧
    (∃ (s : State) (l : Lane) (q : Req) (mask : BitVec 11) (k : Nat), (s.lane l).judge q R.bistCmd true (mask.setWidth
      32 ||| 0x10000#32) = none ∧ k < 11 ∧ mask.getLsbD k = true ∧ ((s.lane l).is R.bistStat_busy = true ∨ (s.lane
      l).bistMay k = false)) ∧
    (∃ (s : State) (l : Lane) (q : Req) (t : Nat), (s.lane l).judge q R.bistCmd true 0x20000#32 = none ∧ (s.lane
      l).lcs.bistRun = some t) ∧
    (∃ (s : State) (l : Lane) (t : Fin 11), (s.lane l).lcs.bootSet = false ∧ (s.lane l).lcs.bistRun = some t.val ∧
      t.val ≠ 10 ∧ (s.lane l).lcs.bistQueue = []) ∧
    (∃ (s : State) (l : Lane) (t : Fin 11), (s.lane l).lcs.bootSet = true ∧ t.val ∈ (s.lane l).lcs.bistQueue ∧ t.val ≠
      10 ∧ (∃ u ∈ (s.lane l).lcs.bistQueue, u ≠ t.val)) ∧
    (∃ (s : State) (l : Lane), (s.lane l).lcs.bootSet = true ∧ (s.lane l).lcs.bistQueue = [10]) :=
  ⟨
    ⟨(tst fun L => let L := L.setF R.bistStat_busy false; L), .a, ⟨.triad, true⟩, 4, 2, ([]), by decide +kernel⟩,
    ⟨(tst fun L => let L := L.setF R.bistStat_busy true; L), .a, ⟨.triad, true⟩, 1, 0, by decide +kernel⟩,
    ⟨(tst fun L => let L := { L with lcs := { L.lcs with bistRun := some (0 : Nat) } }; L), .a, ⟨.triad, true⟩, 0, by
      decide +kernel⟩,
    ⟨(tst fun L => let L := { L with lcs := { L.lcs with bootSet := false } };
      let L := { L with lcs := { L.lcs with bistRun := some (0 : Fin 11).val } };
      let L := { L with lcs := { L.lcs with bistQueue := [] } }; L), .a, 0, by decide +kernel⟩,
    ⟨(tst fun L => let L := { L with lcs := { L.lcs with bootSet := true } };
      let L := { L with lcs := { L.lcs with bistQueue := [(0 : Fin 11).val] } };
      let L := { L with lcs := { L.lcs with bistQueue := [0, 8] } }; L), .a, 0, by decide +kernel⟩,
    ⟨(tst fun L => let L := { L with lcs := { L.lcs with bootSet := true } };
      let L := { L with lcs := { L.lcs with bistQueue := [10] } }; L), .a, by decide +kernel⟩⟩

/-- Witnesses of the hypotheses of `SkimJobs`. -/
theorem wit_SkimJobs :
    (∃ (s : State) (l : Lane) (j : Fin 16) (n16 : BitVec 12) (g : Nat), (s.lane l).skimNext j = true ∧ (s.lane
      l).jobKind j = jkDlcal ∧ g = (s.lane l).get (R.skimJobCfg_target j) % 4 ∧ (s.lane l).n16Ok n16.toNat = true ∧
      ((n16.toNat : Int) - (s.lane l).get (R.edgeDlStat_n16 g)).natAbs ≤ (s.lane l).get R.edgeDlLim_step) ∧
    (∃ (s : State) (l : Lane) (j : Fin 16) (n16 : BitVec 12), (s.lane l).skimNext j = true ∧ (s.lane l).jobKind j =
      jkDlcal ∧ (s.lane l).n16Ok n16.toNat = false) ∧
    (∃ (s : State) (l : Lane) (j : Fin 16), (s.lane l).skimNext j = true ∧ (s.lane l).jobKind j = jkShuntz ∧ ((s.lane
      l).axis ((s.lane l).get (R.skimJobCfg_target j) % 4) = axOff ∨ (s.lane l).axis ((s.lane l).get
      (R.skimJobCfg_target j) % 4) = axFree)) ∧
    (∃ (s : State) (l : Lane) (j : Fin 16), (s.lane l).skimNext j = true ∧ (s.lane l).jobKind j = jkAvsmon) ∧
    (∃ (s : State) (l : Lane) (j : Fin 16) (r : Nat), (s.lane l).skimNext j = true ∧ (s.lane l).jobKind j = jkScrub ∧
      r = (s.lane l).get (R.skimJobCfg_target j) ∧ r < 8 ∧ (s.lane l).memSt.scrubRow.get r + 1 < regionRows r) ∧
    (∃ (s : State) (l : Lane) (j : Fin 16) (r : Nat), (s.lane l).skimNext j = true ∧ (s.lane l).jobKind j = jkScrub ∧
      r = (s.lane l).get (R.skimJobCfg_target j) ∧ r < 8 ∧ regionRows r ≤ (s.lane l).memSt.scrubRow.get r + 1 ∧ r ∉
      (s.lane l).memSt.scrubBad) ∧
    (∃ (s : State) (l : Lane) (j : Fin 16) (t : Nat), (s.lane l).skimNext j = true ∧ (s.lane l).jobKind j = jkNvscrub
      ∧ t = (s.lane l).get (R.skimJobCfg_target j) ∧ t < 3 ∧ (s.lane l).nvBusyOn t = false ∧ nvSize t ≤ ((s.lane
      l).memSt.nvPos.get t + 1) * 1024 ∧ t ∉ (s.lane l).memSt.nvBad) ∧
    (∃ (s : State) (l : Lane) (j : Fin 16) (r : Nat) (p : Nat × Nat), (s.lane l).skimNext j = true ∧ (s.lane
      l).jobKind j = jkRepair ∧ r = (s.lane l).get (R.skimJobCfg_target j) ∧ r < 8 ∧ (s.lane l).memSt.queue.find? (fun
      x => x.1 == r) = some p ∧ (s.lane l).get (R.nvmcSrCnt_used r) < regionSpares r ∧ p.2 < 4096) ∧
    (∃ (s : State) (l : Lane) (j : Fin 16) (r : Nat) (p : Nat × Nat), (s.lane l).skimNext j = true ∧ (s.lane
      l).jobKind j = jkRepair ∧ r = (s.lane l).get (R.skimJobCfg_target j) ∧ r < 8 ∧ (s.lane l).memSt.queue.find? (fun
      x => x.1 == r) = some p ∧ regionSpares r ≤ (s.lane l).get (R.nvmcSrCnt_used r)) ∧
    (∃ (s : State) (l : Lane) (j : Fin 16), (∀ y, y ≠ (s.lane l).id → driving ((s.lane l).view y) = false) ∧ (s.lane
      l).skimNext j = true ∧ (s.lane l).jobKind j = jkRefx) ∧
    (∃ (s : State) (l : Lane) (j : Fin 16) (y : Lane), (∀ z, z ≠ (s.lane l).id → z ≠ y → driving ((s.lane l).view z) =
      false) ∧ (s.lane l).skimNext j = true ∧ (s.lane l).jobKind j = jkRefx ∧ y ≠ (s.lane l).id ∧ driving (s.lane
      l).belay = true ∧ driving ((s.lane l).view y) = true ∧ (s.lane l).lcs.refxAt.get y.idx ≠ 0 ∧ (s.lane l).pnum + 1
      ≤ (s.lane l).lcs.refxAt.get y.idx + 4096) :=
  ⟨
    ⟨(tst fun L => let L := skimReady L (0 : Fin 16); let L := L.put (R.skimJobCfg_kind (0 : Fin 16)) jkDlcal;
      let L := L.put (R.edgeDlStat_n16 0) 1600; L), .a, 0, 1600, 0, by decide +kernel⟩,
    ⟨(tst fun L => let L := skimReady L (0 : Fin 16); let L := L.put (R.skimJobCfg_kind (0 : Fin 16)) jkDlcal; L), .a,
      0, 0, by decide +kernel⟩,
    ⟨(tst fun L => let L := skimReady L (0 : Fin 16); let L := L.put (R.skimJobCfg_kind (0 : Fin 16)) jkShuntz; L),
      .a, 0, by decide +kernel⟩,
    ⟨(tst fun L => let L := skimReady L (0 : Fin 16); let L := L.put (R.skimJobCfg_kind (0 : Fin 16)) jkAvsmon; L),
      .a, 0, by decide +kernel⟩,
    ⟨(tst fun L => let L := skimReady L (0 : Fin 16); let L := L.put (R.skimJobCfg_kind (0 : Fin 16)) jkScrub; L), .a,
      0, 0, by decide +kernel⟩,
    ⟨(tst fun L => let L := skimReady L (0 : Fin 16); let L := L.put (R.skimJobCfg_kind (0 : Fin 16)) jkScrub;
      let L := { L with memSt := { L.memSt with scrubRow := [(0, 4095)] } }; L), .a, 0, 0, by decide +kernel⟩,
    ⟨(tst fun L => let L := skimReady L (0 : Fin 16); let L := L.put (R.skimJobCfg_kind (0 : Fin 16)) jkNvscrub;
      let L := { L with memSt := { L.memSt with nvPos := [(0, 4095)] } }; L), .a, 0, 0, by decide +kernel⟩,
    ⟨(tst fun L => let L := skimReady L (0 : Fin 16); let L := L.put (R.skimJobCfg_kind (0 : Fin 16)) jkRepair;
      let L := { L with memSt := { L.memSt with queue := [(0, 5)] } }; L), .a, 0, 0, (0, 5), by decide +kernel⟩,
    ⟨(tst fun L => let L := skimReady L (0 : Fin 16); let L := L.put (R.skimJobCfg_kind (0 : Fin 16)) jkRepair;
      let L := { L with memSt := { L.memSt with queue := [(0, 5)] } }; let L := L.put (R.nvmcSrCnt_used 0) 82; L), .a,
      0, 0, (0, 5), by decide +kernel⟩,
    ⟨(tst fun L => let L := skimReady L (0 : Fin 16); let L := L.put (R.skimJobCfg_kind (0 : Fin 16)) jkRefx; L), .a,
      0, allLanes (by decide +kernel), by decide +kernel⟩,
    ⟨(tst fun L => let L := skimReady L (0 : Fin 16); let L := L.put (R.skimJobCfg_kind (0 : Fin 16)) jkRefx;
      let L := L.put R.belayState_state bsActive; let L := L.put (viewField (.b : Lane)) bsActive;
      let L := { L with lcs := { L.lcs with refxAt := [(1, 1)] } }; L), .a, 0, .b, allLanes (by decide +kernel), by
      decide +kernel⟩⟩

/-- Witnesses of the hypotheses of `Resets`. -/
theorem wit_Resets :
    (∃ (s : State) (l : Lane), (s.lane l).id = l ∧ (s.lane l).memSt.nvOp = none) ∧
    (∃ (s : State) (l : Lane), (s.lane l).id = l ∧ (s.lane l).memSt.nvOp = none) ∧
    (∃ (s : State) (l : Lane), (s.lane l).get R.lcsState_cal_grant = 0 ∧ (s.lane l).memSt.nvOp = none) ∧
    (∃ (s : State) (l : Lane), (s.lane l).belay = bsExcluded ∧ (s.lane l).belaySt.exclAt + 200000 * atLeast1 ((s.lane
      l).get R.belayRej_hold) ≤ (s.lane l).coarse ∧ (s.lane l).exhausted = true) ∧
    (∃ (s : State) (l : Lane), (s.lane l).belay = bsExcluded ∧ (s.lane l).belaySt.exclAt + 200000 * atLeast1 ((s.lane
      l).get R.belayRej_hold) ≤ (s.lane l).coarse ∧ (s.lane l).exhausted = false ∧ (s.lane l).get R.lcsState_cal_grant
      = 0 ∧ (s.lane l).memSt.nvOp = none) :=
  ⟨
    ⟨(tst fun L => let L := { L with memSt := { L.memSt with nvOp := none } }; L), .a, by decide +kernel⟩,
    ⟨(tst fun L => let L := { L with memSt := { L.memSt with nvOp := none } }; L), .a, by decide +kernel⟩,
    ⟨(tst fun L => let L := L.put R.lcsState_cal_grant 0; let L := { L with memSt := { L.memSt with nvOp := none } };
      L), .a, by decide +kernel⟩,
    ⟨(tst fun L => let L := L.put R.belayState_state bsExcluded; let L := L.setNow (64 * 5000 * 1000000000);
      let L := L.put R.belayRej_limit 0; L), .a, by decide +kernel⟩,
    ⟨(tst fun L => let L := L.put R.belayState_state bsExcluded; let L := L.put R.lcsState_cal_grant 0;
      let L := { L with memSt := { L.memSt with nvOp := none } }; let L := L.setNow (64 * 5000 * 1000000000);
      let L := L.put R.belayRej_limit 4; L), .a, by decide +kernel⟩⟩

/-- Witnesses of the hypotheses of `BusAccess`. -/
theorem wit_BusAccess :
    (∃ (s : State) (l : Lane) (q : Req) (a w : Word) (k : Nat), 0x40000000 ≤ a.toNat ∧ a.toNat < 0x401C0000 ∧ a.toNat
      % 4 = 0 ∧ (s.lane l).judge q a.toNat true w = some k) ∧
    (∃ (s : State) (l : Lane) (q : Req) (a w : Word), a.toNat % 4 = 0 ∧ plainLock a.toNat = false ∧ (a.toNat / 0x10000
      = 0x4000 ∧ a.toNat ≠ R.sysTick ∨ a.toNat / 0x10000 = 0x4001 ∧ a.toNat ≠ R.belayKick ∧ a.toNat ≠ R.belayCmd ∨
      a.toNat / 0x10000 = 0x4003 ∧ a.toNat ≠ R.triadDbg ∧ a.toNat ≠ R.triadCmd ∧ a.toNat ≠ R.triadStat ∨ a.toNat /
      0x10000 = 0x4010 ∨ a.toNat / 0x10000 = 0x4015 ∨ a.toNat / 0x10000 = 0x401A) ∧ (s.lane l).judge q a.toNat true w
      = none) ∧
    (∃ (s : State) (l : Lane) (q : Req) (a w : Word), 0x40000000 ≤ a.toNat ∧ a.toNat < 0x401C0000 ∧ a.toNat % 4 = 0 ∧
      R.findRow a.toNat = none ∧ (s.lane l).judge q a.toNat true w = none) ∧
    (∃ (a : Word), plainLock a.toNat = true) ∧
    (∃ (s : State) (l : Lane) (q : Req) (w : Word), (s.lane l).judge q R.watLock true w = none ∧ bits w.toNat 15 0 =
      0xC1A5 ∧ q.secure = true) ∧
    (∃ (s : State) (l : Lane) (q : Req) (write : Bool) (a w : Word), 0x400E0000 ≤ a.toNat ∧ a.toNat < 0x40100000 ∧
      (s.lane l).judge q a.toNat write w = none ∧ (s.lane l).lath.pending = none) ∧
    (∃ (s : State) (l : Lane) (q : Req) (write : Bool) (a w : Word), 0x400E0000 ≤ a.toNat ∧ a.toNat < 0x40100000 ∧
      (s.lane l).judge q a.toNat write w = none ∧ (s.lane l).lath.pending ≠ none) ∧
    (∃ (s : State) (l : Lane) (q : Req) (write : Bool) (a w : Word) (k : Nat), 0x400E0000 ≤ a.toNat ∧ a.toNat <
      0x40100000 ∧ (s.lane l).judge q a.toNat write w = some k) ∧
    (∃ (s : State) (l : Lane) (i a : Nat) (w : Word), (s.lane l).lath.pending = some (i, false, a, w) ∧ 0x400E0000 ≤ a
      ∧ a < 0x40100000) ∧
    (∃ (s : State) (l : Lane) (i a : Nat) (w : Word), (s.lane l).lath.pending = some (i, true, a, w) ∧ a / 0x10000 =
      0x400E ∧ a ∉ [R.brgOvrEn, R.brgOvrGate, R.brgCmd, R.brgLock]) ∧
    (∃ (s : State) (l : Lane) (p : Nat × Bool × Nat × Word), (s.lane l).lath.pending = some p ∧ (s.lane l).lath.fails
      < 2) ∧
    (∃ (s : State) (l : Lane) (p : Nat × Bool × Nat × Word), (s.lane l).lath.pending = some p ∧ (s.lane l).lath.fails
      = 2) :=
  ⟨
    ⟨(tst fun L => let L := L.put R.watBlk_ns 0; L), .a, ⟨.triad, false⟩, 0x40000000, 0, 1, by decide +kernel⟩,
    ⟨(tst id), .a, ⟨.triad, true⟩, 0x40000000, 0, by decide +kernel⟩,
    ⟨(tst id), .a, ⟨.triad, true⟩, 0x4000FFFC, 0, by decide +kernel⟩,
    ⟨0x400800FC, by decide +kernel⟩,
    ⟨(tst id), .a, ⟨.triad, true⟩, 0xC1A5, by decide +kernel⟩,
    ⟨(tst fun L => let L := { L with lath := { L.lath with pending := none } }; L), .a, ⟨.triad, true⟩, true,
      0x400E0000, 0, by decide +kernel⟩,
    ⟨(tst fun L => let L := { L with lath := { L.lath with pending := some (0, false, 0, 0) } }; L), .a, ⟨.triad,
      true⟩, true, 0x400E0000, 0, by decide +kernel⟩,
    ⟨(tst fun L => let L := L.put R.watBlk_ns 0; L), .a, ⟨.triad, false⟩, true, 0x400E0000, 0, 1, by decide +kernel⟩,
    ⟨(tst
      fun L => let L := { L with lath := { L.lath with pending := some ((0 : Nat), false, (0x400E0000 : Nat), (0 : Word)) } };
      L), .a, 0, 0x400E0000, 0, by decide +kernel⟩,
    ⟨(tst
      fun L => let L := { L with lath := { L.lath with pending := some ((0 : Nat), true, (0x400E0000 : Nat), (0 : Word)) } };
      L), .a, 0, 0x400E0000, 0, by decide +kernel⟩,
    ⟨(tst
      fun L => let L := { L with lath := { L.lath with pending := some ((0, false, 0x400E0000, 0) : Nat × Bool × Nat × Word) } };
      L), .a, (0, false, 0x400E0000, 0), by decide +kernel⟩,
    ⟨(tst
      fun L => let L := { L with lath := { L.lath with pending := some ((0, false, 0x400E0000, 0) : Nat × Bool × Nat × Word) } };
      let L := { L with lath := { L.lath with fails := 2 } }; L), .a, (0, false, 0x400E0000, 0), by decide +kernel⟩⟩

/-- Witnesses of the hypotheses of `Boundaries`. -/
theorem wit_Boundaries :
    (∃ (s : State) (l : Lane), (s.lane l).pwr.bootStep = 4 ∧ (s.lane l).belay ≠ bsSync) ∧
    (∃ (s : State) (l : Lane), (s.lane l).pwr.bootStep = 4) :=
  ⟨
    ⟨(tst fun L => let L := { L with pwr := { L.pwr with bootStep := 4 } }; L), .a, by decide +kernel⟩,
    ⟨(tst fun L => let L := { L with pwr := { L.pwr with bootStep := 4 } }; L), .a, by decide +kernel⟩⟩

/-- Witnesses of the hypotheses of `DueJobsRunOnce`. -/
theorem wit_DueJobsRunOnce :
    (∃ (s : State) (l : Lane) (j : Fin 16), (s.lane l).is R.skimCtl_en = true ∧ (s.lane l).is (R.skimJobCfg_en j) =
      true ∧ (s.lane l).jobKind j ≠ 0 ∧ (s.lane l).get (R.skimJobCfg_period j) ≠ 0 ∧ (s.lane l).get
      (R.skimJobCfg_period j) ≤ (s.lane l).skim.since.get j ∧ j.val ∈ (s.lane l).skim.due ∧ (s.lane l).domainOn
      ((s.lane l).jobDomain j) = true) ∧
    (∃ (s : State) (l : Lane) (j : Fin 16), (s.lane l).skimNext j = true ∧ (s.lane l).jobKind j = jkAdczero) :=
  ⟨
    ⟨(tst fun L => let L := L.setF R.skimCtl_en true; let L := L.setF (R.skimJobCfg_en (0 : Fin 16)) true;
      let L := L.put (R.skimJobCfg_kind (0 : Fin 16)) 1; let L := L.put (R.skimJobCfg_period (0 : Fin 16)) 1;
      let L := { L with skim := { L.skim with since := [(0, 5)] } };
      let L := { L with skim := { L.skim with due := [(0 : Fin 16).val] } }; L), .a, 0, by decide +kernel⟩,
    ⟨(tst fun L => let L := skimReady L (0 : Fin 16); let L := L.put (R.skimJobCfg_kind (0 : Fin 16)) jkAdczero; L),
      .a, 0, by decide +kernel⟩⟩

/-- Witnesses of the hypotheses of `RetriggersSkipped`. -/
theorem wit_RetriggersSkipped :
    (∃ (s : State) (l : Lane) (e : Fin 2) (k : Fin 16), (s.lane l).dTrig e k ≤ 1 ∧ (s.lane l).loopMayRun e k = true ∧
      (((s.lane l).le e).ready.any (fun p => p.2 == k.val) = true ∨ ∃ r, ((s.lane l).le e).run = some r ∧ r.loop =
      k.val)) ∧
    (∃ (L : LaneState) (e : Fin 2) (k : Nat), (L.le e).ready.any (fun p => p.2 == k) = true ∨ (∃ r, (L.le e).run =
      some r ∧ r.loop = k)) :=
  ⟨
    ⟨(tst fun L => let L := L.mapLe (0 : Fin 2) (fun X => { X with check := 2 });
      let L := L.put (R.leCtl_run (0 : Fin 2)) 1; let L := L.put R.belayState_state bsActive;
      let L := L.setWord (leData (0 : Fin 2) 4) 0x00010100; let L := L.setBit (R.leLoopEn_en (0 : Fin 2)) 0 true;
      let L := L.setWord (leData (0 : Fin 2) 0) 0x1000;
      let L := L.mapLe (0 : Fin 2) (fun X => { X with ready := [(0, 0)] }); L), .a, 0, 0, by decide +kernel, by
      decide +kernel, .inl (by decide +kernel)⟩,
    ⟨State.reset.laneA.mapLe 0 (fun X => { X with ready := [(0, 0)] }), 0, 0, .inl (by decide +kernel)⟩⟩

/-- Witnesses of the hypotheses of `ConstantsOf32Bits`. -/
theorem wit_ConstantsOf32Bits :
    ∀ x ∈ ([(.movi, 0x60044000), (.lui, 0x58044000)] : List (CoreOp × Nat)), ∃ (s : State) (l : Lane) (i : Issue),
      (s.lane l).Fires i x.1 x.2 :=
    by intro x hx; exact ⟨(tst fun L => coreSet L ⟨.tc0, .agree, .ok, .ok, 0⟩ x.2), .a, ⟨.tc0, .agree, .ok, .ok, 0⟩,
      by unfold LaneState.Fires LaneState.Ready; revert x; decide +kernel⟩

/-! ## Ill-formed commands are refused -/

theorem test_ill_master : (Instr.sysTickWrite .a ⟨.le0, true⟩ 0).wellFormed = false := by decide

theorem test_ill_svc_nonsecure : (Instr.sysTickWrite .a ⟨.svc, false⟩ 0).wellFormed = false := by decide

theorem test_ill_register_high : (Instr.registerWrite .a ⟨.triad, true⟩ 0x401C0000 0).wellFormed = false := by decide

theorem test_ill_register_low : (Instr.registerWrite .a ⟨.triad, true⟩ 0x3FFFFFFC 0).wellFormed = false := by decide

theorem test_ill_register_misaligned : (Instr.blockLock .a ⟨.triad, true⟩ 0x40000002 0xC1A5).wellFormed = false := by decide

theorem test_ill_lath_request : (Instr.lathRequest .a ⟨.triad, true⟩ true 0x400DFFFC 0).wellFormed = false := by decide

theorem test_ill_pair_offset : (Instr.pairOffsetLapse .a .b .b).wellFormed = false := by decide

theorem test_ill_self_exclusion : (Instr.exclusionCauseAction .a .a 1).wellFormed = false := by decide

theorem test_ill_self_admission : (Instr.admission .a .a).wellFormed = false := by decide

theorem test_ill_self_vote_line : (Instr.voteLine .b .b).wellFormed = false := by decide

theorem test_ill_frame_length :
    (Instr.cordeeFrameReceived .a 0 (List.replicate 21 0) true 0 0).wellFormed = false := by decide

theorem test_ill_mirror_length :
    (Instr.mirrorRecordReceived .a (List.replicate 1023 0) 0 true).wellFormed = false := by decide +kernel

theorem test_ill_domain : (Instr.domainGate .a 1).wellFormed = false := by decide

theorem test_ill_wake_code : (Instr.wakeFail .a 0).wellFormed = false := by decide

theorem test_ill_lockout_role : (Instr.lockoutExpire .a 0).wellFormed = false := by decide

theorem test_ill_bist_rows :
    (Instr.bistTestComplete .a 2 true 0 0 0 (List.replicate 164 (0, 0))).wellFormed = false := by decide +kernel

theorem test_well_formed : (Instr.sysTickWrite .a ⟨.svc, true⟩ 0).wellFormed = true := by decide

/-! ## Single values

Their expected values come from the worked examples of the spec, or from the published check values of the algorithms that
the spec names. -/

/-- The published check value of CRC-32 over the ASCII digits 1 to 9. -/
theorem test_crc32 : crc32 [0x31, 0x32, 0x33, 0x34, 0x35, 0x36, 0x37, 0x38, 0x39] = 0xCBF43926 := by decide +kernel

/-- The first word of the digest of "abc" in the examples of FIPS 180-4. -/
theorem test_sha384 : (sha384 [0x61, 0x62, 0x63]).take 8 = [0xCB, 0x00, 0x75, 0x3F, 0x45, 0xA3, 0x5E, 0x8B] := by
  decide +kernel

/-- The worked example under *Alignment*: of the offsets 0, +120 and −30 the median is 0, of 0, −120 and −150 it is −120. -/
theorem test_median : median3 0 120 (-30) = 0 ∧ median3 0 (-120) (-150) = -120 := by decide

/-- The worked example under *Electrical angle*: position 4,191,730 on X0 with 32 periods and 5 pole pairs. -/
theorem test_electrical_angle :
    ((State.reset.laneA.put (R.fbCfg_periods 0) 32).put (R.fbCfg_pp 0) 5).baseAngle 0 4191730 = 0xE6DD0000 := by decide +kernel

/-- An empty queue idles, and a pending command is taken off the queue. -/
theorem test_step_takes_front :
    step { State.reset with pending := [.voteLine .a .b] } = exec (.voteLine .a .b) State.reset := rfl

/-- No word of the table spells a command. -/
theorem test_no_word : decodeTableWord 32 0 = none := rfl

/-- MOVI of −1 into g1 on TC_0: R362. -/
theorem test_movi :
    (match exec (.movi .a ⟨.tc0, .agree, .ok, .ok, 0⟩) (tst fun L => coreSet L ⟨.tc0, .agree, .ok, .ok, 0⟩ 0x6007FFFF) with
      | .next t => ((t.laneA.core .tc0).gr 1, (t.laneA.core .tc0).pc)
      | _ => (0, 0)) = (0xFFFFFFFF, 0x10000004) := by decide +kernel

end
end

section
namespace Sys2Proof.Machine

/-- A frame put on a wire leaves the queue, the draws and every lane. -/
@[simp] theorem State.pending_setFlight (s : State) (x y : Lane) (ms : List RopeMsg) :
    (s.setFlight x y ms).pending = s.pending := by cases x <;> cases y <;> rfl

@[simp] theorem State.draws_setFlight (s : State) (x y : Lane) (ms : List RopeMsg) :
    (s.setFlight x y ms).draws = s.draws := by cases x <;> cases y <;> rfl

/-- What a command of lane `l` may make of a state: the queue stays, no free value is drawn twice, the other lanes are
unchanged, and frames in flight that their senders can send stay such frames. -/
structure State.Reaches (l : Lane) (s t : State) : Prop where
  pending : t.pending = s.pending
  draws : s.draws ≤ t.draws
  others : ∀ m, m ≠ l → t.lane m = s.lane m
  links : s.LinksLegal → t.LinksLegal

theorem State.Reaches.refl (l : Lane) (s : State) : s.Reaches l s :=
  ⟨rfl, Nat.le_refl _, fun _ _ => rfl, id⟩

theorem State.Reaches.trans {l : Lane} {s t u : State} (h : s.Reaches l t) (k : t.Reaches l u) : s.Reaches l u :=
  ⟨k.pending.trans h.pending, h.draws.trans k.draws, fun m hm => (k.others m hm).trans (h.others m hm),
    fun hs => k.links (h.links hs)⟩

/-- A change of the lane itself. -/
theorem State.Reaches.setLane (l : Lane) (s : State) (M : LaneState) : s.Reaches l (s.setLane l M) where
  pending := s.setLane_pending l M
  draws := by simp
  others m hm := by simp [hm]
  links hs x y m hm := hs x y m (by simpa using hm)

/-- Free values drawn beside a change. -/
theorem State.Reaches.draw {l : Lane} {s t : State} (h : s.Reaches l t) {n : Nat} (hn : s.draws ≤ n) :
    s.Reaches l { t with draws := n } :=
  ⟨h.pending, hn, fun m hm => by
    have := h.others m hm
    cases m <;> exact this, fun hs x y => by
    have := h.links hs x y
    cases x <;> cases y <;> exact this⟩

/-- A wire replaced by one on which every frame is legal for its sender. -/
theorem State.Reaches.setFlight (l : Lane) (s : State) (x y : Lane) (ms : List RopeMsg)
    (h : s.LinksLegal → ∀ m ∈ ms, m.legal x = true) : s.Reaches l (s.setFlight x y ms) where
  pending := s.pending_setFlight x y ms
  draws := by simp
  others m _ := s.lane_setFlight x y m ms
  links hs u v m hm := by
    rw [State.flight_setFlight] at hm
    split at hm
    · rename_i e
      exact e.1 ▸ h hs m hm
    · exact hs u v m hm

/-- The next frame taken off a wire. -/
theorem State.Reaches.take (l : Lane) (s : State) {x y : Lane} {m : RopeMsg} {rest : List RopeMsg}
    (h : s.arriving x y = m :: rest) : s.Reaches l (s.setFlight x y rest) := by
  refine State.Reaches.setFlight l s x y rest (fun hs n hn => hs x y n ?_)
  have hn : n ∈ s.arriving x y := by rw [h]; exact List.mem_cons_of_mem m hn
  exact (List.dropWhile_sublist _).mem hn

/-- A frame sent: only a legal one goes on the wire. -/
theorem State.Reaches.send (l : Lane) (s : State) (x : Lane) (k : Link) (m : RopeMsg) : s.Reaches l (s.send x k m) := by
  unfold State.send
  split
  · next hm =>
    refine State.Reaches.setFlight l s _ _ _ (fun hs n hn => ?_)
    rcases List.mem_append.1 hn with hn | hn
    · exact hs _ _ n hn
    · rwa [List.mem_singleton.1 hn]
  · exact .refl l s

theorem State.Reaches.sendTime (s : State) (l : Lane) (k : Link) (stamp : BitVec 64) :
    s.Reaches l (s.sendTime l k stamp) := by
  unfold State.sendTime
  dsimp only
  split
  · exact (State.Reaches.setLane l s _).trans (.send ..)
  · exact .refl l s

theorem State.Reaches.sendReport (s : State) (l : Lane) (k : Link) : s.Reaches l (s.sendReport l k) := by
  unfold State.sendReport
  split
  · split
    · exact .send ..
    · exact .refl l s
  · exact .refl l s

/-- A command completes and reaches only its lane. -/
def Completes (l : Lane) (s : State) (o : Out) : Prop := ∃ t, o = .next t ∧ s.Reaches l t

theorem Completes.next {l : Lane} {s t : State} (h : s.Reaches l t) : Completes l s (.next t) := ⟨t, rfl, h⟩

theorem Completes.stay (l : Lane) (s : State) : Completes l s (.next s) := .next (.refl l s)

/-- A frame is taken off a link and the lane changes. -/
theorem Completes.receive (s : State) (l : Lane) {x y : Lane} {m : RopeMsg} {rest : List RopeMsg}
    (h : s.arriving x y = m :: rest) (f : LaneState → LaneState) :
    Completes l s (Machine.onLane (s.setFlight x y rest) l f) :=
  .next ((State.Reaches.take l s h).trans (.setLane l _ _))

theorem Completes.receiveBlock (l : Lane) (k : Link) (crcOk : Bool) (s : State) (p : BlockKind → Bool)
    (f : Lane → Nat → List Word → LaneState → LaneState) : Completes l s (receiveBlock l k crcOk s p f) := by
  unfold Machine.receiveBlock
  dsimp only
  split
  · next h =>
    split
    · exact .receive s l h _
    · exact .stay l s
  · exact .stay l s

/-! ### The rows that take a frame off a link, put one on, or draw more than one free value -/

theorem execTimeFrameReceived_completes (l : Lane) (k : Link) (t : BitVec 64) (ok : Bool) (s : State) :
    Completes l s (execTimeFrameReceived l k t ok s) := by
  unfold execTimeFrameReceived
  split
  · next h => exact .receive s l h _
  · exact .stay l s

theorem execTimeReportReceived_completes (l : Lane) (k : Link) (ok : Bool) (s : State) :
    Completes l s (execTimeReportReceived l k ok s) := by
  unfold execTimeReportReceived
  split
  · next h => exact .receive s l h _
  · exact .stay l s

theorem execTickParamReceived_completes (l : Lane) (k : Link) (ok : Bool) (s : State) :
    Completes l s (execTickParamReceived l k ok s) := by
  unfold execTickParamReceived
  split
  · next h => exact .receive s l h _
  · exact .stay l s

theorem execRejoinTransferReceived_completes (l : Lane) (k : Link) (ok : Bool) (s : State) :
    Completes l s (execRejoinTransferReceived l k ok s) := by
  unfold execRejoinTransferReceived
  split
  · next h => exact .receive s l h _
  · exact .stay l s

theorem execRelayReceived_completes (l : Lane) (k : Link) (ok : Bool) (now : BitVec 64) (s : State) :
    Completes l s (execRelayReceived l k ok now s) := by
  unfold execRelayReceived
  split
  · next h => exact .receive s l h _
  · exact .stay l s

theorem execRopeBlockReceived_completes (l : Lane) (k : Link) (ok : Bool) (s : State) :
    Completes l s (execRopeBlockReceived l k ok s) := .receiveBlock ..

theorem execShareRecordReceived_completes (l : Lane) (k : Link) (ok : Bool) (at5 : Nat) (s : State) :
    Completes l s (execShareRecordReceived l k ok at5 s) := .receiveBlock ..

theorem execBelayRecordReceived_completes (l : Lane) (k : Link) (ok : Bool) (s : State) :
    Completes l s (execBelayRecordReceived l k ok s) := .receiveBlock ..

theorem execSiuRecordReceived_completes (l : Lane) (k : Link) (ok : Bool) (s : State) :
    Completes l s (execSiuRecordReceived l k ok s) := .receiveBlock ..

theorem execRopeBlockSend_completes (l : Lane) (k : Link) (s : State) : Completes l s (execRopeBlockSend l k s) := by
  unfold execRopeBlockSend
  dsimp only
  split
  · split
    · exact .next ((State.Reaches.setLane l s _).trans (.send ..))
    · exact .stay l s
  · exact .stay l s

theorem execIdleFrameSend_completes (l : Lane) (k : Link) (s : State) : Completes l s (execIdleFrameSend l k s) := by
  unfold execIdleFrameSend
  split
  · exact .next (.send ..)
  · exact .stay l s

theorem execNvmcOpComplete_completes (l : Lane) (ok : Bool) (s : State) :
    Completes l s (execNvmcOpComplete l ok s) := by
  unfold execNvmcOpComplete
  dsimp only
  split
  · exact .stay l s
  · exact .next ((State.Reaches.setLane l s _).draw (Nat.le_add_right _ _))

theorem execLcsOpComplete_completes (l : Lane) (s : State) : Completes l s (execLcsOpComplete l s) := by
  unfold execLcsOpComplete
  split
  · exact .stay l s
  · exact .next ((State.Reaches.setLane l s _).draw (Nat.le_add_right _ _))

/-- Every command completes and reaches only its own lane. All rows but those that use the wires, or draw free values,
change their lane alone. -/
theorem exec_completes (c : Instr) (s : State) : Completes c.lane s (exec c s) := by
  cases c
  case timeFrameSend l t0 t1 => exact .next ((State.Reaches.sendTime s l .l0 t0).trans (.sendTime _ l .l1 t1))
  case timeReportSend l => exact .next ((State.Reaches.sendReport s l .l0).trans (.sendReport _ l .l1))
  case timeFrameReceived => exact execTimeFrameReceived_completes ..
  case timeReportReceived => exact execTimeReportReceived_completes ..
  case tickParamReceived => exact execTickParamReceived_completes ..
  case rejoinTransferReceived => exact execRejoinTransferReceived_completes ..
  case relayReceived => exact execRelayReceived_completes ..
  case ropeBlockReceived => exact execRopeBlockReceived_completes ..
  case shareRecordReceived => exact execShareRecordReceived_completes ..
  case belayRecordReceived => exact execBelayRecordReceived_completes ..
  case siuRecordReceived => exact execSiuRecordReceived_completes ..
  case ropeBlockSend => exact execRopeBlockSend_completes ..
  case idleFrameSend => exact execIdleFrameSend_completes ..
  case nvmcOpComplete => exact execNvmcOpComplete_completes ..
  case lcsOpComplete => exact execLcsOpComplete_completes ..
  case refx l j uv => exact .next ((State.Reaches.setLane l s _).draw (Nat.le_succ _))
  case speedWindowEnd l _ => exact .next ((State.Reaches.setLane l s _).draw (Nat.le_succ _))
  case secOpComplete l => exact .next ((State.Reaches.setLane l s _).draw (Nat.le_succ _))
  all_goals exact Completes.next (State.Reaches.setLane _ s _)

end Sys2Proof.Machine

open Sys2Proof Sys2Proof.Machine

/-- Settles O2: what a command completes with is what it reaches. -/
theorem everyCommandCompletes : Obligations.EveryCommandCompletes := by
  intro c s
  obtain ⟨t, he, h⟩ := exec_completes c s
  exact ⟨t, he, h.pending, h.draws, h.others⟩

/-- Settles O3: the front command keeps the wires legal, and an idle step changes nothing. -/
theorem linksKept : Obligations.LinksKept := by
  intro s t hs hst
  unfold step at hst
  split at hst
  · next c rest _ =>
    obtain ⟨u, he, h⟩ := exec_completes c { s with pending := rest }
    rw [he, Host.Outcome.next.injEq] at hst
    exact hst ▸ h.links hs
  · rw [Host.Outcome.next.injEq] at hst
    exact hst ▸ hs

end

section
/-! SUPPORT. Reading a field after writes of others: the writes of registers that the lane and link commands make. -/

namespace Sys2Proof.Machine

variable (L : LaneState)

/-- A field that shares no bit with a written one reads as before. -/
theorem LaneState.get_put_apart (f g : RF) (v : Nat) (h : f.lo ≤ f.hi ∧ f.hi ≤ 31)
    (hd : g.addr ≠ f.addr ∨ f.hi < g.lo ∨ g.hi < f.lo) : (L.put f v).get g = L.get g := by
  by_cases ha : g.addr = f.addr
  · exact L.get_put_disj f g v ha h.1 h.2 (hd.resolve_left (absurd ha))
  · exact L.get_put_ne f g v ha

theorem LaneState.get_flagIf_apart (b : Bool) (f g : RF) (h : f.lo ≤ f.hi ∧ f.hi ≤ 31)
    (hd : g.addr ≠ f.addr ∨ f.hi < g.lo ∨ g.hi < f.lo) : (L.flagIf b f).get g = L.get g := by
  unfold LaneState.flagIf
  split
  · exact L.get_put_apart f g 1 h hd
  · rfl

/-- A trouble flag that has been set reads set. -/
theorem LaneState.is_flag (f : RF) (h : f.lo ≤ f.hi) (hh : f.hi ≤ 31) : (L.flag f).is f = true := by
  rw [LaneState.flag_def, ← b2n_true, ← LaneState.setF_def]
  exact L.is_setF f true h hh

/-- A command of one lane, once it is known what becomes of the lane. -/
theorem next_setLane (s : State) (l : Lane) {M N : LaneState} (h : M = N) :
    (.next (s.setLane l M) : Out) = .next (s.setLane l N) := by rw [h]

/-- A signed field reads as the signed number written there, where the number fits. -/
theorem sext_wrapTo {w : Nat} (hw : 0 < w) {i : Int} (hlo : -(2 ^ (w - 1) : Nat) ≤ i) (hhi : i < (2 ^ (w - 1) : Nat)) :
    sext w (wrapTo w i) = i := by
  obtain ⟨k, rfl⟩ : ∃ k, w = k + 1 := ⟨w - 1, by omega⟩
  have hp : 0 < 2 ^ k := by positivity
  have h2 : 2 ^ (k + 1) = 2 * 2 ^ k := pow_succ' 2 k
  simp only [Nat.add_sub_cancel] at hlo hhi
  have hm := Nat.mod_eq_of_lt (wrapTo_lt (k + 1) i)
  have hc : (wrapTo (k + 1) i : Int) = i % (2 ^ (k + 1) : Nat) :=
    Int.toNat_of_nonneg (Int.emod_nonneg i (by positivity))
  unfold sext
  rw [hm, Nat.add_sub_cancel]
  have h2i : ((2 ^ (k + 1) : Nat) : Int) = 2 * (2 ^ k : Nat) := by rw [h2]; norm_cast
  have h2j : (2 ^ (k + 1) : Int) = 2 * (2 ^ k : Nat) := by push_cast; ring
  rw [h2j]
  rw [h2i] at hc
  generalize 2 ^ k = q at *
  by_cases hi : 0 ≤ i
  · rw [Int.emod_eq_of_lt hi (by omega)] at hc
    rw [if_pos (by omega), hc]
  · rw [← Int.add_emod_right, Int.emod_eq_of_lt (by omega) (by omega)] at hc
    rw [if_neg (by omega), hc]
    omega

theorem LaneState.getS_putS (f : RF) (i : Int) (h : f.lo ≤ f.hi) (hh : f.hi ≤ 31)
    (hlo : -(2 ^ (f.hi - f.lo) : Nat) ≤ i) (hhi : i < (2 ^ (f.hi - f.lo) : Nat)) : (L.putS f i).getS f = i := by
  have e : f.hi + 1 - f.lo - 1 = f.hi - f.lo := by omega
  rw [LaneState.getS, LaneState.putS_def, L.get_put_same f _ h hh, wrapTo_mod i (Nat.le_refl _)]
  exact sext_wrapTo (by omega) (by rwa [e]) (by rwa [e])

end Sys2Proof.Machine
end

section
/-! SUPPORT. Skim (R53 to R56, R67): what falls due, what a run of a job leaves, what SKIM_CTL sets. -/

namespace Sys2Proof.Machine

/-! ## Jobs that fall due -/

/-- An enabled job of a table in use, with a period that has elapsed (R53). -/
structure LaneState.JobElapses (L : LaneState) (j : Nat) : Prop where
  table : L.is R.skimCtl_en = true
  enabled : L.is (R.skimJobCfg_en j) = true
  kind : L.jobKind j ≠ 0
  periodic : L.get (R.skimJobCfg_period j) ≠ 0
  elapsed : L.get (R.skimJobCfg_period j) ≤ L.skim.since.get j

/-- The lane with the period of a job begun anew. -/
def LaneState.periodAnew (L : LaneState) (j : Nat) : LaneState :=
  { L with skim := { L.skim with since := L.skim.since.set j 0 } }

theorem Kept.periodAnew {F : Footprint} (L : LaneState) (j : Nat) (hp : .skim ∈ F.parts) :
    Kept F L (L.periodAnew j) := (Kept.refl F L).with_skim _ hp

/-- What a job does whose period has elapsed: it is not run in a gated domain, not queued twice, else due. -/
theorem exec_skimJobDue {s : State} {l : Lane} {j : Fin 16} (h : (s.lane l).JobElapses j) :
    exec (.skimJobDue l j) s = .next (s.setLane l
      (let L := (s.lane l).periodAnew j
       if !(s.lane l).domainOn ((s.lane l).jobDomain j) then L.put (R.skimJobLast_status j) 3
       else if j.val ∈ (s.lane l).skim.due then L.flag R.skimStat_overrun
       else { L with skim := { L.skim with due := addTo j.val L.skim.due } })) := by
  obtain ⟨h1, h2, h3, h4, h5⟩ := h
  exact next_setLane s l (LaneState.when_true _ _ (by simp [h1, h2, h3, h4, h5]))

/-! ## The end of a run -/

variable (L : LaneState) (j status value : Nat)

theorem Kept.skimEnd {F : Footprint} {M : LaneState} (h : Kept F L M) (hp : .skim ∈ F.parts)
    (hr : ∀ a ∈ [R.skimJobLast j, R.skimJobCnt j, R.skimStat], a ∈ F.regs) : Kept F L (M.skimEnd j status value) := by
  have hl : R.skimJobLast j ∈ F.regs := hr _ (by simp)
  have hc : R.skimJobCnt j ∈ F.regs := hr _ (by simp)
  have hs : R.skimStat ∈ F.regs := hr _ (by simp)
  exact ((((((h.put _ hl).put _ hl).count _ hc).flagIf _ hs).put _ hs).setF _ hs).with_skim _ hp

/-- After a run the last status and value of the job stand in its register. -/
theorem LaneState.skimEnd_last : (L.skimEnd j status value).reg (R.skimJobLast j) =
    ((L.put (R.skimJobLast_status j) status).put (R.skimJobLast_value j) value).reg (R.skimJobLast j) := by
  have hs : R.skimJobLast j ≠ R.skimStat := by simp only [R.skimJobLast, R.skimStat]; omega
  have hc : R.skimJobLast j ≠ R.skimJobCnt j := by simp only [R.skimJobLast, R.skimJobCnt]; omega
  let G : Footprint := { parts := [.skim], regs := [R.skimJobCnt j, R.skimStat] }
  have k := Kept.refl G ((L.put (R.skimJobLast_status j) status).put (R.skimJobLast_value j) value)
  exact (((((k.count 1 (f := R.skimJobCnt_runs j) (by simp [G, R.skimJobCnt_runs])).flagIf (status == 1)
    (f := R.skimStat_job_fail) (by simp [G, R.skimStat_job_fail])).put j (f := R.skimStat_job)
    (by simp [G, R.skimStat_job])).setF false (f := R.skimStat_busy) (by simp [G, R.skimStat_busy])).with_skim _
    (by simp [G])).2.1 _ (by simp [G, hs, hc])

theorem LaneState.skimEnd_value : (L.skimEnd j status value).get (R.skimJobLast_value j) = value % 2 ^ 24 := by
  have := (L.put (R.skimJobLast_status j) status).get_put_same (R.skimJobLast_value j) value
    (by simp [R.skimJobLast_value]) (by simp [R.skimJobLast_value])
  rw [LaneState.get] at this ⊢
  exact (congrArg (fun w : Word => bits w.toNat _ _) (L.skimEnd_last j status value)).trans this

theorem LaneState.skimEnd_status : (L.skimEnd j status value).get (R.skimJobLast_status j) = status % 2 ^ 8 := by
  have h1 := (L.put (R.skimJobLast_status j) status).get_put_apart (R.skimJobLast_value j) (R.skimJobLast_status j) value
    (by simp [R.skimJobLast_value]) (by simp [R.skimJobLast_value, R.skimJobLast_status])
  have h2 := L.get_put_same (R.skimJobLast_status j) status (by simp [R.skimJobLast_status])
    (by simp [R.skimJobLast_status])
  refine Eq.trans ?_ (h1.trans h2)
  exact congrArg (fun w : Word => bits w.toNat _ _) (L.skimEnd_last j status value)

theorem LaneState.skimEnd_busy : (L.skimEnd j status value).is R.skimStat_busy = false :=
  LaneState.is_setF _ R.skimStat_busy false (by decide) (by decide)

/-- ADCZERO ends with the signed offset of the zero reference; before the end only SKIM_STAT and ADC_ZSTAT change (R67). -/
theorem exec_adczero {s : State} {l : Lane} {j : Fin 16} (code : BitVec 14) (h : (s.lane l).skimNext j = true)
    (hk : (s.lane l).jobKind j = jkAdczero) : ∃ N,
    exec (.adczero l j code) s = .next (s.setLane l (N.skimEnd j
      (b2n (decide ((s.lane l).get R.adcZlim_lim < ((code.toNat : Int) - 8192).natAbs)))
      (wrapTo 24 ((code.toNat : Int) - 8192)))) ∧
    Kept { regs := [R.skimStat, R.adcZstat] } (s.lane l) N := by
  rw [← LaneState.get_put_ne (s.lane l) R.skimStat_job R.adcZlim_lim j (by decide)]
  refine ⟨_, next_setLane s l (LaneState.when_true _ _ (by simp [h, hk])), ?_⟩
  have k := (Kept.refl { regs := [R.skimStat, R.adcZstat] } (s.lane l)).put (f := R.skimStat_job) j
    (by simp [R.skimStat_job])
  exact Kept.ite (fun _ => k.setBit _ _ (by simp [R.adcZstat_zfail])) (fun _ => k)

/-! ## SKIM_CTL -/

/-- The bits of the word of SKIM_CTL. -/
theorem bit_skimCtlWord (en hold clr : Bool) : bit (skimCtlWord en hold clr).toNat 8 = clr := by
  cases en <;> cases hold <;> cases clr <;> rfl

/-- A write of SKIM_CTL sets its bits en and hold. -/
theorem LaneState.wSkimCtl_bits (en hold clr : Bool) :
    (L.wSkimCtl (skimCtlWord en hold clr)).is R.skimCtl_en = en ∧
    (L.wSkimCtl (skimCtlWord en hold clr)).is R.skimCtl_hold = hold := by
  have e0 : bits (skimCtlWord en hold clr).toNat 0 0 = b2n en := by cases en <;> cases hold <;> cases clr <;> rfl
  have e1 : bits (skimCtlWord en hold clr).toNat 1 1 = b2n hold := by cases en <;> cases hold <;> cases clr <;> rfl
  have hc : ∀ (N : LaneState), (∀ f : RF, f.addr = R.skimCtl →
      ((List.range 16).foldl (fun M j => M.setReg (R.skimJobCnt j) 0) N).is f = N.is f) := fun N f hf =>
    foldl_range_obs N (fun M => M.is f) _ 16 (fun x hx M => by
      simp only [LaneState.is, LaneState.get_setReg, hf]
      rw [if_neg (by simp only [R.skimCtl, R.skimJobCnt]; omega)])
  have hw : ∀ f : RF, f.addr = R.skimCtl → (L.wSkimCtl (skimCtlWord en hold clr)).is f =
      ((L.setF R.skimCtl_en en).setF R.skimCtl_hold hold).is f := fun f hf => by
    unfold LaneState.wSkimCtl
    rw [e0, e1]
    dsimp only
    split
    · exact hc _ f hf
    · rfl
  constructor
  · rw [hw _ rfl, LaneState.is, LaneState.setF_def, LaneState.get_put_apart _ _ _ _ (by decide) (by decide)]
    exact L.is_setF _ en (by decide) (by decide)
  · rw [hw _ rfl]
    exact LaneState.is_setF _ _ hold (by decide) (by decide)

theorem Kept.wSkimCtl {F : Footprint} (w : Word) (h : R.skimCtl ∈ F.regs)
    (hc : bit w.toNat 8 = true → ∀ j, j < 16 → R.skimJobCnt j ∈ F.regs) : Kept F L (L.wSkimCtl w) := by
  have k := ((Kept.refl F L).put (f := R.skimCtl_en) (bits w.toNat 0 0) h).put (f := R.skimCtl_hold) (bits w.toNat 1 1) h
  exact Kept.ite (fun hb => Kept.foldl k (fun j hj N hN => hN.setReg 0 (hc hb j (List.mem_range.1 hj)))) (fun _ => k)

/-- A write of SKIM_CTL with clr_cnt sets every job count to 0. -/
theorem LaneState.wSkimCtl_clr {w : Word} (h : bit w.toNat 8 = true) (j : Fin 16) :
    (L.wSkimCtl w).reg (R.skimJobCnt j) = 0 := by
  unfold LaneState.wSkimCtl
  simp only [h, if_true]
  rw [foldl_setReg, if_pos ⟨j, List.mem_range.2 j.isLt, rfl⟩]

end Sys2Proof.Machine

open Sys2Proof Sys2Proof.Machine

/-- Settles O7, clause by clause: the three answers to a period that elapses, a preempted step, the end of ADCZERO, and
the three commands of SKIM_CTL. -/
theorem skimTable : Obligations.SkimTable := by
  refine ⟨?_, ?_, ?_, ?_, ?_, ?_, ?_, ?_⟩
  · intro s l j h1 h2 h3 h4 h5 hdue hon
    refine ⟨_, exec_skimJobDue ⟨h1, h2, h3, h4, h5⟩, ?_, ?_⟩ <;> simp only [hon, hdue, Bool.not_true, if_false]
    · exact (Kept.periodAnew _ _ (by simp)).with_skim _ (by simp)
    · simp only [addTo, LaneState.periodAnew, hdue, if_false]
      rfl
  · intro s l j h1 h2 h3 h4 h5 hoff
    refine ⟨_, exec_skimJobDue ⟨h1, h2, h3, h4, h5⟩, ?_, ?_⟩ <;> simp only [hoff, Bool.not_false, if_true]
    · exact (Kept.periodAnew _ _ (by simp)).put _ (by simp [R.skimJobLast_status])
    · exact ⟨LaneState.get_put_same _ _ _ (by simp [R.skimJobLast_status]) (by simp [R.skimJobLast_status]), rfl⟩
  · intro s l j h1 h2 h3 h4 h5 hdue hon
    refine ⟨_, exec_skimJobDue ⟨h1, h2, h3, h4, h5⟩, ?_, ?_⟩ <;>
      simp only [hon, hdue, Bool.not_true, if_true, Bool.false_eq_true, if_false]
    · exact (Kept.periodAnew _ _ (by simp)).flag (by simp [R.skimStat_overrun])
    · exact ⟨LaneState.is_flag _ _ (by decide) (by decide), by simp only [LaneState.flag_def, LaneState.put_skim]; rfl⟩
  · intro s l j h
    have e : exec (.skimStepPreempt l j) s = .next (s.setLane l
        (((s.lane l).put R.skimStat_job j).count (R.skimJobCnt_preempt j))) :=
      next_setLane s l (LaneState.when_true _ _ h)
    refine ⟨_, e, ?_, ?_, ?_⟩
    · exact ((Kept.refl _ _).put _ (by simp [R.skimStat_job])).count _ (by simp [R.skimJobCnt_preempt])
    · have hne : (R.skimJobCnt_preempt j).addr ≠ R.skimStat_job.addr := by
        simp only [R.skimJobCnt_preempt, R.skimJobCnt, R.skimStat_job, R.skimStat]; omega
      rw [LaneState.count_def, LaneState.get_put_same _ _ _ (by simp [R.skimJobCnt_preempt])
        (by simp [R.skimJobCnt_preempt]), LaneState.get_put_ne _ _ _ _ hne]
      exact satU_mod _ (by simp [R.skimJobCnt_preempt])
    · have hne : R.skimStat_job.addr ≠ (R.skimJobCnt_preempt j).addr := by
        simp only [R.skimJobCnt_preempt, R.skimJobCnt, R.skimStat_job, R.skimStat]; omega
      rw [LaneState.count_def, LaneState.get_put_ne _ _ _ _ hne, LaneState.get_put_same _ _ _ (by decide) (by decide)]
      exact Nat.mod_eq_of_lt j.isLt
  · intro s l j code h hk
    obtain ⟨N, e, k⟩ := exec_adczero code h hk
    refine ⟨_, e, ?_, ?_, ?_, rfl, ?_, ?_⟩
    · exact Kept.skimEnd _ _ _ _ (k.mono ⟨by simp, by simp, by simp, by simp⟩) (by simp) (by simp)
    · rw [LaneState.skimEnd_value, wrapTo_mod _ (Nat.le_refl _)]
    · rw [LaneState.skimEnd_status, b2n_mod _ (by decide)]
      rfl
    · exact fun hm => ((mem_dropFrom _ _ _).1 hm).2 rfl
    · exact LaneState.skimEnd_busy ..
  · intro s l q en h
    refine ⟨_, next_setLane s l (LaneState.guardW_ok _ _ h), ?_, ?_⟩
    · exact Kept.wSkimCtl _ _ (by simp) (fun hb => absurd hb (by simp [bit_skimCtlWord]))
    · exact LaneState.wSkimCtl_bits _ _ _ _
  · intro s l q hold h
    refine ⟨_, next_setLane s l (LaneState.guardW_ok _ _ h), ?_, ?_⟩
    · exact Kept.wSkimCtl _ _ (by simp) (fun hb => absurd hb (by simp [bit_skimCtlWord]))
    · exact (LaneState.wSkimCtl_bits _ _ _ _).symm
  · intro s l q h
    refine ⟨_, next_setLane s l (LaneState.guardW_ok _ _ h), ?_, ?_, ?_⟩
    · exact Kept.wSkimCtl _ _ (by simp) (fun _ j hj => List.mem_cons_of_mem _ (List.mem_map_of_mem (List.mem_range.2 hj)))
    · exact LaneState.wSkimCtl_clr _ (by simp [bit_skimCtlWord])
    · exact LaneState.wSkimCtl_bits _ _ _ _

end

section
/-! SUPPORT. Rope (R51, R321, R322): what a link that goes down or up leaves, and what an arriving block leaves. -/

namespace Sys2Proof.Machine

variable (L : LaneState)

/-! ## Sending -/

theorem State.setFlight_setLane (s : State) (l x y : Lane) (M : LaneState) (ms : List RopeMsg) :
    (s.setLane l M).setFlight x y ms = (s.setFlight x y ms).setLane l M := by
  cases l <;> cases x <;> cases y <;> rfl

/-- A legal frame goes on the wire behind those in flight. -/
theorem State.send_legal (s : State) {x : Lane} (k : Link) {m : RopeMsg} (h : m.legal x = true) :
    s.send x k m = s.setFlight x (x.peer k) (s.flight x (x.peer k) ++ [m]) := if_pos h

/-! ## The health of a link -/

/-- The event bit of a link that was classified as lost. -/
def flinkF : Link → RF
  | .l0 => R.ropeStat0_flink_evt
  | .l1 => R.ropeStat1_flink_evt

/-- The classification of a link that is down leaves the lane, or sets the link's own event and does what an exclusion may
do. -/
theorem LaneState.classifyLink_cases (k : Link) :
    L.classifyLink k = L ∨ Kept Foot.excl (L.flag (flinkF k)) (L.classifyLink k) := by
  have hx : Foot.excl.Has Foot.excl := Footprint.Has.refl _
  have hp : Part.belaySt ∈ Foot.excl.parts := Foot.excl_belay.1 _ Foot.belay_mem
  have c := (Kept.refl Foot.excl (L.flag (flinkF k))).mapB (fun B => { B with linkClass := B.linkClass.set k.idx 1 }) hp
  by_cases h : (L.linkUp k || L.belaySt.linkClass.get k.idx == 1 ||
    !(L.voteIn (L.id.peer k) == voteFor || L.voteIn (L.id.peer k) == voteAgainst)) = true
  · exact .inl (if_pos h)
  · right
    cases k
    all_goals
      refine Kept.if_neg h (Kept.ite (fun _ => Kept.ite (fun _ => ?_) (fun _ => ?_))
        (fun _ => Kept.ite (fun _ => ?_) (fun _ => c)))
      · exact (c.raiseOwn _ hp Foot.excl_stat).selfExclude _ hx
      · exact c.decideAgainst _ _ hx
      · exact c.enterBlind hx

/-- The classification of a link leaves its up bit and its queue. -/
theorem LaneState.classifyLink_link (k : Link) :
    (L.classifyLink k).linkUp k = L.linkUp k ∧ (L.classifyLink k).link k = L.link k := by
  rcases L.classifyLink_cases k with h | h
  · rw [h]; exact ⟨rfl, rfl⟩
  · have hp : Part.link k ∉ Foot.excl.parts := by cases k <;> decide
    have hr : (linkUpF k).addr ∉ Foot.excl.regs := by cases k <;> decide
    refine ⟨?_, ?_⟩
    · rw [LaneState.linkUp, LaneState.is, h.get _ hr, LaneState.flag_def, LaneState.get_put_apart]
      · rfl
      · cases k <;> decide
      · cases k <;> decide
    · have := h.1 _ hp
      simpa [Part.same, LaneState.flag_def] using this

/-- The views of the peers stay within BELAY_STATE, its mirrors and what the Belay keeps. -/
def Foot.views : Footprint := { parts := [.belaySt], regs := [R.belayState], sigs := [0x38000, 0x38001] }

theorem LaneState.refreshViews_kept : Kept Foot.views L L.refreshViews :=
  (Kept.refl _ L).refreshViews (by simp [Foot.views]) (by simp [Foot.views]) (by simp [Foot.views]) (by simp [Foot.views])

theorem LaneState.refreshViews_link (k : Link) :
    L.refreshViews.linkUp k = L.linkUp k ∧ L.refreshViews.link k = L.link k :=
  ⟨congrArg (fun n : Nat => n != 0) (L.refreshViews_kept.get (linkUpF k) (by cases k <;> decide)),
    L.refreshViews_kept.1 (.link k) (by cases k <;> decide)⟩

/-- A link as it is declared down: its queue dropped, its up bit clear, the event set and counted (R322). -/
def LaneState.linkDropped (k : Link) : LaneState :=
  let L := L.mapLink k (fun K => { K with waiting := [], cleanRun := 0, ownTx := none, ownRx := none })
  match k with
  | .l0 => ((L.setF R.ropeStat0_up false).flag R.ropeStat0_down_evt).count R.ropeCnt0_down
  | .l1 => ((L.setF R.ropeStat1_up false).flag R.ropeStat1_down_evt).count R.ropeCnt1_down

theorem Kept.linkDropped {F : Footprint} (k : Link) (hp : .link k ∈ F.parts)
    (hr : ∀ a ∈ [R.ropeStat0, R.ropeStat1, R.ropeCnt0, R.ropeCnt1], a ∈ F.regs) : Kept F L (L.linkDropped k) := by
  have h := (Kept.refl F L).mapLink (fun K => { K with waiting := [], cleanRun := 0, ownTx := none, ownRx := none }) hp
  cases k
  · exact ((h.setF _ (hr _ (by simp [R.ropeStat0_up]))).flag (hr _ (by simp [R.ropeStat0_down_evt]))).count 1
      (hr _ (by simp [R.ropeCnt0_down]))
  · exact ((h.setF _ (hr _ (by simp [R.ropeStat1_up]))).flag (hr _ (by simp [R.ropeStat1_down_evt]))).count 1
      (hr _ (by simp [R.ropeCnt1_down]))

theorem LaneState.linkDropped_link (k : Link) :
    (L.linkDropped k).linkUp k = false ∧ ((L.linkDropped k).link k).waiting = [] := by
  have up : ∀ (f g c : RF) (N : LaneState), f.lo ≤ f.hi ∧ f.hi ≤ 31 → g.lo ≤ g.hi ∧ g.hi ≤ 31 → g.hi < f.lo ∨ f.hi < g.lo →
      f.addr ≠ c.addr → (((N.setF f false).flag g).count c).is f = false := fun f g c N hf hg hd hc => by
    rw [LaneState.is, LaneState.count_def, LaneState.get_put_ne _ _ _ _ hc, LaneState.flag_def,
      LaneState.get_put_apart _ _ _ _ hg (.inr hd)]
    exact N.is_setF f false hf.1 hf.2
  cases k
  · exact ⟨up _ _ _ _ (by decide) (by decide) (by decide) (by decide), rfl⟩
  · exact ⟨up _ _ _ _ (by decide) (by decide) (by decide) (by decide), rfl⟩

/-- A link that is up and silent, or with too many errors, is declared down (R322). -/
theorem exec_ropeLinkDown {s : State} {l : Lane} {k : Link} {silent : Bool} (hu : (s.lane l).linkUp k = true)
    (h : silent = true ∨ (s.lane l).ropeErrLim < ((s.lane l).link k).errs) :
    Does s (.ropeLinkDown l k silent)
      (Foot.excl.add { parts := [.link k], regs := [R.ropeStat0, R.ropeStat1, R.ropeCnt0, R.ropeCnt1] }) fun _ M =>
      M.linkUp k = false ∧ (M.link k).waiting = [] := by
  have e : exec (.ropeLinkDown l k silent) s =
      .next (s.setLane l (((s.lane l).linkDropped k).refreshViews.classifyLink k)) := by
    cases k <;> exact next_setLane s l (LaneState.when_true _ _ (by simp [hu, h]))
  generalize hF : Foot.excl.add { parts := [.link k], regs := [R.ropeStat0, R.ropeStat1, R.ropeCnt0, R.ropeCnt1] } = F
  have hx : F.Has Foot.excl := hF ▸ Footprint.has_left _ _
  have hk : F.Has { parts := [.link k], regs := [R.ropeStat0, R.ropeStat1, R.ropeCnt0, R.ropeCnt1] } :=
    hF ▸ Footprint.has_right _ _
  have hb := hx.trans Foot.excl_belay
  refine ⟨_, e, ?_, ?_, ?_⟩
  · exact ((Kept.linkDropped _ k (hk.1 _ (by simp)) hk.2.1).refreshViews (hb.2.1 _ Foot.belay_state)
      (hb.1 _ Foot.belay_mem) (hb.2.2.1 _ Foot.belay_m0) (hb.2.2.1 _ Foot.belay_m1)).classifyLink k hx
      (hk.2.1 _ (by simp)) (hk.2.1 _ (by simp))
  · rw [(LaneState.classifyLink_link _ k).1, (LaneState.refreshViews_link _ k).1]
    exact (LaneState.linkDropped_link _ k).1
  · rw [(LaneState.classifyLink_link _ k).2, (LaneState.refreshViews_link _ k).2]
    exact (LaneState.linkDropped_link _ k).2

/-! ## Arriving blocks -/

/-- A block of a kind that its row names is received whole with a good CRC and not at all with a bad one (R51). -/
theorem receiveBlock_eq {l : Lane} {k : Link} {s : State} {start : Nat} {ws : List Word} {rest : List RopeMsg}
    {p : BlockKind → Bool} (crcOk : Bool) (f : Lane → Nat → List Word → LaneState → LaneState)
    (h : s.arriving (l.peer k) l = .block start ws :: rest) (hp : p (blockKind (start - segBase (l.peer k))) = true) :
    receiveBlock l k crcOk s p f = onLane (s.setFlight (l.peer k) l rest) l (fun L => L.ropeFrame k crcOk (fun L =>
      f (l.peer k) (start - segBase (l.peer k)) ws (L.setSigs start ws))) := by
  unfold receiveBlock
  simp only [h, hp, if_true]

theorem Kept.ropeCrcError {F : Footprint} (k : Link) (hp : .link k ∈ F.parts)
    (hr : ∀ a ∈ [R.ropeStat0, R.ropeStat1, R.ropeCnt0, R.ropeCnt1], a ∈ F.regs) : Kept F L (L.ropeCrcError k) := by
  have h := (Kept.refl F L).mapLink (fun K => { K with errs := K.errs + 1 }) hp
  cases k
  · exact (h.flag (hr _ (by simp [R.ropeStat0_crc_evt]))).count 1 (hr _ (by simp [R.ropeCnt0_crc]))
  · exact (h.flag (hr _ (by simp [R.ropeStat1_crc_evt]))).count 1 (hr _ (by simp [R.ropeCnt1_crc]))

/-- A frame with a bad CRC is counted as an error of its link. -/
theorem LaneState.ropeCrcError_errs (k : Link) : ((L.ropeCrcError k).link k).errs = (L.link k).errs + 1 := by
  have e : (L.ropeCrcError k).link k = (L.mapLink k (fun K => { K with errs := K.errs + 1 })).link k := by
    cases k
    · exact (LaneState.link_put _ _ _ _).trans (LaneState.link_put _ _ _ _)
    · exact (LaneState.link_put _ _ _ _).trans (LaneState.link_put _ _ _ _)
  rw [e, LaneState.link_mapLink]

/-- Signals written in one transaction stay within them, and read as the words written. -/
theorem LaneState.setSigs_whole (start : Nat) (ws : List Word) :
    Kept { sigs := List.range' start ws.length } L (L.setSigs start ws) ∧
    ∀ i, i < ws.length → (L.setSigs start ws).sig (start + i) = ws.getD i 0 := by
  refine ⟨(Kept.refl _ L).setSigs ws (fun j h1 h2 => List.mem_range'_1.2 ⟨h1, h2⟩), fun i hi => ?_⟩
  rw [LaneState.sig_setSigs, if_pos (by omega), Nat.add_sub_cancel_left]

/-- A block that arrives with a bad CRC, whatever its row, writes no signal and counts an error. -/
theorem DoesOn.badBlock {s s0 : State} {l : Lane} {k : Link} {c : Instr} {f : LaneState → LaneState}
    (he : exec c s = onLane s0 l (fun L => L.ropeFrame k false f)) (hl : c.lane = l) (h0 : s0.lane l = s.lane l) :
    DoesOn s s0 c { parts := [.link k], regs := [R.ropeStat0, R.ropeStat1, R.ropeCnt0, R.ropeCnt1] } fun L M =>
      (M.link k).errs = (L.link k).errs + 1 ∧ ∀ i, M.sig i = L.sig i :=
  have h := Kept.ropeCrcError (F := { parts := [.link k], regs := [R.ropeStat0, R.ropeStat1, R.ropeCnt0, R.ropeCnt1] })
    (s.lane l) k (by simp) (fun _ h => h)
  DoesOn.of_onLane he hl h0 h ⟨LaneState.ropeCrcError_errs _ k, fun i => h.2.2.1 i (by simp)⟩

end Sys2Proof.Machine

open Sys2Proof Sys2Proof.Machine

/-- Settles O10, clause by clause: a block sent, an idle frame, a link down for silence and for errors, a link up,
clr_cnt, a block received, blocks with a bad CRC, an SIU record received. -/
theorem ropeBlocks : Obligations.RopeBlocks := by
  refine ⟨?_, ?_, ?_, ?_, ?_, ?_, ?_, ?_, ?_⟩
  · intro s l k b rest hw hu hb
    refine ⟨(s.lane l).mapLink k (fun K => { K with waiting := rest }), ?_, ?_, ?_⟩
    · show execRopeBlockSend l k s = _
      unfold execRopeBlockSend
      simp only [hw, hu, if_true, State.send_legal _ k hb, State.flight_setLane, State.setFlight_setLane]
      rfl
    · exact (Kept.refl _ _).mapLink _ (by simp)
    · simp
  · intro s l k hw
    show execIdleFrameSend l k s = _
    unfold execIdleFrameSend
    rw [if_pos (by simp [hw])]
    rfl
  · intro s l k hu
    exact exec_ropeLinkDown hu (.inl rfl)
  · intro s l k hu he
    exact exec_ropeLinkDown hu (.inr he)
  · intro s l k hd hn
    have e : exec (.ropeLinkUp l k) s = .next (s.setLane l ((((s.lane l).setF (linkUpF k) true).mapB (fun B =>
        { B with linkClass := B.linkClass.set k.idx 0 })).refreshViews)) :=
      next_setLane s l (LaneState.when_true _ _ (by simp [hd, hn]))
    refine ⟨_, e, ?_, ?_⟩
    · have hr : (linkUpF k).addr ∈ [R.ropeStat0, R.ropeStat1, R.belayState] := by cases k <;> decide
      exact (((Kept.refl _ _).setF true hr).mapB _ (by simp)).refreshViews (by simp) (by simp) (by simp) (by simp)
    · refine (LaneState.refreshViews_link _ k).1.trans ?_
      exact LaneState.is_setF _ (linkUpF k) true (by cases k <;> decide) (by cases k <;> decide)
  · intro s l q h
    refine ⟨_, next_setLane s l (LaneState.guardW_ok _ _ h), ?_, ?_⟩
    · exact ((Kept.refl _ _).setReg 0 (by simp)).setReg 0 (by simp)
    · show (((s.lane l).setReg R.ropeCnt0 0).setReg R.ropeCnt1 0).reg R.ropeCnt0 = 0 ∧
        (((s.lane l).setReg R.ropeCnt0 0).setReg R.ropeCnt1 0).reg R.ropeCnt1 = 0
      simp
  · intro s l k start ws rest ha hk
    have hoff : start - segBase (l.peer k) ≠ 0x70 := fun h => by rw [h] at hk; exact absurd hk (by decide)
    have e : execRopeBlockReceived l k true s = _ := receiveBlock_eq true _ ha (by rw [hk])
    refine DoesOn.of_onLane e rfl (by simp) ?_ ?_ <;> simp only [LaneState.ropeFrame, if_true, hoff, if_false]
    · exact (LaneState.setSigs_whole _ start ws).1
    · exact (LaneState.setSigs_whole _ start ws).2
  · intro s l k start ws rest ha F P
    refine ⟨fun hk => ?_, fun hk => ?_, fun hk => ?_, fun n at5 hk => ?_⟩
    · have e : execRopeBlockReceived l k false s = _ := receiveBlock_eq false _ ha (by rw [hk])
      exact DoesOn.badBlock e rfl (by simp)
    · have e : execSiuRecordReceived l k false s = _ := receiveBlock_eq false _ ha (by rw [hk]; rfl)
      exact DoesOn.badBlock e rfl (by simp)
    · have e : execBelayRecordReceived l k false s = _ := receiveBlock_eq false _ ha (by rw [hk]; rfl)
      exact DoesOn.badBlock e rfl (by simp)
    · have e : execShareRecordReceived l k false at5 s = _ := receiveBlock_eq false _ ha (by rw [hk])
      exact DoesOn.badBlock e rfl (by simp)
  · intro s l k start ws rest ha hk
    have e : execSiuRecordReceived l k true s = _ := receiveBlock_eq true _ ha (by rw [hk]; rfl)
    refine DoesOn.of_onLane e rfl (by simp) ?_ ?_
    · exact (LaneState.setSigs_whole _ start ws).1
    · exact (LaneState.setSigs_whole _ start ws).2

end

section
/-! SUPPORT. Lane time (R29 to R48): SYS_TICK and the time registers, the correction, the timing and clock conditions. -/

namespace Sys2Proof.Machine

variable (L : LaneState)

/-! ## Causes raised to the Belay -/

/-- A cause that has been raised stands. -/
theorem LaneState.isRaised_raise (code : Nat) (y : Lane) : (L.raise code y).isRaised code y = true := by
  simp [LaneState.isRaised, LaneState.raise]

/-- What raising a cause may change. -/
def Foot.raise : Footprint := { parts := [.belaySt], regs := [R.belayStat] }

theorem LaneState.raise_kept (code : Nat) (y : Lane) : Kept Foot.raise L (L.raise code y) :=
  (Kept.refl _ L).raise code y (by decide) (by decide)

/-- A raised cause leaves the fields of every register but BELAY_STAT. -/
theorem LaneState.get_raise (code : Nat) (y : Lane) (f : RF) (hf : f.addr ≠ R.belayStat) :
    (L.raise code y).get f = L.get f := (L.raise_kept code y).get f (by simpa [Foot.raise] using hf)

/-! ## SYS_TICK -/

/-- The row of SYS_TICK in the register table. -/
def rowSysTick : RegRow :=
  ⟨0x40000010, 0x10000, 1, 0x4, 1, 0x000503E8, some (0x4000001C, 0x0), [⟨11, 0, .rwl⟩, ⟨20, 16, .rwl⟩]⟩

theorem findRow_sysTick : R.findRow R.sysTick = some rowSysTick := by decide

theorem lockOf_sysTick : rowSysTick.lockOf R.sysTick = some R.sysLock := by decide

/-- A write of a register whose two fields a lock freezes (R8). -/
theorem RegRow.written_rwl2 (r : RegRow) {h1 l1 h2 l2 : Nat} (hf : r.fields = [⟨h1, l1, .rwl⟩, ⟨h2, l2, .rwl⟩])
    (k b : Bool) (o n : Nat) : r.written k b o n =
      setBits (setBits o h1 l1 (if k then bits o h1 l1 else bits n h1 l1)) h2 l2
        (if k then bits o h2 l2 else bits n h2 l2) := by
  rw [RegRow.written, hf]
  rfl

/-- A write of SYS_TICK leaves its two fields as their lock says (R41, R42). -/
theorem LaneState.busWrite_sysTick (b : Bool) (w : Word) : L.busWrite b R.sysTick w = L.setReg R.sysTick (wordN
    (setBits (setBits (L.reg R.sysTick).toNat 11 0
      (if L.locked R.sysLock then bits (L.reg R.sysTick).toNat 11 0 else bits w.toNat 11 0)) 20 16
      (if L.locked R.sysLock then bits (L.reg R.sysTick).toNat 20 16 else bits w.toNat 20 16))) := by
  unfold LaneState.busWrite
  simp only [findRow_sysTick, lockOf_sysTick, RegRow.written_rwl2 rowSysTick rfl]

/-- The two fields of a word in which both have been replaced. -/
theorem bits_sysTick (o : Word) (t n : Nat) :
    bits (wordN (setBits (setBits o.toNat 11 0 t) 20 16 n)).toNat 11 0 = t % 2 ^ 12 ∧
    bits (wordN (setBits (setBits o.toNat 11 0 t) 20 16 n)).toNat 20 16 = n % 2 ^ 5 := by
  have e : setBits o.toNat 11 0 t = (wordN (setBits o.toNat 11 0 t)).toNat := by
    rw [wordN, BitVec.toNat_ofNat, Nat.mod_eq_of_lt (setBits_lt _ _ _ _ (by omega) (by omega) o.isLt)]
  constructor
  · rw [e, bits_wordN_disj _ (by omega) (by omega) (.inr (by omega)), bits_wordN_same _ (by omega) (by omega)]
  · rw [e, bits_wordN_same _ (by omega) (by omega)]

/-- An unlocked SYS_TICK takes both fields of the word written. -/
theorem LaneState.get_busWrite_sysTick (b : Bool) (w : Word) (h : L.locked R.sysLock = false) :
    (L.busWrite b R.sysTick w).get R.sysTick_tick = bits w.toNat 11 0 ∧
    (L.busWrite b R.sysTick w).get R.sysTick_n = bits w.toNat 20 16 := by
  have k := bits_sysTick (L.reg R.sysTick) (bits w.toNat 11 0) (bits w.toNat 20 16)
  rw [L.busWrite_sysTick]
  simp only [h, Bool.false_eq_true, if_false]
  refine ⟨(LaneState.get_setReg ..).trans ?_, (LaneState.get_setReg ..).trans ?_⟩
  · exact (if_pos rfl).trans (k.1.trans (bits_mod _ (by decide)))
  · exact (if_pos rfl).trans (k.2.trans (bits_mod _ (by decide)))

/-- A locked SYS_TICK keeps its word. -/
theorem LaneState.reg_busWrite_sysTick (b : Bool) (w : Word) (h : L.locked R.sysLock = true) :
    (L.busWrite b R.sysTick w).reg R.sysTick = L.reg R.sysTick := by
  rw [L.busWrite_sysTick]
  simp only [h, if_true, LaneState.reg_setReg]
  rw [setBits_bits _ _ _ (by omega), setBits_bits _ _ _ (by omega), wordN_toNat]

/-! ## The correction -/

/-- A clamped number lies within its bounds. -/
theorem clampI_bounds {lo hi : Int} (h : lo ≤ hi) (x : Int) : lo ≤ clampI lo hi x ∧ clampI lo hi x ≤ hi := by
  unfold clampI
  split
  · omega
  · split <;> omega

/-- What the correction of lane time may change. -/
def Foot.correct : Footprint := { parts := [.time], regs := [R.sysAlignStat, R.sysRate] }

/-- The correction stays within its footprint, clamps the slew and the rate, and shows holdover (R33 to R35). -/
theorem LaneState.correct_spec : Kept Foot.correct L L.correct ∧
    L.correct.time.nextSlew = clampI (-512) 512 (divOpen L.correction2 4) ∧
    L.correct.is R.sysAlignStat_holdover = L.followed.isEmpty ∧
    L.correct.getS R.sysRate_corr = clampI (-rateLimit) rateLimit
      (L.getS R.sysRate_corr + divOpen (L.correction2 * 2 ^ 32) (2 * 8 * L.tServo * 64)) := by
  generalize hr : clampI (-rateLimit) rateLimit
    (L.getS R.sysRate_corr + divOpen (L.correction2 * 2 ^ 32) (2 * 8 * L.tServo * 64)) = rate
  let N : LaneState := { L with time := { L.time with nextSlew := clampI (-512) 512 (divOpen L.correction2 4) } }
  obtain ⟨sat, e⟩ : ∃ sat, L.correct = ((((N.setF R.sysAlignStat_holdover L.followed.isEmpty).putS R.sysRate_corr
      rate).setF R.sysAlignStat_rate_sat sat).flagIf sat R.sysAlignStat_rate_sat_evt) := ⟨_, by rw [← hr]; rfl⟩
  have hb : -rateLimit ≤ rate ∧ rate ≤ rateLimit := hr ▸ clampI_bounds (by decide) _
  rw [e]
  refine ⟨?_, ?_, ?_, ?_⟩
  · exact (((((Kept.refl Foot.correct L).with_time _ (by decide)).setF _ (by decide)).putS _ (by decide)).setF _
      (by decide)).flagIf _ (by decide)
  · cases sat <;> rfl
  · rw [LaneState.is, LaneState.get_flagIf_apart _ _ _ _ (by decide) (by decide), LaneState.setF_def,
      LaneState.get_put_apart _ _ _ _ (by decide) (by decide), LaneState.putS_def,
      LaneState.get_put_apart _ _ _ _ (by decide) (by decide)]
    exact N.is_setF _ _ (by decide) (by decide)
  · rw [LaneState.getS, LaneState.get_flagIf_apart _ _ _ _ (by decide) (by decide), LaneState.setF_def,
      LaneState.get_put_apart _ _ _ _ (by decide) (by decide)]
    refine LaneState.getS_putS _ _ _ (by decide) (by decide) ?_ ?_ <;>
      simp only [R.sysRate_corr, rateLimit] at hb ⊢ <;> omega

/-! ## The timing conditions -/

/-- One lane's offset judged: the counts of periods beyond and within the limit, TIME_EXCLUDE, and the causes raised (R36,
R37). -/
def LaneState.judgeOffset (M : LaneState) (p : Lane × Int × Bool) : LaneState :=
  let i := p.1.idx
  if !p.2.2 then M
  else
    let far := 3200 < p.2.1.natAbs
    let M := { M with time := { M.time with
      beyond := M.time.beyond.set i (if far then M.time.beyond.get i + 1 else 0)
      within := M.time.within.set i (if far then 0 else M.time.within.get i + 1) } }
    let M := if 12800 < p.2.1.natAbs then
        (M.setBit R.sysAlignStat_exclude i true).setBit R.sysAlignStat_suspect i false
      else M
    if M.bitOf R.sysAlignStat_exclude i then M.raise 0x06 p.1
    else if M.bitOf R.sysAlignStat_suspect i then M.raise 0x05 p.1
    else M

/-- The offsets of the lanes, and whether each is judged. -/
def LaneState.offsets (L : LaneState) : List (Lane × Int × Bool) :=
  lanes.map (fun y => (y, L.offsetOf y, participates (L.view y) && y ∈ L.measuredLanes))

/-- The lane with the offsets posted. -/
def LaneState.postOffsets (L : LaneState) : LaneState := L.offsets.foldl (fun M p => M.putS (ofsF p.1) p.2.1) L

/-- What no judged offset writes stays: an observation that the updates of `judgeOffset` keep. -/
theorem LaneState.judgeOffset_obs {β : Type} (O : LaneState → β) (p : Lane × Int × Bool)
    (ht : ∀ (M : LaneState) (b w : NMap), O { M with time := { M.time with beyond := b, within := w } } = O M)
    (hs : ∀ (M : LaneState) (i : Nat),
      O ((M.setBit R.sysAlignStat_exclude i true).setBit R.sysAlignStat_suspect i false) = O M)
    (hr : ∀ (M : LaneState) (c : Nat) (y : Lane), O (M.raise c y) = O M) (M : LaneState) :
    O (M.judgeOffset p) = O M := by
  unfold LaneState.judgeOffset
  simp only [apply_ite O, hr, ht, hs, ite_self]

/-- The conditions judged keep the low bits of SYS_ALIGN_STAT, every register but it and BELAY_STAT, and the slew. -/
theorem LaneState.get_judgeOffset (M : LaneState) (p : Lane × Int × Bool) (f : RF)
    (hf : f.addr = R.sysAlignStat ∧ f.hi < 4 ∨ f.addr ≠ R.sysAlignStat ∧ f.addr ≠ R.belayStat) :
    (M.judgeOffset p).get f = M.get f := by
  have hb : f.addr ≠ R.belayStat := by
    rcases hf with h | h
    · rw [h.1]; decide
    · exact h.2
  have ha : ∀ (g : RF), g.addr = R.sysAlignStat → 4 ≤ g.lo → f.addr ≠ g.addr ∨ g.hi < f.lo ∨ f.hi < g.lo :=
    fun g hg hlo => by
      rcases hf with h | h
      · exact .inr (.inr (by omega))
      · exact .inl (by rw [hg]; exact h.1)
  refine LaneState.judgeOffset_obs (fun X => X.get f) p (fun _ _ _ => rfl) (fun X i => ?_)
    (fun X c y => X.get_raise c y f hb) M
  simp only [LaneState.setBit_def]
  rw [LaneState.get_put_apart _ _ _ _ (by decide) (ha _ rfl (by decide)),
    LaneState.get_put_apart _ _ _ _ (by decide) (ha _ rfl (by decide))]

theorem LaneState.nextSlew_judgeOffset (M : LaneState) (p : Lane × Int × Bool) :
    (M.judgeOffset p).time.nextSlew = M.time.nextSlew :=
  LaneState.judgeOffset_obs (fun X => X.time.nextSlew) p (fun _ _ _ => rfl)
    (fun X i => by rw [LaneState.setBit_def, LaneState.setBit_def, LaneState.put_time, LaneState.put_time])
    (fun X c y => congrArg TimeSt.nextSlew (X.raise_kept c y |>.1 .time (by decide))) M

/-- What posting and judging the offsets may change. -/
def Foot.timing : Footprint :=
  { parts := [.time, .belaySt]
    regs := [R.sysAlignStat, R.sysAlignOfsA, R.sysAlignOfsB, R.sysAlignOfsC, R.belayStat] }

theorem Kept.judgeOffset {M : LaneState} (h : Kept Foot.timing L M) (p : Lane × Int × Bool) :
    Kept Foot.timing L (M.judgeOffset p) := by
  have hp : Part.belaySt ∈ Foot.timing.parts := by decide
  have hr : R.belayStat ∈ Foot.timing.regs := by decide
  have hs : R.sysAlignStat ∈ Foot.timing.regs := by decide
  have k : ∀ x, Kept Foot.timing L { M with time := x } := fun x => h.with_time x (by decide)
  have k2 : ∀ (c : Prop) (_ : Decidable c) (x : TimeSt) (i : Nat), Kept Foot.timing L (if c then
      (LaneState.setBit { M with time := x } R.sysAlignStat_exclude i true).setBit R.sysAlignStat_suspect i false
      else { M with time := x }) := fun c _ x i =>
    Kept.ite (fun _ => ((k x).setBit _ _ hs).setBit _ _ hs) (fun _ => k x)
  unfold LaneState.judgeOffset
  exact Kept.ite (fun _ => h) (fun _ => Kept.ite (fun _ => (k2 _ _ _ _).raise _ _ hp hr)
    (fun _ => Kept.ite (fun _ => (k2 _ _ _ _).raise _ _ hp hr) (fun _ => k2 _ _ _ _)))

theorem ofsF_addr (y : Lane) : (ofsF y).addr ∈ [R.sysAlignOfsA, R.sysAlignOfsB, R.sysAlignOfsC] := by
  cases y <;> decide

/-- The posted offsets leave every part, and every register but their own. -/
theorem Kept.postOffsets : Kept { regs := [R.sysAlignOfsA, R.sysAlignOfsB, R.sysAlignOfsC] } L L.postOffsets :=
  Kept.foldl (Kept.refl _ L) (fun p _ _ hN => hN.putS p.2.1 (ofsF_addr p.1))

/-- The timing conditions post the offsets and show alignment by the own one; the slew, holdover and the rate stay (R36). -/
theorem LaneState.timingConditions_spec : Kept Foot.timing L L.timingConditions ∧
    L.timingConditions.time.nextSlew = L.time.nextSlew ∧
    L.timingConditions.is R.sysAlignStat_holdover = L.is R.sysAlignStat_holdover ∧
    L.timingConditions.is R.sysAlignStat_aligned =
      decide ((L.timingConditions.getS (ofsF L.id)).natAbs ≤ 640) := by
  have hid : L.postOffsets.id = L.id := (Kept.postOffsets L).1 .id (by simp)
  generalize hP : L.postOffsets.setF R.sysAlignStat_aligned
    ((L.postOffsets.getS (ofsF L.postOffsets.id)).natAbs ≤ 640) = P
  have e : L.timingConditions = L.offsets.foldl LaneState.judgeOffset P := by rw [← hP]; rfl
  have hg : ∀ f : RF, f.addr = R.sysAlignStat ∧ f.hi < 4 ∨ f.addr ≠ R.sysAlignStat ∧ f.addr ≠ R.belayStat →
      L.timingConditions.get f = P.get f := fun f hf => e ▸
    foldl_obs P (fun M => M.get f) _ _ (fun p _ M => M.get_judgeOffset p f hf)
  have ho : P.getS (ofsF L.id) = L.postOffsets.getS (ofsF L.id) := by
    rw [← hP, LaneState.getS, LaneState.setF_def, LaneState.get_put_ne _ _ _ _ (by cases L.id <;> decide)]
    rfl
  have hof : L.timingConditions.getS (ofsF L.id) = P.getS (ofsF L.id) := by
    rw [LaneState.getS, LaneState.getS, hg _ (.inr (by cases L.id <;> decide))]
  refine ⟨?_, ?_, ?_, ?_⟩
  · have k : Kept Foot.timing L P := hP ▸ ((Kept.postOffsets L).mono ⟨by decide, by decide, by decide, by decide⟩).setF _
      (by decide)
    exact e ▸ Kept.foldl k (fun p _ _ hN => Kept.judgeOffset L hN p)
  · rw [e]
    refine (foldl_obs P (fun M => M.time.nextSlew) _ _ (fun p _ M => M.nextSlew_judgeOffset p)).trans ?_
    rw [← hP, LaneState.setF_def, LaneState.put_time]
    exact congrArg TimeSt.nextSlew ((Kept.postOffsets L).1 .time (by simp))
  · rw [LaneState.is, hg _ (.inl (by decide)), ← hP, LaneState.setF_def,
      LaneState.get_put_apart _ _ _ _ (by decide) (by decide), (Kept.postOffsets L).get _ (by decide)]
    rfl
  · rw [hof, ho, LaneState.is, hg _ (.inl (by decide)), ← hP, hid]
    exact LaneState.is_setF _ _ _ (by decide) (by decide)

end Sys2Proof.Machine

open Sys2Proof Sys2Proof.Machine

/-- Settles O8, clause by clause. -/
theorem laneTime : Obligations.LaneTime := by
  refine ⟨?_, ?_, ?_, ?_, ?_, ?_, ?_, ?_, ?_, ?_, ?_, ?_⟩
  · intro s l q w hj ht hl
    have e : exec (.sysTickWrite l q w) s = .next (s.setLane l ((s.lane l).busWrite q.secure R.sysTick w)) :=
      next_setLane s l ((LaneState.guardW_ok _ _ hj).trans (if_pos ht))
    exact ⟨_, e, (Kept.refl _ _).busWrite _ (by simp), (s.lane l).get_busWrite_sysTick q.secure w hl⟩
  · intro s l q w hj ht hl
    have e : exec (.sysTickWrite l q w) s = .next (s.setLane l ((s.lane l).busWrite q.secure R.sysTick w)) :=
      next_setLane s l ((LaneState.guardW_ok _ _ hj).trans (if_pos ht))
    exact ⟨_, e, (Kept.refl _ _).busWrite _ (by simp), (s.lane l).reg_busWrite_sysTick q.secure w hl⟩
  · intro s l q w hj ht
    have e : exec (.sysTickWrite l q w) s = .next (s.setLane l ((s.lane l).flag R.sysAlignStat_tick_illegal)) :=
      next_setLane s l ((LaneState.guardW_ok _ _ hj).trans (if_neg (by simp [ht])))
    exact ⟨_, e, (Kept.refl _ _).flag (by simp [R.sysAlignStat_tick_illegal]),
      LaneState.is_flag _ _ (by decide) (by decide)⟩
  · intro s l q hj
    refine ⟨_, next_setLane s l (LaneState.guardR_ok _ _ hj), ?_, ?_, ?_, ?_, rfl⟩
    · exact ((Kept.refl _ _).with_time _ (by simp)).answer _ _ (by simp)
    · exact (Sparse.get_set (fun _ => 0) _ _ _ _).trans (if_pos rfl)
    · exact (Sparse.get_set (fun _ => 0) _ _ _ _).trans (if_pos rfl)
    · exact fun i hi => (Sparse.get_set (fun _ => 0) _ _ _ _).trans (if_neg hi)
  · intro s l q hj
    refine ⟨_, next_setLane s l (LaneState.guardR_ok _ _ hj), ?_, ?_⟩
    · exact (Kept.refl _ _).answer _ _ (by simp)
    · exact (Sparse.get_set (fun _ => 0) _ _ _ _).trans (if_pos rfl)
  · intro s l
    obtain ⟨hc, hslew, hhold, hrate⟩ := (s.lane l).correct_spec
    obtain ⟨hk, hslew2, hhold2, hal⟩ := (s.lane l).correct.timingConditions_spec
    have hid : (s.lane l).correct.id = (s.lane l).id := hc.1 .id (by decide)
    refine ⟨_, rfl, ?_, hslew2.trans hslew, hhold2.trans hhold, ?_, hid ▸ hal⟩
    · exact (hc.mono ⟨by decide, by decide, by decide, by decide⟩).step
        (hk.mono ⟨by decide, by decide, by decide, by decide⟩)
    · exact (congrArg (sext 24) (hk.get R.sysRate_corr (by decide))).trans hrate
  · intro s l x y d k hxy hk
    refine ⟨fun h c => ?_, fun h c => ?_, fun h c => ?_⟩ <;> rcases c with ⟨rfl, rfl⟩ | ⟨rfl, rfl⟩
    all_goals
      refine ⟨_, rfl, (Kept.refl _ _).with_time _ (by simp), ?_, rfl, rfl⟩
      show Option.filter _ _ = none
      rw [h, Option.filter_some, if_neg (by simpa using hk)]
  · intro s l y hb he hp
    have e : exec (.timeSuspectRaise l y) s = .next (s.setLane l
        (((s.lane l).setBit R.sysAlignStat_suspect y.idx true).raise 0x05 y)) :=
      next_setLane s l (LaneState.when_true _ _ (by simp [hb, he, hp]))
    refine ⟨_, e, ?_, ?_, LaneState.isRaised_raise _ _ _⟩
    · exact ((Kept.refl _ _).setBit _ _ (by simp [R.sysAlignStat_suspect])).raise _ _ (by simp) (by simp)
    · rw [LaneState.bitOf, LaneState.get_raise _ _ _ _ (by decide)]
      exact LaneState.bitOf_setBit_same _ _ _ _ (by cases y <;> decide) (by decide)
  · intro s l y hw
    have e : exec (.timeSuspectClear l y) s = .next (s.setLane l
        ((s.lane l).setBit R.sysAlignStat_suspect y.idx false)) :=
      next_setLane s l (LaneState.when_true _ _ (by simpa using hw))
    refine ⟨_, e, ?_, ?_⟩
    · exact (Kept.refl _ _).setBit _ _ (by simp [R.sysAlignStat_suspect])
    · exact LaneState.bitOf_setBit_same _ _ _ _ (by cases y <;> decide) (by decide)
  · intro s l i
    have hb : R.sysIslStat_clk_loss.lo + i.val ≤ R.sysIslStat_clk_loss.hi := by
      simp only [R.sysIslStat_clk_loss]; omega
    generalize hN : ((s.lane l).setBit R.sysIslStat_clk_loss i true).raise 0x0A (s.lane l).id = N
    have e : exec (.clockLoss l i) s = .next (s.setLane l
        (if i.val = 4 then { N with edge := { N.edge with forcedLow := true } } else N)) := by rw [← hN]; rfl
    have hk : Kept { parts := [.belaySt, .edge], regs := [R.sysIslStat, R.belayStat] } (s.lane l) N :=
      hN ▸ ((Kept.refl _ _).setBit _ _ (by simp [R.sysIslStat_clk_loss])).raise _ _ (by simp) (by simp)
    have hbit : N.bitOf R.sysIslStat_clk_loss i = true := by
      rw [← hN, LaneState.bitOf, LaneState.get_raise _ _ _ _ (by decide)]
      exact LaneState.bitOf_setBit_same _ _ _ _ hb (by decide)
    have hraised : N.isRaised 0x0A (s.lane l).id = true := hN ▸ LaneState.isRaised_raise _ _ _
    have hedge : N.edge = (s.lane l).edge := by
      rw [← hN]
      exact ((LaneState.raise_kept ..).1 .edge (by decide)).trans (LaneState.put_edge ..)
    refine ⟨_, e, ?_⟩
    by_cases h4 : i.val = 4
    · rw [if_pos h4]
      refine ⟨hk.with_edge _ (by simp), hbit, hraised, ?_⟩
      rw [decide_eq_true h4, Bool.true_or]
    · rw [if_neg h4]
      refine ⟨hk, hbit, hraised, ?_⟩
      rw [decide_eq_false h4, Bool.false_or]
      exact congrArg EdgeSt.forcedLow hedge
  · intro s l i m
    have hb : R.sysIslStat_hs_timeout.lo + i.val ≤ R.sysIslStat_hs_timeout.hi := by
      simp only [R.sysIslStat_hs_timeout]; omega
    generalize hX : (s.lane l).setBit R.sysIslStat_hs_timeout i true = X
    generalize hN : X.busError m = N
    have hXN : Kept { parts := [.bus] } X N := hN ▸ (Kept.refl _ X).with_bus _ (by simp)
    have hk : Kept { parts := [.belaySt, .bus], regs := [R.sysIslStat, R.belayStat] } (s.lane l) N :=
      Kept.step (hX ▸ (Kept.refl _ _).setBit _ _ (by simp [R.sysIslStat_hs_timeout]))
        (hXN.mono ⟨by simp, by simp, by simp, by simp⟩)
    have hid : N.id = (s.lane l).id := hk.1 .id (by simp)
    have e : exec (.handshakeTimeout l i m) s = .next (s.setLane l (N.raise 0x0A (s.lane l).id)) := by
      rw [← hid, ← hN, ← hX]; rfl
    refine ⟨_, e, hk.raise _ _ (by simp) (by simp), ?_, LaneState.isRaised_raise _ _ _, ?_⟩
    · rw [LaneState.bitOf, LaneState.get_raise _ _ _ _ (by decide), hXN.get _ (by simp), ← hX]
      exact LaneState.bitOf_setBit_same _ _ _ _ hb (by decide)
    · have hbus : (N.raise 0x0A (s.lane l).id).bus = N.bus := (LaneState.raise_kept ..).1 .bus (by decide)
      rw [hbus, ← hN]
      exact (mem_addTo _ _ _).2 (.inr rfl)
  · intro s l
    generalize hN : { s.lane l with time := { (s.lane l).time with oscOk := false, onRc := true } } = N
    have e : exec (.oscFail l) s = .next (s.setLane l (N.raise 0x0A (s.lane l).id)) := by rw [← hN]; rfl
    have hk : Kept { parts := [.belaySt, .time], regs := [R.belayStat] } (s.lane l) N :=
      hN ▸ (Kept.refl _ _).with_time _ (by simp)
    have ht : (N.raise 0x0A (s.lane l).id).time = { (s.lane l).time with oscOk := false, onRc := true } :=
      Eq.trans ((LaneState.raise_kept ..).1 .time (by decide)) (by rw [← hN])
    refine ⟨_, e, hk.raise _ _ (by simp) (by simp), ?_, ?_, LaneState.isRaised_raise _ _ _, ?_⟩
    · rw [ht]
    · rw [ht]
    · rw [ht]; rfl

end

section
/-! The tick boundary takes every pending tap table, of whatever group it is. A lane keeps the groups as plain numbers,
so a state may hold a table of a group beyond the four of the delay line; the step that takes it then changes a register
that is no EDGE_DL_STAT of a group, and the footprint of the tick boundary does not name it. -/

namespace Sys2Proof.Machine

/-- A lane that has booted and awaits a new tap table of a fifth group. DLCAL and the lock-time calibration leave groups
0 to 3 only, so no run from power-on reaches it. -/
def strayTableLane : LaneState :=
  { LaneState.fresh .a with pwr := { bootStep := 4 }, edge := { newTab := [(4, 1648)] } }

/-- A module whose lane A awaits the stray tap table. -/
def strayTableState : State := State.reset.setLane .a strayTableLane

/-- A lane that has booted takes the field-tick boundary. -/
theorem exec_fieldTickBoundary {s : State} {l : Lane} (h : (s.lane l).pwr.bootStep = 4) :
    exec (.fieldTickBoundary l) s = .next (s.setLane l (s.lane l).tickBoundary) :=
  next_setLane s l (LaneState.when_true _ _ (by simp [h]))

/-- What a register holds after a command that completes and does not name it in its footprint. -/
theorem Does.reg_eq {s : State} {c : Instr} {F : Footprint} {P : LaneState → LaneState → Prop} (h : Does s c F P)
    {N : LaneState} (e : exec c s = .next (s.setLane c.lane N)) {a : Nat} (ha : a ∉ F.regs) :
    N.reg a = (s.lane c.lane).reg a := by
  obtain ⟨M, hM, hK, -⟩ := h
  have hs : s.setLane c.lane N = s.setLane c.lane M := by injection e.symm.trans hM
  have hN : N = M := by simpa using congrArg (State.lane · c.lane) hs
  exact hN ▸ hK.2.1 a ha

/-- The tick boundary shows the stray table in the word behind EDGE_DL_STAT3. -/
theorem strayTableLane_reg :
    strayTableLane.tickBoundary.reg (R.edgeDlStat 4) ≠ strayTableLane.reg (R.edgeDlStat 4) := by decide

end Sys2Proof.Machine

open Sys2Proof Sys2Proof.Machine

/-- Refutes O57: the tick boundary is not within its footprint from a state that holds a new tap table of a group beyond
the four, as lane A of `strayTableState` does; it writes the word behind the last EDGE_DL_STAT. -/
theorem not_boundaries : ¬ Obligations.Boundaries := by
  unfold Obligations.Boundaries
  rintro ⟨-, tick⟩
  have boot : (strayTableState.lane .a).pwr.bootStep = 4 := rfl
  exact strayTableLane_reg ((tick strayTableState .a boot).reg_eq (exec_fieldTickBoundary boot) (by decide))
end

section
/-! SUPPORT. Sampling of an axis (R63 to R66, R96): what a conversion shows, and what its checks keep. -/

namespace Sys2Proof.Machine

variable {F : Footprint} {L M : LaneState}

/-! ## Codes -/

/-- A code within its span is not recorded as an overrange. -/
theorem LaneState.setAdcOvr_false (L : LaneState) (i : Nat) : L.setAdcOvr i false = L := rfl

theorem Kept.setAdcOvr (h : Kept F L M) (i : Nat) (full : Bool) (hr : R.adcStat ∈ F.regs) :
    Kept F L (M.setAdcOvr i full) := Kept.ite (fun _ => h.setBit i true hr) (fun _ => h)

/-- A code at neither end of its span, as the conversion tests it. -/
theorem inSpan {c : BitVec 14} (h : c ≠ 0 ∧ c ≠ 16383#14) : (c.toNat == 0 || c.toNat == 16383) = false := by
  have h0 : c.toNat ≠ 0 := fun e => h.1 (BitVec.eq_of_toNat_eq e)
  have h1 : c.toNat ≠ 16383 := fun e => h.2 (BitVec.eq_of_toNat_eq e)
  simp [h0, h1]

/-- The lane with the five codes of a conversion held (R63). -/
def LaneState.holdCodes (L : LaneState) (n : Axis) (cu cv cw cs cc : Nat) : LaneState :=
  let c := ((L.adc.code.set (3 * n) cu).set (3 * n + 1) cv).set (3 * n + 2) cw
  { L with adc := { L.adc with code := (c.set (12 + 2 * n) cs).set (13 + 2 * n) cc } }

theorem LaneState.holdCodes_code (L : LaneState) (n : Axis) (cu cv cw cs cc : Nat) :
    let c := (L.holdCodes n cu cv cw cs cc).adc.code
    c.get (3 * n) = cu ∧ c.get (3 * n + 1) = cv ∧ c.get (3 * n + 2) = cw ∧ c.get (12 + 2 * n) = cs ∧
      c.get (13 + 2 * n) = cc := by
  simp only [LaneState.holdCodes, NMap.get_set]
  fin_cases n <;> simp

/-- The conversions of an axis with the sin/cos codes within their span: the codes are held, and SAMPLE runs (R63). -/
theorem exec_adcConversionComplete {s : State} {l : Lane} {n : Axis} {cu cv cw cs cc : BitVec 14} {onU onV onW : Bool}
    (hs : cs ≠ 0 ∧ cs ≠ 16383#14) (hc : cc ≠ 0 ∧ cc ≠ 16383#14) :
    exec (.adcConversionComplete l n cu cv cw cs cc onU onV onW) s = .next (s.setLane l
      (((s.lane l).holdCodes n cu.toNat cv.toNat cw.toNat cs.toNat cc.toNat).sample n cu.toNat cv.toNat cw.toNat
        onU onV onW)) := by
  show execAdcConversionComplete l n cu cv cw cs cc onU onV onW s = _
  unfold execAdcConversionComplete
  simp only [inSpan hs, inSpan hc, LaneState.setAdcOvr_false]
  rfl

/-! ## SAMPLE -/

/-- The lane with three per-unit currents shown valid, in the axis block and in the block of the tick (R66). -/
def LaneState.showCurrents (L : LaneState) (n : Nat) (a b c : Word) : LaneState :=
  ((L.setSigs (axisSig n 0) [a, b, c]).setSig (axisSig n 3) 7).setSigs (axisSig n (0x200 + 8 * L.tickIdx)) [a, b, c]

theorem LaneState.showCurrents_spec (L : LaneState) (n : Nat) (a b c : Word) :
    let M := L.showCurrents n a b c
    Kept { sigs := [axisSig n 0, axisSig n 1, axisSig n 2, axisSig n 3] ++
      List.range' (axisSig n (0x200 + 8 * L.tickIdx)) 3 } L M ∧
    M.sig (axisSig n 3) = 7 ∧ M.sig (axisSig n 0) = a ∧ M.sig (axisSig n 1) = b ∧ M.sig (axisSig n 2) = c ∧
      M.sig (axisSig n (0x200 + 8 * L.tickIdx)) = a := by
  unfold LaneState.showCurrents
  generalize L.tickIdx = t
  refine ⟨?_, ?_⟩
  · refine (((Kept.refl _ L).setSigs _ (fun j h1 h2 => ?_)).setSig _ (by simp)).setSigs _ (fun j h1 h2 => ?_)
    · have hj : j = axisSig n 0 ∨ j = axisSig n 1 ∨ j = axisSig n 2 := by
        simp only [axisSig, List.length_cons, List.length_nil] at h1 h2 ⊢
        omega
      rcases hj with rfl | rfl | rfl <;> simp
    · exact List.mem_append_right _ (List.mem_range'_1.2 ⟨h1, h2⟩)
  · have below : ∀ o, o < 4 → ¬ 0x200 + 8 * t ≤ o := fun o ho => by omega
    simp [LaneState.sig_setSigs, below, axisSig]

/-- The lane with the currents of an axis shown stale, flagged where the axis regulates (R66). -/
def LaneState.showStale (L : LaneState) (n : Nat) : LaneState :=
  (L.setSig (axisSig n 3) 8).flagIf (L.regulates n) (R.axpStat_cur_stale n)

theorem LaneState.showStale_spec (L : LaneState) (n : Nat) :
    let M := L.showStale n
    Kept { regs := [R.axpStat n], sigs := [axisSig n 3] } L M ∧ M.sig (axisSig n 3) = 8 ∧
    (L.regulates n = true → M.is (R.axpStat_cur_stale n) = true) ∧
    (L.regulates n = false → M.reg (R.axpStat n) = L.reg (R.axpStat n)) := by
  refine ⟨((Kept.refl _ L).setSig _ (by simp)).flagIf _ (by simp [R.axpStat_cur_stale]), ?_, fun h => ?_, fun h => ?_⟩
  · unfold LaneState.showStale LaneState.flagIf
    cases L.regulates n <;> simp [LaneState.flag_def]
  · simp only [LaneState.showStale, h, LaneState.flagIf, if_true]
    exact LaneState.is_flag _ _ (by simp [R.axpStat_cur_stale]) (by simp [R.axpStat_cur_stale])
  · simp [LaneState.showStale, h, LaneState.flagIf]

/-- The conversion judged: which legs were measured, and the checks CUR_SUM and ILIM (R66, R89). -/
def LaneState.judgeCurrents (L : LaneState) (n : Nat) (on : List Nat) (sum past : Bool) : LaneState :=
  ((L.mapAx n (fun A => { A with lowOn := on })).monEval n 0 sum).monEval n 7 past

/-- An evaluation of a check keeps which legs were measured. -/
theorem LaneState.lowOn_monEval (L : LaneState) (n k : Nat) (cond : Bool) :
    ((L.monEval n k cond).ax n).lowOn = (L.ax n).lowOn := by
  unfold LaneState.monEval
  rw [LaneState.ax_mapAx]
  split <;> rfl

/-- The checks of an axis change its record alone. -/
theorem LaneState.judgeCurrents_spec (L : LaneState) (n : Axis) (on : List Nat) (sum past : Bool) :
    Kept { parts := [.ax n] } L (L.judgeCurrents n on sum past) ∧
    ((L.judgeCurrents n on sum past).ax n).lowOn = on := by
  refine ⟨(((Kept.refl _ L).mapAx _ (by simp)).mapAx _ (by simp)).mapAx _ (by simp), ?_⟩
  rw [LaneState.judgeCurrents, LaneState.lowOn_monEval, LaneState.lowOn_monEval, LaneState.ax_mapAx]

/-- SAMPLE with every leg measured and no code at its limits (R65, R66). -/
theorem LaneState.sample_measured (L : LaneState) (n : Nat) {cu cv cw : BitVec 14} (hu : cu ≠ 0 ∧ cu ≠ 16383#14)
    (hv : cv ≠ 0 ∧ cv ≠ 16383#14) (hw : cw ≠ 0 ∧ cw ≠ 16383#14) : ∃ on sum past,
    L.sample n cu.toNat cv.toNat cw.toNat true true true = (L.showCurrents n
      (wordI (currentOf cu.toNat (L.getS (R.axpIofs_ofs_u n)) (L.getS (R.axpIscale_k_i n))))
      (wordI (currentOf cv.toNat (L.getS (R.axpIofs_ofs_v n)) (L.getS (R.axpIscale_k_i n))))
      (wordI (currentOf cw.toNat (L.getS (R.axpIofs_ofs_w n)) (L.getS (R.axpIscale_k_i n))))).judgeCurrents n on
        sum past := by
  unfold LaneState.sample
  simp only [inSpan hu, inSpan hv, inSpan hw, LaneState.setAdcOvr_false]
  exact ⟨_, _, _, rfl⟩

/-- SAMPLE with no leg measured and no code at its limits (R66). -/
theorem LaneState.sample_unmeasured (L : LaneState) (n : Nat) {cu cv cw : BitVec 14} (hu : cu ≠ 0 ∧ cu ≠ 16383#14)
    (hv : cv ≠ 0 ∧ cv ≠ 16383#14) (hw : cw ≠ 0 ∧ cw ≠ 16383#14) : ∃ sum past,
    L.sample n cu.toNat cv.toNat cw.toNat false false false = (L.showStale n).judgeCurrents n [] sum past := by
  unfold LaneState.sample
  simp only [inSpan hu, inSpan hv, inSpan hw, LaneState.setAdcOvr_false]
  exact ⟨_, _, rfl⟩

/-! ## Housekeeping -/

/-- The lane with the code of a housekeeping channel held (R64). -/
def LaneState.holdHk (L : LaneState) (ch : Fin 32) (code : BitVec 12) : LaneState :=
  let L := L.setAdcOvr (if ch.val < 16 then 20 else 21) (code.toNat == 0 || code.toNat == 4095)
  { L with adc := { L.adc with hk := L.adc.hk.set ch code.toNat } }

theorem LaneState.holdHk_spec (L : LaneState) (ch : Fin 32) (code : BitVec 12) :
    Kept { parts := [.adc], regs := [R.adcStat] } L (L.holdHk ch code) ∧
    (L.holdHk ch code).adc.hk.get ch = code.toNat := by
  refine ⟨((Kept.refl _ L).setAdcOvr _ _ (by simp)).with_adc _ (by simp), ?_⟩
  simp [LaneState.holdHk]

/-- A conversion of a housekeeping channel (R64, R96). -/
theorem exec_hkConversion (s : State) (l : Lane) (ch : Fin 32) (code : BitVec 12) :
    exec (.hkConversion l ch code) s = .next (s.setLane l (let L := (s.lane l).holdHk ch code
      if ch.val = 12 then L.forAxes (fun n L => L.setSig (axisSig n 0x12) (wordI (voltsOf code.toNat))) else L)) := rfl

/-- A signal of every axis set to one word. -/
theorem LaneState.forAxes_setSig (L : LaneState) (o : Nat) (w : Word) :
    let M := L.forAxes (fun n L => L.setSig (axisSig n o) w)
    Kept { sigs := [0, 1, 2, 3].map fun n => axisSig n o } L M ∧ ∀ n : Axis, M.sig (axisSig n o) = w := by
  refine ⟨Kept.foldl (Kept.refl _ L) (fun n hn N hN => hN.setSig _ ?_), fun n => ?_⟩
  · have := List.mem_range.1 hn
    exact List.mem_map_of_mem (by simp; omega)
  · have : n.val = 0 ∨ n.val = 1 ∨ n.val = 2 ∨ n.val = 3 := by omega
    rcases this with h | h | h | h <;> simp [LaneState.forAxes, List.range, List.range.loop, axisSig, h]

end Sys2Proof.Machine

open Sys2Proof Sys2Proof.Machine

/-- Settles O19, clause by clause: a conversion with all legs measured, one with none, a housekeeping channel, and the
channel of the link voltage. -/
theorem axisSampling : Obligations.AxisSampling := by
  refine ⟨?_, ?_, ?_, ?_⟩
  · intro s l n cu cv cw cs cc hc
    simp only [List.forall_mem_cons] at hc
    obtain ⟨hu, hv, hw, hs, hcc, -⟩ := hc
    have codes := (s.lane l).holdCodes_code n cu.toNat cv.toNat cw.toNat cs.toNat cc.toNat
    generalize hH : (s.lane l).holdCodes n cu.toNat cv.toNat cw.toNat cs.toNat cc.toNat = H at codes
    have held : Kept { parts := [.adc] } (s.lane l) H := hH ▸ (Kept.refl _ _).with_adc _ (by simp)
    have tick : H.tickIdx = (s.lane l).tickIdx := by rw [← hH]; rfl
    have scale : ∀ f, H.getS f = (s.lane l).getS f := fun f => by rw [← hH]; rfl
    obtain ⟨on, sum, past, e⟩ := H.sample_measured n hu hv hw
    obtain ⟨shown, h3, h0, h1, h2, ht⟩ := H.showCurrents_spec n
      (wordI (currentOf cu.toNat (H.getS (R.axpIofs_ofs_u n)) (H.getS (R.axpIscale_k_i n))))
      (wordI (currentOf cv.toNat (H.getS (R.axpIofs_ofs_v n)) (H.getS (R.axpIscale_k_i n))))
      (wordI (currentOf cw.toNat (H.getS (R.axpIofs_ofs_w n)) (H.getS (R.axpIscale_k_i n))))
    generalize H.showCurrents n _ _ _ = N at e shown h3 h0 h1 h2 ht
    have judged := (N.judgeCurrents_spec n on sum past).1
    simp only [tick, scale] at shown h0 h1 h2 ht
    have hsig : ∀ i, (N.judgeCurrents n on sum past).sig i = N.sig i := fun i => judged.2.2.1 i (by simp)
    have hadc : (N.judgeCurrents n on sum past).adc = H.adc :=
      (judged.1 .adc (by simp)).trans (shown.1 .adc (by simp))
    refine ⟨_, (exec_adcConversionComplete hs hcc).trans (next_setLane s l (hH ▸ e)), ?_, ?_⟩
    · refine ((held.mono ?_).step (shown.mono ?_)).step (judged.mono ?_)
      all_goals exact ⟨by simp, by simp, by simp, by simp⟩
    · simp only [hsig, hadc]
      exact ⟨h3, ⟨h0, h1, h2, ht⟩, codes⟩
  · intro s l n cu cv cw cs cc hc
    simp only [List.forall_mem_cons] at hc
    obtain ⟨hu, hv, hw, hs, hcc, -⟩ := hc
    generalize hH : (s.lane l).holdCodes n cu.toNat cv.toNat cw.toNat cs.toNat cc.toNat = H
    have held : Kept { parts := [.adc] } (s.lane l) H := hH ▸ (Kept.refl _ _).with_adc _ (by simp)
    have reg : H.regulates n = (s.lane l).regulates n := by rw [← hH]; rfl
    obtain ⟨sum, past, e⟩ := H.sample_unmeasured n hu hv hw
    obtain ⟨shown, h3, hstale, hfine⟩ := H.showStale_spec n
    obtain ⟨judged, hon⟩ := (H.showStale n).judgeCurrents_spec n [] sum past
    refine ⟨_, (exec_adcConversionComplete hs hcc).trans (next_setLane s l (hH ▸ e)), ?_, ?_, ?_, ?_, hon⟩
    · refine ((held.mono ?_).step (shown.mono ?_)).step (judged.mono ?_)
      all_goals exact ⟨by simp, by simp, by simp, by simp⟩
    · exact (judged.2.2.1 _ (by simp)).trans h3
    · intro hr
      rw [LaneState.is, judged.get _ (by simp)]
      exact hstale (reg.trans hr)
    · intro hr
      exact ((judged.2.1 _ (by simp)).trans (hfine (reg.trans hr))).trans (held.2.1 _ (by simp))
  · intro s l ch code hch
    have h12 : ch.val ≠ 12 := fun h => hch (Fin.ext h)
    obtain ⟨held, hk⟩ := (s.lane l).holdHk_spec ch code
    refine ⟨_, (exec_hkConversion s l ch code).trans (next_setLane s l (if_neg h12)), held, hk⟩
  · intro s l code
    obtain ⟨held, hk⟩ := (s.lane l).holdHk_spec 12 code
    obtain ⟨shown, hv⟩ := ((s.lane l).holdHk 12 code).forAxes_setSig 0x12 (wordI (voltsOf code.toNat))
    refine ⟨_, (exec_hkConversion s l 12 code).trans (next_setLane s l (if_pos rfl)), ?_, ?_, hv⟩
    · exact (held.mono ⟨by simp, by simp, by simp, by simp⟩).step (shown.mono ⟨by simp, by simp, by simp, by simp⟩)
    · rw [show _ = _ from shown.1 .adc (by simp)]
      exact hk
end

section
/-! SUPPORT. The commands of an axis (R92 to R95): what a write stores, and what a command that falls due does. -/

namespace Sys2Proof.Machine

variable {F : Footprint} {L M : LaneState}

/-! ## The write of AXP_CMD -/

/-- The commands of AXP_CMD with their op codes. -/
def axpOps : List ((Lane → Axis → Req → BitVec 8 → Instr) × Nat) :=
  [(.arm, 1), (.disarm, 2), (.start, 3), (.stop, 4), (.hold, 5), (.resume, 6), (.free, 7), (.asc, 8)]

/-- Each command is the write of AXP_CMD with its op code. -/
theorem exec_axpOps {p : (Lane → Axis → Req → BitVec 8 → Instr) × Nat} (hp : p ∈ axpOps)
    (s : State) (l : Lane) (n : Axis)
    (q : Req) (at8 : BitVec 8) : exec (p.1 l n q at8) s = axpCommand l n q p.2 at8 s ∧ (p.1 l n q at8).lane = l ∧
      p.2 ≠ 0 ∧ p.2 ≤ 8 := by
  simp only [axpOps, List.mem_cons, List.not_mem_nil, or_false] at hp
  obtain rfl | rfl | rfl | rfl | rfl | rfl | rfl | rfl := hp <;> exact ⟨rfl, rfl, by decide, by decide⟩

/-- The fields of the word of AXP_CMD. -/
theorem bits_axpCmdWord {op : Nat} (h : op ≤ 8) (at8 : BitVec 8) :
    bits (axpCmdWord op at8).toNat 3 0 = op ∧ bits (axpCmdWord op at8).toNat 15 8 = at8.toNat := by
  have := at8.isLt
  simp only [axpCmdWord, wordN, BitVec.toNat_ofNat, bits]
  omega

/-- The lane with a command stored for its boundary (R94). -/
def LaneState.holdAxpCmd (L : LaneState) (n op at8 : Nat) : LaneState :=
  (((L.flagIf (L.is (R.axpState_pend n)) (R.axpStat_cmd_overwrite n)).put (R.axpState_pend n) 1).put
    (R.axpState_pend_op n) op).mapAx n (fun A => { A with pendAt := at8 })

/-- A write whose target lies 1 to 128 periods ahead is stored (R94). -/
theorem LaneState.wAxpCmd_stored {n op : Nat} {at8 : BitVec 8} (h0 : op ≠ 0) (h8 : op ≤ 8)
    (hd : (at8.toNat + 256 - L.pnum % 256) % 256 ≠ 0) (h128 : (at8.toNat + 256 - L.pnum % 256) % 256 ≤ 128) :
    L.wAxpCmd n (axpCmdWord op at8) = L.holdAxpCmd n op at8.toNat := by
  obtain ⟨hop, hat⟩ := bits_axpCmdWord h8 at8
  unfold LaneState.wAxpCmd
  simp only [hop, hat]
  rw [if_neg h0, if_neg (by omega), if_neg (by omega)]
  rfl

/-- A write whose target does not lie 1 to 128 periods ahead is late (R94). -/
theorem LaneState.wAxpCmd_late {n op : Nat} {at8 : BitVec 8} (h0 : op ≠ 0) (h8 : op ≤ 8)
    (hd : (at8.toNat + 256 - L.pnum % 256) % 256 = 0 ∨ 129 ≤ (at8.toNat + 256 - L.pnum % 256) % 256) :
    L.wAxpCmd n (axpCmdWord op at8) = L.flag (R.axpStat_cmd_late n) := by
  obtain ⟨hop, hat⟩ := bits_axpCmdWord h8 at8
  unfold LaneState.wAxpCmd
  simp only [hop, hat]
  rw [if_neg h0, if_neg (by omega), if_pos hd]

theorem LaneState.holdAxpCmd_spec (L : LaneState) (n : Axis) {op : Nat} (h8 : op ≤ 8) (at8 : Nat) :
    let M := L.holdAxpCmd n op at8
    Kept { parts := [.ax n], regs := [R.axpState n, R.axpStat n] } L M ∧ M.is (R.axpState_pend n) = true ∧
    M.get (R.axpState_pend_op n) = op ∧ (M.ax n).pendAt = at8 ∧ M.axis n = L.axis n ∧
    (L.is (R.axpState_pend n) = true → M.is (R.axpStat_cmd_overwrite n) = true) := by
  have hs : R.axpState n ≠ R.axpStat n := by simp only [R.axpState, R.axpStat]; omega
  refine ⟨?_, ?_, ?_, ?_, ?_, fun h => ?_⟩
  · exact ((((Kept.refl _ L).flagIf _ (by simp [R.axpStat_cmd_overwrite])).put _ (by simp [R.axpState_pend])).put _
      (by simp [R.axpState_pend_op])).mapAx _ (by simp)
  · rw [LaneState.is, LaneState.holdAxpCmd, LaneState.get_mapAx, LaneState.get_put_apart, LaneState.get_put_same] <;>
      simp [R.axpState_pend, R.axpState_pend_op]
  · rw [LaneState.holdAxpCmd, LaneState.get_mapAx, LaneState.get_put_same]
    · exact Nat.mod_eq_of_lt (by simp only [R.axpState_pend_op]; omega)
    · simp [R.axpState_pend_op]
    · simp [R.axpState_pend_op]
  · simp [LaneState.holdAxpCmd]
  · rw [LaneState.axis, LaneState.holdAxpCmd, LaneState.get_mapAx, LaneState.get_put_apart, LaneState.get_put_apart,
      LaneState.get_flagIf_apart, LaneState.axis] <;>
      simp [R.axpState_pend, R.axpState_pend_op, R.axpState_state, R.axpStat_cmd_overwrite, hs]
  · rw [LaneState.is, LaneState.holdAxpCmd, LaneState.get_mapAx, LaneState.get_put_ne, LaneState.get_put_ne, h]
    · exact LaneState.is_flag _ _ (by simp [R.axpStat_cmd_overwrite]) (by simp [R.axpStat_cmd_overwrite])
    · exact hs.symm
    · exact hs.symm

/-! ## A command that falls due -/

/-- The lane with the pending command taken out (R94). -/
def LaneState.takeAxpCmd (L : LaneState) (n : Nat) : LaneState :=
  (L.put (R.axpState_pend n) 0).put (R.axpState_pend_op n) 0

/-- A command taken out leaves every field but its own two. -/
theorem LaneState.get_takeAxpCmd (L : LaneState) (n : Nat) (f : RF)
    (h : f.addr ≠ R.axpState n ∨ 7 < f.lo ∨ f.hi < 3) : (L.takeAxpCmd n).get f = L.get f := by
  rw [LaneState.takeAxpCmd, LaneState.get_put_apart, LaneState.get_put_apart] <;>
    simp only [R.axpState_pend, R.axpState_pend_op] <;> omega

theorem LaneState.pend_takeAxpCmd (L : LaneState) (n : Nat) : (L.takeAxpCmd n).is (R.axpState_pend n) = false := by
  rw [LaneState.is, LaneState.takeAxpCmd, LaneState.get_put_apart, LaneState.get_put_same] <;>
    simp [R.axpState_pend, R.axpState_pend_op]

@[simp] theorem LaneState.axis_takeAxpCmd (L : LaneState) (n m : Nat) : (L.takeAxpCmd n).axis m = L.axis m :=
  L.get_takeAxpCmd n _ (.inr (.inr (by simp [R.axpState_state])))

theorem LaneState.stopping_takeAxpCmd (L : LaneState) (n : Nat) :
    (L.takeAxpCmd n).is (R.axpState_stopping n) = L.is (R.axpState_stopping n) :=
  congrArg (fun v : Nat => v != 0) (L.get_takeAxpCmd n _ (.inr (.inl (by simp [R.axpState_stopping]))))

theorem Kept.takeAxpCmd (h : Kept F L M) {n : Nat} (hr : R.axpState n ∈ F.regs) : Kept F L (M.takeAxpCmd n) :=
  (h.put _ hr).put _ hr

/-! What a command is judged by is as before it was taken out. -/

/-- A register that is no AXP_STATE keeps its fields when a command is taken out. -/
theorem LaneState.get_takeAxpCmd_ne (L : LaneState) (n : Axis) (f : RF)
    (h : f.addr < 0x40080084 ∨ 0x40083084 < f.addr ∨ f.addr % 0x1000 ≠ 0x84) : (L.takeAxpCmd n).get f = L.get f :=
  L.get_takeAxpCmd n f (.inl (by have := n.isLt; simp only [R.axpState]; omega))

theorem LaneState.mirrored_takeAxpCmd (L : LaneState) (n : Axis) (m : Nat) :
    (L.takeAxpCmd n).mirrored m = L.mirrored m := by
  unfold LaneState.mirrored LaneState.pairMode LaneState.pstate LaneState.bitOf
  simp (disch := decide) only [LaneState.get_takeAxpCmd_ne]

theorem LaneState.belay_takeAxpCmd (L : LaneState) (n : Axis) : (L.takeAxpCmd n).belay = L.belay :=
  LaneState.get_takeAxpCmd_ne _ _ _ (.inl (by decide))

theorem LaneState.startReady_takeAxpCmd (L : LaneState) (n : Axis) : (L.takeAxpCmd n).startReady n = L.startReady n := by
  unfold LaneState.startReady LaneState.is
  simp (disch := simp only [R.fldPsib_psib, R.fldPsib, R.fldPm_val, R.fldPm, R.fldLd_val, R.fldLd, R.fldLq_val, R.fldLq]; omega)
    only [LaneState.get_takeAxpCmd_ne]

theorem LaneState.loopPrompt_takeAxpCmd (L : LaneState) (n : Axis) (m : Nat) :
    (L.takeAxpCmd n).loopPrompt m = L.loopPrompt m := by
  unfold LaneState.loopPrompt
  simp (disch := simp only [R.axpLoopsel_le, R.axpLoopsel_loop, R.axpLoopsel]; omega) only [LaneState.get_takeAxpCmd_ne]
  rfl

theorem LaneState.armChecks_takeAxpCmd (L : LaneState) (n : Axis) : (L.takeAxpCmd n).armChecks n = L.armChecks n := by
  have sections : (L.takeAxpCmd n).dNsec = L.dNsec := rfl
  unfold LaneState.armChecks LaneState.fitted LaneState.fnNone LaneState.is LaneState.bitOf
  simp (disch := simp only [R.axpLoopsel_le, R.axpLoopsel_loop, R.axpLoopsel, R.axpCfg_fitted, R.axpCfg_safe,
    R.axpCfg_estop_en, R.axpCfg_estop_fn, R.axpCfg, R.edgeEuCfg_mode, R.edgeEuCfg, R.brgCfg_port_en, R.brgCfg_safe, R.brgCfg,
    R.tetherCfg_pair_en, R.tetherCfg_axes, R.tetherCfg, R.siuState_locked, R.siuState, R.siuFn_type, R.siuFn_owner, R.siuFn]; omega)
    only [LaneState.get_takeAxpCmd_ne, sections]
  rfl

theorem LaneState.schedLegal_takeAxpCmd (L : LaneState) (n : Axis) (m : Nat) :
    (L.takeAxpCmd n).schedLegal m = L.schedLegal m := by
  unfold LaneState.schedLegal LaneState.shareFits LaneState.armedWith LaneState.nTicks LaneState.tTick
  simp (disch := simp only [R.axpSched0_decode_end, R.axpSched0_profile_end, R.axpSched1_loop_end, R.axpSched1_share_dl,
      R.axpSched2_commit_tick, R.axpSched0, R.axpSched1, R.axpSched2, R.sysTick_tick, R.sysTick_n, R.sysTick]; omega)
    only [LaneState.get_takeAxpCmd_ne, LaneState.axis_takeAxpCmd]

theorem LaneState.readyAt_takeAxpCmd (L : LaneState) (n : Axis) : (L.takeAxpCmd n).readyAt = L.readyAt := by
  funext e fin k
  unfold LaneState.readyAt
  simp (disch := simp only [R.axpSched0_profile_end, R.axpSched0]; omega) only [LaneState.get_takeAxpCmd_ne]
  rfl

theorem LaneState.leSchedule_takeAxpCmd (L : LaneState) (n : Axis) : (L.takeAxpCmd n).leSchedule = L.leSchedule := by
  have pick : (L.takeAxpCmd n).pickLoop = L.pickLoop := by
    funext e fin
    unfold LaneState.pickLoop
    rw [LaneState.readyAt_takeAxpCmd]
    rfl
  funext e fuel t fin
  induction fuel generalizing t fin with
  | zero => rfl
  | succ fuel ih =>
    simp only [LaneState.leSchedule, pick, ih]
    rfl

theorem LaneState.loopsFit_takeAxpCmd (L : LaneState) (n : Axis) (m : Nat) :
    (L.takeAxpCmd n).loopsFit m = L.loopsFit m := by
  unfold LaneState.loopsFit LaneState.axRuns LaneState.axDriving
  simp (disch := simp only [R.axpLoopsel_le, R.axpLoopsel_loop, R.axpLoopsel, R.axpSched1_loop_end, R.axpSched1]; omega)
    only [LaneState.get_takeAxpCmd_ne, LaneState.leSchedule_takeAxpCmd, LaneState.axis_takeAxpCmd]
  rfl

/-! ## The state of an axis after a command -/

/-- A change of the state of an axis leaves the pending command. -/
theorem LaneState.pend_setAxis (L : LaneState) (n st : Nat) (hn : n < 4) :
    (L.setAxis n st).is (R.axpState_pend n) = L.is (R.axpState_pend n) := by
  have drop : ∀ X : LaneState, (X.profDrop n).get (R.axpState_pend n) = X.get (R.axpState_pend n) := fun X => by
    let G : Footprint := { parts := [.pr (axOf n)], regs := [R.profState n] }
    refine (Kept.profDrop (Kept.refl G X) (by simp [G]) (by simp [G])).get _ ?_
    simp only [G, List.mem_singleton, R.axpState_pend, R.axpState, R.profState]
    omega
  have stop : ∀ X : LaneState, (X.put (R.axpState_stopping n) 0).get (R.axpState_pend n) = X.get (R.axpState_pend n) :=
    fun X => X.get_put_apart _ _ _ (by simp [R.axpState_stopping]) (by simp [R.axpState_stopping, R.axpState_pend])
  have legs : ∀ X : LaneState, (X.legsFollow n st).get (R.axpState_pend n) = X.get (R.axpState_pend n) :=
    LaneState.get_legsFollow st _ (by simp only [R.axpState_pend, R.axpState]; omega)
  have state : ∀ X : LaneState, ((X.put (R.axpState_state n) st).setSig (axisSig n 0x40) (wordN st)).get
      (R.axpState_pend n) = X.get (R.axpState_pend n) := fun X =>
    X.get_put_apart _ _ _ (by simp [R.axpState_state]) (by simp [R.axpState_state, R.axpState_pend])
  have fresh : (L.loopsFresh n).get (R.axpState_pend n) = L.get (R.axpState_pend n) := rfl
  unfold LaneState.is LaneState.setAxis
  simp only [apply_ite (fun X : LaneState => X.get (R.axpState_pend n)), drop, stop, legs, state, fresh, ite_self]

/-- What START, HOLD and RESUME change beside the state of the axis: a plan, and the start of the set (R158, R170). -/
def Foot.motion (n : Nat) : Footprint :=
  (Foot.plan n).add { parts := [.edge, .fl (axOf n)], sigs := [axisSig n 0x33]
                      regs := [R.fldStat n, R.edgeEuLvl (3 * n), R.edgeEuLvl (3 * n + 1), R.edgeEuLvl (3 * n + 2)] }

theorem Kept.beginStart (h : Kept F L M) {n : Nat} (hf : F.Has (Foot.motion n)) : Kept F L (M.beginStart n) := by
  unfold LaneState.beginStart
  refine (((h.legsTo 0 (hf.1 _ (by simp [Foot.motion, Footprint.add])) (fun u hu => hf.2.1 _ ?_)).setF _ (hf.2.1 _ ?_)).setSig _
    (hf.2.2.1 _ (by simp [Foot.motion, Footprint.add]))).mapFl _ (hf.1 _ (by simp [Foot.motion, Footprint.add]))
  · simp only [List.mem_cons, List.not_mem_nil, or_false] at hu
    rcases hu with rfl | rfl | rfl <;> simp [Foot.motion, Footprint.add]
  · simp [Foot.motion, Footprint.add, R.fldStat_starting]

/-- What a command that falls due may change. -/
def Foot.due (n : Axis) : Footprint :=
  ((Foot.axis n).add (Foot.plan n)).add { parts := [.fl n], regs := [R.axpStat n, R.fldStat n] }

theorem Foot.due_axis (n : Axis) : (Foot.due n).Has (Foot.axis n) := (Footprint.has_left _ _).of_left

theorem Foot.due_plan (n : Axis) : (Foot.due n).Has (Foot.plan n) := (Footprint.has_right _ _).of_left

theorem Foot.due_state (n : Axis) : R.axpState n ∈ (Foot.due n).regs := by simp [Foot.due, Foot.axis, Footprint.add]

theorem Foot.due_motion (n : Axis) : (Foot.due n).Has (Foot.motion n) := by
  refine ⟨?_, ?_, ?_, ?_⟩ <;> simp [Foot.due, Foot.motion, Foot.axis, Foot.plan, Footprint.add]

theorem Foot.motion_state (n : Axis) : R.axpState n ∉ (Foot.motion n).regs := by
  simp only [Foot.motion, Foot.plan, Footprint.add, List.mem_append, List.mem_cons, List.not_mem_nil, or_false, R.axpState,
    R.profState, R.profStat, R.fldStat, R.edgeEuLvl]
  omega

/-- The state of an axis after a command that took it to `x`, with what the command started beside it (R93). -/
theorem LaneState.goes_setAxis {n : Axis} {x : Nat} (hx : x < 8)
    (k : Kept (Foot.motion n) ((L.takeAxpCmd n).setAxis n x) M) :
    Kept (Foot.due n) L M ∧ M.axis n = x ∧ M.is (R.axpState_pend n) = false := by
  have taken := (Kept.refl (Foot.due n) L).takeAxpCmd (Foot.due_state n)
  refine ⟨(taken.setAxis x (Foot.due_axis n)).step (k.mono (Foot.due_motion n)), ?_, ?_⟩
  · rw [LaneState.axis, k.get _ (Foot.motion_state n), LaneState.get_setAxis_state _ _ _ n.isLt, Nat.mod_eq_of_lt hx]
  · rw [LaneState.is, k.get _ (Foot.motion_state n)]
    exact (LaneState.pend_setAxis _ _ _ n.isLt).trans (L.pend_takeAxpCmd n)

/-! ## The transitions of a command (R93); START and RESUME on an axis that is not mirrored -/

section
variable {n op : Nat}

theorem LaneState.axpApply_arm (hop : op = 1) (h0 : L.axis n = axOff) (hb : participates L.belay = true)
    (hl : L.locked (R.axpLock n) = true) (hp : L.loopPrompt n = false) (hc : L.armChecks n = true)
    (hs : L.schedLegal n = true) (hf : L.loopsFit n = true) : L.axpApply n op = L.setAxis n axArmed := by
  simp [LaneState.axpApply, hop, h0, hb, hl, hp, hc, hs, hf]

theorem LaneState.axpApply_disarm (hop : op = 2) (h : L.axis n = axArmed ∨ L.axis n = axFree ∨ L.axis n = axAsc) :
    L.axpApply n op = L.setAxis n axOff := by
  rcases h with h | h | h <;> simp [LaneState.axpApply, hop, h]

theorem LaneState.axpApply_start (hop : op = 3) (hm : L.mirrored n = false)
    (h : L.axis n = axArmed ∨ L.axis n = axFree ∨ L.axis n = axAsc) (hr : L.startReady n = true) :
    L.axpApply n op = ((L.setAxis n axDrive).beginStart n).profStart n := by
  rcases h with h | h | h <;> simp [LaneState.axpApply, hop, h, hm, hr]

theorem LaneState.axpApply_stop (hop : op = 4) (h : L.axis n = axDrive ∨ L.axis n = axLimp) :
    L.axpApply n op = L.beginStop n := by
  rcases h with h | h <;> simp [LaneState.axpApply, hop, h]

theorem LaneState.axpApply_hold (hop : op = 5) (h : L.axis n = axDrive) (hs : L.is (R.axpState_stopping n) = false) :
    L.axpApply n op = (L.setAxis n axHold).profHold n := by
  simp [LaneState.axpApply, hop, h, hs]

theorem LaneState.axpApply_resume (hop : op = 6) (hm : L.mirrored n = false) (h : L.axis n = axHold) :
    L.axpApply n op = (L.setAxis n axDrive).profResume n := by
  simp [LaneState.axpApply, hop, h, hm]

theorem LaneState.axpApply_free (hop : op = 7) (h : L.axis n ≠ axOff) : L.axpApply n op = L.setAxis n axFree := by
  simp [LaneState.axpApply, hop, h]

theorem LaneState.axpApply_asc (hop : op = 8) (h : L.axis n ≠ axOff) : L.axpApply n op = L.setAxis n axAsc := by
  simp [LaneState.axpApply, hop, h]

end

/-- Every command but ARM is refused on an axis that is OFF (R93). -/
theorem LaneState.axpApply_off {n op : Nat} (h : L.axis n = axOff) (hop : op ∈ [2, 3, 4, 5, 6, 7, 8]) :
    L.axpApply n op = L.flag (R.axpStat_cmd_refused n) := by
  simp only [List.mem_cons, List.not_mem_nil, or_false] at hop
  rcases hop with rfl | rfl | rfl | rfl | rfl | rfl | rfl <;>
    simp [LaneState.axpApply, h, axOff, axArmed, axDrive, axHold, axAsc, axFree, axLimp]

/-- A pending command at its boundary is taken out and judged, or dropped (R94, R95). -/
theorem exec_axpCmdDue {s : State} {l : Lane} {n : Axis} (hp : (s.lane l).is (R.axpState_pend n) = true)
    (ha : ((s.lane l).ax n).pendAt = (s.lane l).pnum % 256) (hb : (s.lane l).coarse % (s.lane l).tServo = 0) :
    exec (.axpCmdDue l n) s = .next (s.setLane l (
      if ((s.lane l).ax n).higherAt = some (s.lane l).pnum then ((s.lane l).takeAxpCmd n).flag (R.axpStat_cmd_dropped n)
      else ((s.lane l).takeAxpCmd n).axpApply n ((s.lane l).get (R.axpState_pend_op n)))) := by
  have higher : ((s.lane l).takeAxpCmd n).ax n = (s.lane l).ax n := by simp [LaneState.takeAxpCmd]
  have servo : ((s.lane l).takeAxpCmd n).pnum = (s.lane l).pnum := by
    unfold LaneState.pnum LaneState.tServo LaneState.tTick LaneState.nTicks
    simp (disch := decide) only [LaneState.get_takeAxpCmd_ne]
    rfl
  rw [← higher, ← servo]
  exact next_setLane s l (LaneState.when_true _ _ (by simp [hp, ha, hb]))

/-- A command that falls due with nothing of higher precedence does what its transition does. -/
theorem Does.axpCmdDue {s : State} {l : Lane} {n : Axis} {P : LaneState → LaneState → Prop}
    (hp : (s.lane l).is (R.axpState_pend n) = true) (ha : ((s.lane l).ax n).pendAt = (s.lane l).pnum % 256)
    (hb : (s.lane l).coarse % (s.lane l).tServo = 0) (hh : ((s.lane l).ax n).higherAt ≠ some (s.lane l).pnum)
    (he : ((s.lane l).takeAxpCmd n).axpApply n ((s.lane l).get (R.axpState_pend_op n)) = M)
    (hk : Kept F (s.lane l) M) (hP : P (s.lane l) M) : Does s (.axpCmdDue l n) F P :=
  ⟨M, (exec_axpCmdDue hp ha hb).trans (next_setLane s l ((if_neg hh).trans he)), hk, hP⟩

/-- A flag of AXP_STAT set as a command is taken out: the axis stays. -/
theorem LaneState.flag_takeAxpCmd (L : LaneState) (n : Axis) {f : RF} (hf : f.addr = R.axpStat n) (h : f.lo ≤ f.hi)
    (hh : f.hi ≤ 31) :
    let M := (L.takeAxpCmd n).flag f
    Kept { regs := [R.axpState n, R.axpStat n] } L M ∧ M.is f = true ∧ M.is (R.axpState_pend n) = false ∧
      M.axis n = L.axis n := by
  have hs : R.axpState n ≠ f.addr := by rw [hf]; simp only [R.axpState, R.axpStat]; omega
  refine ⟨((Kept.refl _ L).takeAxpCmd (by simp)).flag (by simp [hf]), LaneState.is_flag _ _ h hh, ?_, ?_⟩
  · rw [LaneState.is, LaneState.flag_def, LaneState.get_put_ne _ _ _ _ hs]
    exact L.pend_takeAxpCmd n
  · rw [LaneState.axis, LaneState.flag_def, LaneState.get_put_ne _ _ _ _ hs]
    exact L.axis_takeAxpCmd n n

/-- A stop begun: the axis keeps its state and is stopping (R93). -/
theorem LaneState.beginStop_spec (L : LaneState) (n : Axis) :
    let M := (L.takeAxpCmd n).beginStop n
    Kept (Foot.due n) L M ∧ M.axis n = L.axis n ∧ M.is (R.axpState_stopping n) = true := by
  have plan : Kept (Foot.plan n) ((L.takeAxpCmd n).put (R.axpState_stopping n) 1) ((L.takeAxpCmd n).beginStop n) :=
    (Kept.refl _ _).planStop _ _ _ (Footprint.Has.refl _)
  have hs : R.axpState n ∉ (Foot.plan n).regs := by
    simp only [Foot.plan, List.mem_cons, List.not_mem_nil, or_false, R.axpState, R.profState, R.profStat]
    omega
  refine ⟨?_, ?_, ?_⟩
  · exact ((Kept.refl _ L).takeAxpCmd (Foot.due_state n)).beginStop (Foot.due_plan n) (Foot.due_state n)
  · rw [LaneState.axis, plan.get _ hs, LaneState.get_put_apart]
    · exact L.axis_takeAxpCmd n n
    · simp [R.axpState_stopping]
    · simp [R.axpState_stopping, R.axpState_state]
  · rw [LaneState.is, plan.get _ hs]
    exact LaneState.is_flag _ _ (by simp [R.axpState_stopping]) (by simp [R.axpState_stopping])

/-- A transition marked as of higher precedence (R95). -/
theorem LaneState.higherAt_markHigher (L : LaneState) (n : Nat) (h : L.coarse % L.tServo = 0) :
    ((L.markHigher n).ax n).higherAt = some L.pnum := by
  simp [LaneState.markHigher, h]

theorem LaneState.axis_markHigher (L : LaneState) (n m : Nat) : (L.markHigher n).axis m = L.axis m := by
  unfold LaneState.markHigher
  split
  · exact LaneState.get_mapAx ..
  · rfl

/-- Lane time and the servo period do not change with the state of an axis. -/
theorem LaneState.time_setAxis (L : LaneState) (n : Axis) (st : Nat) :
    (L.setAxis n st).coarse = L.coarse ∧ (L.setAxis n st).tServo = L.tServo := by
  have k : Kept (Foot.axis n) L (L.setAxis n st) := (Kept.refl _ L).setAxis st (Footprint.Has.refl _)
  have tick : R.sysTick ∉ (Foot.axis n).regs := by
    simp only [Foot.axis, List.mem_cons, List.not_mem_nil, or_false, R.sysTick, R.axpState, R.profState, R.edgeEuLvl]
    omega
  have time : (L.setAxis n st).time = L.time := k.1 .time (by simp [Foot.axis])
  constructor
  · rw [LaneState.coarse, time, LaneState.coarse]
  · rw [LaneState.tServo, LaneState.tTick, LaneState.nTicks, k.get _ tick, k.get _ tick]
    rfl

end Sys2Proof.Machine

open Sys2Proof Sys2Proof.Machine

/-- Settles O22, clause by clause: a command stored, a late one, the transitions of a command that falls due, a command
dropped or refused, a stop reached, the emergency stop, and the counts cleared. -/
theorem axisCommands : Obligations.AxisCommands := by
  refine ⟨?_, ?_, ?_, ?_, ?_, ?_, ?_⟩
  · intro s l n q at8 p hp hj h0 h128
    obtain ⟨e, hl, hne, h8⟩ := exec_axpOps hp s l n q at8
    obtain ⟨hk, hP⟩ := (s.lane l).holdAxpCmd_spec n h8 at8.toNat
    have hM := (LaneState.guardW_ok _ (fun L => L.wAxpCmd n (axpCmdWord p.2 at8)) hj).trans
      (LaneState.wAxpCmd_stored hne h8 h0 h128)
    exact Does.of_onLane e hl (hM ▸ hk) (hM ▸ hP)
  · intro s l n q at8 p hp hj hd
    obtain ⟨e, hl, hne, h8⟩ := exec_axpOps hp s l n q at8
    have hM := (LaneState.guardW_ok _ (fun L => L.wAxpCmd n (axpCmdWord p.2 at8)) hj).trans
      (LaneState.wAxpCmd_late hne h8 hd)
    refine Does.of_onLane e hl (hM ▸ (Kept.refl _ _).flag (by simp [R.axpStat_cmd_late])) (hM ▸ ?_)
    exact LaneState.is_flag _ _ (by simp [R.axpStat_cmd_late]) (by simp [R.axpStat_cmd_late])
  · intro s l n hp ha hb hh hm F st op rest goes
    have hm : ((s.lane l).takeAxpCmd n).mirrored n = false := (LaneState.mirrored_takeAxpCmd _ _ _).trans hm
    have hst : ((s.lane l).takeAxpCmd n).axis n = st := LaneState.axis_takeAxpCmd _ _ _
    have go : ∀ x M, x < 8 → ((s.lane l).takeAxpCmd n).axpApply n op = M →
        Kept (Foot.motion n) (((s.lane l).takeAxpCmd n).setAxis n x) M → goes x := fun x M hx he hk => by
      obtain ⟨hk, hP⟩ := LaneState.goes_setAxis hx hk
      exact Does.axpCmdDue hp ha hb hh he hk hP
    refine ⟨?_, ?_, ?_, ?_, ?_, ?_, ?_, ?_⟩
    · intro hop h0 hpart hlock hprompt hchecks hlegal hfit
      refine go _ _ (by decide) (LaneState.axpApply_arm hop (hst.trans h0) ?_ hlock ?_ ?_ ?_ ?_) (Kept.refl _ _)
      · rwa [LaneState.belay_takeAxpCmd]
      · rwa [LaneState.loopPrompt_takeAxpCmd]
      · rwa [LaneState.armChecks_takeAxpCmd]
      · rwa [LaneState.schedLegal_takeAxpCmd]
      · rwa [LaneState.loopsFit_takeAxpCmd]
    · intro hop h
      exact go _ _ (by decide) (LaneState.axpApply_disarm hop (hst ▸ h)) (Kept.refl _ _)
    · intro hop h hr
      have ready := ((s.lane l).startReady_takeAxpCmd n).trans hr
      exact go _ _ (by decide) (LaneState.axpApply_start hop hm (hst ▸ h) ready)
        (((Kept.refl _ _).beginStart (Footprint.Has.refl _)).profStart (Footprint.has_left _ _))
    · intro hop h hs
      have running := ((s.lane l).stopping_takeAxpCmd n).trans hs
      exact go _ _ (by decide) (LaneState.axpApply_hold hop (hst.trans h) running)
        ((Kept.refl _ _).profHold (Footprint.has_left _ _))
    · intro hop h
      exact go _ _ (by decide) (LaneState.axpApply_resume hop hm (hst.trans h))
        ((Kept.refl _ _).profResume (Footprint.has_left _ _))
    · intro hop h
      exact go _ _ (by decide) (LaneState.axpApply_free hop (hst ▸ h)) (Kept.refl _ _)
    · intro hop h
      exact go _ _ (by decide) (LaneState.axpApply_asc hop (hst ▸ h)) (Kept.refl _ _)
    · intro hop h
      obtain ⟨hk, hP⟩ := (s.lane l).beginStop_spec n
      exact Does.axpCmdDue hp ha hb hh (LaneState.axpApply_stop hop (hst ▸ h)) hk hP
  · intro s l n hp ha hb
    refine ⟨fun hh => ?_, fun hh h0 hop => ?_⟩
    · obtain ⟨hk, hd, hpend, hax⟩ := (s.lane l).flag_takeAxpCmd n (f := R.axpStat_cmd_dropped n) rfl
        (by simp [R.axpStat_cmd_dropped]) (by simp [R.axpStat_cmd_dropped])
      exact ⟨_, (exec_axpCmdDue hp ha hb).trans (next_setLane s l (if_pos hh)), hk, hd, hpend, hax⟩
    · obtain ⟨hk, hr, hpend, hax⟩ := (s.lane l).flag_takeAxpCmd n (f := R.axpStat_cmd_refused n) rfl
        (by simp [R.axpStat_cmd_refused]) (by simp [R.axpStat_cmd_refused])
      exact Does.axpCmdDue hp ha hb (by simp [hh]) (LaneState.axpApply_off ((LaneState.axis_takeAxpCmd ..).trans h0) hop) hk
        ⟨hr, hpend, hax.trans h0⟩
  · intro s l n hs hf hv hb
    refine ⟨_, next_setLane s l (LaneState.when_true _ _ (by simp [hs, hf, hv, hb])), ?_, ?_⟩
    · exact (Kept.refl _ _).setAxis _ (Footprint.Has.refl _)
    · exact LaneState.get_setAxis_state _ _ _ n.isLt
  · intro s l n he ha h0 h4
    obtain ⟨hc, ht⟩ := (s.lane l).time_setAxis n axAsc
    refine ⟨_, next_setLane s l (LaneState.when_true _ _ (by simp [he, ha, h0, h4])), ?_, ?_, fun hb => ?_⟩
    · exact ((Kept.refl _ _).setAxis _ (Footprint.has_left _ _)).markHigher (by simp [Footprint.add])
    · exact (LaneState.axis_markHigher _ _ _).trans (LaneState.get_setAxis_state _ _ _ n.isLt)
    · refine (LaneState.higherAt_markHigher _ n ?_).trans ?_
      · rw [hc, ht]
        exact hb
      · rw [LaneState.pnum, hc, ht]
        rfl
  · intro s l n q hj
    refine ⟨_, next_setLane s l (LaneState.guardW_ok _ _ hj), ?_, ?_⟩
    · exact (Kept.refl _ _).setReg 0 (by simp)
    · exact (LaneState.reg_setReg ..).trans (if_pos rfl)
end

section
/-! SUPPORT. The issue of a loop-engine instruction, said once: a run goes on with what its instruction does, or ends in
an engine fault (R193, R195, R210). -/

namespace Sys2Proof.Machine

variable {F : Footprint} {L M : LaneState} {e : Fin 2} {r r' : LeRun} {op cost cause : Nat}
  {f : LeRun → Nat → LaneState → LeRes}

/-- A run that has retired an instruction and goes on as `r'`. -/
def LaneState.retire (M : LaneState) (e : Fin 2) (r r' : LeRun) (cost : Nat) : LaneState :=
  M.mapLe e (fun E => { E with run := some { r' with pc := r.pc + 1, cycles := r.cycles + cost } })

/-- A run about to issue an instruction is of one of the 16 loops. -/
theorem LaneState.LeReady.loop_lt (h : L.LeReady e r op cost) : r.loop < 16 := by
  obtain ⟨-, -, -, -, -, hk⟩ := h
  exact hk

/-- An issue whose instruction goes on with the next word (R193, R210). -/
theorem LaneState.leIssue_go (h : L.LeReady e r op cost) (hop : op < 0x27)
    (hf : f { r with pc := r.pc + 1 } (L.leWord e r.pc) L = .go M { r' with pc := r.pc + 1 } cost) :
    L.leIssue e op .ok f = M.retire e r r' cost := by
  obtain ⟨hrun, hwait, hword, hbudget, hpc, -⟩ := h
  have hw : r.wait.isSome = false := by rw [hwait]; rfl
  have hb : ¬ L.dBudget e r.loop < r.cycles + cost := by omega
  have hp : ¬ 0xFFF < r.pc + 1 := by omega
  unfold LaneState.leIssue
  simp [hrun, hw, hword, Nat.not_le.2 hop, hf, LeRes.cost, hb, hp, LaneState.retire]

/-- An issue whose instruction ends in an engine fault (R195). -/
theorem LaneState.leIssue_fault (h : L.LeReady e r op cost) (hop : op < 0x27)
    (hf : f { r with pc := r.pc + 1 } (L.leWord e r.pc) L = .fault M cause cost) :
    L.leIssue e op .ok f = M.leFault e r cause (r.cycles + cost) := by
  obtain ⟨hrun, hwait, hword, hbudget, -, -⟩ := h
  have hw : r.wait.isSome = false := by rw [hwait]; rfl
  have hb : ¬ L.dBudget e r.loop < r.cycles + cost := by omega
  unfold LaneState.leIssue
  simp [hrun, hw, hword, Nat.not_le.2 hop, hf, LeRes.cost, hb]

/-- A run that goes on changes its engine's record alone. -/
theorem LaneState.retire_kept (M : LaneState) (e : Fin 2) (r r' : LeRun) (cost : Nat) :
    Kept { parts := [.le e] } M (M.retire e r r' cost) := (Kept.refl _ M).mapLe _ (by simp)

/-- A run goes on where its instruction keeps the engine's record. -/
theorem leRetired_retire (h : M.le e = L.le e) : LeRetired e L (M.retire e r r' cost) r r' cost := by
  rw [LeRetired, LaneState.retire, LaneState.le_mapLe, h]

/-- A command whose instruction goes on. -/
theorem Does.leGo {s : State} {l : Lane} {c : Instr} {P : LaneState → LaneState → Prop} (hx : exec c s = leRow l e op .ok s f)
    (hl : c.lane = l) (h : (s.lane l).LeReady e r op cost) (hop : op < 0x27)
    (hp : .le e ∈ F.parts) (hk : Kept F (s.lane l) M) (hP : P (s.lane l) (M.retire e r r' cost))
    (hf : f { r with pc := r.pc + 1 } ((s.lane l).leWord e r.pc) (s.lane l) = .go M { r' with pc := r.pc + 1 } cost) :
    Does s c F P := by
  have hi := LaneState.leIssue_go h hop hf
  exact Does.of_onLane hx hl (hi ▸ hk.mapLe _ (by simpa using hp)) (hi ▸ hP)

/-! ## Engine faults -/

/-- What the end of a run may change (R193, R204). -/
def Foot.leStop (e : Fin 2) (k : Nat) : Footprint :=
  { parts := [.le e], regs := [R.leLoopTime e k, R.leLoopStat e k, R.leBankStat e] }

/-- An engine outside a footprint keeps its record. -/
theorem Kept.le (h : Kept F L M) (hp : .le e ∉ F.parts) : M.le e = L.le e := h.1 (.le e) hp

theorem Kept.leBlendUpdate (h : Kept F L M) (hr : R.leBankStat e ∈ F.regs) : Kept F L (M.leBlendUpdate e) :=
  Kept.ite (fun _ => (h.setF _ hr).put _ hr) (fun _ => h.setF _ hr)

theorem Kept.leStop (r : LeRun) (cycles : Nat) : Kept (Foot.leStop e r.loop) L (L.leStop e r cycles) := by
  have hs : R.leLoopStat e r.loop ∈ (Foot.leStop e r.loop).regs := by simp [Foot.leStop]
  have ht : R.leLoopTime e r.loop ∈ (Foot.leStop e r.loop).regs := by simp [Foot.leStop]
  have ended : ∀ v, Kept (Foot.leStop e r.loop) L (((L.put (R.leLoopTime_last e r.loop) (satU 16 cycles)).put
      (R.leLoopTime_max e r.loop) v).mapLe e (fun E => { E with run := none })) := fun v =>
    (((Kept.refl _ L).put _ ht).put _ ht).mapLe _ (by simp [Foot.leStop])
  exact Kept.ite (fun _ => (((ended _).setF _ hs).put _ hs).leBlendUpdate (by simp [Foot.leStop])) (fun _ => ended _)

/-- The blend status keeps the record of every engine. -/
theorem LaneState.le_leBlendUpdate (L : LaneState) (e d : Nat) : (L.leBlendUpdate e).le d = L.le d := by
  unfold LaneState.leBlendUpdate
  dsimp only
  split <;> simp [LaneState.setF_def]

theorem LaneState.run_leStop (L : LaneState) (e : Fin 2) (r : LeRun) (cycles : Nat) :
    ((L.leStop e r cycles).le e).run = none := by
  unfold LaneState.leStop
  dsimp only
  split <;> simp [LaneState.setF_def, LaneState.le_leBlendUpdate]

/-- Whether an axis names a loop is read from its state and AXP_LOOPSEL (R213). -/
theorem Kept.named (h : Kept F L M) (hF : ∀ n < 4, R.axpState n ∉ F.regs ∧ R.axpLoopsel n ∉ F.regs) (e k : Nat) :
    M.named e k = L.named e k := by
  have field : ∀ n < 4, ∀ f : RF, f.addr = R.axpState n ∨ f.addr = R.axpLoopsel n → M.get f = L.get f :=
    fun n hn f hf => h.get f (by rcases hf with hf | hf <;> simp [hf, hF n hn])
  have names : ∀ n < 4, M.names n e k = L.names n e k := fun n hn => by
    unfold LaneState.names LaneState.axRuns LaneState.axDriving LaneState.axis
    rw [field n hn (R.axpState_state n) (.inl rfl), field n hn (R.axpLoopsel_le n) (.inr rfl),
      field n hn (R.axpLoopsel_loop n) (.inr rfl)]
  rw [Bool.eq_iff_iff]
  simp only [LaneState.named, List.any_eq_true, List.mem_range]
  exact exists_congr fun n => and_congr_right fun hn => by rw [names n hn]

/-- The record of an engine fault: the loop disabled, the first fault kept, the flag set (R195). -/
def LaneState.leRecord (S : LaneState) (e : Fin 2) (r : LeRun) (cause : Nat) : LaneState :=
  let S := S.setBit (R.leLoopEn_en e) r.loop false
  let S := if S.is (R.leStat_fault e) then S
    else ((S.put (R.leFlt_loop e) r.loop).put (R.leFlt_cause e) cause).put (R.leFlt_pc e) r.pc
  S.flag (R.leStat_fault e)

/-- An engine fault ends the run, records it, and raises 0x0D where an axis names the loop (R195). -/
theorem LaneState.leFault_eq (L : LaneState) (e : Fin 2) (r : LeRun) (cause cycles : Nat) :
    L.leFault e r cause cycles = if (L.leStop e r cycles).named e r.loop
      then ((L.leStop e r cycles).leRecord e r cause).raiseOwn 0x0D else (L.leStop e r cycles).leRecord e r cause := rfl

theorem LaneState.leRecord_kept (S : LaneState) (e : Fin 2) (r : LeRun) (cause : Nat) :
    Kept { regs := [R.leStat e, R.leFlt e, R.leLoopEn e] } S (S.leRecord e r cause) := by
  have disabled := (Kept.refl { regs := [R.leStat e, R.leFlt e, R.leLoopEn e] } S).setBit (f := R.leLoopEn_en e) r.loop false
    (by simp [R.leLoopEn_en])
  have hf : R.leFlt e ∈ [R.leStat e, R.leFlt e, R.leLoopEn e] := by simp
  exact (Kept.ite (fun _ => disabled) (fun _ => ((disabled.put (f := R.leFlt_loop e) _ hf).put (f := R.leFlt_cause e) _ hf).put
    (f := R.leFlt_pc e) _ hf)).flag (f := R.leStat_fault e) (by simp [R.leStat_fault])

theorem LaneState.le_leRecord (S : LaneState) (e : Fin 2) (r : LeRun) (cause d : Nat) : (S.leRecord e r cause).le d = S.le d := by
  unfold LaneState.leRecord
  dsimp only
  split <;> simp [LaneState.setBit_def, LaneState.flag_def]

theorem LaneState.is_leRecord (S : LaneState) (e : Fin 2) (r : LeRun) (cause : Nat) :
    (S.leRecord e r cause).is (R.leStat_fault e) = true :=
  LaneState.is_flag _ _ (by simp [R.leStat_fault]) (by simp [R.leStat_fault])

/-- The loop of a recorded fault is disabled. -/
theorem LaneState.bitOf_leRecord (S : LaneState) (e : Fin 2) {r : LeRun} (hk : r.loop < 16) (cause : Nat) :
    (S.leRecord e r cause).bitOf (R.leLoopEn_en e) r.loop = false := by
  have apart : ∀ (M : LaneState) (f : RF) (v : Nat), f.addr ≠ R.leLoopEn e →
      (M.put f v).get (R.leLoopEn_en e) = M.get (R.leLoopEn_en e) := fun M f v hf => M.get_put_ne f _ v hf.symm
  have flt : R.leFlt e ≠ R.leLoopEn e := by simp [R.leFlt, R.leLoopEn]
  have disabled := S.bitOf_setBit_same (R.leLoopEn_en e) r.loop false (by simp [R.leLoopEn_en]; omega)
    (by simp [R.leLoopEn_en])
  rw [← disabled, LaneState.bitOf, LaneState.bitOf, LaneState.leRecord, LaneState.flag_def,
    apart _ _ _ (by simp [R.leStat_fault, R.leStat, R.leLoopEn])]
  split
  · rfl
  · rw [apart _ _ _ flt, apart _ _ _ flt, apart _ _ _ flt]

/-- The first fault keeps its cause and its loop. -/
theorem LaneState.get_leRecord (S : LaneState) (e : Fin 2) (r : LeRun) {cause : Nat} (hc : cause < 16)
    (h : S.is (R.leStat_fault e) = false) : (S.leRecord e r cause).get (R.leFlt_cause e) = cause ∧
      (S.leRecord e r cause).get (R.leFlt_loop e) = r.loop % 16 := by
  have first : (S.setBit (R.leLoopEn_en e) r.loop false).is (R.leStat_fault e) = false := by
    rw [← h, LaneState.is, LaneState.is, LaneState.setBit_def,
      LaneState.get_put_ne _ _ _ _ (by simp [R.leStat_fault, R.leLoopEn_en, R.leStat, R.leLoopEn])]
  have stat : ∀ (M : LaneState) (f : RF), f.addr = R.leFlt e → (M.flag (R.leStat_fault e)).get f = M.get f :=
    fun M f hf => M.get_put_ne _ _ _ (by simp [hf, R.leFlt, R.leStat_fault, R.leStat])
  unfold LaneState.leRecord
  simp only [first, Bool.false_eq_true, if_false]
  constructor
  · rw [stat _ _ rfl, LaneState.get_put_apart _ (R.leFlt_pc e) _ _ (by simp [R.leFlt_pc]) (by simp [R.leFlt_pc, R.leFlt_cause]),
      LaneState.get_put_same _ _ _ (by simp [R.leFlt_cause]) (by simp [R.leFlt_cause])]
    exact Nat.mod_eq_of_lt hc
  · rw [stat _ _ rfl, LaneState.get_put_apart _ (R.leFlt_pc e) _ _ (by simp [R.leFlt_pc]) (by simp [R.leFlt_pc, R.leFlt_loop]),
      LaneState.get_put_apart _ (R.leFlt_cause e) _ _ (by simp [R.leFlt_cause]) (by simp [R.leFlt_cause, R.leFlt_loop]),
      LaneState.get_put_same _ _ _ (by simp [R.leFlt_loop]) (by simp [R.leFlt_loop])]
    rfl

/-- What an engine fault may change, and what it leaves (R195). -/
theorem LaneState.leFault_spec (L : LaneState) (e : Fin 2) {r : LeRun} (hk : r.loop < 16) {cause : Nat} (hc : cause < 16)
    (cycles : Nat) : Kept (Foot.leFault e r.loop) L (L.leFault e r cause cycles) ∧
      LeFaulted L (L.leFault e r cause cycles) e r cause := by
  have stop := Kept.leStop (L := L) (e := e) r cycles
  have run := L.run_leStop e r cycles
  have stat : (L.leStop e r cycles).is (R.leStat_fault e) = L.is (R.leStat_fault e) := by
    rw [LaneState.is, LaneState.is, stop.get]
    simp only [Foot.leStop, R.leStat_fault, R.leStat, R.leLoopTime, R.leLoopStat, R.leBankStat, List.mem_cons,
      List.not_mem_nil, or_false, not_or]
    omega
  have named : (L.leStop e r cycles).named e r.loop = L.named e r.loop := stop.named (fun n hn => by
    simp only [Foot.leStop, R.axpState, R.axpLoopsel, R.leLoopTime, R.leLoopStat, R.leBankStat, List.mem_cons,
      List.not_mem_nil, or_false, not_or]
    omega) e r.loop
  have id : (L.leStop e r cycles).id = L.id := stop.1 .id (by simp [Foot.leStop])
  have kept : Kept (Foot.leFault e r.loop) L ((L.leStop e r cycles).leRecord e r cause) :=
    (stop.mono ⟨by simp [Foot.leStop, Foot.leFault], by simp [Foot.leStop, Foot.leFault], by simp [Foot.leStop],
      by simp [Foot.leStop]⟩).trans (LaneState.leRecord_kept _ e r cause) (by simp)
      (by simp [Foot.leFault]) (by simp) (by simp)
  rw [LaneState.leFault_eq, named]
  generalize hS : L.leStop e r cycles = S at run stat id kept
  have hrec := S.leRecord_kept e r cause
  have flt := fun h => S.get_leRecord e r hc (stat.trans h)
  by_cases hn : L.named e r.loop = true
  · have apart : ∀ f : RF, f.addr ≠ R.belayStat →
        ((S.leRecord e r cause).raiseOwn 0x0D).get f = (S.leRecord e r cause).get f :=
      fun f hf => LaneState.get_raise _ _ _ f hf
    rw [if_pos hn]
    refine ⟨kept.raiseOwn _ (by simp [Foot.leFault]) (by simp [Foot.leFault]), ?_, ?_, ?_, fun h => ?_, fun _ => ?_⟩
    · rw [LaneState.raiseOwn, (LaneState.raise_kept _ _ _).le (by simp [Foot.raise]), LaneState.le_leRecord]
      exact run
    · rw [LaneState.is, apart _ (by simp [R.leStat_fault, R.leStat, R.belayStat]; omega)]
      exact S.is_leRecord e r cause
    · rw [LaneState.bitOf, apart _ (by simp [R.leLoopEn_en, R.leLoopEn, R.belayStat]; omega)]
      exact S.bitOf_leRecord e hk cause
    · rw [apart _ (by simp [R.leFlt_cause, R.leFlt, R.belayStat]; omega),
        apart _ (by simp [R.leFlt_loop, R.leFlt, R.belayStat]; omega)]
      exact flt h
    · rw [← id, ← hrec.1 .id (by simp)]
      exact LaneState.isRaised_raise _ _ _
  · rw [if_neg hn]
    exact ⟨kept, by rw [LaneState.le_leRecord]; exact run, S.is_leRecord e r cause, S.bitOf_leRecord e hk cause, flt,
      fun h => absurd h hn⟩

/-- A command whose instruction ends in an engine fault (R195). -/
theorem Does.leFaults {s : State} {l : Lane} {c : Instr} (hx : exec c s = leRow l e op .ok s f) (hl : c.lane = l)
    (h : (s.lane l).LeReady e r op cost) (hop : op < 0x27) (hc : cause < 16)
    (hf : f { r with pc := r.pc + 1 } ((s.lane l).leWord e r.pc) (s.lane l) = .fault (s.lane l) cause cost) :
    Does s c (Foot.leFault e r.loop) fun L M => LeFaulted L M e r cause := by
  obtain ⟨kept, faulted⟩ := (s.lane l).leFault_spec e h.loop_lt hc (r.cycles + cost)
  have hi := LaneState.leIssue_fault h hop hf
  exact Does.of_onLane hx hl (hi ▸ kept) (hi ▸ faulted)

end Sys2Proof.Machine
end

section
/-! SUPPORT. The data memory of a loop engine, its signals, and the instructions that read and write them (R186, R195,
R211, R212, R213, R214). -/

namespace Sys2Proof.Machine

variable {F : Footprint} {L M : LaneState} {e : Fin 2} {r r' : LeRun}

/-! ## Memory -/

/-- A load reads only its own bytes. -/
theorem LaneState.load_congr {a n : Nat} (h : ∀ j, a ≤ j → j < a + n → M.byte j = L.byte j) :
    M.load a n = L.load a n := by
  induction n generalizing a with
  | zero => rfl
  | succ n ih =>
    rw [LaneState.load, LaneState.load, h a (by omega) (by omega), ih fun j h1 h2 => h j (by omega) (by omega)]

/-- A load apart from what was stored reads as before. -/
theorem LaneState.load_store_apart (L : LaneState) {a n b m : Nat} (v : Nat) (h : a + n ≤ b ∨ b + m ≤ a) :
    (L.store b m v).load a n = L.load a n :=
  LaneState.load_congr fun j h1 h2 => by rw [LaneState.byte_store, if_neg (by omega)]

theorem LaneState.word_setWord (L : LaneState) (a : Nat) (w : Word) : (L.setWord a w).word a = w := by
  rw [LaneState.word, LaneState.setWord, LaneState.load_store, Nat.mod_eq_of_lt (by exact w.isLt), wordN_toNat]

/-- A word outside a footprint reads as before. -/
theorem Kept.word (h : Kept F L M) {a : Nat} (ha : ∀ j, a ≤ j → j < a + 4 → j ∉ F.bytes) : M.word a = L.word a := by
  rw [LaneState.word, LaneState.word, LaneState.load_congr fun j h1 h2 => h.2.2.2 j (ha j h1 h2)]

/-- The descriptors lie below the data memory that may be stored to (R189, R195). -/
theorem Kept.desc (h : Kept F L M) {e k i : Nat} (hk : k < 16) (hi : i < 16) (hF : ∀ j ∈ F.bytes, leData e 0x480 ≤ j) :
    M.desc e k i = L.desc e k i := by
  rw [LaneState.desc, LaneState.desc, h.word fun j h1 h2 hj => ?_]
  have := hF j hj
  unfold leData at *
  omega

/-- A section state reads as it was stored, where it fits 64 bits. -/
theorem LaneState.ld64_st64 (L : LaneState) (e a : Nat) {v : Int} (hlo : -2 ^ 63 ≤ v) (hhi : v < 2 ^ 63) :
    (L.st64 e a v).ld64 e a = v := by
  rw [LaneState.ld64, LaneState.st64, LaneState.load_store, wrapTo_mod _ (by norm_num)]
  exact sext_wrapTo (by norm_num) hlo hhi

theorem LaneState.ld64_st64_apart (L : LaneState) (e : Nat) {a b : Nat} (v : Int) (h : a + 8 ≤ b ∨ b + 8 ≤ a) :
    (L.st64 e b v).ld64 e a = L.ld64 e a := by
  rw [LaneState.ld64, LaneState.st64, LaneState.load_store_apart, ← LaneState.ld64]
  unfold leData
  omega

theorem Kept.st64 (h : Kept F L M) {e a : Nat} (v : Int) (ha : ∀ j, leData e a ≤ j → j < leData e a + 8 → j ∈ F.bytes) :
    Kept F L (M.st64 e a v) := h.store _ ha

theorem LaneState.le_store (L : LaneState) (a n v : Nat) (e : Fin 2) : (L.store a n v).le e = L.le e :=
  ((Kept.refl { bytes := List.range' a n } L).store v fun j h1 h2 => by simp; omega).le (by simp)

theorem LaneState.le_st64 (L : LaneState) (d a : Nat) (v : Int) (e : Fin 2) : (L.st64 d a v).le e = L.le e := L.le_store ..

/-! ## Signals -/

/-- A store to a signal of no exchange segment writes the signal. -/
theorem LaneState.masterSig_outside (L : LaneState) (q : Req) {i : Nat} (w : Word) (h : ∀ y, inSeg y i = false) :
    L.masterSig q i w = L.setSig i w := by
  simp [LaneState.masterSig, LaneState.inPeerSeg, h]

/-- A store to a signal of a peer's exchange segment is recorded (R50). -/
theorem LaneState.masterSig_peer (L : LaneState) (q : Req) {i : Nat} (w : Word) (h : L.inPeerSeg i = true) :
    L.masterSig q i w = L.recordViol q (0x20200000 + 4 * i) true 4 := by
  simp [LaneState.masterSig, h]

/-- A recorded violation shows (R523). -/
theorem LaneState.viol_recordViol (L : LaneState) (q : Req) (a : Nat) (b : Bool) (k : Nat) :
    (L.recordViol q a b k).is R.watStat_viol = true := by
  unfold LaneState.recordViol
  dsimp only
  split
  · rename_i h
    rw [LaneState.is, LaneState.flag_def, LaneState.get_put_apart _ _ _ _ (by decide) (by decide)]
    exact h
  · rw [LaneState.is, LaneState.get_setReg, if_neg (by decide), LaneState.get_put_ne _ _ _ _ (by decide),
      LaneState.get_put_ne _ _ _ _ (by decide), LaneState.get_put_ne _ _ _ _ (by decide),
      LaneState.get_put_ne _ _ _ _ (by decide), ← LaneState.is]
    exact LaneState.is_flag _ _ (by decide) (by decide)

/-! ## The instructions -/

variable {s : State} {l : Lane}

/-- LDD within data memory (R210). -/
theorem leLdd_reads (h : (s.lane l).LeReady e r 0x05 2) (ha : leReadable (leAddr r ((s.lane l).leWord e r.pc)) = true) :
    Does s (.leLdd l e .ok) { parts := [.le e] } fun L M =>
      let w := L.leWord e r.pc
      LeRetired e L M r (r.setQ (leD w) (L.word (leData e (leAddr r w))).toInt) 2 :=
  Does.leGo rfl rfl h (by decide) (by simp) (Kept.refl _ _) (leRetired_retire rfl) (if_pos ha)

theorem leLdd_faults (h : (s.lane l).LeReady e r 0x05 2) (ha : leReadable (leAddr r ((s.lane l).leWord e r.pc)) = false) :
    Does s (.leLdd l e .ok) (Foot.leFault e r.loop) fun L M => LeFaulted L M e r 3 :=
  Does.leFaults rfl rfl h (by decide) (by decide) (if_neg (Bool.eq_false_iff.1 ha))

/-- STD within the data memory that may be stored to (R210). -/
theorem leStd_stores (h : (s.lane l).LeReady e r 0x06 1) (ha : leStorable (leAddr r ((s.lane l).leWord e r.pc)) = true) :
    Does s (.leStd l e .ok)
      { parts := [.le e], bytes := List.range' (leData e (leAddr r ((s.lane l).leWord e r.pc))) 4 } fun L M =>
      let w := L.leWord e r.pc
      LeRetired e L M r r 1 ∧ M.word (leData e (leAddr r w)) = wordI (r.qv (leB w)) := by
  have kept := (Kept.refl { parts := [.le e], bytes := List.range' (leData e (leAddr r ((s.lane l).leWord e r.pc))) 4 }
    (s.lane l)).setWord (a := leData e (leAddr r ((s.lane l).leWord e r.pc))) (wordI (r.qv (leB ((s.lane l).leWord e r.pc))))
    fun j h1 h2 => by simp; omega
  refine Does.leGo rfl rfl h (by decide) (by simp) kept ⟨leRetired_retire (LaneState.le_store ..), ?_⟩ (if_pos ha)
  rw [(LaneState.retire_kept ..).word (by simp), LaneState.word_setWord]

theorem leStd_faults (h : (s.lane l).LeReady e r 0x06 1) (ha : leStorable (leAddr r ((s.lane l).leWord e r.pc)) = false) :
    Does s (.leStd l e .ok) (Foot.leFault e r.loop) fun L M => LeFaulted L M e r 3 :=
  Does.leFaults rfl rfl h (by decide) (by decide) (if_neg (Bool.eq_false_iff.1 ha))

/-- LDS takes 6 cycles and its wait (R212). -/
theorem leLds_reads {v : Fin 4} (h : (s.lane l).LeReady e r 0x07 (6 + v.val)) :
    Does s (.leLds l e .ok v) { parts := [.le e] } fun L M =>
      let w := L.leWord e r.pc
      LeRetired e L M r (r.setQ (leD w) (L.sigS (leImm18 w))) (6 + v.val) :=
  Does.leGo rfl rfl h (by decide) (by simp) (Kept.refl _ _) (leRetired_retire rfl) rfl

/-- STS of a signal of no exchange segment. -/
theorem leSts_stores {v : Fin 4} (h : (s.lane l).LeReady e r 0x08 (6 + v.val))
    (ho : ∀ y, inSeg y (leImm18 ((s.lane l).leWord e r.pc)) = false) :
    Does s (.leSts l e .ok v) { parts := [.le e], sigs := [leImm18 ((s.lane l).leWord e r.pc)] } fun L M =>
      let w := L.leWord e r.pc
      LeRetired e L M r r (6 + v.val) ∧ M.sig (leImm18 w) = wordI (r.qv (leD w)) := by
  refine Does.leGo rfl rfl h (by decide) (by simp) ((Kept.refl _ _).setSig _ (by simp))
    ⟨leRetired_retire (LaneState.le_setSig ..), ?_⟩ (congrArg (LeRes.go · _ _) (LaneState.masterSig_outside _ _ _ ho))
  rw [LaneState.retire, LaneState.sig_mapLe, LaneState.sig_setSig, if_pos rfl]
  rfl

/-- STS of a signal of a peer's exchange segment (R50). -/
theorem leSts_viol {v : Fin 4} (h : (s.lane l).LeReady e r 0x08 (6 + v.val))
    (hi : (s.lane l).inPeerSeg (leImm18 ((s.lane l).leWord e r.pc)) = true) :
    Does s (.leSts l e .ok v) (Foot.viol.add { parts := [.le e] }) fun L M =>
      LeRetired e L M r r (6 + v.val) ∧ M.is R.watStat_viol = true := by
  have kept : ∀ a, Kept Foot.viol (s.lane l) ((s.lane l).recordViol (leReq e) a true 4) := fun a =>
    (Kept.refl _ _).recordViol _ a true 4 (by simp [Foot.viol])
  refine Does.leGo rfl rfl h (by decide) (by simp [Footprint.add]) ((kept _).mono ?_)
    ⟨leRetired_retire ((kept _).le (by simp [Foot.viol])), ?_⟩
    (congrArg (LeRes.go · _ _) (LaneState.masterSig_peer _ _ _ hi))
  · exact ⟨by simp [Foot.viol], by simp [Foot.viol, Footprint.add], by simp [Foot.viol], by simp [Foot.viol]⟩
  · rw [LaneState.is, (LaneState.retire_kept ..).get _ (by simp)]
    exact LaneState.viol_recordViol ..

/-! ## Tables -/

/-- A table within data memory is interpolated (R211). -/
theorem leLut_reads (h : (s.lane l).LeReady e r 0x1C 5) {d base k : Nat}
    (hd : ((s.lane l).word (leData e (0x400 + 8 * bits ((s.lane l).leWord e r.pc) 3 0))).toNat = d) (hb : bits d 13 0 = base)
    (hk : bits d 17 14 = k) (ht : 1 ≤ k ∧ k ≤ 10 ∧ leReadable base = true ∧ base + 4 * (2 ^ k + 1) ≤ 0x4000) :
    Does s (.leLut l e .ok) { parts := [.le e] } fun L M =>
      let w := L.leWord e r.pc
      let u := (wordI (r.qv (leA w)) ^^^ 0x80000000#32).toNat
      let e0 := (L.word (leData e (base + 4 * (u / 2 ^ (32 - k))))).toInt
      let e1 := (L.word (leData e (base + 4 * (u / 2 ^ (32 - k)) + 4))).toInt
      LeRetired e L M r (r.setQ (leD w) (e0 + (e1 - e0) * (u * 2 ^ k % 2 ^ 32 : Nat) / 2 ^ 32)) 5 := by
  subst hd hb hk
  obtain ⟨h1, h2, h3, h4⟩ := ht
  refine Does.leGo rfl rfl h (by decide) (by simp) (Kept.refl _ _) (leRetired_retire rfl) (if_neg ?_)
  simp only [h3, Bool.not_true, Bool.false_eq_true, false_or]
  omega

theorem leLut_faults (h : (s.lane l).LeReady e r 0x1C 5) {d k : Nat}
    (hd : ((s.lane l).word (leData e (0x400 + 8 * bits ((s.lane l).leWord e r.pc) 3 0))).toNat = d) (hk : bits d 17 14 = k)
    (ht : k = 0 ∨ 10 < k) : Does s (.leLut l e .ok) (Foot.leFault e r.loop) fun L M => LeFaulted L M e r 3 := by
  subst hd hk
  exact Does.leFaults rfl rfl h (by decide) (by decide) (if_pos (ht.imp_right .inl))

/-! ## Results and waits -/

/-- What the result of a loop may change: its engine, its axis, the axis' signal (R213). -/
def Foot.leResult (e : Fin 2) (n : Nat) : Footprint := { parts := [.le e, .ax (axOf n)], sigs := [axisSig n 0x30] }

@[simp] theorem LaneState.ax_mapLe (L : LaneState) (e n : Nat) (f : LeSt → LeSt) : (L.mapLe e f).ax n = L.ax n := by
  rcases e with _ | e <;> rfl

@[simp] theorem LaneState.le_mapAx (L : LaneState) (n e : Nat) (f : AxisSt → AxisSt) : (L.mapAx n f).le e = L.le e := by
  rcases n with _ | _ | _ | n <;> rfl

/-- A loop that an axis names: the axis of its descriptor (R189, R213). -/
theorem LaneState.dAxis_lt (L : LaneState) (e k : Nat) : L.dAxis e k < 4 := bits_lt _ _ _

/-- A run that has had its result keeps it and shows dup (R213). -/
theorem leDup_dup (M : LaneState) (r : LeRun) (cost : Nat) :
    ((M.flag (R.leStat_dup e)).retire e r r' cost).is (R.leStat_dup e) = true := by
  rw [LaneState.is, (LaneState.retire_kept ..).get _ (by simp)]
  exact LaneState.is_flag _ _ (by simp [R.leStat_dup]) (by simp [R.leStat_dup])

/-- The first SHARE of a TICK loop that its axis names writes the result; in time, it is the record's value (R77, R213). -/
theorem leShare_shares {stamp : BitVec 64} (h : (s.lane l).LeReady e r 0x22 2) (hr : r.shared = false)
    (hn : (s.lane l).names ((s.lane l).dAxis e r.loop) e r.loop = true) (hp : (s.lane l).dPrompt e r.loop = false) :
    Does s (.leShare l e .ok stamp) (Foot.leResult e ((s.lane l).dAxis e r.loop)) fun L M =>
      LeRetired e L M r { r with shared := true } 2 ∧
      M.sig (axisSig (L.dAxis e r.loop) 0x30) = wordI (r.qv (leA (L.leWord e r.pc))) ∧
      (r.period = L.pnum →
        stamp.toNat < (r.period * L.tServo + L.get (R.axpSched1_loop_end (L.dAxis e r.loop))) * 64 →
        (M.ax (L.dAxis e r.loop)).ownDone = true) := by
  have kept := (Kept.refl (Foot.leResult e ((s.lane l).dAxis e r.loop)) (s.lane l)).setSig
    (i := axisSig ((s.lane l).dAxis e r.loop) 0x30)
    (wordI (r.qv (leA ((s.lane l).leWord e r.pc)))) (by simp [Foot.leResult])
  by_cases ht : (r.period == (s.lane l).pnum && decide (stamp.toNat < (r.period * (s.lane l).tServo +
    (s.lane l).get (R.axpSched1_loop_end ((s.lane l).dAxis e r.loop))) * 64)) = true
  · refine Does.leGo rfl rfl h (by decide) (by simp [Foot.leResult]) (kept.mapAx
      (n := (s.lane l).dAxis e r.loop) (fun A => { A with ownDone := true }) (by simp [Foot.leResult]))
      ⟨leRetired_retire (by simp), by simp [LaneState.retire], fun _ _ => by simp [LaneState.retire]⟩ ?_
    simp only [hr, hn, hp]
    exact congrArg (LeRes.go · _ _) (if_pos ht)
  · refine Does.leGo rfl rfl h (by decide) (by simp [Foot.leResult]) kept
      ⟨leRetired_retire (by simp), by simp [LaneState.retire], fun h1 h2 => absurd (by rw [h1]; simpa [h1] using h2) ht⟩ ?_
    simp only [hr, hn, hp]
    exact congrArg (LeRes.go · _ _) (if_neg ht)

theorem leShare_dup {stamp : BitVec 64} (h : (s.lane l).LeReady e r 0x22 2) (hr : r.shared = true) :
    Does s (.leShare l e .ok stamp) { parts := [.le e], regs := [R.leStat e] } fun L M =>
      LeRetired e L M r r 2 ∧ M.is (R.leStat_dup e) = true :=
  Does.leGo rfl rfl h (by decide) (by simp) ((Kept.refl _ _).flag (by simp [R.leStat_dup]))
    ⟨leRetired_retire (LaneState.le_put ..), leDup_dup _ r 2⟩ (if_pos hr)

/-- The first COMMIT of a PROMPT loop that its axis names, committed 200 ns later (R75, R213). -/
theorem leCommit_commits {stamp : BitVec 64} (h : (s.lane l).LeReady e r 0x23 2) (hr : r.shared = false)
    (hn : (s.lane l).names ((s.lane l).dAxis e r.loop) e r.loop = true) (hp : (s.lane l).dPrompt e r.loop = true) :
    Does s (.leCommit l e .ok stamp) (Foot.leResult e ((s.lane l).dAxis e r.loop)) fun L M =>
      let v := wordI (r.qv (leA (L.leWord e r.pc)))
      LeRetired e L M r { r with shared := true } 2 ∧ M.sig (axisSig (L.dAxis e r.loop) 0x30) = v ∧
      (M.ax (L.dAxis e r.loop)).prompt = some (v, (stamp.toNat + 63) / 64 + 40) := by
  have kept := ((Kept.refl (Foot.leResult e ((s.lane l).dAxis e r.loop)) (s.lane l)).setSig
    (i := axisSig ((s.lane l).dAxis e r.loop) 0x30)
    (wordI (r.qv (leA ((s.lane l).leWord e r.pc)))) (by simp [Foot.leResult])).mapAx
    (n := (s.lane l).dAxis e r.loop) (fun A => { A with
    prompt := some (wordI (r.qv (leA ((s.lane l).leWord e r.pc))), (stamp.toNat + 63) / 64 + 40), ownDone := true })
    (by simp [Foot.leResult])
  refine Does.leGo rfl rfl h (by decide) (by simp [Foot.leResult]) kept
    ⟨leRetired_retire (by simp), by simp [LaneState.retire], by simp [LaneState.retire]⟩ ?_
  simp only [hr, hn, hp]
  rfl

/-- The first COMMIT of a loop that no axis names writes its signal out_id (R213). -/
theorem leCommit_unnamed {stamp : BitVec 64} (h : (s.lane l).LeReady e r 0x23 2) (hr : r.shared = false)
    (hn : (s.lane l).named e r.loop = false) (ho : ∀ y, inSeg y ((s.lane l).dOutId e r.loop) = false) :
    Does s (.leCommit l e .ok stamp) { parts := [.le e], sigs := [(s.lane l).dOutId e r.loop] } fun L M =>
      LeRetired e L M r { r with shared := true } 2 ∧
      M.sig (L.dOutId e r.loop) = wordI (r.qv (leA (L.leWord e r.pc))) := by
  have unnamed : (s.lane l).names ((s.lane l).dAxis e r.loop) e r.loop = false := by
    simp only [LaneState.named, List.any_eq_false, List.mem_range, Bool.not_eq_true] at hn
    exact hn _ (LaneState.dAxis_lt ..)
  have kept := (Kept.refl { parts := [.le e], sigs := [(s.lane l).dOutId e r.loop] } (s.lane l)).setSig
    (i := (s.lane l).dOutId e r.loop) (wordI (r.qv (leA ((s.lane l).leWord e r.pc)))) (by simp)
  refine Does.leGo rfl rfl h (by decide) (by simp) kept ⟨leRetired_retire (LaneState.le_setSig ..), ?_⟩ ?_
  · rw [LaneState.retire, LaneState.sig_mapLe, LaneState.sig_setSig, if_pos rfl]
  · simp only [hr, unnamed, hn, LaneState.masterSig_outside _ _ _ ho]
    rfl

/-- A WAIT whose condition holds goes on; another holds the run (R214). -/
theorem leWait_done {stamp : BitVec 64} (h : (s.lane l).LeReady e r 0x24 1)
    (hd : (s.lane l).waitDone e { r with pc := r.pc + 1 } (leA ((s.lane l).leWord e r.pc)) (leImm14 ((s.lane l).leWord e r.pc))
      (stamp.toNat / 64 - r.period * (s.lane l).tServo) = true) :
    Does s (.leWait l e .ok stamp) { parts := [.le e] } fun L M => LeRetired e L M r r 1 :=
  Does.leGo rfl rfl h (by decide) (by simp) (Kept.refl _ _) (leRetired_retire rfl) (if_pos hd)

theorem leWait_holds {stamp : BitVec 64} (h : (s.lane l).LeReady e r 0x24 1)
    (hd : (s.lane l).waitDone e { r with pc := r.pc + 1 } (leA ((s.lane l).leWord e r.pc)) (leImm14 ((s.lane l).leWord e r.pc))
      (stamp.toNat / 64 - r.period * (s.lane l).tServo) = false) :
    Does s (.leWait l e .ok stamp) { parts := [.le e] } fun L M =>
      let w := L.leWord e r.pc
      LeRetired e L M r { r with wait := some (leA w, leImm14 w) } 1 :=
  Does.leGo rfl rfl h (by decide) (by simp) (Kept.refl _ _) (leRetired_retire rfl) (if_neg (Bool.eq_false_iff.1 hd))

/-- A held run goes on once its condition is true within its budget (R214). -/
theorem leWaitRelease_goes {stamp : BitVec 64} {waited : BitVec 16} {m t : Nat} (hrun : ((s.lane l).le e).run = some r)
    (hwait : r.wait = some (m, t))
    (hd : (s.lane l).waitDone e r m t (stamp.toNat / 64 - r.period * (s.lane l).tServo) = true)
    (hb : r.cycles + waited.toNat ≤ (s.lane l).dBudget e r.loop) :
    Does s (.leWaitRelease l e stamp waited) { parts := [.le e] } fun L M =>
      M.le e = { L.le e with run := some { r with wait := none, cycles := r.cycles + waited.toNat } } := by
  have hx : exec (.leWaitRelease l e stamp waited) s = onLane s l fun L => L.mapLe e fun E =>
      { E with run := some { r with wait := none, cycles := r.cycles + waited.toNat } } := by
    refine next_setLane s l ?_
    simp only [hrun, hwait]
    exact LaneState.when_true _ _ (by simp [hd, hb])
  exact Does.of_onLane hx rfl ((Kept.refl _ _).mapLe _ (by simp)) (LaneState.le_mapLe ..)

end Sys2Proof.Machine
end

section
/-! SUPPORT. Sections of a loop in data memory: preset and read (R210), run (R198), wound back (R200); the set that REG
selects (R202). -/

namespace Sys2Proof.Machine

variable {F : Footprint} {L M N : LaneState} {e : Fin 2} {r r' : LeRun} {s : State} {l : Lane}

theorem LaneState.ld64_retire (M : LaneState) (e : Fin 2) (r r' : LeRun) (cost a : Nat) :
    (M.retire e r r' cost).ld64 e a = M.ld64 e a :=
  congrArg (sext 64) (LaneState.load_congr fun _ _ _ => LaneState.byte_mapLe ..)

/-- A q register is a signed number of 32 bits. -/
theorem LeRun.qv_bounds (r : LeRun) (i : Nat) : -2 ^ 31 ≤ r.qv i ∧ r.qv i < 2 ^ 31 :=
  ⟨BitVec.le_toInt _, BitVec.toInt_lt⟩

/-- The program counter is no register. -/
theorem LeRun.qv_pc (r : LeRun) (pc i : Nat) : LeRun.qv { r with pc := pc } i = r.qv i := rfl

/-! ## PRE and RDS -/

/-- A section preset to a state. -/
def LaneState.preset (L : LaneState) (e a : Nat) (v : Int) : LaneState :=
  (((L.st64 e a v).st64 e (a + 8) 0).st64 e (a + 16) v).st64 e (a + 24) 0

theorem Kept.preset (L : LaneState) (e a : Nat) (v : Int) :
    Kept { bytes := List.range' (leData e a) 32 } L (L.preset e a v) := by
  have within : ∀ k, k + 8 ≤ 32 → ∀ j, leData e (a + k) ≤ j → j < leData e (a + k) + 8 →
      j ∈ List.range' (leData e a) 32 := fun k hk j h1 h2 => by
    unfold leData at *
    rw [List.mem_range'_1]
    omega
  exact ((((Kept.refl _ L).st64 _ (within 0 (by omega))).st64 _ (within 8 (by omega))).st64 _ (within 16 (by omega))).st64 _
    (within 24 (by omega))

/-- A preset section reads as it was preset. -/
theorem LaneState.ld64_preset (L : LaneState) (e a : Nat) {v : Int} (hlo : -2 ^ 63 ≤ v) (hhi : v < 2 ^ 63) :
    (L.preset e a v).ld64 e a = v ∧ (L.preset e a v).ld64 e (a + 8) = 0 ∧
      (L.preset e a v).ld64 e (a + 16) = v ∧ (L.preset e a v).ld64 e (a + 24) = 0 := by
  have same : ∀ (M : LaneState) (b : Nat), (M.st64 e b v).ld64 e b = v := fun M b => M.ld64_st64 e b hlo hhi
  have zero : ∀ (M : LaneState) (b : Nat), (M.st64 e b 0).ld64 e b = 0 := fun M b => M.ld64_st64 e b (by norm_num) (by norm_num)
  unfold LaneState.preset
  refine ⟨?_, ?_, ?_, zero _ _⟩
  · rw [ld64_st64_apart _ _ _ (by omega), ld64_st64_apart _ _ _ (by omega), ld64_st64_apart _ _ _ (by omega), same]
  · rw [ld64_st64_apart _ _ _ (by omega), ld64_st64_apart _ _ _ (by omega), zero]
  · rw [ld64_st64_apart _ _ _ (by omega), same]

/-- The value that PRE presets fits 64 bits. -/
theorem preValue_bounds {x : Int} (hx : -2 ^ 31 ≤ x ∧ x < 2 ^ 31) (packed : Bool) :
    -2 ^ 63 ≤ (if packed then x / 2 else x * 2 ^ 15) ∧ (if packed then x / 2 else x * 2 ^ 15) < 2 ^ 63 := by
  split <;> omega

theorem lePre_presets (h : (s.lane l).LeReady e r 0x25 2) {j : Nat} (hw : bits ((s.lane l).leWord e r.pc) 13 9 = j)
    (hj : j < (s.lane l).dNsec e r.loop) (ho : (s.lane l).secOk e r.loop j = true) :
    Does s (.lePre l e .ok)
      { parts := [.le e], bytes := List.range' (leData e ((s.lane l).secAddr e r.loop j)) 32 } fun L M =>
      let a := L.secAddr e r.loop j
      let x := r.qv (leA (L.leWord e r.pc))
      let v := if L.dPacked e r.loop then x / 2 else x * 2 ^ 15
      LeRetired e L M r r 2 ∧ M.ld64 e a = v ∧ M.ld64 e (a + 8) = 0 ∧ M.ld64 e (a + 16) = v ∧ M.ld64 e (a + 24) = 0 := by
  subst hw
  have bounds := preValue_bounds (r.qv_bounds (leA ((s.lane l).leWord e r.pc))) ((s.lane l).dPacked e r.loop)
  have kept := Kept.preset (s.lane l) e ((s.lane l).secAddr e r.loop (bits ((s.lane l).leWord e r.pc) 13 9))
    (if (s.lane l).dPacked e r.loop then r.qv (leA ((s.lane l).leWord e r.pc)) / 2
      else r.qv (leA ((s.lane l).leWord e r.pc)) * 2 ^ 15)
  refine Does.leGo rfl rfl h (by decide) (by simp) (kept.mono ⟨by simp, by simp, by simp, fun _ => id⟩)
    ⟨leRetired_retire (kept.le (by simp)), ?_⟩ ?_
  · simp only [LaneState.ld64_retire]
    exact LaneState.ld64_preset _ _ _ bounds.1 bounds.2
  · exact (if_neg (Nat.not_le.2 hj)).trans (if_neg (by simp [ho]))

theorem lePre_faults (h : (s.lane l).LeReady e r 0x25 2)
    (hj : (s.lane l).dNsec e r.loop ≤ bits ((s.lane l).leWord e r.pc) 13 9) :
    Does s (.lePre l e .ok) (Foot.leFault e r.loop) fun L M => LeFaulted L M e r 7 :=
  Does.leFaults rfl rfl h (by decide) (by decide) (if_pos hj)

theorem leRds_reads (h : (s.lane l).LeReady e r 0x26 1)
    (ha : leReadable ((s.lane l).secAddr e r.loop (bits ((s.lane l).leWord e r.pc) 13 9)) = true)
    (hb : (s.lane l).secAddr e r.loop (bits ((s.lane l).leWord e r.pc) 13 9) + 8 ≤ 0x4000) :
    Does s (.leRds l e .ok) { parts := [.le e] } fun L M =>
      let w := L.leWord e r.pc
      let v := L.ld64 e (L.secAddr e r.loop (bits w 13 9))
      LeRetired e L M r (r.setQ (leD w) (if L.dPacked e r.loop then satS 32 (v * 2) else satS 32 (rshRound 15 v))) 1 :=
  Does.leGo rfl rfl h (by decide) (by simp) (Kept.refl _ _) (leRetired_retire rfl) (if_pos (by simp [ha, hb]))

/-! ## REG -/

/-- A loop's regions and set taken at once: its schedule is initialised (R202). -/
def LaneState.selectSet (L : LaneState) (e k r0 r1 n : Nat) : LaneState :=
  (((L.put (R.leLoopStat_r0 e k) r0).put (R.leLoopStat_r1 e k) r1).put (R.leLoopStat_set e k) n).mapLe e fun E =>
    { E with inited := addTo k E.inited }

theorem Kept.selectSet (L : LaneState) (e : Fin 2) (k r0 r1 n : Nat) :
    Kept { parts := [.le e], regs := [R.leLoopStat e k] } L (L.selectSet e k r0 r1 n) := by
  have hr : R.leLoopStat e k ∈ [R.leLoopStat e k] := by simp
  exact ((((Kept.refl _ L).put (f := R.leLoopStat_r0 e k) _ hr).put (f := R.leLoopStat_r1 e k) _ hr).put
    (f := R.leLoopStat_set e k) _ hr).mapLe _ (by simp)

theorem LaneState.le_selectSet (L : LaneState) (e : Fin 2) (k r0 r1 n : Nat) :
    (L.selectSet e k r0 r1 n).le e = { L.le e with inited := addTo k (L.le e).inited } := by
  rw [LaneState.selectSet, LaneState.le_mapLe, LaneState.le_put, LaneState.le_put, LaneState.le_put]

theorem LaneState.set_selectSet (L : LaneState) (e : Fin 2) (k r0 r1 n : Nat) :
    (L.selectSet e k r0 r1 n).get (R.leLoopStat_set e k) = n % 256 := by
  rw [LaneState.selectSet, LaneState.get_mapLe, LaneState.get_put_same _ _ _ (by simp [R.leLoopStat_set])
    (by simp [R.leLoopStat_set])]
  rfl

/-- The regions that a first REG selects, and their set (R202). -/
def LaneState.firstR0 (L : LaneState) (e : Nat) (r : LeRun) : Nat :=
  L.region e r.view.bank (L.dSched e r.loop - 1) 0 (L.get (R.leLoopStat_r0 e r.loop)) true
def LaneState.firstR1 (L : LaneState) (e : Nat) (r : LeRun) : Nat :=
  L.region e r.view.bank (L.dSched e r.loop - 1) 1 (L.get (R.leLoopStat_r1 e r.loop)) true
def LaneState.firstSet (L : LaneState) (e : Nat) (r : LeRun) : Nat :=
  L.mapSet e r.view.bank (L.dSched e r.loop - 1) (L.firstR0 e r) (L.firstR1 e r)

/-- The first REG of a loop takes the set of its regions at once (R202). -/
theorem leReg_selects {v : Fin 7} (h : (s.lane l).LeReady e r 0x1D (12 + v.val)) (hd : (s.lane l).dSched e r.loop ≠ 0)
    (hi : r.loop ∉ ((s.lane l).le e).inited) :
    Does s (.leReg l e .ok v) { parts := [.le e], regs := [R.leLoopStat e r.loop] } fun L M =>
      let rc := L.dSched e r.loop - 1
      let r0 := L.region e r.view.bank rc 0 (L.get (R.leLoopStat_r0 e r.loop)) true
      let r1 := L.region e r.view.bank rc 1 (L.get (R.leLoopStat_r1 e r.loop)) true
      let n := L.mapSet e r.view.bank rc r0 r1
      M.get (R.leLoopStat_set e r.loop) = n % 256 ∧ r.loop ∈ (M.le e).inited ∧
      (M.le e).run = some { r with
        pc := r.pc + 1, cycles := r.cycles + (12 + v.val), view := { r.view with set := n, m := 0 } } := by
  refine Does.leGo (r' := { r with view := { r.view with set := (s.lane l).firstSet e r, m := 0 } }) rfl rfl h (by decide)
    (by simp) (Kept.selectSet (s.lane l) e r.loop ((s.lane l).firstR0 e r) ((s.lane l).firstR1 e r) ((s.lane l).firstSet e r))
    ⟨?_, ?_, ?_⟩ ?_
  · rw [LaneState.retire, LaneState.get_mapLe, LaneState.set_selectSet]
    rfl
  · rw [LaneState.retire, LaneState.le_mapLe, LaneState.le_selectSet]
    simp
  · rw [LaneState.retire, LaneState.le_mapLe]
    rfl
  · simp only [hd, hi]
    rfl

/-- A later REG keeps the set while a swap is ready (R202). -/
theorem leReg_holds {v : Fin 7} (h : (s.lane l).LeReady e r 0x1D (12 + v.val)) (hd : (s.lane l).dSched e r.loop ≠ 0)
    (hi : r.loop ∈ ((s.lane l).le e).inited) (hs : (s.lane l).swapReady e = true) :
    Does s (.leReg l e .ok v) { parts := [.le e] } fun L M => LeRetired e L M r r (12 + v.val) := by
  refine Does.leGo rfl rfl h (by decide) (by simp) (Kept.refl _ _) (leRetired_retire rfl) ((if_neg hd).trans (if_pos ?_))
  simp [hi, hs]

theorem leReg_faults {v : Fin 7} (h : (s.lane l).LeReady e r 0x1D (12 + v.val)) (hd : (s.lane l).dSched e r.loop = 0) :
    Does s (.leReg l e .ok v) (Foot.leFault e r.loop) fun L M => LeFaulted L M e r 7 :=
  Does.leFaults rfl rfl h (by decide) (by decide) (if_pos hd)

/-! ## CAS -/

/-- A flag of saturation (R199). -/
theorem Kept.leSat (h : Kept F L M) {e : Nat} (width : Nat) (v : Int) (hr : R.leStat e ∈ F.regs) :
    Kept F L (M.leSat e width v) := h.flagIf _ hr

/-- A section writes its state block and shows a saturation (R198, R199). -/
theorem Kept.section (h : Kept F L M) {e a : Nat} (packed : Bool) (cs : List (Int × Nat)) (x : Int) (hr : R.leStat e ∈ F.regs)
    (ha : ∀ j, leData e a ≤ j → j < leData e a + 32 → j ∈ F.bytes) : Kept F L (M.section e a packed cs x).1 := by
  have within : ∀ k, k + 8 ≤ 32 → ∀ j, leData e (a + k) ≤ j → j < leData e (a + k) + 8 → j ∈ F.bytes :=
    fun k hk j h1 h2 => ha j (by unfold leData at *; omega) (by unfold leData at *; omega)
  exact ((((((h.leSat _ _ hr).leSat _ _ hr).leSat _ _ hr).st64 _ (within 16 (by omega))).st64 _ (within 24 (by omega))).st64 _
    (within 0 (by omega))).st64 _ (within 8 (by omega))

/-- A footprint above the descriptors keeps the place of every section (R189, R195). -/
theorem Kept.secAddr (h : Kept F L M) {e k : Nat} (hk : k < 16) (hF : ∀ j ∈ F.bytes, leData e 0x480 ≤ j) (j : Nat) :
    M.secAddr e k j = L.secAddr e k j := by
  rw [LaneState.secAddr, LaneState.secAddr, LaneState.dState, LaneState.dState, h.desc hk (by decide) hF]

/-- A cascade that completes writes the state blocks of its sections (R198). -/
theorem Kept.cascade {js : List Nat} {x y : Int} (h : Kept F L M) (hk : r.loop < 16) (hr : R.leStat e ∈ F.regs)
    (hF : ∀ j ∈ F.bytes, leData e 0x480 ≤ j)
    (hb : ∀ j ∈ js, ∀ a, leData e (L.secAddr e r.loop j) ≤ a → a < leData e (L.secAddr e r.loop j) + 32 →
      a ∈ F.bytes)
    (hc : M.cascade e r js x = (N, .ok y)) : Kept F L N := by
  induction js generalizing M x with
  | nil =>
    rw [LaneState.cascade] at hc
    cases hc
    exact h
  | cons j js ih =>
    rw [LaneState.cascade] at hc
    split at hc
    · cases hc
    · split at hc
      · cases hc
      · exact ih (h.section _ _ _ hr (h.secAddr hk hF j ▸ hb j (by simp))) (fun i hi => hb i (by simp [hi])) hc

/-- The first section of a cascade that completes lies in the data memory that may be stored to (R195). -/
theorem LaneState.cascade_secOk {j : Nat} {js : List Nat} {x y : Int} (hc : L.cascade e r (j :: js) x = (N, .ok y)) :
    L.secOk e r.loop j = true := by
  rw [LaneState.cascade] at hc
  split at hc
  · cases hc
  · rename_i ok
    simpa using ok

theorem LaneState.le_secAddr {e k j : Nat} (h : L.secOk e k j = true) : 0x480 ≤ L.secAddr e k j := by
  simp only [LaneState.secOk, leStorable, Bool.and_eq_true, decide_eq_true_eq] at h
  omega

/-- A cascade over `n` sections from section `first` writes their state blocks. -/
theorem LaneState.cascade_kept {first n : Nat} {x y : Int} (hk : r.loop < 16) (hn : n ≠ 0)
    (hc : L.cascade e r (List.range' first n) x = (N, .ok y)) :
    Kept { regs := [R.leStat e], bytes := List.range' (leData e (L.secAddr e r.loop first)) (32 * n) } L N := by
  obtain ⟨m, rfl⟩ : ∃ m, n = m + 1 := ⟨n - 1, by omega⟩
  have low := LaneState.le_secAddr (LaneState.cascade_secOk hc)
  refine (Kept.refl _ _).cascade hk (by simp) (fun j hj => ?_) (fun j hj a h1 h2 => ?_) hc
  · rw [List.mem_range'_1] at hj
    unfold leData at *
    omega
  · rw [List.mem_range'_1] at hj ⊢
    unfold LaneState.secAddr leData at *
    omega

/-- What CAS may change: the state blocks of `n` sections from section `first`, and the flag of saturation (R198). -/
def Foot.leCas (L : LaneState) (e : Fin 2) (k first n : Nat) : Footprint :=
  { parts := [.le e], regs := [R.leStat e], bytes := List.range' (leData e (L.secAddr e k first)) (32 * n) }

/-- CAS within nsec whose cascade completes (R198). -/
theorem leCas_runs (h : (s.lane l).LeReady e r 0x18 ((s.lane l).leMinCost e r)) {first n : Nat} {y : Int}
    (hfirst : bits ((s.lane l).leWord e r.pc) 13 9 = first) (hcount : bits ((s.lane l).leWord e r.pc) 5 0 = n)
    (hn : n ≠ 0) (hsec : first + n ≤ (s.lane l).dNsec e r.loop)
    (hc : (s.lane l).cascade e { r with pc := r.pc + 1 } (List.range' first n)
      (if (s.lane l).dPacked e r.loop then satS 16 (rshRound 16 (r.qv (leA ((s.lane l).leWord e r.pc))))
        else r.qv (leA ((s.lane l).leWord e r.pc))) = (N, .ok y)) :
    Does s (.leCas l e .ok) (Foot.leCas (s.lane l) e r.loop first n) fun L M =>
      (∀ a, M.byte a = N.byte a) ∧
      ∃ u, LeRetired e L M r { r.setQ (leD (L.leWord e r.pc)) (if L.dPacked e r.loop then y * 2 ^ 16 else y) with upd := u }
        (L.leMinCost e r) := by
  have kept := LaneState.cascade_kept (r := { r with pc := r.pc + 1 }) h.loop_lt hn hc
  refine Does.leGo (r' := { r.setQ (leD ((s.lane l).leWord e r.pc)) (if (s.lane l).dPacked e r.loop then y * 2 ^ 16 else y) with
      upd := (List.range' first n).foldl (fun u j => addTo j u) r.upd }) rfl rfl h (by decide) (by simp [Foot.leCas])
    (kept.mono ⟨by simp, by simp [Foot.leCas], by simp, fun _ => id⟩)
    ⟨fun a => LaneState.byte_mapLe .., _, leRetired_retire (kept.le (by simp))⟩ ?_
  subst hfirst hcount
  refine (if_neg ?_).trans ?_
  · exact not_or.2 ⟨hn, Nat.not_lt.2 hsec⟩
  · simp only [LeRun.qv_pc, hc]
    rfl

theorem leCas_faults (h : (s.lane l).LeReady e r 0x18 ((s.lane l).leMinCost e r))
    (hm : bits ((s.lane l).leWord e r.pc) 5 0 = 0 ∨ (s.lane l).dNsec e r.loop <
      bits ((s.lane l).leWord e r.pc) 13 9 + bits ((s.lane l).leWord e r.pc) 5 0) :
    Does s (.leCas l e .ok) (Foot.leFault e r.loop) fun L M => LeFaulted L M e r 7 :=
  Does.leFaults rfl rfl h (by decide) (by decide) (if_pos hm)

/-! ## OUT -/

/-- The anti-windup of a section writes its state and shows a saturation (R200). -/
theorem Kept.antiWindup (h : Kept F L M) (hk : r.loop < 16) (hr : R.leStat e ∈ F.regs)
    (hF : ∀ j ∈ F.bytes, leData e 0x480 ≤ j)
    (d : Int) {j : Nat} (hb : ∀ a ∈ List.range' (leData e (L.secAddr e r.loop j)) 16, a ∈ F.bytes) :
    Kept F L (M.antiWindup e r d j) := by
  have place := h.secAddr hk hF j
  have within : ∀ k, k + 8 ≤ 16 → ∀ i, leData e (M.secAddr e r.loop j + k) ≤ i →
      i < leData e (M.secAddr e r.loop j + k) + 8 → i ∈ F.bytes := fun k hk i h1 h2 => hb i (by
    rw [List.mem_range'_1, ← place]
    unfold leData at *
    omega)
  unfold LaneState.antiWindup
  refine Kept.ite (fun _ => h) fun _ => Kept.ite (fun _ => Kept.ite (fun _ => ?_) fun _ => h) fun _ =>
    Kept.ite (fun _ => ?_) fun _ => h
  · exact (h.st64 _ (within 0 (by omega))).st64 _ (within 8 (by omega))
  · exact (h.leSat _ _ hr).st64 _ (within 0 (by omega))

/-- The sections that a limited result winds back (R200). -/
def LaneState.windBack (L : LaneState) (e : Nat) (r : LeRun) (d : Int) : LaneState :=
  if d = 0 then L else r.upd.foldl (fun M j => M.antiWindup e r d j) L

theorem Kept.windBack (L : LaneState) (hk : r.loop < 16) (ho : ∀ j ∈ r.upd, L.secOk e r.loop j = true) (d : Int) :
    Kept { regs := [R.leStat e], bytes := r.upd.flatMap fun j => List.range' (leData e (L.secAddr e r.loop j)) 16 } L
      (L.windBack e r d) := by
  refine Kept.ite (fun _ => Kept.refl _ _) fun _ => (Kept.refl _ _).foldl fun j hj M hM => hM.antiWindup hk (by simp) ?_ d ?_
  · simp only [List.mem_flatMap, List.mem_range'_1]
    rintro i ⟨m, hm, hi, -⟩
    have := LaneState.le_secAddr (ho m hm)
    unfold leData at *
    omega
  · exact fun a ha => List.mem_flatMap.2 ⟨j, hj, ha⟩

theorem satS_eq_zero {x : Int} : satS 32 x = 0 ↔ x = 0 := by
  unfold satS clampI
  split
  · omega
  · split <;> omega

/-- The lane after OUT of a result that its limits change by `d` (R200). -/
def LaneState.limited (L : LaneState) (e : Nat) (r : LeRun) (d : Int) : LaneState :=
  (L.setF (R.leLoopStat_clamped e r.loop) (d != 0)).windBack e r d

/-- What OUT may change (R200). -/
def Foot.leOut (L : LaneState) (e : Fin 2) (r : LeRun) : Footprint :=
  { parts := [.le e], regs := [R.leLoopStat e r.loop, R.leStat e]
    bytes := r.upd.flatMap fun j => List.range' (leData e (L.secAddr e r.loop j)) 16 }

/-- After the flag, the limits wind the sections of the lane back, at their places before it. -/
theorem LaneState.limited_kept (L : LaneState) (hk : r.loop < 16) (ho : ∀ j ∈ r.upd, L.secOk e r.loop j = true) (d : Int) :
    Kept { regs := [R.leStat e], bytes := r.upd.flatMap fun j => List.range' (leData e (L.secAddr e r.loop j)) 16 }
      (L.setF (R.leLoopStat_clamped e r.loop) (d != 0)) (L.limited e r d) := by
  have place : ∀ j, (L.setF (R.leLoopStat_clamped e r.loop) (d != 0)).secAddr e r.loop j = L.secAddr e r.loop j :=
    ((Kept.refl { regs := [R.leLoopStat e r.loop] } L).setF (f := R.leLoopStat_clamped e r.loop) _
      (by simp [R.leLoopStat_clamped])).secAddr hk (by simp)
  have wound := Kept.windBack (L.setF (R.leLoopStat_clamped e r.loop) (d != 0)) hk
    (fun j hj => by rw [LaneState.secOk, place]; exact ho j hj) d
  simp only [place] at wound
  exact wound

theorem Kept.limited (L : LaneState) (hk : r.loop < 16) (ho : ∀ j ∈ r.upd, L.secOk e r.loop j = true) (d : Int) :
    Kept (Foot.leOut L e r) L (L.limited e r d) := by
  have shown := (Kept.refl (Foot.leOut L e r) L).setF (f := R.leLoopStat_clamped e r.loop) (d != 0)
    (by simp [Foot.leOut, R.leLoopStat_clamped])
  exact shown.trans (L.limited_kept hk ho d) (by simp) (by simp [Foot.leOut]) (by simp) (fun _ => id)

/-- The flag shows whether the limits change the result. -/
theorem LaneState.clamped_limited (L : LaneState) (hk : r.loop < 16) (ho : ∀ j ∈ r.upd, L.secOk e r.loop j = true) (d : Int) :
    (L.limited e r d).is (R.leLoopStat_clamped e r.loop) = (d != 0) := by
  rw [LaneState.is, (L.limited_kept hk ho d).get, ← LaneState.is]
  · exact LaneState.is_setF _ _ _ (by simp [R.leLoopStat_clamped]) (by simp [R.leLoopStat_clamped])
  · simp only [R.leLoopStat_clamped, R.leLoopStat, R.leStat, List.mem_singleton]
    omega

theorem LaneState.le_limited (L : LaneState) (hk : r.loop < 16) (ho : ∀ j ∈ r.upd, L.secOk e r.loop j = true) (d : Int) :
    (L.limited e r d).le e = L.le e := by
  rw [(L.limited_kept hk ho d).le (by simp), LaneState.setF_def, LaneState.le_put]

theorem LaneState.mem_mapLe (L : LaneState) (e : Nat) (f : LeSt → LeSt) : (L.mapLe e f).mem = L.mem := by
  rcases e with _ | e <;> rfl

/-- A result within its limits leaves the memory. -/
theorem LaneState.mem_limited (L : LaneState) (e : Nat) (r : LeRun) : (L.limited e r 0).mem = L.mem := by
  rw [LaneState.limited, LaneState.windBack, if_pos rfl, LaneState.setF_def, LaneState.put_mem]

/-- OUT with limits that leave room (R200). -/
theorem leOut_limits (h : (s.lane l).LeReady e r 0x1B ((s.lane l).leMinCost e r)) {lo hi : Int}
    (hl : (s.lane l).outLimits e { r with pc := r.pc + 1 } = some (lo, hi)) (hlo : lo ≤ hi)
    (ho : ∀ j ∈ r.upd, (s.lane l).secOk e r.loop j = true) :
    Does s (.leOut l e .ok) (Foot.leOut (s.lane l) e r) fun L M =>
      let w := L.leWord e r.pc
      let x := r.qv (leA w)
      LeRetired e L M r (r.setQ (leD w) (min (max x lo) hi)) (L.leMinCost e r) ∧
      (lo ≤ x → x ≤ hi → M.is (R.leLoopStat_clamped e r.loop) = false ∧ M.mem = L.mem) ∧
      (x < lo ∨ hi < x → M.is (R.leLoopStat_clamped e r.loop) = true) := by
  have hk := h.loop_lt
  generalize hx : r.qv (leA ((s.lane l).leWord e r.pc)) = x
  have clamped := (s.lane l).clamped_limited hk ho (satS 32 (x - min (max x lo) hi))
  refine Does.leGo (r' := r.setQ (leD ((s.lane l).leWord e r.pc)) (min (max x lo) hi)) rfl rfl h (by decide)
    (by simp [Foot.leOut]) (Kept.limited (s.lane l) hk ho (satS 32 (x - min (max x lo) hi)))
    ⟨?_, fun h1 h2 => ⟨?_, ?_⟩, fun h1 => ?_⟩ ?_
  · rw [hx]
    exact leRetired_retire (LaneState.le_limited _ hk ho _)
  · rw [LaneState.is, (LaneState.retire_kept ..).get _ (by simp), ← LaneState.is, clamped, bne_eq_false_iff_eq, satS_eq_zero]
    omega
  · have zero : satS 32 (x - min (max x lo) hi) = 0 := satS_eq_zero.2 (by omega)
    rw [LaneState.retire, LaneState.mem_mapLe, zero, LaneState.mem_limited]
  · rw [LaneState.is, (LaneState.retire_kept ..).get _ (by simp), ← LaneState.is, clamped, bne_iff_ne, ne_eq, satS_eq_zero]
    omega
  · simp only [LeRun.qv_pc, hl, if_neg (not_lt.2 hlo), hx]
    rfl

end Sys2Proof.Machine
open Sys2Proof Sys2Proof.Machine

/-- Settles O36: each instruction's issue goes on as its row says, or ends in the engine fault, within its footprint. -/
theorem loopData : Obligations.LoopData := by
  unfold Obligations.LoopData
  refine ⟨?_, ?_, ?_, ?_, ?_, ?_, ?_, ?_, ?_, ?_, ?_, ?_, ?_, ?_, ?_, ?_⟩
  · exact fun _ _ _ _ h => ⟨leLdd_reads h, leLdd_faults h⟩
  · exact fun _ _ _ _ h => ⟨leStd_stores h, leStd_faults h⟩
  · exact fun _ _ _ _ _ => ⟨leLds_reads, leSts_stores⟩
  · exact fun _ _ _ _ _ => leSts_viol
  · exact fun _ _ _ _ _ _ h hn hsec hc => leCas_runs h rfl rfl hn hsec hc
  · exact fun _ _ _ _ => leCas_faults
  · exact fun _ _ _ _ _ _ h => leOut_limits h
  · exact fun _ _ _ _ h => ⟨leLut_reads h rfl rfl rfl, leLut_faults h rfl rfl⟩
  · exact fun _ _ _ _ _ h => ⟨leShare_shares h, leShare_dup h⟩
  · exact fun _ _ _ _ _ h hr => ⟨leCommit_commits h hr, leCommit_unnamed h hr⟩
  · exact fun _ _ _ _ _ h => ⟨leWait_done h, leWait_holds h⟩
  · exact fun _ _ _ _ _ _ _ _ => leWaitRelease_goes
  · exact fun _ _ _ _ h => ⟨lePre_presets h rfl, lePre_faults h⟩
  · exact fun _ _ _ _ => leRds_reads
  · exact fun _ _ _ _ _ => leReg_selects
  · exact fun _ _ _ _ _ h => ⟨leReg_holds h, leReg_faults h⟩
end

section
/-! SUPPORT. Register instructions, accumulators, comparisons and branches of a loop engine, and the engine faults that an
issue meets before its instruction; triggers that an engine skips (R188, R192, R193, R195, R199, R210). -/

namespace Sys2Proof.Machine

variable {L : LaneState} {e : Fin 2} {r r' : LeRun} {s : State} {l : Lane} {op cost cause : Nat}
  {f : LeRun → Nat → LaneState → LeRes}

/-! ## Register instructions -/

/-- A row that writes qd from registers, not from the program counter, writes its result (R210). -/
theorem leWrites_of_leAlu {c : Lane → Fin 2 → Ecc → Instr} {g : LeRun → Nat → Int}
    (hx : ∀ s l e, exec (c l e .ok) s = leAlu l e op cost .ok s g) (hl : ∀ l e, (c l e .ok).lane = l) (hop : op < 0x27)
    (hg : ∀ r pc w, g { r with pc := pc } w = g r w) : LeWrites c op cost g := by
  intro s l e r h
  refine Does.leGo (hx s l e) (hl l e) h hop (by simp) (Kept.refl _ _) (leRetired_retire rfl) ?_
  rw [hg]
  rfl

/-! ## Accumulators -/

/-- An accumulator that saturates sets the flag (R199). -/
theorem LaneState.sat_retire_leSat (L : LaneState) {width : Nat} {v : Int} (h : satS width v ≠ v) :
    ((L.leSat e width v).retire e r r' cost).is (R.leStat_sat e) = true := by
  rw [LaneState.is, (LaneState.retire_kept ..).get _ (by simp), ← LaneState.is, LaneState.leSat, LaneState.flagIf,
    if_pos (bne_iff_ne.2 h)]
  exact LaneState.is_flag _ _ (by simp [R.leStat_sat]) (by simp [R.leStat_sat])

theorem LaneState.le_leSat (L : LaneState) (width : Nat) (v : Int) : (L.leSat e width v).le e = L.le e :=
  ((Kept.refl { regs := [R.leStat e] } L).leSat width v (by simp)).le (by simp)

/-- MACW adds a product shifted by 16 − sh (R196, R210). -/
theorem leMacw_adds (h : (s.lane l).LeReady e r 0x19 2) :
    Does s (.leMacw l e .ok) { parts := [.le e], regs := [R.leStat e] } fun L M =>
      let w := L.leWord e r.pc
      let v := r.accv (leD w % 4) + r.qv (leA w) * r.qv (leB w) / (2 ^ (16 - bits w 3 0) : Nat)
      LeRetired e L M r (r.setAcc (leD w % 4) (satS 64 v)) 2 ∧ (satS 64 v ≠ v → M.is (R.leStat_sat e) = true) :=
  Does.leGo rfl rfl h (by decide) (by simp) ((Kept.refl _ _).leSat _ _ (by simp))
    ⟨leRetired_retire (LaneState.le_leSat ..), LaneState.sat_retire_leSat _⟩ rfl

/-- MACP adds two packed products (R197, R210). -/
theorem leMacp_adds (h : (s.lane l).LeReady e r 0x1A 2) :
    Does s (.leMacp l e .ok) { parts := [.le e], regs := [R.leStat e] } fun L M =>
      let w := L.leWord e r.pc
      let a := (wordI (r.qv (leA w))).toNat
      let b := (wordI (r.qv (leB w))).toNat
      let v := r.accv (leD w % 4) + sext 16 (bits a 31 16) * sext 16 (bits b 31 16) +
        sext 16 (bits a 15 0) * sext 16 (bits b 15 0)
      LeRetired e L M r (r.setAcc (leD w % 4) (satS 40 v)) 2 ∧ (satS 40 v ≠ v → M.is (R.leStat_sat e) = true) :=
  Does.leGo rfl rfl h (by decide) (by simp) ((Kept.refl _ _).leSat _ _ (by simp))
    ⟨leRetired_retire (LaneState.le_leSat ..), LaneState.sat_retire_leSat _⟩ rfl

/-! ## Comparison -/

/-- The condition of CMP (R210). -/
theorem cmp_cond (n : Nat) (x y : Int) :
    (match n with
      | 0 => decide (x = y)
      | 1 => decide (x ≠ y)
      | 2 => decide (x < y)
      | _ => decide (y ≤ x)) =
    if n = 0 then decide (x = y) else if n = 1 then decide (x ≠ y) else if n = 2 then decide (x < y) else decide (y ≤ x) := by
  rcases n with _ | _ | _ | n <;> rfl

theorem leCmp_sets (h : (s.lane l).LeReady e r 0x1E 1) :
    Does s (.leCmp l e .ok) { parts := [.le e] } fun L M =>
      let w := L.leWord e r.pc
      let x := r.qv (leA w)
      let y := r.qv (leB w)
      let f := if bits w 1 0 = 0 then decide (x = y) else if bits w 1 0 = 1 then decide (x ≠ y)
        else if bits w 1 0 = 2 then decide (x < y) else decide (y ≤ x)
      LeRetired e L M r { r with f := f } 1 := by
  refine Does.leGo rfl rfl h (by decide) (by simp) (Kept.refl _ _) (leRetired_retire rfl) ?_
  exact congrArg (fun b => LeRes.go (s.lane l) { r with pc := r.pc + 1, f := b } 1) (cmp_cond _ _ _)

/-! ## Branches -/

/-- An issue whose instruction sets the program counter; beyond program memory it is the fault BRANCH (R195). -/
theorem LaneState.leIssue_jump (h : L.LeReady e r op cost) (hop : op < 0x27) (hend : op ≠ 1) {pc : Nat}
    (hf : f { r with pc := r.pc + 1 } (L.leWord e r.pc) L = .go L { r with pc := pc } cost) :
    L.leIssue e op .ok f = if 0xFFF < pc then L.leFault e r 2 (r.cycles + cost)
      else L.mapLe e fun E => { E with run := some { r with pc := pc, cycles := r.cycles + cost } } := by
  obtain ⟨hrun, hwait, hword, hbudget, -, -⟩ := h
  have hw : r.wait.isSome = false := by rw [hwait]; rfl
  have hb : ¬ L.dBudget e r.loop < r.cycles + cost := by omega
  unfold LaneState.leIssue
  simp [hrun, hw, hword, Nat.not_le.2 hop, hf, LeRes.cost, hb, hend]

/-- A command whose instruction sets the program counter within program memory (R210). -/
theorem Does.leJump {c : Instr} (hx : exec c s = leRow l e op .ok s f) (hl : c.lane = l) (h : (s.lane l).LeReady e r op cost)
    (hop : op < 0x27) (hend : op ≠ 1) {pc : Nat} (hpc : pc ≤ 0xFFF)
    (hf : f { r with pc := r.pc + 1 } ((s.lane l).leWord e r.pc) (s.lane l) = .go (s.lane l) { r with pc := pc } cost)
    {P : LaneState → LaneState → Prop}
    (hP : ∀ M, M.le e = { (s.lane l).le e with run := some { r with pc := pc, cycles := r.cycles + cost } } →
      P (s.lane l) M) : Does s c { parts := [.le e] } P := by
  have hi := (LaneState.leIssue_jump h hop hend hf).trans (if_neg (Nat.not_lt.2 hpc))
  exact Does.of_onLane hx hl (hi ▸ (Kept.refl _ _).mapLe _ (by simp)) (hi ▸ hP _ (LaneState.le_mapLe ..))

/-- A branch of an offset goes to its target from its own address, or on (R210). -/
theorem leBranch_of_ne_zero {w pc : Nat} {taken : Bool} (h0 : leImm14 w ≠ 0)
    (hpc : (if taken = true then r.pc + leImm14 w else r.pc + 1) = pc) :
    leBranch { r with pc := r.pc + 1 } w taken L = .go L { r with pc := pc } 1 := by
  rw [leBranch, if_neg h0, Nat.add_sub_cancel, hpc]

theorem leBf_branches (h : (s.lane l).LeReady e r 0x20 1) (h0 : leImm14 ((s.lane l).leWord e r.pc) ≠ 0)
    (hpc : r.pc + leImm14 ((s.lane l).leWord e r.pc) ≤ 0xFFF) :
    Does s (.leBf l e .ok) { parts := [.le e] } fun L M =>
      M.le e = { L.le e with run := some { r with
        pc := (if (r.f != bit (L.leWord e r.pc) 22) = true then r.pc + leImm14 (L.leWord e r.pc) else r.pc + 1)
        cycles := r.cycles + 1 } } := by
  have within : (if (r.f != bit ((s.lane l).leWord e r.pc) 22) = true then r.pc + leImm14 ((s.lane l).leWord e r.pc)
      else r.pc + 1) ≤ 0xFFF := by
    obtain ⟨-, -, -, -, hlt, -⟩ := h
    split <;> assumption
  exact Does.leJump (l := l) rfl rfl h (by decide) (by decide) within (leBranch_of_ne_zero h0 rfl) fun _ => id

theorem leJmp_branches (h : (s.lane l).LeReady e r 0x21 1) (h0 : leImm14 ((s.lane l).leWord e r.pc) ≠ 0)
    (hpc : r.pc + leImm14 ((s.lane l).leWord e r.pc) ≤ 0xFFF) :
    Does s (.leJmp l e .ok) { parts := [.le e] } fun L M =>
      M.le e = { L.le e with run := some { r with pc := r.pc + leImm14 (L.leWord e r.pc), cycles := r.cycles + 1 } } :=
  Does.leJump (l := l) rfl rfl h (by decide) (by decide) hpc (leBranch_of_ne_zero h0 (if_pos rfl)) fun _ => id

/-! ## Engine faults before the instruction -/

/-- The selection of an axis names one of 16 loops (R213). -/
theorem LaneState.named_of_ge (L : LaneState) (e : Nat) {k : Nat} (hk : 16 ≤ k) : L.named e k = false := by
  simp only [LaneState.named, List.any_eq_false, LaneState.names, Bool.and_eq_true, beq_iff_eq]
  rintro n - ⟨-, rfl⟩
  exact absurd (L.get_lt (R.axpLoopsel_loop n)) (Nat.not_lt.2 hk)

/-- LE_LOOP_EN has no bit of a loop beyond the 16. -/
theorem LaneState.bitOf_leLoopEn_of_ge (L : LaneState) (e : Nat) {k : Nat} (hk : 16 ≤ k) :
    L.bitOf (R.leLoopEn_en e) k = false := by
  have hlt : L.get (R.leLoopEn_en e) < 2 ^ k := (L.get_lt _).trans_le (Nat.pow_le_pow_right (by decide) hk)
  simp [LaneState.bitOf, bit, Nat.div_eq_of_lt hlt]

/-- A run's record may hold a number beyond the 16 loops: no axis names such a run, so its fault is recorded alone (R195). -/
theorem LaneState.leFault_spec_of_ge (L : LaneState) (e : Fin 2) {r : LeRun} (hk : 16 ≤ r.loop) (hc : cause < 16)
    (cycles : Nat) : Kept (Foot.leFault e r.loop) L (L.leFault e r cause cycles) ∧
      LeFaulted L (L.leFault e r cause cycles) e r cause := by
  have stop := Kept.leStop (L := L) (e := e) r cycles
  have stat : (L.leStop e r cycles).is (R.leStat_fault e) = L.is (R.leStat_fault e) := by
    rw [LaneState.is, LaneState.is, stop.get]
    simp only [Foot.leStop, R.leStat_fault, R.leStat, R.leLoopTime, R.leLoopStat, R.leBankStat, List.mem_cons,
      List.not_mem_nil, or_false, not_or]
    omega
  have within : (Foot.leFault e r.loop).Has (Foot.leStop e r.loop) :=
    ⟨by simp [Foot.leStop, Foot.leFault], by simp [Foot.leStop, Foot.leFault], by simp [Foot.leStop], by simp [Foot.leStop]⟩
  rw [LaneState.leFault_eq, LaneState.named_of_ge _ e hk]
  refine ⟨(stop.mono within).trans (LaneState.leRecord_kept _ e r cause) (by simp) (by simp [Foot.leFault]) (by simp) (by simp),
    ?_, LaneState.is_leRecord .., LaneState.bitOf_leLoopEn_of_ge _ e hk, fun h => LaneState.get_leRecord _ e r hc (stat.trans h),
    fun h => absurd h (by simp [LaneState.named_of_ge _ _ hk])⟩
  exact (LaneState.le_leRecord ..).symm ▸ LaneState.run_leStop ..

/-- A command that ends a run in an engine fault (R195). -/
theorem Does.leFaulted {c : Instr} {cycles : Nat}
    (hx : exec c s = .next (s.setLane l ((s.lane l).leFault e r cause cycles))) (hl : c.lane = l) (hc : cause < 16) :
    Does s c (Foot.leFault e r.loop) fun L M => LeFaulted L M e r cause := by
  obtain ⟨kept, faulted⟩ := (Nat.lt_or_ge r.loop 16).elim (fun hk => (s.lane l).leFault_spec e hk hc cycles)
    (fun hk => (s.lane l).leFault_spec_of_ge e hk hc cycles)
  exact Does.of_onLane (f := fun L => L.leFault e r cause cycles) hx hl kept faulted

/-- An uncorrectable instruction word (R188). -/
theorem LaneState.leIssue_bad (hr : (L.le e).run = some r) (hw : r.wait = none) :
    L.leIssue e op .bad f = L.leFault e r 4 r.cycles := by
  simp [LaneState.leIssue, hr, hw]

/-- A reserved opcode (R195). -/
theorem LaneState.leIssue_illegal (hr : (L.le e).run = some r) (hw : r.wait = none) (ho : 0x27 ≤ leOp (L.leWord e r.pc)) :
    L.leIssue e op .ok f = L.leFault e r 1 r.cycles := by
  simp [LaneState.leIssue, hr, hw, ho]

theorem leNop_bad (hr : ((s.lane l).le e).run = some r) (hw : r.wait = none) :
    Does s (.leNop l e .bad) (Foot.leFault e r.loop) fun L M => LeFaulted L M e r 4 :=
  Does.leFaulted (next_setLane s l (LaneState.leIssue_bad hr hw)) rfl (by decide)

theorem leNop_illegal (hr : ((s.lane l).le e).run = some r) (hw : r.wait = none)
    (ho : 0x27 ≤ leOp ((s.lane l).leWord e r.pc)) :
    Does s (.leNop l e .ok) (Foot.leFault e r.loop) fun L M => LeFaulted L M e r 1 :=
  Does.leFaulted (next_setLane s l (LaneState.leIssue_illegal hr hw ho)) rfl (by decide)

/-- A WAIT held until the budget is spent, or an instruction that would exceed it (R193, R214). -/
theorem leBudgetExpire_faults {w : Fin 7} (hr : ((s.lane l).le e).run = some r)
    (hb : r.wait ≠ none ∨ (s.lane l).dBudget e r.loop < r.cycles + (s.lane l).leMinCost e r) :
    Does s (.leBudgetExpire l e w) (Foot.leFault e r.loop) fun L M => LeFaulted L M e r 5 := by
  refine Does.leFaulted (cycles := (s.lane l).dBudget e r.loop) (next_setLane s l ?_) rfl (by decide)
  simp only [hr]
  refine LaneState.when_true _ _ ?_
  rw [Bool.or_eq_true, decide_eq_true_eq, Option.isSome_iff_ne_none]
  exact hb.imp_right fun h => h.trans_le (Nat.le_add_right _ _)

/-- A jump by no offset faults at once, one beyond program memory on its way (R195). -/
theorem leJmp_faults (h : (s.lane l).LeReady e r 0x21 1)
    (ho : leImm14 ((s.lane l).leWord e r.pc) = 0 ∨ 0xFFF < r.pc + leImm14 ((s.lane l).leWord e r.pc)) :
    Does s (.leJmp l e .ok) (Foot.leFault e r.loop) fun L M => LeFaulted L M e r 2 := by
  by_cases h0 : leImm14 ((s.lane l).leWord e r.pc) = 0
  · exact Does.leFaults rfl rfl h (by decide) (by decide) (if_pos h0)
  · have hi := LaneState.leIssue_jump (f := fun r w L => leBranch r w true L) h (by decide) (by decide) (if_neg h0)
    exact Does.leFaulted (next_setLane s l (hi.trans (if_pos (ho.resolve_left h0)))) rfl (by decide)

/-! ## A flag and its counter -/

/-- A flag set together with its counter: a corrected word (R188), a skipped trigger (R192). -/
theorem LaneState.flag_count_spec (L : LaneState) {f g : RF} (hne : f.addr ≠ g.addr) (hf : f.lo ≤ f.hi ∧ f.hi ≤ 31)
    (hg : g.lo ≤ g.hi ∧ g.hi ≤ 31) :
    Kept { regs := [f.addr, g.addr] } L ((L.flag f).count g) ∧ ((L.flag f).count g).is f = true ∧
      ((L.flag f).count g).get g = satU (g.hi + 1 - g.lo) (L.get g + 1) := by
  refine ⟨((Kept.refl _ L).flag (by simp)).count 1 (by simp), ?_, ?_⟩
  · rw [LaneState.is, LaneState.count_def, LaneState.get_put_ne _ _ _ _ hne, ← LaneState.is]
    exact LaneState.is_flag _ _ hf.1 hf.2
  · rw [LaneState.count_def, LaneState.get_put_same _ _ _ hg.1 hg.2, satU_mod _ (Nat.le_refl _), LaneState.flag_def,
      LaneState.get_put_ne _ _ _ _ hne.symm]

/-- NOP of a word whose single-bit error is corrected goes on (R188). -/
theorem leNop_corrected (h : (s.lane l).LeReady e r 0x00 1) :
    Does s (.leNop l e .corrected) { parts := [.le e], regs := [R.leStat e, R.leCnt e] } fun L M =>
      LeRetired e L M r r 1 ∧ M.is (R.leStat_ecc_cor e) = true ∧
      M.get (R.leCnt_ecc e) = satU 16 (L.get (R.leCnt_ecc e) + 1) := by
  obtain ⟨kept, flagged, counted⟩ := (s.lane l).flag_count_spec (f := R.leStat_ecc_cor e) (g := R.leCnt_ecc e)
    (by simp [R.leStat_ecc_cor, R.leCnt_ecc, R.leStat, R.leCnt]) (by simp [R.leStat_ecc_cor]) (by simp [R.leCnt_ecc])
  have goes : (s.lane l).leIssue e 0x00 .corrected (fun r _ L => .go L r 1) =
      (((s.lane l).flag (R.leStat_ecc_cor e)).count (R.leCnt_ecc e)).retire e r r 1 := by
    obtain ⟨hrun, hwait, hword, hbudget, hpc, -⟩ := h
    simp [LaneState.leIssue, hrun, hwait, hword, LeRes.cost, Nat.not_lt.2 hbudget, hpc.not_ge, LaneState.retire]
  have within : Kept { parts := [.le e], regs := [R.leStat e, R.leCnt e] } (s.lane l)
      (((s.lane l).flag (R.leStat_ecc_cor e)).count (R.leCnt_ecc e)) :=
    kept.mono ⟨by simp, by simp [R.leStat_ecc_cor, R.leCnt_ecc], by simp, fun _ => id⟩
  refine ⟨_, next_setLane s l goes, within.mapLe _ (by simp), leRetired_retire (kept.le (by simp)), ?_, ?_⟩
  · rw [LaneState.is, (LaneState.retire_kept ..).get _ (by simp)]
    exact flagged
  · rw [(LaneState.retire_kept ..).get _ (by simp)]
    exact counted

/-! ## A trigger of a loop that runs or waits -/

/-- A loop that runs, or is ready and waits, is not queued again (R192). -/
theorem LaneState.leReady_skips (L : LaneState) (e : Fin 2) (k t : Nat)
    (h : (L.le e).ready.any (fun p => p.2 == k) = true ∨ ∃ r, (L.le e).run = some r ∧ r.loop = k) :
    Kept { regs := [R.leStat e, R.leCnt e] } L (L.leReady e k t) ∧ (L.leReady e k t).is (R.leStat_skip e) = true ∧
      (L.leReady e k t).get (R.leCnt_skip e) = satU 16 (L.get (R.leCnt_skip e) + 1) := by
  have queued : ((L.le e).ready.any (fun p => p.2 == k) || (L.le e).run.any (fun r => r.loop == k)) = true := by
    rw [Bool.or_eq_true]
    refine h.imp_right ?_
    rintro ⟨r, hr, rfl⟩
    simp [hr]
  rw [show L.leReady e k t = (L.flag (R.leStat_skip e)).count (R.leCnt_skip e) from if_pos queued]
  exact L.flag_count_spec (f := R.leStat_skip e) (g := R.leCnt_skip e)
    (by simp [R.leStat_skip, R.leCnt_skip, R.leStat, R.leCnt]) (by simp [R.leStat_skip]) (by simp [R.leCnt_skip])

end Sys2Proof.Machine
open Sys2Proof Sys2Proof.Machine

/-- Settles O35: the rows that write qd by one lemma, the other rows each by what its issue goes on with or faults with. -/
theorem loopAlu : Obligations.LoopAlu := by
  unfold Obligations.LoopAlu
  refine ⟨⟨?_, ?_, ?_, ?_, ?_, ?_, ?_⟩, ⟨?_, ?_, ?_, ?_, ?_, ?_, ?_, ?_, ?_, ?_⟩, ?_, ?_, ?_, ?_, ?_, ?_, ?_, ?_, ?_, ?_⟩
  iterate 17 exact leWrites_of_leAlu (fun _ _ _ => rfl) (fun _ _ => rfl) (by decide) (fun _ _ _ => rfl)
  · exact fun _ _ _ _ h => Does.leGo rfl rfl h (by decide) (by simp) (Kept.refl _ _) (leRetired_retire rfl) rfl
  · exact fun _ _ _ _ =>
      ⟨fun h => Does.leGo rfl rfl h (by decide) (by simp) (Kept.refl _ _) (leRetired_retire rfl) rfl,
        fun h => Does.leGo rfl rfl h (by decide) (by simp) (Kept.refl _ _) (leRetired_retire rfl) rfl⟩
  · exact fun _ _ _ _ => leMacw_adds
  · exact fun _ _ _ _ => leMacp_adds
  · exact fun _ _ _ _ => leCmp_sets
  · exact fun _ _ _ _ => leBf_branches
  · exact fun _ _ _ _ h => ⟨leJmp_branches h, leJmp_faults h⟩
  · exact fun _ _ _ _ hr hw => ⟨leNop_bad hr hw, leNop_illegal hr hw⟩
  · exact fun _ _ _ _ => leNop_corrected
  · exact fun _ _ _ _ _ => leBudgetExpire_faults

/-- Settles O59: the trigger reaches `LaneState.leReady`, which skips a loop that runs or waits. -/
theorem retriggersSkipped : Obligations.RetriggersSkipped := by
  refine ⟨fun s l e k ht hm hq => ?_, LaneState.leReady_skips⟩
  obtain ⟨kept, shown⟩ := (s.lane l).leReady_skips e k _ hq
  exact ⟨_, next_setLane s l (LaneState.when_true _ _ (Bool.and_eq_true_iff.2 ⟨decide_eq_true ht, hm⟩)), kept, shown⟩

end

section
/-! SUPPORT. The jobs of Skim (R233, R235, R259, R478, R514 to R518, R571): what a run does to the lane before it ends, and
what its end leaves. -/

namespace Sys2Proof.Machine

variable {F : Footprint} {L M : LaneState} {s : State} {l : Lane} {j : Fin 16}

/-! ## A run of a job -/

/-- The lane while Skim runs job `j`: SKIM_STAT shows the job. -/
def LaneState.atJob (L : LaneState) (j : Nat) : LaneState := L.put R.skimStat_job j

theorem LaneState.atJob_kept (L : LaneState) (j : Nat) : Kept { regs := [R.skimStat] } L (L.atJob j) :=
  (Kept.refl _ L).put _ (by simp [R.skimStat_job])

theorem Kept.atJob (L : LaneState) (j : Nat) (h : R.skimStat ∈ F.regs) : Kept F L (L.atJob j) :=
  (Kept.refl F L).put _ h

/-- The fields of the blocks below Skim's read as before the run. -/
theorem LaneState.get_atJob (L : LaneState) (j : Nat) (f : RF) (h : f.addr < 0x401B0000) : (L.atJob j).get f = L.get f :=
  L.get_put_ne _ _ _ (by simp only [R.skimStat_job, R.skimStat]; omega)

theorem LaneState.target_atJob (L : LaneState) (j k : Nat) :
    (L.atJob j).get (R.skimJobCfg_target k) = L.get (R.skimJobCfg_target k) :=
  L.get_put_ne _ _ _ (by simp only [R.skimJobCfg_target, R.skimJobCfg, R.skimStat_job, R.skimStat]; omega)

/-- A command that runs a step of a job does so when the job is the next to run and of its kind (R53). -/
theorem exec_skimRun {c : Instr} {kind : Nat} {f : LaneState → LaneState}
    (hx : exec c s = onLane s l (fun L => L.skimRun j kind f)) (h : (s.lane l).skimNext j = true)
    (hk : (s.lane l).jobKind j = kind) : exec c s = .next (s.setLane l (f ((s.lane l).atJob j))) :=
  hx.trans (next_setLane s l (LaneState.when_true _ _ (by simp [h, hk])))

/-- A command of one lane completes, once it is known what becomes of the lane. -/
theorem Does.of_next_setLane {c : Instr} {N : LaneState} {P : LaneState → LaneState → Prop}
    (hx : exec c s = .next (s.setLane l N)) (hl : c.lane = l) (hk : Kept F (s.lane l) N) (hp : P (s.lane l) N) :
    Does s c F P := by
  subst hl
  exact ⟨N, hx, hk, hp⟩

/-! ## The end of a run -/

theorem LaneState.skimEnd_kept (L : LaneState) (j status value : Nat) :
    Kept { parts := [.skim], regs := [R.skimJobLast j, R.skimJobCnt j, R.skimStat] } L (L.skimEnd j status value) :=
  Kept.skimEnd L j status value (Kept.refl _ L) (by simp) (by simp)

/-- The fields of the blocks below Skim's read as before the end of the run. -/
theorem LaneState.get_skimEnd (L : LaneState) (j status value : Nat) (f : RF) (h : f.addr < 0x401B0000) :
    (L.skimEnd j status value).get f = L.get f := by
  refine (L.skimEnd_kept j status value).get f ?_
  simp only [List.mem_cons, List.not_mem_nil, or_false, R.skimJobLast, R.skimJobCnt, R.skimStat]
  omega

theorem LaneState.sig_skimEnd (L : LaneState) (j status value i : Nat) : (L.skimEnd j status value).sig i = L.sig i :=
  (L.skimEnd_kept j status value).2.2.1 i (by simp)

/-- The parts beside Skim's are as before the end of the run. -/
theorem LaneState.part_skimEnd (L : LaneState) (j status value : Nat) {p : Part} (h : p ≠ .skim) :
    p.same L (L.skimEnd j status value) :=
  (L.skimEnd_kept j status value).1 p (by simpa using h)

theorem LaneState.skimEnd_done (L : LaneState) (j status value : Nat) : j ∉ (L.skimEnd j status value).skim.due :=
  fun h => ((mem_dropFrom _ _ _).1 h).2 rfl

/-- What the end of a run leaves: its status and value, and a job that is no longer due (R53). -/
theorem LaneState.skimEnd_spec (L : LaneState) (j : Nat) {status value : Nat} (hs : status < 2 ^ 8) (hv : value < 2 ^ 24) :
    (L.skimEnd j status value).get (R.skimJobLast_status j) = status ∧
      (L.skimEnd j status value).get (R.skimJobLast_value j) = value ∧ j ∉ (L.skimEnd j status value).skim.due :=
  ⟨(L.skimEnd_status ..).trans (Nat.mod_eq_of_lt hs), (L.skimEnd_value ..).trans (Nat.mod_eq_of_lt hv),
    L.skimEnd_done j status value⟩

/-- SKIM_STAT after the end of a run of a job. -/
theorem LaneState.skimEnd_stat (L : LaneState) (j status value : Nat) : ∃ N : LaneState,
    (L.skimEnd j status value).reg R.skimStat =
      (((N.flagIf (status == 1) R.skimStat_job_fail).put R.skimStat_job j).setF R.skimStat_busy false).reg R.skimStat :=
  ⟨_, rfl⟩

/-- A run that ends with status 1 sets job_fail. -/
theorem LaneState.skimEnd_fails (L : LaneState) (j value : Nat) : (L.skimEnd j 1 value).is R.skimStat_job_fail = true := by
  obtain ⟨N, hN⟩ := L.skimEnd_stat j 1 value
  have e : (L.skimEnd j 1 value).get R.skimStat_job_fail = (((N.flag R.skimStat_job_fail).put R.skimStat_job j).setF
      R.skimStat_busy false).get R.skimStat_job_fail := congrArg (fun w : Word => bits w.toNat 17 17) hN
  rw [LaneState.is, e, LaneState.setF_def, LaneState.get_put_apart _ _ _ _ (by decide) (by decide),
    LaneState.get_put_apart _ _ _ _ (by decide) (by decide)]
  exact N.is_flag _ (by decide) (by decide)

/-! ## DLCAL (R235) -/

/-- The value of DLCAL: N16 and, above it, its change in 12 bits. -/
theorem dlcal_value (n16 : BitVec 12) (d : Int) :
    n16.toNat + 4096 * wrapTo 12 d < 2 ^ 24 ∧ bits (n16.toNat + 4096 * wrapTo 12 d) 11 0 = n16.toNat := by
  have hw := wrapTo_lt 12 d
  have hn := n16.isLt
  constructor
  · omega
  · simp only [bits]
    omega

/-- The lane with a new tap table of group `g` that awaits its tick boundary, in the place of any other. -/
def LaneState.newTable (L : LaneState) (g n16 : Nat) : LaneState :=
  { L with edge := { L.edge with newTab := L.edge.newTab.filter (fun (p : Nat × Nat) => p.1 != g) ++ [(g, n16)] } }

/-- A measurement within the limits builds a new tap table of its group. -/
theorem exec_dlcal_builds {n16 : BitVec 12} {g : Nat} (h : (s.lane l).skimNext j = true)
    (hk : (s.lane l).jobKind j = jkDlcal) (hg : g = (s.lane l).get (R.skimJobCfg_target j) % 4)
    (hok : (s.lane l).n16Ok n16.toNat = true)
    (hd : ((n16.toNat : Int) - (s.lane l).get (R.edgeDlStat_n16 g)).natAbs ≤ (s.lane l).get R.edgeDlLim_step) :
    ∃ d, exec (.dlcal l j n16) s = .next (s.setLane l
      ((((s.lane l).atJob j).newTable g n16.toNat).skimEnd j 0 (n16.toNat + 4096 * wrapTo 12 d))) := by
  have hn : R.edgeDlStat g < 0x401B0000 := by simp only [R.edgeDlStat]; omega
  rw [← (s.lane l).get_atJob j (R.edgeDlStat_n16 g) hn, ← (s.lane l).get_atJob j R.edgeDlLim_step (by decide)] at hd
  have hok : ((s.lane l).atJob j).n16Ok n16.toNat = true := by
    rw [← hok, LaneState.n16Ok, LaneState.get_atJob _ _ _ (by decide), LaneState.get_atJob _ _ _ (by decide)]
    rfl
  rw [← (s.lane l).target_atJob j] at hg
  subst hg
  have e := exec_skimRun (c := .dlcal l j n16) rfl h hk
  exact ⟨_, e.trans (next_setLane s l ((if_neg (by simp [hok])).trans (if_neg (Nat.not_lt.2 hd))))⟩

/-- A measurement beyond the limits keeps the table and sets dl_fail. -/
theorem exec_dlcal_fails {n16 : BitVec 12} (h : (s.lane l).skimNext j = true) (hk : (s.lane l).jobKind j = jkDlcal)
    (hok : (s.lane l).n16Ok n16.toNat = false) :
    ∃ d, exec (.dlcal l j n16) s = .next (s.setLane l
      ((((s.lane l).atJob j).flag R.edgeStat_dl_fail).skimEnd j 1 (n16.toNat + 4096 * wrapTo 12 d))) := by
  have hok : ((s.lane l).atJob j).n16Ok n16.toNat = false := by
    rw [← hok, LaneState.n16Ok, LaneState.get_atJob _ _ _ (by decide), LaneState.get_atJob _ _ _ (by decide)]
    rfl
  have e := exec_skimRun (c := .dlcal l j n16) rfl h hk
  exact ⟨_, e.trans (next_setLane s l (if_pos (by rw [hok]; rfl)))⟩

/-- DLCAL with a measurement within the limits ends with status 0, the new table of its group waiting for its tick. -/
theorem dlcal_builds {n16 : BitVec 12} {g : Nat} (h : (s.lane l).skimNext j = true)
    (hk : (s.lane l).jobKind j = jkDlcal) (hg : g = (s.lane l).get (R.skimJobCfg_target j) % 4)
    (hok : (s.lane l).n16Ok n16.toNat = true)
    (hd : ((n16.toNat : Int) - (s.lane l).get (R.edgeDlStat_n16 g)).natAbs ≤ (s.lane l).get R.edgeDlLim_step) :
    Does s (.dlcal l j n16)
      { parts := [.skim, .edge], regs := [R.skimJobLast j, R.skimJobCnt j, R.skimStat] } fun _ M =>
      M.get (R.skimJobLast_status j) = 0 ∧ bits (M.get (R.skimJobLast_value j)) 11 0 = n16.toNat ∧
      (g, n16.toNat) ∈ M.edge.newTab ∧ (∀ x, (g, x) ∈ M.edge.newTab → x = n16.toNat) ∧
      j.val ∉ M.skim.due ∧ M.skim.running = none := by
  obtain ⟨d, e⟩ := exec_dlcal_builds h hk hg hok hd
  obtain ⟨hlt, hlow⟩ := dlcal_value n16 d
  generalize hN : ((s.lane l).atJob j).newTable g n16.toNat = N at e
  obtain ⟨hst, hval, hdue⟩ := N.skimEnd_spec j (status := 0) (by decide) hlt
  have htab : (N.skimEnd j 0 (n16.toNat + 4096 * wrapTo 12 d)).edge = N.edge := N.part_skimEnd (p := .edge) _ _ _ (by decide)
  refine .of_next_setLane e rfl ?_ ⟨hst, by rw [hval, hlow], ?_, ?_, hdue, rfl⟩
  · subst hN
    exact Kept.skimEnd _ _ _ _ ((Kept.atJob _ _ (by simp)).with_edge _ (by simp)) (by simp) (by simp)
  all_goals rw [htab]; subst hN; simp [LaneState.newTable]

/-- DLCAL with a measurement beyond the limits fails. -/
theorem dlcal_fails {n16 : BitVec 12} (h : (s.lane l).skimNext j = true) (hk : (s.lane l).jobKind j = jkDlcal)
    (hok : (s.lane l).n16Ok n16.toNat = false) :
    Does s (.dlcal l j n16)
      { parts := [.skim], regs := [R.skimJobLast j, R.skimJobCnt j, R.skimStat, R.edgeStat] } fun _ M =>
      M.get (R.skimJobLast_status j) = 1 ∧ M.is R.edgeStat_dl_fail = true ∧ M.is R.skimStat_job_fail = true ∧
      j.val ∉ M.skim.due := by
  obtain ⟨d, e⟩ := exec_dlcal_fails h hk hok
  obtain ⟨hst, -, hdue⟩ := LaneState.skimEnd_spec (((s.lane l).atJob j).flag R.edgeStat_dl_fail) j (status := 1) (by decide)
    (dlcal_value n16 d).1
  refine .of_next_setLane e rfl ?_ ⟨hst, ?_, LaneState.skimEnd_fails _ _ _, hdue⟩
  · exact Kept.skimEnd _ _ _ _ ((Kept.atJob _ _ (by simp)).flag (by simp [R.edgeStat_dl_fail])) (by simp) (by simp)
  · rw [LaneState.is, LaneState.get_skimEnd _ _ _ _ _ (by decide)]
    exact LaneState.is_flag _ _ (by decide) (by decide)

/-! ## SHUNTZ and AVSMON (R259, R478) -/

/-- SHUNTZ of a port at rest ends with the three offsets, and status 1 where one is beyond the limit. -/
theorem exec_shuntz_rests {u v w : BitVec 8} (h : (s.lane l).skimNext j = true) (hk : (s.lane l).jobKind j = jkShuntz)
    (hst : (s.lane l).axis ((s.lane l).get (R.skimJobCfg_target j) % 4) = axOff ∨
      (s.lane l).axis ((s.lane l).get (R.skimJobCfg_target j) % 4) = axFree) :
    exec (.shuntz l j u v w) s = .next (s.setLane l (((s.lane l).atJob j).skimEnd j
      (b2n ([u, v, w].any (fun x => decide ((s.lane l).get R.brgShunt_zlim < x.toInt.natAbs))))
      (u.toNat + 256 * v.toNat + 65536 * w.toNat))) := by
  have hax : ((s.lane l).atJob j).axis (((s.lane l).atJob j).get (R.skimJobCfg_target j) % 4) =
      (s.lane l).axis ((s.lane l).get (R.skimJobCfg_target j) % 4) := by
    rw [LaneState.target_atJob]
    exact LaneState.get_atJob _ _ _ (by simp only [R.axpState_state, R.axpState]; omega)
  rw [← (s.lane l).get_atJob j R.brgShunt_zlim (by decide)]
  refine (exec_skimRun rfl h hk).trans (next_setLane s l (if_neg ?_))
  rw [hax]
  rcases hst with hst | hst <;> simp [hst, axOff, axArmed, axFree]

/-- The status of SHUNTZ, by the three offsets. -/
theorem shuntz_status (u v w : BitVec 8) (z : Nat) :
    b2n ([u, v, w].any (fun x => decide (z < x.toInt.natAbs))) =
      if u.toInt.natAbs ≤ z ∧ v.toInt.natAbs ≤ z ∧ w.toInt.natAbs ≤ z then 0 else 1 := by
  by_cases hz : u.toInt.natAbs ≤ z ∧ v.toInt.natAbs ≤ z ∧ w.toInt.natAbs ≤ z
  · obtain ⟨hu, hv, hw⟩ := hz
    simp [hu, hv, hw]
  · rw [if_neg hz, b2n_eq_one]
    simp only [List.any_cons, List.any_nil, Bool.or_false, Bool.or_eq_true, decide_eq_true_eq]
    omega

/-- SHUNTZ of a port at rest reports its three offsets and whether one is beyond the limit. -/
theorem shuntz_reports {u v w : BitVec 8} (h : (s.lane l).skimNext j = true) (hk : (s.lane l).jobKind j = jkShuntz)
    (hst : (s.lane l).axis ((s.lane l).get (R.skimJobCfg_target j) % 4) = axOff ∨
      (s.lane l).axis ((s.lane l).get (R.skimJobCfg_target j) % 4) = axFree) :
    Does s (.shuntz l j u v w) { parts := [.skim], regs := [R.skimJobLast j, R.skimJobCnt j, R.skimStat] } fun L M =>
      M.get (R.skimJobLast_value j) = u.toNat + 256 * v.toNat + 65536 * w.toNat ∧
      M.get (R.skimJobLast_status j) =
        (if u.toInt.natAbs ≤ L.get R.brgShunt_zlim ∧ v.toInt.natAbs ≤ L.get R.brgShunt_zlim ∧
          w.toInt.natAbs ≤ L.get R.brgShunt_zlim then 0 else 1) ∧ j.val ∉ M.skim.due := by
  have hlt : u.toNat + 256 * v.toNat + 65536 * w.toNat < 2 ^ 24 := by
    have := u.isLt
    have := v.isLt
    have := w.isLt
    omega
  obtain ⟨hstat, hval, hdue⟩ := ((s.lane l).atJob j).skimEnd_spec j (lt_trans (b2n_lt
    ([u, v, w].any (fun x => decide ((s.lane l).get R.brgShunt_zlim < x.toInt.natAbs)))) (by decide)) hlt
  refine .of_next_setLane (exec_shuntz_rests h hk hst) rfl ?_ ⟨hval, hstat.trans (shuntz_status u v w _), hdue⟩
  exact Kept.skimEnd _ _ _ _ (Kept.atJob _ _ (by simp)) (by simp) (by simp)

/-- AVSMON stores its count and its time, and judges the margin of its group. -/
theorem exec_avsmon {count : BitVec 24} (h : (s.lane l).skimNext j = true) (hk : (s.lane l).jobKind j = jkAvsmon) :
    exec (.avsmon l j count) s = .next (s.setLane l
      ((((s.lane l).atJob j).mapP (fun P => { P with
        avs := P.avs.set ((s.lane l).get (R.skimJobCfg_target j) % 8) count.toNat
        avsAt := P.avsAt.set ((s.lane l).get (R.skimJobCfg_target j) % 8) ((s.lane l).coarse + 1) })).skimEnd j
      (b2n (decide ((s.lane l).avsMargin ((s.lane l).get (R.skimJobCfg_target j) % 8) count.toNat <
        ((s.lane l).get R.pwrAvs_lo : Int)))) count.toNat)) := by
  have hm : ∀ g, g < 8 → ((s.lane l).atJob j).avsMargin g count.toNat = (s.lane l).avsMargin g count.toNat :=
    fun g hg => by
      unfold LaneState.avsMargin
      rw [LaneState.get_atJob _ _ _ (by simp only [R.pwrAvsTgt_tgt, R.pwrAvsTgt]; omega)]
  rw [← hm _ (Nat.mod_lt _ (by decide)), ← (s.lane l).get_atJob j R.pwrAvs_lo (by decide), ← (s.lane l).target_atJob j]
  exact exec_skimRun (c := .avsmon l j count) rfl h hk

/-- AVSMON ends with its count and whether its margin is below the limit. -/
theorem avsmon_stores {count : BitVec 24} (h : (s.lane l).skimNext j = true) (hk : (s.lane l).jobKind j = jkAvsmon) :
    Does s (.avsmon l j count)
      { parts := [.skim, .pwr], regs := [R.skimJobLast j, R.skimJobCnt j, R.skimStat] } fun L M =>
      let g := L.get (R.skimJobCfg_target j) % 8
      M.get (R.skimJobLast_value j) = count.toNat ∧
      M.get (R.skimJobLast_status j) = b2n (decide (L.avsMargin g count.toNat < (L.get R.pwrAvs_lo : Int))) ∧
      M.pwr = { L.pwr with avs := L.pwr.avs.set g count.toNat, avsAt := L.pwr.avsAt.set g (L.coarse + 1) } ∧
      j.val ∉ M.skim.due := by
  refine .of_next_setLane (exec_avsmon h hk) rfl ?_ ⟨?_, ?_, ?_, LaneState.skimEnd_done _ _ _ _⟩
  · exact Kept.skimEnd _ _ _ _ ((Kept.atJob _ _ (by simp)).with_pwr _ (by simp)) (by simp) (by simp)
  · exact (LaneState.skimEnd_value ..).trans (Nat.mod_eq_of_lt count.isLt)
  · exact (LaneState.skimEnd_status ..).trans (b2n_mod _ (by decide))
  · exact LaneState.part_skimEnd _ _ _ _ (p := .pwr) (by decide)

/-! ## SCRUB (R515) -/

/-- An uncorrectable word sets the ecc_u bit of its region and raises a cause (R512). -/
theorem LaneState.eccBad_kept (L : LaneState) (r : Nat) :
    Kept { parts := [.belaySt], regs := [R.nvmcSrStat, R.belayStat] } L (L.eccBad r) := by
  have k := (Kept.refl { parts := [.belaySt], regs := [R.nvmcSrStat, R.belayStat] } L).setBit (f := R.nvmcSrStat_ecc_u) r
    true (by simp [R.nvmcSrStat_ecc_u])
  exact Kept.ite (fun _ => k.raiseOwn _ (by simp) (by simp)) (fun _ => k)

theorem LaneState.eccBad_shows (L : LaneState) {r : Nat} (hr : r < 8) : (L.eccBad r).bitOf R.nvmcSrStat_ecc_u r = true := by
  have k := L.bitOf_setBit_same R.nvmcSrStat_ecc_u r true (by simp only [R.nvmcSrStat_ecc_u]; omega) (by decide)
  unfold LaneState.eccBad
  dsimp only
  split
  · rw [LaneState.bitOf, LaneState.raiseOwn, LaneState.get_raise _ _ _ _ (by decide)]
    exact k
  · exact k

theorem LaneState.eccBad_raises (L : LaneState) {r : Nat} (hr : r ≤ 1) : (L.eccBad r).isRaised 0x09 L.id = true := by
  unfold LaneState.eccBad
  rw [if_pos hr]
  exact LaneState.isRaised_raise _ _ _

/-- A row that joins the repair queue of its region, or finds it full (R515). -/
theorem LaneState.queueRepair_cases (L : LaneState) (r row : Nat) :
    L.queueRepair r row = L ∧ (r, row) ∈ L.memSt.queue ∨
      L.queueRepair r row = L.setBit R.nvmcSrStat_q_full r true ∨
      L.queueRepair r row = L.mapM (fun M => { M with queue := M.queue ++ [(r, row)] }) := by
  unfold LaneState.queueRepair
  split
  · next h => exact .inl ⟨rfl, h⟩
  · split
    · exact .inr (.inl rfl)
    · exact .inr (.inr rfl)

theorem LaneState.queueRepair_spec (L : LaneState) {r : Nat} (row : Nat) (hr : r < 8) :
    Kept { parts := [.memSt], regs := [R.nvmcSrStat] } L (L.queueRepair r row) ∧
      ((r, row) ∈ (L.queueRepair r row).memSt.queue ∨ (L.queueRepair r row).bitOf R.nvmcSrStat_q_full r = true) ∧
      (L.queueRepair r row).memSt = { L.memSt with queue := (L.queueRepair r row).memSt.queue } ∧
      (L.queueRepair r row).bitOf R.nvmcSrStat_ecc_u r = L.bitOf R.nvmcSrStat_ecc_u r := by
  obtain ⟨h, hq⟩ | h | h := L.queueRepair_cases r row <;> rw [h]
  · exact ⟨Kept.refl _ L, .inl hq, rfl, rfl⟩
  · refine ⟨(Kept.refl _ L).setBit _ _ (by simp [R.nvmcSrStat_q_full]), .inr ?_, rfl, ?_⟩
    · exact L.bitOf_setBit_same _ _ _ (by simp only [R.nvmcSrStat_q_full]; omega) (by decide)
    · exact congrArg (bit · r) (L.get_put_apart _ _ _ (by decide) (by decide))
  · exact ⟨(Kept.refl _ L).with_memSt _ (by simp), .inl (by simp [LaneState.mapM]), rfl, rfl⟩

/-- The counts of a row that has been read: `n` corrected words, and whether a word was uncorrectable. -/
def LaneState.scrubCount (L : LaneState) (r n : Nat) (bad : Bool) : LaneState :=
  let L := L.count (R.nvmcSrCnt_cor r) n
  if bad then (L.eccBad r).mapM (fun M => { M with scrubBad := addTo r M.scrubBad }) else L

/-- The lane after a row has been read: it is counted, and queued for repair at the threshold. -/
def LaneState.scrubRead (L : LaneState) (r n : Nat) (bad : Bool) : LaneState :=
  let N := L.scrubCount r n bad
  if atLeast1 (N.get R.nvmcSrLim_thr) ≤ n then N.queueRepair r (L.memSt.scrubRow.get r) else N

/-- The row within the pass: the next row is due, or the pass is over. -/
def LaneState.scrubNext (L : LaneState) (r row total : Nat) : LaneState :=
  L.mapM (fun M => { M with scrubRow := M.scrubRow.set r row, scrubCor := M.scrubCor.set r total })

theorem LaneState.row_scrubNext (L : LaneState) (r row total : Nat) :
    (L.scrubNext r row total).memSt.scrubRow.get r = row := by simp [LaneState.scrubNext, LaneState.mapM]

theorem LaneState.total_scrubNext (L : LaneState) (r row total : Nat) :
    (L.scrubNext r row total).memSt.scrubCor.get r = total := by simp [LaneState.scrubNext, LaneState.mapM]

/-- What SCRUB does: it reads a row, and goes on to the next row or ends its run with the total of the pass. -/
theorem exec_scrub {cor : BitVec 8} {bad : Bool} {r : Nat} (h : (s.lane l).skimNext j = true)
    (hk : (s.lane l).jobKind j = jkScrub) (hr : r = (s.lane l).get (R.skimJobCfg_target j)) (h8 : r < 8) :
    exec (.scrub l j cor bad) s = .next (s.setLane l
      (let N := ((s.lane l).atJob j).scrubRead r (min cor.toNat 128) bad
       let row := (s.lane l).memSt.scrubRow.get r
       let total := N.memSt.scrubCor.get r + min cor.toNat 128
       if row + 1 < regionRows r then N.scrubNext r (row + 1) total
       else ((N.scrubNext r 0 0).mapM (fun M => { M with scrubBad := dropFrom r M.scrubBad })).skimEnd j
         (b2n (decide (r ∈ N.memSt.scrubBad))) (satU 24 total))) := by
  rw [← (s.lane l).target_atJob j] at hr
  subst hr
  exact (exec_skimRun rfl h hk).trans (next_setLane s l (if_neg (Nat.not_le.2 h8)))

theorem Kept.scrubCount (h : Kept F L M) (r n : Nat) {bad : Bool} (hm : .memSt ∈ F.parts) (hc : R.nvmcSrCnt r ∈ F.regs)
    (hs : R.nvmcSrStat ∈ F.regs) (hb : bad = true → .belaySt ∈ F.parts ∧ R.belayStat ∈ F.regs) :
    Kept F L (M.scrubCount r n bad) := by
  have k := h.count (f := R.nvmcSrCnt_cor r) n hc
  refine Kept.ite (fun hbad => Kept.with_memSt (k.step ((LaneState.eccBad_kept _ r).mono ⟨?_, ?_, by simp, by simp⟩)) _ hm)
    (fun _ => k)
  · simpa using (hb hbad).1
  · simpa using ⟨hs, (hb hbad).2⟩

theorem Kept.scrubRead (h : Kept F L M) (r n : Nat) {bad : Bool} (hm : .memSt ∈ F.parts) (hc : R.nvmcSrCnt r ∈ F.regs)
    (hs : R.nvmcSrStat ∈ F.regs) (hb : bad = true → .belaySt ∈ F.parts ∧ R.belayStat ∈ F.regs) :
    Kept F L (M.scrubRead r n bad) := by
  have k := h.scrubCount r n hm hc hs hb
  refine Kept.ite (fun _ => ?_) (fun _ => k)
  obtain ⟨e, -⟩ | e | e := (M.scrubCount r n bad).queueRepair_cases r (M.memSt.scrubRow.get r) <;> rw [e]
  · exact k
  · exact k.setBit _ _ hs
  · exact k.with_memSt _ hm

/-- What the counts of a row leave. -/
theorem LaneState.scrubCount_spec (L : LaneState) {r : Nat} (n : Nat) (bad : Bool) (hr : r < 8) :
    (L.scrubCount r n bad).get (R.nvmcSrCnt_cor r) = satU 16 (L.get (R.nvmcSrCnt_cor r) + n) ∧
      (bad = true → (L.scrubCount r n bad).bitOf R.nvmcSrStat_ecc_u r = true ∧
        (r ≤ 1 → (L.scrubCount r n bad).isRaised 0x09 L.id = true)) ∧
      (L.scrubCount r n bad).memSt = { L.memSt with scrubBad := (L.scrubCount r n bad).memSt.scrubBad } := by
  have hc : (L.count (R.nvmcSrCnt_cor r) n).get (R.nvmcSrCnt_cor r) = satU 16 (L.get (R.nvmcSrCnt_cor r) + n) := by
    rw [LaneState.count_def, LaneState.get_put_same _ _ _ (by simp [R.nvmcSrCnt_cor]) (by simp [R.nvmcSrCnt_cor])]
    exact satU_mod _ (by simp [R.nvmcSrCnt_cor])
  have k := (L.count (R.nvmcSrCnt_cor r) n).eccBad_kept r
  cases bad with
  | false => exact ⟨hc, fun h => absurd h (by decide), rfl⟩
  | true =>
    refine ⟨(k.get (R.nvmcSrCnt_cor r) ?_).trans hc, fun _ => ⟨LaneState.eccBad_shows _ hr, LaneState.eccBad_raises _⟩, ?_⟩
    · simp only [R.nvmcSrCnt_cor, R.nvmcSrCnt, R.nvmcSrStat, R.belayStat, List.mem_cons, List.not_mem_nil, or_false]
      omega
    · have e : ((L.count (R.nvmcSrCnt_cor r) n).eccBad r).memSt = L.memSt := k.1 .memSt (by simp)
      simp only [LaneState.scrubCount, if_true, LaneState.mapM, e]

/-- What a row that has been read leaves: its counts, its place in the queue at the threshold, and the pass as it was. -/
theorem LaneState.scrubRead_spec (L : LaneState) {r : Nat} (n : Nat) (bad : Bool) (hr : r < 8) :
    (L.scrubRead r n bad).get (R.nvmcSrCnt_cor r) = satU 16 (L.get (R.nvmcSrCnt_cor r) + n) ∧
      (bad = true → (L.scrubRead r n bad).bitOf R.nvmcSrStat_ecc_u r = true ∧
        (r ≤ 1 → (L.scrubRead r n bad).isRaised 0x09 L.id = true)) ∧
      (atLeast1 (L.get R.nvmcSrLim_thr) ≤ n → (r, L.memSt.scrubRow.get r) ∈ (L.scrubRead r n bad).memSt.queue ∨
        (L.scrubRead r n bad).bitOf R.nvmcSrStat_q_full r = true) ∧
      (L.scrubRead r n bad).memSt.scrubCor = L.memSt.scrubCor ∧
      (L.scrubRead r n bad).memSt.scrubBad = (L.scrubCount r n bad).memSt.scrubBad := by
  obtain ⟨hcor, hbad, hmem⟩ := L.scrubCount_spec n bad hr
  obtain ⟨hk, hq, hm, he⟩ := (L.scrubCount r n bad).queueRepair_spec (L.memSt.scrubRow.get r) hr
  have hthr : (L.scrubCount r n bad).get R.nvmcSrLim_thr = L.get R.nvmcSrLim_thr := by
    have k := (Kept.refl { parts := [.memSt, .belaySt], regs := [R.nvmcSrCnt r, R.nvmcSrStat, R.belayStat] } L).scrubCount
      r n (bad := bad) (by simp) (by simp) (by simp) (by simp)
    refine k.get _ ?_
    simp only [R.nvmcSrLim_thr, R.nvmcSrLim, R.nvmcSrCnt, R.nvmcSrStat, R.belayStat, List.mem_cons, List.not_mem_nil,
      or_false]
    omega
  unfold LaneState.scrubRead
  dsimp only
  rw [hthr]
  by_cases h : atLeast1 (L.get R.nvmcSrLim_thr) ≤ n
  · rw [if_pos h]
    refine ⟨?_, fun hb => ⟨he.trans (hbad hb).1, fun h1 => ?_⟩, fun _ => hq, ?_, ?_⟩
    · exact (hk.get _ (by
        simp only [R.nvmcSrCnt_cor, R.nvmcSrCnt, R.nvmcSrStat, List.mem_singleton]
        omega)).trans hcor
    · rw [LaneState.isRaised, show (LaneState.queueRepair _ r _).belaySt = _ from hk.1 .belaySt (by simp)]
      exact (hbad hb).2 h1
    · rw [hm, hmem]
    · rw [hm]
  · rw [if_neg h]
    exact ⟨hcor, hbad, fun h' => absurd h' h, by rw [hmem], rfl⟩

/-- SCRUB within a pass counts its row and goes on to the next one. -/
theorem scrub_goesOn {cor : BitVec 8} {bad : Bool} {r : Nat} (h : (s.lane l).skimNext j = true)
    (hk : (s.lane l).jobKind j = jkScrub) (hr : r = (s.lane l).get (R.skimJobCfg_target j)) (h8 : r < 8)
    (hrow : (s.lane l).memSt.scrubRow.get r + 1 < regionRows r) :
    Does s (.scrub l j cor bad)
      { parts := [.memSt, .belaySt]
        regs := [R.skimStat, R.nvmcSrCnt r, R.nvmcSrStat, R.belayStat] } fun L M =>
      M.memSt.scrubRow.get r = L.memSt.scrubRow.get r + 1 ∧
      M.get (R.nvmcSrCnt_cor r) = satU 16 (L.get (R.nvmcSrCnt_cor r) + min cor.toNat 128) ∧
      M.memSt.scrubCor.get r = L.memSt.scrubCor.get r + min cor.toNat 128 ∧
      (bad = true → M.bitOf R.nvmcSrStat_ecc_u r = true ∧ (r ≤ 1 → M.isRaised 0x09 L.id = true)) ∧
      (atLeast1 (L.get R.nvmcSrLim_thr) ≤ min cor.toNat 128 → (r, L.memSt.scrubRow.get r) ∈ M.memSt.queue ∨
        M.bitOf R.nvmcSrStat_q_full r = true) ∧ M.skim.due = L.skim.due := by
  obtain ⟨hcor, hbad, hthr, hpass, -⟩ := ((s.lane l).atJob j).scrubRead_spec (min cor.toNat 128) bad h8
  rw [LaneState.get_atJob _ _ _ (by simp only [R.nvmcSrCnt_cor, R.nvmcSrCnt]; omega)] at hcor
  rw [LaneState.get_atJob _ _ _ (by decide)] at hthr
  have e := (exec_scrub (cor := cor) (bad := bad) h hk hr h8).trans (next_setLane s l (if_pos hrow))
  have k := (Kept.atJob (F := { parts := [.memSt, .belaySt], regs := [R.skimStat, R.nvmcSrCnt r, R.nvmcSrStat, R.belayStat] })
    (s.lane l) j (by simp)).scrubRead r (min cor.toNat 128) (bad := bad) (by simp) (by simp) (by simp) (by simp)
  refine .of_next_setLane e rfl (k.with_memSt _ (by simp)) ⟨LaneState.row_scrubNext .., hcor, ?_, hbad, hthr,
    congrArg SkimSt.due (k.1 .skim (by simp))⟩
  rw [LaneState.total_scrubNext, hpass]
  rfl

/-- SCRUB of the last row of a region that has met no uncorrectable word ends with the total of the pass. -/
theorem scrub_ends {cor : BitVec 8} {r : Nat} (h : (s.lane l).skimNext j = true)
    (hk : (s.lane l).jobKind j = jkScrub) (hr : r = (s.lane l).get (R.skimJobCfg_target j)) (h8 : r < 8)
    (hrow : regionRows r ≤ (s.lane l).memSt.scrubRow.get r + 1) (hclean : r ∉ (s.lane l).memSt.scrubBad) :
    Does s (.scrub l j cor false)
      { parts := [.memSt, .skim]
        regs := [R.skimStat, R.nvmcSrCnt r, R.nvmcSrStat, R.skimJobLast j, R.skimJobCnt j] } fun L M =>
      M.memSt.scrubRow.get r = 0 ∧ M.get (R.skimJobLast_status j) = 0 ∧
      M.get (R.skimJobLast_value j) = satU 24 (L.memSt.scrubCor.get r + min cor.toNat 128) ∧ j.val ∉ M.skim.due := by
  obtain ⟨-, -, -, hpass, hbad⟩ := ((s.lane l).atJob j).scrubRead_spec (min cor.toNat 128) false h8
  have e := (exec_scrub (cor := cor) (bad := false) h hk hr h8).trans (next_setLane s l (if_neg (Nat.not_lt.2 hrow)))
  rw [hbad, hpass, show decide (r ∈ (((s.lane l).atJob j).scrubCount r (min cor.toNat 128) false).memSt.scrubBad) = false
    from decide_eq_false hclean] at e
  refine .of_next_setLane e rfl ?_ ⟨?_, LaneState.skimEnd_status .., ?_, LaneState.skimEnd_done _ _ _ _⟩
  · have k := (Kept.atJob (F := { parts := [.memSt, .skim], regs := [R.skimStat, R.nvmcSrCnt r, R.nvmcSrStat,
      R.skimJobLast j, R.skimJobCnt j] }) (s.lane l) j (by simp)).scrubRead r (min cor.toNat 128) (bad := false) (by simp)
      (by simp) (by simp) (by simp)
    exact Kept.skimEnd _ _ _ _ ((k.with_memSt _ (by simp)).with_memSt _ (by simp)) (by simp) (by simp)
  · rw [show (LaneState.skimEnd _ _ _ _).memSt = _ from LaneState.part_skimEnd _ _ _ _ (p := .memSt) (by decide)]
    exact (((s.lane l).atJob j).scrubRead r (min cor.toNat 128) false).row_scrubNext r 0 0
  · exact (LaneState.skimEnd_value ..).trans (satU_mod _ (Nat.le_refl _))

/-! ## NVSCRUB (R518) -/

/-- The counts of a group that has been read: `n` corrected lines, the last of them at index `line`. -/
def LaneState.nvCount (L : LaneState) (t n line : Nat) : LaneState :=
  let N := L.count R.nvmcCnt_cor n
  if n = 0 then N
  else (N.flag R.nvmcStat_weak).put R.nvmcWeak_addr (t * 2 ^ 24 + L.memSt.nvPos.get t * 1024 + 16 * line)

/-- The lane at the end of a pass over a target. -/
def LaneState.nvPass (L : LaneState) (t : Nat) : LaneState :=
  (L.mapM (fun M => { M with
    nvPos := M.nvPos.set t 0, nvCor := M.nvCor.set t 0, nvBad := dropFrom t M.nvBad })).count R.nvmcCnt_pass

/-- NVSCRUB of the last group of a target ends its run with the total of the pass. -/
theorem exec_nvscrub_ends {cor : BitVec 7} {line : BitVec 6} {t : Nat} (h : (s.lane l).skimNext j = true)
    (hk : (s.lane l).jobKind j = jkNvscrub) (ht : t = (s.lane l).get (R.skimJobCfg_target j)) (h3 : t < 3)
    (hb : (s.lane l).nvBusyOn t = false) (hend : nvSize t ≤ ((s.lane l).memSt.nvPos.get t + 1) * 1024) :
    exec (.nvscrub l j cor line false) s = .next (s.setLane l
      (let N := ((s.lane l).atJob j).nvCount t (min cor.toNat 64) line.toNat
       (N.nvPass t).skimEnd j (b2n (decide (t ∈ N.memSt.nvBad)))
         (satU 24 (N.memSt.nvCor.get t + min cor.toNat 64)))) := by
  rw [← (s.lane l).target_atJob j] at ht
  subst ht
  have e := exec_skimRun (c := .nvscrub l j cor line false) rfl h hk
  refine e.trans (next_setLane s l ((if_neg (Nat.not_le.2 h3)).trans ?_))
  replace hb : ((s.lane l).atJob j).nvBusyOn (((s.lane l).atJob j).get (R.skimJobCfg_target j)) = false := hb
  exact (if_neg (by rw [hb]; decide)).trans (if_neg (Nat.not_lt.2 hend))

theorem Kept.nvCount (h : Kept F L M) (t n line : Nat) (hc : R.nvmcCnt ∈ F.regs) (hs : R.nvmcStat ∈ F.regs)
    (hw : R.nvmcWeak ∈ F.regs) : Kept F L (M.nvCount t n line) := by
  have k := h.count (f := R.nvmcCnt_cor) n hc
  exact Kept.ite (fun _ => k) (fun _ => (k.flag (f := R.nvmcStat_weak) hs).put (f := R.nvmcWeak_addr) _ hw)

/-- What the counts of a group leave. -/
theorem LaneState.nvCount_spec (L : LaneState) (t n line : Nat) :
    (L.nvCount t n line).get R.nvmcCnt_cor = satU 16 (L.get R.nvmcCnt_cor + n) ∧
      (L.nvCount t n line).get R.nvmcCnt_pass = L.get R.nvmcCnt_pass ∧
      (n ≠ 0 → (L.nvCount t n line).is R.nvmcStat_weak = true) ∧ (L.nvCount t n line).memSt = L.memSt := by
  have hm : (L.nvCount t n line).memSt = L.memSt := ((Kept.refl { regs := [R.nvmcCnt, R.nvmcStat, R.nvmcWeak] } L).nvCount
    t n line (by simp) (by simp) (by simp)).1 .memSt (by simp)
  have hc : (L.count R.nvmcCnt_cor n).get R.nvmcCnt_cor = satU 16 (L.get R.nvmcCnt_cor + n) := by
    rw [LaneState.count_def, LaneState.get_put_same _ _ _ (by decide) (by decide)]
    exact satU_mod _ (by decide)
  have hp : (L.count R.nvmcCnt_cor n).get R.nvmcCnt_pass = L.get R.nvmcCnt_pass :=
    L.get_put_apart _ _ _ (by decide) (by decide)
  revert hm
  unfold LaneState.nvCount
  dsimp only
  split
  · next h => exact fun hm => ⟨hc, hp, fun h' => absurd h h', hm⟩
  · refine fun hm => ⟨?_, ?_, fun _ => ?_, hm⟩
    · rw [LaneState.get_put_ne _ _ _ _ (by decide), LaneState.flag_def, LaneState.get_put_ne _ _ _ _ (by decide), hc]
    · rw [LaneState.get_put_ne _ _ _ _ (by decide), LaneState.flag_def, LaneState.get_put_ne _ _ _ _ (by decide), hp]
    · rw [LaneState.is, LaneState.get_put_ne _ _ _ _ (by decide)]
      exact LaneState.is_flag _ _ (by decide) (by decide)

/-- What the end of a pass leaves: the target anew from its first group, and the pass counted. -/
theorem LaneState.nvPass_spec (L : LaneState) (t : Nat) :
    (L.nvPass t).memSt.nvPos.get t = 0 ∧ (L.nvPass t).get R.nvmcCnt_pass = satU 16 (L.get R.nvmcCnt_pass + 1) ∧
      (L.nvPass t).get R.nvmcCnt_cor = L.get R.nvmcCnt_cor ∧ (L.nvPass t).is R.nvmcStat_weak = L.is R.nvmcStat_weak := by
  unfold LaneState.nvPass
  refine ⟨?_, ?_, ?_, ?_⟩
  · simp [LaneState.count_def, LaneState.mapM]
  · rw [LaneState.count_def, LaneState.get_put_same _ _ _ (by decide) (by decide)]
    exact satU_mod _ (by decide)
  · exact LaneState.get_put_apart _ _ _ _ (by decide) (by decide)
  · exact congrArg (· != 0) (LaneState.get_put_ne _ _ _ _ (by decide))

/-- NVSCRUB of the last group of a target that has met no uncorrectable line counts the pass and gives its total. -/
theorem nvscrub_ends {cor : BitVec 7} {line : BitVec 6} {t : Nat} (h : (s.lane l).skimNext j = true)
    (hk : (s.lane l).jobKind j = jkNvscrub) (ht : t = (s.lane l).get (R.skimJobCfg_target j)) (h3 : t < 3)
    (hb : (s.lane l).nvBusyOn t = false) (hend : nvSize t ≤ ((s.lane l).memSt.nvPos.get t + 1) * 1024)
    (hclean : t ∉ (s.lane l).memSt.nvBad) :
    Does s (.nvscrub l j cor line false)
      { parts := [.memSt, .skim]
        regs := [R.skimStat, R.nvmcCnt, R.nvmcStat, R.nvmcWeak, R.skimJobLast j, R.skimJobCnt j] } fun L M =>
      M.memSt.nvPos.get t = 0 ∧ M.get R.nvmcCnt_pass = satU 16 (L.get R.nvmcCnt_pass + 1) ∧
      M.get R.nvmcCnt_cor = satU 16 (L.get R.nvmcCnt_cor + min cor.toNat 64) ∧
      (cor ≠ 0 → M.is R.nvmcStat_weak = true) ∧
      M.get (R.skimJobLast_status j) = 0 ∧ j.val ∉ M.skim.due ∧
      M.get (R.skimJobLast_value j) = satU 24 (L.memSt.nvCor.get t + min cor.toNat 64) := by
  have e := exec_nvscrub_ends (cor := cor) (line := line) h hk ht h3 hb hend
  obtain ⟨hcor, hpass, hweak, hmem⟩ := ((s.lane l).atJob j).nvCount_spec t (min cor.toNat 64) line.toNat
  replace hmem : (((s.lane l).atJob j).nvCount t (min cor.toNat 64) line.toNat).memSt = (s.lane l).memSt := hmem
  have k := (Kept.atJob (F := { parts := [.memSt, .skim], regs := [R.skimStat, R.nvmcCnt, R.nvmcStat, R.nvmcWeak,
    R.skimJobLast j, R.skimJobCnt j] }) (s.lane l) j (by simp)).nvCount t (min cor.toNat 64) line.toNat (by simp) (by simp)
    (by simp)
  dsimp only at e
  generalize ((s.lane l).atJob j).nvCount t (min cor.toNat 64) line.toNat = N at e hcor hpass hweak hmem k
  obtain ⟨hpos, hcnt, hkeep, hflag⟩ := N.nvPass_spec t
  rw [hmem, decide_eq_false hclean] at e
  have hget : ∀ f : RF, f.addr < 0x401B0000 → _ := fun f => (N.nvPass t).get_skimEnd j (b2n false)
    (satU 24 ((s.lane l).memSt.nvCor.get t + min cor.toNat 64)) f
  refine .of_next_setLane e rfl ?_ ⟨?_, ?_, ?_, fun h0 => ?_, LaneState.skimEnd_status .., LaneState.skimEnd_done _ _ _ _, ?_⟩
  · exact Kept.skimEnd _ _ _ _ ((k.with_memSt _ (by simp)).count _ (by simp [R.nvmcCnt_pass])) (by simp) (by simp)
  · rw [show (LaneState.skimEnd _ _ _ _).memSt = _ from LaneState.part_skimEnd _ _ _ _ (p := .memSt) (by decide), hpos]
  · rw [hget _ (by decide), hcnt, hpass, LaneState.get_atJob _ _ _ (by decide)]
  · rw [hget _ (by decide), hkeep, hcor, LaneState.get_atJob _ _ _ (by decide)]
  · rw [LaneState.is, hget _ (by decide), ← LaneState.is, hflag]
    have hne : cor.toNat ≠ 0 := by simpa [BitVec.toNat_eq] using h0
    exact hweak (by omega)
  · exact (LaneState.skimEnd_value ..).trans (satU_mod _ (Nat.le_refl _))

/-! ## REPAIR (R516) -/

/-- The lane without a row in the repair queue. -/
def LaneState.unqueue (L : LaneState) (p : Nat × Nat) : LaneState :=
  L.mapM (fun M => { M with queue := dropFrom p M.queue })

theorem LaneState.get_unqueue (L : LaneState) (p : Nat × Nat) (f : RF) : (L.unqueue p).get f = L.get f := rfl

/-- The lane with a row of region `r` moved to a spare row. -/
def LaneState.spareRow (L : LaneState) (r : Nat) (p : Nat × Nat) : LaneState :=
  (((L.mapM (fun M => { M with remap := addTo p M.remap })).count (R.nvmcSrCnt_used r)).put R.nvmcSrLast_region r).put
    R.nvmcSrLast_row p.2

/-- REPAIR of a queued row: it leaves the queue, and moves to a spare row where one is left. -/
theorem exec_repair {bad : Bool} {r : Nat} {p : Nat × Nat} (h : (s.lane l).skimNext j = true)
    (hk : (s.lane l).jobKind j = jkRepair) (hr : r = (s.lane l).get (R.skimJobCfg_target j)) (h8 : r < 8)
    (hq : (s.lane l).memSt.queue.find? (fun x => x.1 == r) = some p) :
    exec (.repair l j bad) s = .next (s.setLane l
      (let N := ((s.lane l).atJob j).unqueue p
       if regionSpares r ≤ N.get (R.nvmcSrCnt_used r) then (N.setBit R.nvmcSrStat_spare_out r true).skimEnd j 1 0
       else if bad then ((N.eccBad r).setBit R.nvmcSrStat_rep_fail r true).skimEnd j 1 0
       else (N.spareRow r p).skimEnd j 0 0)) := by
  rw [← (s.lane l).target_atJob j] at hr
  subst hr
  have e := exec_skimRun (c := .repair l j bad) rfl h hk
  refine e.trans (next_setLane s l ((if_neg (Nat.not_le.2 h8)).trans ?_))
  rw [show ((s.lane l).atJob j).memSt.queue.find? _ = _ from hq]
  rfl

/-- What a row moved to a spare row leaves. -/
theorem LaneState.spareRow_spec (L : LaneState) {r : Nat} {p : Nat × Nat} (hr : r < 8) (hp : p.2 < 4096)
    (hu : L.get (R.nvmcSrCnt_used r) < regionSpares r) :
    p ∈ (L.spareRow r p).memSt.remap ∧ (L.spareRow r p).memSt.queue = L.memSt.queue ∧
      (L.spareRow r p).get (R.nvmcSrCnt_used r) = L.get (R.nvmcSrCnt_used r) + 1 ∧
      (L.spareRow r p).get R.nvmcSrLast_region = r ∧ (L.spareRow r p).get R.nvmcSrLast_row = p.2 := by
  have hs : regionSpares r ≤ 82 := (by decide : ∀ r < 8, regionSpares r ≤ 82) r hr
  have hne : ∀ f : RF, f.addr = R.nvmcSrLast → (R.nvmcSrCnt_used r).addr ≠ f.addr := fun f hf => by
    rw [hf]; simp only [R.nvmcSrCnt_used, R.nvmcSrCnt, R.nvmcSrLast]; omega
  refine ⟨?_, rfl, ?_, ?_, ?_⟩ <;> unfold LaneState.spareRow
  · simp [LaneState.count_def, LaneState.mapM]
  · rw [LaneState.get_put_ne _ _ _ _ (hne _ rfl), LaneState.get_put_ne _ _ _ _ (hne _ rfl), LaneState.count_def,
      LaneState.get_put_same _ _ _ (by simp [R.nvmcSrCnt_used]) (by simp [R.nvmcSrCnt_used])]
    change satU 8 (L.get (R.nvmcSrCnt_used r) + 1) % 2 ^ 8 = _
    rw [satU_mod _ (Nat.le_refl _), satU]
    omega
  · rw [LaneState.get_put_apart _ _ _ _ (by decide) (by decide), LaneState.get_put_same _ _ _ (by decide) (by decide)]
    exact Nat.mod_eq_of_lt hr
  · rw [LaneState.get_put_same _ _ _ (by decide) (by decide)]
    exact Nat.mod_eq_of_lt hp

/-- REPAIR with a spare row left moves the oldest queued row of its region. -/
theorem repair_moves {r : Nat} {p : Nat × Nat} (h : (s.lane l).skimNext j = true)
    (hk : (s.lane l).jobKind j = jkRepair) (hr : r = (s.lane l).get (R.skimJobCfg_target j)) (h8 : r < 8)
    (hq : (s.lane l).memSt.queue.find? (fun x => x.1 == r) = some p)
    (hu : (s.lane l).get (R.nvmcSrCnt_used r) < regionSpares r) (hp : p.2 < 4096) :
    Does s (.repair l j false)
      { parts := [.memSt, .skim]
        regs := [R.skimStat, R.nvmcSrCnt r, R.nvmcSrLast, R.skimJobLast j, R.skimJobCnt j] } fun L M =>
      p ∈ M.memSt.remap ∧ p ∉ M.memSt.queue ∧ M.get (R.nvmcSrCnt_used r) = L.get (R.nvmcSrCnt_used r) + 1 ∧
      M.get R.nvmcSrLast_region = r ∧ M.get R.nvmcSrLast_row = p.2 ∧ M.get (R.skimJobLast_status j) = 0 ∧
      j.val ∉ M.skim.due := by
  have hcnt : (R.nvmcSrCnt_used r).addr < 0x401B0000 := by simp only [R.nvmcSrCnt_used, R.nvmcSrCnt]; omega
  have hused : (((s.lane l).atJob j).unqueue p).get (R.nvmcSrCnt_used r) = (s.lane l).get (R.nvmcSrCnt_used r) :=
    (LaneState.get_unqueue ..).trans (LaneState.get_atJob _ _ _ hcnt)
  have e := (exec_repair (bad := false) h hk hr h8 hq).trans (next_setLane s l
    ((if_neg (by rw [hused]; exact Nat.not_le.2 hu)).trans (if_neg (by decide))))
  obtain ⟨hmap, hqueue, hcount, hregion, hrow⟩ := (((s.lane l).atJob j).unqueue p).spareRow_spec h8 hp (by rwa [hused])
  refine .of_next_setLane e rfl ?_ ⟨?_, ?_, ?_, ?_, ?_, LaneState.skimEnd_status .., LaneState.skimEnd_done _ _ _ _⟩
  · have k := Kept.atJob (F := { parts := [.memSt, .skim], regs := [R.skimStat, R.nvmcSrCnt r, R.nvmcSrLast,
      R.skimJobLast j, R.skimJobCnt j] }) (s.lane l) j (by simp)
    exact Kept.skimEnd _ _ _ _ (((((k.with_memSt _ (by simp)).with_memSt _ (by simp)).count 1
      (by simp [R.nvmcSrCnt_used])).put _ (by simp [R.nvmcSrLast_region])).put _ (by simp [R.nvmcSrLast_row])) (by simp)
      (by simp)
  · rw [show (LaneState.skimEnd _ _ _ _).memSt = _ from LaneState.part_skimEnd _ _ _ _ (p := .memSt) (by decide)]
    exact hmap
  · rw [show (LaneState.skimEnd _ _ _ _).memSt = _ from LaneState.part_skimEnd _ _ _ _ (p := .memSt) (by decide), hqueue]
    exact fun hm => ((mem_dropFrom _ _ _).1 hm).2 rfl
  · rw [LaneState.get_skimEnd _ _ _ _ _ hcnt, hcount, hused]
  · rw [LaneState.get_skimEnd _ _ _ _ _ (by decide), hregion]
  · rw [LaneState.get_skimEnd _ _ _ _ _ (by decide), hrow]

/-- REPAIR without a spare row left takes the row off the queue and fails. -/
theorem repair_noSpare {r : Nat} {p : Nat × Nat} {bad : Bool} (h : (s.lane l).skimNext j = true)
    (hk : (s.lane l).jobKind j = jkRepair) (hr : r = (s.lane l).get (R.skimJobCfg_target j)) (h8 : r < 8)
    (hq : (s.lane l).memSt.queue.find? (fun x => x.1 == r) = some p)
    (hu : regionSpares r ≤ (s.lane l).get (R.nvmcSrCnt_used r)) :
    Does s (.repair l j bad)
      { parts := [.memSt, .skim], regs := [R.skimStat, R.nvmcSrStat, R.skimJobLast j, R.skimJobCnt j] } fun _ M =>
      p ∉ M.memSt.queue ∧ M.bitOf R.nvmcSrStat_spare_out r = true ∧ M.get (R.skimJobLast_status j) = 1 ∧
      M.is R.skimStat_job_fail = true := by
  have hused : (((s.lane l).atJob j).unqueue p).get (R.nvmcSrCnt_used r) = (s.lane l).get (R.nvmcSrCnt_used r) :=
    (LaneState.get_unqueue ..).trans (LaneState.get_atJob _ _ _ (by simp only [R.nvmcSrCnt_used, R.nvmcSrCnt]; omega))
  have e := (exec_repair (bad := bad) h hk hr h8 hq).trans (next_setLane s l (if_pos (by rwa [hused])))
  refine .of_next_setLane e rfl ?_ ⟨?_, ?_, LaneState.skimEnd_status .., LaneState.skimEnd_fails _ _ _⟩
  · exact Kept.skimEnd _ _ _ _ (((Kept.atJob _ _ (by simp)).with_memSt _ (by simp)).setBit _ _
      (by simp [R.nvmcSrStat_spare_out])) (by simp) (by simp)
  · rw [show (LaneState.skimEnd _ _ _ _).memSt = _ from LaneState.part_skimEnd _ _ _ _ (p := .memSt) (by decide)]
    exact fun hm => ((mem_dropFrom _ _ _).1 hm).2 rfl
  · rw [LaneState.bitOf, LaneState.get_skimEnd _ _ _ _ _ (by decide)]
    exact LaneState.bitOf_setBit_same _ _ _ _ (by simp only [R.nvmcSrStat_spare_out]; omega) (by decide)

/-! ## REFX (R571) -/

/-- Whether the value of a lane counts: it drives, and its value came within the last 4,096 periods. -/
def LaneState.refxFresh (L : LaneState) (y : Lane) : Bool :=
  driving (L.view y) && L.lcs.refxAt.get y.idx != 0 && decide (L.pnum + 1 ≤ L.lcs.refxAt.get y.idx + 4096)

/-- The lane with its own reading posted, and kept with its period. -/
def LaneState.refxPost (L : LaneState) (uv : Word) : LaneState :=
  let N := L.publish rankOther 0x70 [uv]
  N.mapK (fun C => { C with refx := C.refx.set N.id.idx uv.toNat, refxAt := C.refxAt.set N.id.idx (N.pnum + 1) })

/-- The end of REFX for twice the deviation of the reading. -/
def LaneState.refxJudge (L : LaneState) (j : Nat) (dev2 : Int) : LaneState :=
  let bad := decide (200 * L.get R.bistRefxLim_lim < dev2.natAbs)
  (L.flagIf bad R.bistStat_refx_fail).skimEnd j (b2n bad) (wrapTo 24 (divOpen dev2 200))

/-- The fresh values of the lanes. -/
def LaneState.refxValues (L : LaneState) : List Int :=
  (lanes.filter L.refxFresh).map (fun y => (L.lcs.refx.get y.idx : Int))

/-- A command that runs a step of the job next to run and draws a free value. -/
theorem exec_skimRunFree {c : Instr} {kind : Nat} {f : Word → LaneState → LaneState}
    (hx : exec c s = onLaneFree s l (fun free L => L.skimRun j kind (f free))) (h : (s.lane l).skimNext j = true)
    (hk : (s.lane l).jobKind j = kind) :
    exec c s = .next { s.setLane l (f (Config.freeValue s.draws) ((s.lane l).atJob j)) with draws := s.draws + 1 } := by
  rw [hx, onLaneFree, LaneState.skimRun, LaneState.when_true _ _ (by simp [h, hk])]
  rfl

/-- The end of REFX, by the fresh values: judged against the median of three or the mean of two, else status 2. -/
def LaneState.refxEnd (L : LaneState) (j : Nat) (uv free : Word) : List Int → LaneState
  | [a, b, c] => L.refxJudge j (2 * ((uv.toNat : Int) - median3 a b c))
  | [a, b] => L.refxJudge j (2 * (uv.toNat : Int) - (a + b))
  | _ => L.skimEnd j 2 (free.toNat % 2 ^ 24)

/-- What REFX does: the lane posts its reading and judges it by the fresh values. -/
theorem exec_refx {uv : Word} (h : (s.lane l).skimNext j = true) (hk : (s.lane l).jobKind j = jkRefx) :
    exec (.refx l j uv) s = .next { s.setLane l
      (let N := ((s.lane l).atJob j).refxPost uv
       N.refxEnd j uv (Config.freeValue s.draws) N.refxValues) with draws := s.draws + 1 } :=
  exec_skimRunFree (f := fun free M => (M.refxPost uv).refxEnd j uv free (M.refxPost uv).refxValues) rfl h hk

/-- The lanes of which a condition holds of none but `x`. -/
theorem lanes_filter_one {p : Lane → Bool} {x : Lane} (h : ∀ z, z ≠ x → p z = false) :
    lanes.filter p = [] ∨ lanes.filter p = [x] := by
  cases x <;> simp [lanes, List.filter_cons, h]

/-- The lanes of which a condition holds of `x` and `y` alone. -/
theorem lanes_filter_two {p : Lane → Bool} {x y : Lane} (hne : y ≠ x) (hx : p x = true) (hy : p y = true)
    (h : ∀ z, z ≠ x → z ≠ y → p z = false) : lanes.filter p = [x, y] ∨ lanes.filter p = [y, x] := by
  cases x <;> cases y <;> simp [lanes, h, hx, hy] at hne ⊢

/-- Without another driving lane REFX ends with status 2. -/
theorem LaneState.refxEnd_alone (L : LaneState) (j : Nat) (uv free : Word) {x : Lane}
    (h : ∀ z, z ≠ x → L.refxFresh z = false) :
    L.refxEnd j uv free L.refxValues = L.skimEnd j 2 (free.toNat % 2 ^ 24) := by
  unfold LaneState.refxValues
  rcases lanes_filter_one h with e | e <;> rw [e] <;> rfl

/-- With the values of two lanes, the own reading among them, REFX judges it by the other one. -/
theorem LaneState.refxEnd_pair (L : LaneState) (j : Nat) (uv free : Word) {x y : Lane} (hne : y ≠ x)
    (hx : L.refxFresh x = true) (hy : L.refxFresh y = true) (h : ∀ z, z ≠ x → z ≠ y → L.refxFresh z = false)
    (hown : L.lcs.refx.get x.idx = uv.toNat) :
    L.refxEnd j uv free L.refxValues = L.refxJudge j ((uv.toNat : Int) - L.lcs.refx.get y.idx) := by
  unfold LaneState.refxValues
  rcases lanes_filter_two hne hx hy h with e | e <;> rw [e] <;>
    simp only [List.map_cons, List.map_nil, LaneState.refxEnd, hown] <;> congr 1 <;> omega

theorem Kept.refxJudge (h : Kept F L M) {j : Nat} (dev2 : Int) (hp : .skim ∈ F.parts)
    (hr : ∀ a ∈ [R.skimJobLast j, R.skimJobCnt j, R.skimStat], a ∈ F.regs) (hb : R.bistStat ∈ F.regs) :
    Kept F L (M.refxJudge j dev2) := Kept.skimEnd _ _ _ _ (h.flagIf _ hb) hp hr

theorem LaneState.refxJudge_kept (L : LaneState) (j : Nat) (dev2 : Int) :
    Kept { parts := [.skim], regs := [R.skimJobLast j, R.skimJobCnt j, R.skimStat, R.bistStat] } L (L.refxJudge j dev2) :=
  (Kept.refl _ L).refxJudge dev2 (by simp) (by simp) (by simp)

/-- The judgement of a deviation: its status, and a deviation beyond the limit is flagged. -/
theorem LaneState.refxJudge_spec (L : LaneState) (j : Nat) (dev2 : Int) :
    (L.refxJudge j dev2).get (R.skimJobLast_status j) = (if dev2.natAbs ≤ 200 * L.get R.bistRefxLim_lim then 0 else 1) ∧
      ((L.refxJudge j dev2).get (R.skimJobLast_status j) = 1 → (L.refxJudge j dev2).is R.bistStat_refx_fail = true) ∧
      j ∉ (L.refxJudge j dev2).skim.due := by
  generalize hb : decide (200 * L.get R.bistRefxLim_lim < dev2.natAbs) = bad
  have e : L.refxJudge j dev2 = (L.flagIf bad R.bistStat_refx_fail).skimEnd j (b2n bad) (wrapTo 24 (divOpen dev2 200)) := by
    rw [← hb]
    rfl
  obtain ⟨hst, -, hdue⟩ := (L.flagIf bad R.bistStat_refx_fail).skimEnd_spec j (lt_trans (b2n_lt bad) (by decide))
    (wrapTo_lt 24 (divOpen dev2 200))
  rw [e, hst]
  refine ⟨?_, fun h => ?_, hdue⟩
  · by_cases h : dev2.natAbs ≤ 200 * L.get R.bistRefxLim_lim
    · rw [if_pos h, ← hb, decide_eq_false (Nat.not_lt.2 h), b2n_false]
    · rw [if_neg h, ← hb, decide_eq_true (Nat.not_le.1 h), b2n_true]
  · rw [(b2n_eq_one bad).1 h, LaneState.is, LaneState.get_skimEnd _ _ _ _ _ (by decide)]
    exact L.is_flag _ (by decide) (by decide)

/-! ### The posted reading -/

theorem Kept.view (h : Kept F L M) (y : Lane) (hid : .id ∉ F.parts) (hr : R.belayState ∉ F.regs) : M.view y = L.view y := by
  have hv : ∀ f : RF, f.addr = R.belayState → M.get f = L.get f := fun f hf => h.get f (by rwa [hf])
  unfold LaneState.view LaneState.belay
  rw [show M.id = L.id from h.1 .id hid, hv R.belayState_state rfl, hv (viewField y) (by cases y <;> rfl)]

theorem Kept.pnum (h : Kept F L M) (ht : .time ∉ F.parts) (hr : R.sysTick ∉ F.regs) : M.pnum = L.pnum := by
  unfold LaneState.pnum LaneState.tServo LaneState.tTick LaneState.nTicks LaneState.coarse
  rw [show M.time = L.time from h.1 .time ht, h.get R.sysTick_tick hr, h.get R.sysTick_n hr]

theorem Kept.refxPost (h : Kept F L M) (uv : Word) (hp : .lcs ∈ F.parts) (h0 : .link .l0 ∈ F.parts)
    (h1 : .link .l1 ∈ F.parts) (hs : segBase M.id + 0x70 ∈ F.sigs) : Kept F L (M.refxPost uv) := by
  refine Kept.with_lcs (h.publish rankOther 0x70 [uv] h0 h1 (fun i hlo hhi => ?_)) _ hp
  obtain rfl : i = segBase M.id + 0x70 := by simp only [List.length_singleton] at hhi; omega
  exact hs

/-- What the posted reading leaves: its signal, and its place among the kept values. -/
theorem LaneState.refxPost_spec (L : LaneState) (uv : Word) :
    (L.refxPost uv).sig (segBase L.id + 0x70) = uv ∧
      (L.refxPost uv).lcs.refx = L.lcs.refx.set L.id.idx uv.toNat ∧
      (L.refxPost uv).lcs.refxAt = L.lcs.refxAt.set L.id.idx (L.pnum + 1) := by
  have k : Kept { parts := [.link .l0, .link .l1], sigs := [segBase L.id + 0x70] } L (L.publish rankOther 0x70 [uv]) := by
    refine (Kept.refl _ L).publish rankOther 0x70 [uv] (by simp) (by simp) (fun i hlo hhi => ?_)
    simp only [List.length_singleton] at hhi
    simp only [List.mem_singleton]
    omega
  have hlcs : (L.publish rankOther 0x70 [uv]).lcs = L.lcs := k.1 .lcs (by simp)
  have hid : (L.publish rankOther 0x70 [uv]).id = L.id := k.1 .id (by simp)
  have hq : ∀ N : LaneState, Kept { parts := [.link .l0, .link .l1] } N
      (N.queueMsg rankOther (.block (segBase L.id + 0x70) [uv])) :=
    fun N => (Kept.refl _ N).queueMsg _ _ (by simp) (by simp)
  refine ⟨?_, ?_, ?_⟩
  · refine ((hq _).2.2.1 _ (by simp)).trans ?_
    rw [LaneState.sig_setSigs, if_pos (by simp), Nat.sub_self]
    rfl
  · simp only [LaneState.refxPost, LaneState.mapK, hlcs, hid]
  · simp only [LaneState.refxPost, LaneState.mapK, hlcs, hid, k.pnum (by simp) (by simp)]

/-- Whether a value counts after the own reading has been posted: the own one where the lane drives, another as before. -/
theorem LaneState.refxFresh_atJob (L : LaneState) (j : Nat) (uv : Word) (z : Lane) :
    ((L.atJob j).refxPost uv).refxFresh z =
      if z = L.id then driving L.belay else L.refxFresh z := by
  obtain ⟨-, -, hat⟩ := (L.atJob j).refxPost_spec uv
  have k : Kept { parts := [.lcs, .link .l0, .link .l1], regs := [R.skimStat], sigs := [segBase L.id + 0x70] } L
      ((L.atJob j).refxPost uv) := (Kept.atJob L j (by simp)).refxPost uv (by simp) (by simp) (by simp) (by simp [LaneState.atJob])
  have hp := k.pnum (by simp) (by simp [R.sysTick, R.skimStat])
  have hv := k.view z (by simp) (by simp [R.belayState, R.skimStat])
  have hj : (L.atJob j).pnum = L.pnum := (L.atJob_kept j).pnum (by simp) (by simp [R.sysTick, R.skimStat])
  have hidx : ∀ x y : Lane, x.idx = y.idx ↔ x = y := fun x y => by cases x <;> cases y <;> decide
  unfold LaneState.refxFresh
  rw [hat, hp, hv, NMap.get_set, hj]
  by_cases hz : z = L.id
  · subst hz
    simp [LaneState.atJob, LaneState.view]
  · simp [LaneState.atJob, hidx, hz]

/-- REFX of a lane beside which none drives posts its reading and ends with status 2. -/
theorem refx_alone {uv : Word} (h : (s.lane l).skimNext j = true) (hk : (s.lane l).jobKind j = jkRefx)
    (hd : ∀ y, y ≠ (s.lane l).id → driving ((s.lane l).view y) = false) :
    DoesFree s (.refx l j uv)
      { parts := [.skim, .lcs, .link .l0, .link .l1]
        regs := [R.skimJobLast j, R.skimJobCnt j, R.skimStat], sigs := [segBase (s.lane l).id + 0x70] } fun L M =>
      M.sig (segBase L.id + 0x70) = uv ∧ M.get (R.skimJobLast_status j) = 2 ∧
      M.lcs.refx.get L.id.idx = uv.toNat ∧ M.lcs.refxAt.get L.id.idx = L.pnum + 1 ∧ j.val ∉ M.skim.due := by
  have e := exec_refx (uv := uv) h hk
  dsimp only at e
  rw [LaneState.refxEnd_alone _ _ _ _ (x := (s.lane l).id) (fun z hz => by
    rw [LaneState.refxFresh_atJob, if_neg hz, LaneState.refxFresh, hd z hz, Bool.false_and, Bool.false_and])] at e
  obtain ⟨hsig, hval, hat⟩ := ((s.lane l).atJob j).refxPost_spec uv
  rw [((s.lane l).atJob_kept j).pnum (by simp) (by simp [R.sysTick, R.skimStat])] at hat
  have hk := Kept.skimEnd (F := { parts := [.skim, .lcs, .link .l0, .link .l1]
                                  regs := [R.skimJobLast j, R.skimJobCnt j, R.skimStat]
                                  sigs := [segBase (s.lane l).id + 0x70] }) (s.lane l) j 2
    ((Config.freeValue s.draws).toNat % 2 ^ 24) ((Kept.atJob (s.lane l) j (by simp)).refxPost uv (by simp) (by simp) (by simp)
      (by simp [LaneState.atJob])) (by simp) (by simp)
  have hlcs := (((s.lane l).atJob j).refxPost uv).part_skimEnd (p := .lcs) j 2
    ((Config.freeValue s.draws).toNat % 2 ^ 24) (by decide)
  refine ⟨_, e, hk, (LaneState.sig_skimEnd ..).trans hsig, LaneState.skimEnd_status .., ?_, ?_, LaneState.skimEnd_done _ _ _ _⟩
  · rw [hlcs, hval]
    exact (NMap.get_set _ _ _ _).trans (if_pos rfl)
  · rw [hlcs, hat]
    exact (NMap.get_set _ _ _ _).trans (if_pos rfl)

/-- REFX of a driving lane beside which one drives judges its reading by the fresh value of the other. -/
theorem refx_pair {uv : Word} {y : Lane} (h : (s.lane l).skimNext j = true) (hk : (s.lane l).jobKind j = jkRefx)
    (hne : y ≠ (s.lane l).id) (hown : driving (s.lane l).belay = true) (hy : driving ((s.lane l).view y) = true)
    (hat : (s.lane l).lcs.refxAt.get y.idx ≠ 0) (hage : (s.lane l).pnum + 1 ≤ (s.lane l).lcs.refxAt.get y.idx + 4096)
    (hz : ∀ z, z ≠ (s.lane l).id → z ≠ y → driving ((s.lane l).view z) = false) :
    DoesFree s (.refx l j uv)
      { parts := [.skim, .lcs, .link .l0, .link .l1]
        regs := [R.skimJobLast j, R.skimJobCnt j, R.skimStat, R.bistStat], sigs := [segBase (s.lane l).id + 0x70] }
      fun L M =>
      M.sig (segBase L.id + 0x70) = uv ∧
      M.get (R.skimJobLast_status j) = (if ((uv.toNat : Int) - L.lcs.refx.get y.idx).natAbs ≤ 200 * L.get R.bistRefxLim_lim
        then 0 else 1) ∧
      (M.get (R.skimJobLast_status j) = 1 → M.is R.bistStat_refx_fail = true) ∧ j.val ∉ M.skim.due := by
  have hidx : y.idx ≠ (s.lane l).id.idx := fun he => hne (by revert he; cases y <;> cases (s.lane l).id <;> decide)
  obtain ⟨hsig, hval, -⟩ := ((s.lane l).atJob j).refxPost_spec uv
  have hmine : (((s.lane l).atJob j).refxPost uv).lcs.refx.get (s.lane l).id.idx = uv.toNat := by
    rw [hval]
    exact (NMap.get_set _ _ _ _).trans (if_pos rfl)
  have hhis : (((s.lane l).atJob j).refxPost uv).lcs.refx.get y.idx = (s.lane l).lcs.refx.get y.idx := by
    rw [hval]
    exact (NMap.get_set _ _ _ _).trans (if_neg hidx)
  have e := exec_refx (uv := uv) h hk
  dsimp only at e
  rw [LaneState.refxEnd_pair _ _ _ _ hne (by rw [LaneState.refxFresh_atJob, if_pos rfl, hown])
    (by rw [LaneState.refxFresh_atJob, if_neg hne]; simp [LaneState.refxFresh, hy, hat, hage])
    (fun z h1 h2 => by rw [LaneState.refxFresh_atJob, if_neg h1]; simp [LaneState.refxFresh, hz z h1 h2]) hmine, hhis] at e
  have k := (Kept.atJob (F := { parts := [.skim, .lcs, .link .l0, .link .l1]
                                regs := [R.skimJobLast j, R.skimJobCnt j, R.skimStat, R.bistStat]
                                sigs := [segBase (s.lane l).id + 0x70] }) (s.lane l) j (by simp)).refxPost uv (by simp)
    (by simp) (by simp) (by simp [LaneState.atJob])
  have hlim : (((s.lane l).atJob j).refxPost uv).get R.bistRefxLim_lim = (s.lane l).get R.bistRefxLim_lim :=
    k.get _ (by simp only [R.bistRefxLim_lim, R.bistRefxLim, R.skimJobLast, R.skimJobCnt, R.skimStat, R.bistStat,
      List.mem_cons, List.not_mem_nil, or_false]; omega)
  obtain ⟨hst, hfail, hdue⟩ := (((s.lane l).atJob j).refxPost uv).refxJudge_spec j
    ((uv.toNat : Int) - (s.lane l).lcs.refx.get y.idx)
  rw [hlim] at hst
  refine ⟨_, e, k.refxJudge _ (by simp) (by simp) (by simp), ?_, hst, hfail, hdue⟩
  exact (((LaneState.refxJudge_kept _ _ _).2.2.1 _ (by simp)).trans hsig)

end Sys2Proof.Machine

open Sys2Proof Sys2Proof.Machine

/-- Settles O54, job by job. -/
theorem skimJobs : Obligations.SkimJobs := by
  unfold Obligations.SkimJobs
  refine ⟨?_, ?_, ?_, ?_, ?_, ?_, ?_, ?_, ?_, ?_, ?_⟩
  · exact fun _ _ _ _ _ => dlcal_builds
  · exact fun _ _ _ _ => dlcal_fails
  · exact fun _ _ _ _ _ _ => shuntz_reports
  · exact fun _ _ _ _ => avsmon_stores
  · exact fun _ _ _ _ _ _ => scrub_goesOn
  · exact fun _ _ _ _ _ => scrub_ends
  · exact fun _ _ _ _ _ _ => nvscrub_ends
  · exact fun _ _ _ _ _ => repair_moves
  · exact fun _ _ _ _ _ _ => repair_noSpare
  · exact fun _ _ _ _ => refx_alone
  · exact fun _ _ _ _ _ => refx_pair

end

section
/-! SUPPORT. The edge generator (chapter 7): loads and compares, reloads and late writes, modes and levels, pulses, the
halt state, calibration. -/

namespace Sys2Proof.Machine

variable {F : Footprint} {L M : LaneState} {s : State} {l : Lane}

/-! ## Folds over units -/

/-- What the step of one element reaches, and the steps of the others keep, holds after the fold. `Q` is what every step
keeps. -/
theorem foldl_at {α : Type} [DecidableEq α] {P Q : LaneState → Prop} {f : LaneState → α → LaneState} {u : α}
    (xs : List α) (hu : u ∈ xs) (hL : Q L) (hQ : ∀ x ∈ xs, ∀ M, Q M → Q (f M x)) (hat : ∀ M, Q M → P (f M u))
    (hkeep : ∀ x ∈ xs, x ≠ u → ∀ M, P M → P (f M x)) : P (xs.foldl f L) := by
  induction xs generalizing L with
  | nil => exact absurd hu List.not_mem_nil
  | cons x xs ih =>
    by_cases h : u ∈ xs
    · exact ih h (hQ x (List.mem_cons_self ..) L hL) (fun y hy => hQ y (List.mem_cons_of_mem x hy))
        (fun y hy => hkeep y (List.mem_cons_of_mem x hy))
    · obtain rfl := (List.mem_cons.1 hu).resolve_right h
      refine List.foldlRecOn xs f (hat L hL) (fun M hM y hy => ?_)
      exact hkeep y (List.mem_cons_of_mem u hy) (fun e => h (e ▸ hy)) M hM

/-! ## What the edge generator keeps beside its registers -/

/-- The fields read as before a change of what the edge generator keeps beside its registers. -/
theorem LaneState.get_edge (L : LaneState) (E : EdgeSt) (f : RF) : LaneState.get { L with edge := E } f = L.get f := rfl
theorem LaneState.is_edge (L : LaneState) (E : EdgeSt) (f : RF) : LaneState.is { L with edge := E } f = L.is f := rfl

/-- A change of what the edge generator keeps, or of registers, alone is within a larger footprint. -/
theorem Kept.of_edge (h : Kept { parts := [.edge] } L M) (he : .edge ∈ F.parts) : Kept F L M :=
  h.mono ⟨by simpa using he, by simp, by simp, by simp⟩

theorem Kept.of_regs {rs : List Nat} (h : Kept { regs := rs } L M) (hr : ∀ a ∈ rs, a ∈ F.regs) : Kept F L M :=
  h.mono ⟨by simp, hr, by simp, by simp⟩

@[simp] theorem LaneState.edge_mapFl (L : LaneState) (n : Nat) (f : FldSt → FldSt) : (L.mapFl n f).edge = L.edge := by
  rcases n with _ | _ | _ | n <;> rfl

/-- The output of a unit reads as what it was set to. -/
theorem LaneState.get_euOut (L : LaneState) (u : Nat) {out : Nat} (h : out < 4) :
    (L.euOut u out).get (R.edgeEuLvl_out u) = out :=
  (L.get_put_same (R.edgeEuLvl_out u) out (by simp [R.edgeEuLvl_out]) (by simp [R.edgeEuLvl_out])).trans
    (Nat.mod_eq_of_lt h)

@[simp] theorem LaneState.edge_euOut (L : LaneState) (u out : Nat) : (L.euOut u out).edge = L.edge := L.put_edge ..

theorem Kept.euOut (h : Kept F L M) {u : Nat} (out : Nat) (hu : R.edgeEuLvl u ∈ F.regs) : Kept F L (M.euOut u out) :=
  h.put _ hu

/-- The mode of a unit is as before a change outside its EDGE_EUn_CFG. -/
theorem Kept.euMode (h : Kept F L M) {u : Nat} (hu : R.edgeEuCfg u ∉ F.regs) : M.euMode u = L.euMode u := h.get _ hu

theorem Kept.euTb (h : Kept F L M) {u : Nat} (hu : R.edgeEuCfg u ∉ F.regs) : M.euTb u = L.euTb u := by
  unfold LaneState.euTb
  rw [h.euMode hu, h.get _ hu]

/-- A flag and a bit of a register outside a footprint read as before. -/
theorem Kept.is (h : Kept F L M) {f : RF} (hf : f.addr ∉ F.regs) : M.is f = L.is f := congrArg (· != 0) (h.get f hf)

theorem Kept.bitOf (h : Kept F L M) {f : RF} (i : Nat) (hf : f.addr ∉ F.regs) : M.bitOf f i = L.bitOf f i :=
  congrArg (bit · i) (h.get f hf)

/-! ## Loads under FIELD (R223, R224) -/

theorem legCompares_le (leg : Nat) (b : Bool) (seq : List (Nat × Nat)) (h : ∀ p ∈ seq, p.1 ≤ cmpNone) :
    (legCompares leg b seq).1 ≤ cmpNone ∧ (legCompares leg b seq).2 ≤ cmpNone := by
  induction seq generalizing b with
  | nil => exact ⟨Nat.le_refl _, Nat.le_refl _⟩
  | cons p seq ih =>
    obtain ⟨hon, hoff⟩ := ih (bit p.2 leg) (fun q hq => h q (List.mem_cons_of_mem p hq))
    have hp := h p (List.mem_cons_self ..)
    simp only [legCompares]
    split
    · exact ⟨hp, hoff⟩
    · split
      · exact ⟨hon, hp⟩
      · exact ⟨hon, hoff⟩

/-- The registers that a load writes of a unit. -/
def loadRegs (u : Nat) : List Nat := [R.edgeEuOn u, R.edgeEuOff u, R.edgeEuLvl u]

/-- The lane with the compares of a unit set. -/
def LaneState.setCompares (M : LaneState) (u : Nat) (c : Nat × Nat) : LaneState :=
  (M.put (R.edgeEuOn_cmp u) c.1).put (R.edgeEuOff_cmp u) c.2

/-- The compares of a unit read as a pair. -/
def LaneState.Compares (M : LaneState) (u : Nat) (c : Nat × Nat) : Prop :=
  M.get (R.edgeEuOn_cmp u) = c.1 ∧ M.get (R.edgeEuOff_cmp u) = c.2

theorem LaneState.setCompares_kept (M : LaneState) (u : Nat) (c : Nat × Nat) :
    Kept { regs := loadRegs u } M (M.setCompares u c) :=
  ((Kept.refl _ M).put (f := R.edgeEuOn_cmp u) c.1 (by simp [R.edgeEuOn_cmp, loadRegs])).put
    (f := R.edgeEuOff_cmp u) c.2 (by simp [R.edgeEuOff_cmp, loadRegs])

/-- Compares within their fields read as they were set. -/
theorem LaneState.compares_setCompares (M : LaneState) (u : Nat) {c : Nat × Nat} (hon : c.1 ≤ cmpNone)
    (hoff : c.2 ≤ cmpNone) : (M.setCompares u c).Compares u c := by
  have small : ∀ x ≤ cmpNone, x % 2 ^ 22 = x := fun x hx => Nat.mod_eq_of_lt (by simp only [cmpNone] at hx; omega)
  refine ⟨?_, ?_⟩
  · have hne : (R.edgeEuOn_cmp u).addr ≠ (R.edgeEuOff_cmp u).addr := by
      simp [R.edgeEuOn_cmp, R.edgeEuOff_cmp, R.edgeEuOn, R.edgeEuOff]
    rw [LaneState.setCompares, LaneState.get_put_ne _ _ _ _ hne]
    exact (M.get_put_same (R.edgeEuOn_cmp u) _ (Nat.zero_le _) (by simp [R.edgeEuOn_cmp])).trans (small _ hon)
  · exact (LaneState.get_put_same _ (R.edgeEuOff_cmp u) _ (Nat.zero_le _) (by simp [R.edgeEuOff_cmp])).trans
      (small _ hoff)

theorem LaneState.compares_euOut (M : LaneState) {u out : Nat} {c : Nat × Nat} (h : M.Compares u c) :
    (M.euOut u out).Compares u c := by
  refine ⟨(M.get_put_ne _ _ _ ?_).trans h.1, (M.get_put_ne _ _ _ ?_).trans h.2⟩
  · simp [R.edgeEuOn_cmp, R.edgeEuLvl_out, R.edgeEuOn, R.edgeEuLvl]
  · simp [R.edgeEuOff_cmp, R.edgeEuLvl_out, R.edgeEuOff, R.edgeEuLvl]

/-- The load of one leg of an axis from a sequence that starts from vector `vec`. -/
def LaneState.loadLeg (M : LaneState) (n vec : Nat) (seq : List (Nat × Nat)) (leg : Nat) : LaneState :=
  let u := 3 * n + leg
  if M.euMode u = euField then
    let M := M.setCompares u (legCompares leg (bit vec leg) seq)
    if M.get (R.edgeEuLvl_out u) == 0 then M.euOut u (if bit vec leg then 2 else 1) else M
  else M

theorem LaneState.loadLeg_kept (M : LaneState) (n vec : Nat) (seq : List (Nat × Nat)) (leg : Nat) :
    Kept { regs := loadRegs (3 * n + leg) } M (M.loadLeg n vec seq leg) := by
  have h := M.setCompares_kept (3 * n + leg) (legCompares leg (bit vec leg) seq)
  unfold LaneState.loadLeg
  refine Kept.ite (fun _ => ?_) (fun _ => Kept.refl _ M)
  exact Kept.ite (fun _ => h.euOut _ (by simp [loadRegs])) (fun _ => h)

/-- The load of a FIELD leg sets its compares. -/
theorem LaneState.compares_loadLeg (M : LaneState) (n vec : Nat) {seq : List (Nat × Nat)} {leg : Nat}
    (hm : M.euMode (3 * n + leg) = euField) (h : ∀ p ∈ seq, p.1 ≤ cmpNone) :
    (M.loadLeg n vec seq leg).Compares (3 * n + leg) (legCompares leg (bit vec leg) seq) := by
  obtain ⟨hon, hoff⟩ := legCompares_le leg (bit vec leg) seq h
  have hc := M.compares_setCompares (3 * n + leg) hon hoff
  simp only [LaneState.loadLeg, hm, if_true]
  split
  · exact LaneState.compares_euOut _ hc
  · exact hc

/-- A load writes none of the registers that it is not for. -/
theorem notMem_loadRegs {u x : Nat} : R.edgeEuCfg x ∉ loadRegs u ∧ R.edgeStat ∉ loadRegs u ∧
    (x ≠ u → R.edgeEuOn x ∉ loadRegs u ∧ R.edgeEuOff x ∉ loadRegs u) := by
  simp only [loadRegs, List.mem_cons, List.not_mem_nil, or_false, R.edgeEuCfg, R.edgeStat, R.edgeEuOn, R.edgeEuOff,
    R.edgeEuLvl]
  omega

/-- The load of another leg leaves the compares of a unit. -/
theorem LaneState.compares_loadLeg_ne (M : LaneState) (n vec : Nat) {seq : List (Nat × Nat)} {leg u : Nat}
    {c : Nat × Nat} (hu : u ≠ 3 * n + leg) (h : M.Compares u c) : (M.loadLeg n vec seq leg).Compares u c := by
  have k := M.loadLeg_kept n vec seq leg
  obtain ⟨-, -, apart⟩ := notMem_loadRegs (u := 3 * n + leg) (x := u)
  exact ⟨(k.get _ (apart hu).1).trans h.1, (k.get _ (apart hu).2).trans h.2⟩

/-- What the edge generator keeps once a load of an axis is noted and its legs' compares are armed. -/
def EdgeSt.loadNoted (E : EdgeSt) (n done : Nat) : EdgeSt :=
  { E with
    loaded := addTo n E.loaded
    loadDone := E.loadDone.set n done
    fired := E.fired.filter (fun i => i / 2 / 3 != n)
    held := E.held.filter (fun u => u / 3 != n) }

/-- The lane at the begin of a load of an axis: a late edge is flagged and the load noted. -/
def LaneState.loadBegun (L : LaneState) (n done : Nat) (seq : List (Nat × Nat)) : LaneState :=
  let L := L.flagIf (seq.any (fun p => decide (p.1 < done))) R.edgeStat_late_edge
  { L with edge := L.edge.loadNoted n done }

/-- A load that completes after an instant of its sequence flags a late edge. -/
theorem LaneState.loadBegun_late (L : LaneState) (n : Nat) {done : Nat} {seq : List (Nat × Nat)}
    (h : ∃ p ∈ seq, p.1 < done) : (L.loadBegun n done seq).is R.edgeStat_late_edge = true := by
  have e : seq.any (fun p => decide (p.1 < done)) = true := by simpa using h
  refine (LaneState.is_edge (L.flagIf _ R.edgeStat_late_edge) _ _).trans ?_
  rw [e]
  exact L.is_flag R.edgeStat_late_edge (by decide) (by decide)

theorem LaneState.loadBegun_kept (L : LaneState) (n done : Nat) (seq : List (Nat × Nat)) :
    Kept { parts := [.edge], regs := [R.edgeStat] } L (L.loadBegun n done seq) := by
  have h := (Kept.refl { parts := [.edge], regs := [R.edgeStat] } L).flagIf (f := R.edgeStat_late_edge)
    (seq.any (fun p => decide (p.1 < done))) (by simp [R.edgeStat_late_edge])
  exact h.with_edge _ (by simp)

theorem exec_edgeLoad {n : Axis} {done : BitVec 22} {seq : List (Nat × Nat)} (hs : ((s.lane l).fl n).seq = some seq)
    (hr : (s.lane l).regulates n = true) (hc : (s.lane l).is R.edgeStat_cal_done = true)
    (hh : (s.lane l).is R.edgeStat_halt = false) (he : (s.lane l).edge.releasing = false) :
    exec (.edgeLoad l n done) s = .next (s.setLane l ([0, 1, 2].foldl
      (fun M leg => M.loadLeg n ((s.lane l).fl n).vec seq leg) ((s.lane l).loadBegun n done.toNat seq))) := by
  refine next_setLane s l ?_
  simp only [hs]
  exact LaneState.when_true _ _ (by simp [hr, hc, hh, he])

theorem edgeLoad_loads {n : Axis} {done : BitVec 22} {seq : List (Nat × Nat)} (hs : ((s.lane l).fl n).seq = some seq)
    (hr : (s.lane l).regulates n = true) (hc : (s.lane l).is R.edgeStat_cal_done = true)
    (hh : (s.lane l).is R.edgeStat_halt = false) (he : (s.lane l).edge.releasing = false)
    (hb : ∀ p ∈ seq, p.1 ≤ cmpNone) :
    Does s (.edgeLoad l n done)
      { parts := [.edge]
        regs := R.edgeStat :: [3 * n.val, 3 * n + 1, 3 * n + 2].flatMap loadRegs } fun L M =>
      n.val ∈ M.edge.loaded ∧ M.edge.loadDone.get n = done.toNat ∧
      (∀ leg, leg < 3 → L.euMode (3 * n + leg) = euField →
        M.Compares (3 * n + leg) (legCompares leg (bit (L.fl n).vec leg) seq)) ∧
      ((∃ p ∈ seq, p.1 < done.toNat) → M.is R.edgeStat_late_edge = true) := by
  have begun := (s.lane l).loadBegun_kept n done.toNat seq
  have kept := fun (M : LaneState) leg => M.loadLeg_kept n ((s.lane l).fl n).vec seq leg
  have legs : ∀ leg ∈ [0, 1, 2], ∀ a ∈ loadRegs (3 * n + leg),
      a ∈ R.edgeStat :: [3 * n.val, 3 * n + 1, 3 * n + 2].flatMap loadRegs := by
    intro leg hleg a ha
    refine List.mem_cons_of_mem _ (List.mem_flatMap.2 ⟨3 * n + leg, ?_, ha⟩)
    simp only [List.mem_cons, List.not_mem_nil, or_false] at hleg ⊢
    omega
  refine Does.of_next_setLane (exec_edgeLoad hs hr hc hh he) rfl ?_ ⟨?_, ?_, fun leg hleg hm => ?_, fun hlate => ?_⟩
  · refine Kept.foldl (begun.mono ⟨by simp, by simp, by simp, by simp⟩) (fun leg hleg M h => ?_)
    exact h.step ((kept M leg).of_regs (legs leg hleg))
  · rw [foldl_obs _ LaneState.edge _ _ (fun leg _ M => (kept M leg).1 .edge (by simp))]
    simp [LaneState.loadBegun, EdgeSt.loadNoted]
  · rw [foldl_obs _ LaneState.edge _ _ (fun leg _ M => (kept M leg).1 .edge (by simp))]
    simp [LaneState.loadBegun, EdgeSt.loadNoted]
  · refine foldl_at (u := leg) (P := fun M => M.Compares (3 * n + leg) _)
      (Q := fun M => M.euMode (3 * n + leg) = euField) _ ?_ ?_ ?_ ?_ ?_
    · simp only [List.mem_cons, List.not_mem_nil, or_false]
      omega
    · exact (begun.euMode (by simp [R.edgeEuCfg, R.edgeStat]; omega)).trans hm
    · exact fun x _ M h => ((kept M x).euMode notMem_loadRegs.1).trans h
    · exact fun M h => M.compares_loadLeg n _ h hb
    · exact fun x _ hx M h => M.compares_loadLeg_ne n _ (by omega) h
  · refine (foldl_obs _ (fun M => M.is R.edgeStat_late_edge) _ _ (fun leg _ M => ?_)).trans
      ((s.lane l).loadBegun_late n hlate)
    exact (kept M leg).is (notMem_loadRegs (x := 0)).2.1

/-! ## Compares that fire (R220) -/

/-- The lane with a compare noted as fired in this timebase period. -/
def LaneState.noteFired (L : LaneState) (key : Nat) : LaneState :=
  { L with edge := { L.edge with fired := addTo key L.edge.fired } }

theorem LaneState.fired_noteFired (L : LaneState) (key : Nat) : key ∈ (L.noteFired key).edge.fired := by
  simp [LaneState.noteFired]

theorem LaneState.noteFired_kept (L : LaneState) (key : Nat) : Kept { parts := [.edge] } L (L.noteFired key) :=
  (Kept.refl _ L).with_edge _ (by simp)

/-- Whether the compares of a unit may fire: a FIELD leg with a load in this tick, a PWM unit with a running timebase. -/
def LaneState.compareLive (L : LaneState) (u : Nat) : Bool :=
  if L.euMode u = euField then decide (u / 3 ∈ L.edge.loaded) && L.regulates (u / 3)
  else L.euMode u == euPwm && L.tbRuns (L.euTb u) && L.is R.edgeStat_cal_done

/-- A live compare of a unit that is to fire. -/
structure LaneState.CompareFires (L : LaneState) (u : Nat) (off : Bool) : Prop where
  live : L.compareLive u = true
  within : L.activeCmp u off < L.tbFine (L.euTb u)
  first : 2 * u + b2n off ∉ L.edge.fired
  unhalted : L.is R.edgeStat_halt = false
  free : u ∉ L.edge.held
  sole : off = true ∨ L.activeCmp u true ≠ L.activeCmp u false

/-- The output that a compare gives its unit. -/
def compareOut (u : Nat) (off : Bool) : Nat := if off then (if u < 12 then 1 else 0) else 2

theorem compareOut_lt (u : Nat) (off : Bool) : compareOut u off < 4 := by
  unfold compareOut
  split
  · split <;> decide
  · decide

/-- A compare that fires is noted, commanded where its unit is a FIELD leg, and sets the output of its unit. -/
theorem exec_edgeCompareFire {u : Fin 16} {off : Bool} (h : (s.lane l).CompareFires u off) :
    ∃ t, exec (.edgeCompareFire l u off) s = .next (s.setLane l
      ((if (s.lane l).euMode u = euField then ((s.lane l).noteFired (2 * u.val + b2n off)).commanded u (!off) t
        else (s.lane l).noteFired (2 * u.val + b2n off)).euOut u (compareOut u off))) := by
  obtain ⟨live, within, first, unhalted, free, sole⟩ := h
  have hs : ¬(!off && (s.lane l).activeCmp u true == (s.lane l).activeCmp u off) = true := by
    obtain rfl | ho := sole
    · simp
    · cases off
      · simpa using ho
      · simp
  unfold LaneState.compareLive at live
  refine ⟨_, next_setLane s l ((LaneState.when_true _ _ ?_).trans (if_neg hs))⟩
  simp only [live, within, first, unhalted, free, decide_true, decide_false, Bool.not_false, Bool.and_self]

/-- What a compare that fires leaves. -/
theorem LaneState.compareFired (N : LaneState) (u key : Nat) (off : Bool) (h : key ∈ N.edge.fired) :
    key ∈ (N.euOut u (compareOut u off)).edge.fired ∧
      (N.euOut u (compareOut u off)).get (R.edgeEuLvl_out u) = compareOut u off :=
  ⟨by rwa [LaneState.edge_euOut], N.get_euOut u (compareOut_lt u off)⟩

theorem edgeCompareFire_field {u : Fin 16} {off : Bool} (hu : u.val < 12) (hm : (s.lane l).euMode u = euField)
    (h : (s.lane l).CompareFires u off) :
    Does s (.edgeCompareFire l u off) { parts := [.edge, .fl (axOf (u.val / 3))], regs := [R.edgeEuLvl u] } fun _ M =>
      2 * u.val + b2n off ∈ M.edge.fired ∧ M.get (R.edgeEuLvl_out u) = (if off then 1 else 2) := by
  obtain ⟨t, hx⟩ := exec_edgeCompareFire h
  rw [if_pos hm] at hx
  have hk : Kept { parts := [.edge, .fl (axOf (u.val / 3))], regs := [R.edgeEuLvl u] } (s.lane l)
      (((s.lane l).noteFired (2 * u.val + b2n off)).commanded u (!off) t) :=
    (((s.lane l).noteFired_kept _).of_edge (by simp)).mapFl _ (by simp)
  have ho : compareOut u off = if off then 1 else 2 := by simp [compareOut, hu]
  refine Does.of_next_setLane hx rfl (hk.euOut _ (by simp)) (ho ▸ LaneState.compareFired _ _ _ _ ?_)
  rw [LaneState.commanded, LaneState.edge_mapFl]
  exact (s.lane l).fired_noteFired _

theorem edgeCompareFire_pwm {u : Fin 16} {off : Bool} (hm : (s.lane l).euMode u = euPwm)
    (h : (s.lane l).CompareFires u off) :
    Does s (.edgeCompareFire l u off) { parts := [.edge], regs := [R.edgeEuLvl u] } fun _ M =>
      2 * u.val + b2n off ∈ M.edge.fired ∧
      M.get (R.edgeEuLvl_out u) = (if off then (if u.val < 12 then 1 else 0) else 2) := by
  obtain ⟨t, hx⟩ := exec_edgeCompareFire h
  rw [if_neg (by simp [hm, euPwm, euField])] at hx
  have hk := ((s.lane l).noteFired_kept (2 * u.val + b2n off)).of_edge
    (F := { parts := [.edge], regs := [R.edgeEuLvl u] }) (by simp)
  exact Does.of_next_setLane hx rfl (hk.euOut _ (by simp))
    (LaneState.compareFired _ u _ off ((s.lane l).fired_noteFired _))

/-! ## Timebases and reloads (R219, R228, R229) -/

theorem LaneState.lateWrites_kept (L : LaneState) (mask : Nat) :
    Kept { regs := [R.edgeStat, R.edgeLate] } L (L.lateWrites mask) := by
  unfold LaneState.lateWrites
  refine Kept.ite (fun _ => Kept.refl _ L) (fun _ => ?_)
  exact ((Kept.refl _ L).setReg _ (by simp)).flag (by simp [R.edgeStat_late_write])

/-- Late writes are noted beside those already noted. -/
theorem LaneState.reg_lateWrites (L : LaneState) (mask : Nat) :
    (L.lateWrites mask).reg R.edgeLate = wordN ((L.reg R.edgeLate).toNat ||| mask) := by
  unfold LaneState.lateWrites
  split
  · next h => rw [h, Nat.or_zero, wordN_toNat]
  · rw [LaneState.flag_def, LaneState.reg_put, if_neg (by decide), LaneState.reg_setReg, if_pos rfl]

/-- The reload of one unit on timebase `tb` from its shadows. -/
def LaneState.reloadUnit (M : LaneState) (tb u : Nat) : LaneState :=
  if M.euTb u == tb && M.euMode u == euPwm then
    let E := M.edge
    let E := { E with
      fired := E.fired.filter (fun i => i / 2 != u)
      held := if M.is R.edgeStat_halt || E.releasing then E.held else dropFrom u E.held }
    let E := if M.bitOf R.edgeUpdHold_unit u then E
      else { E with
        actOn := Sparse.set (fun _ => cmpNone) E.actOn u (M.get (R.edgeEuOn_cmp u))
        actOff := Sparse.set (fun _ => cmpNone) E.actOff u (M.get (R.edgeEuOff_cmp u)) }
    { M with edge := E }
  else M

theorem LaneState.reloadUnits_def (L : LaneState) (tb : Nat) :
    L.reloadUnits tb = (List.range 16).foldl (fun M u => M.reloadUnit tb u) L := rfl

theorem LaneState.reloadUnit_kept (M : LaneState) (tb u : Nat) : Kept { parts := [.edge] } M (M.reloadUnit tb u) := by
  unfold LaneState.reloadUnit
  exact Kept.ite (fun _ => (Kept.refl _ M).with_edge _ (by simp)) (fun _ => Kept.refl _ M)

theorem LaneState.reloadUnits_kept (L : LaneState) (tb : Nat) : Kept { parts := [.edge] } L (L.reloadUnits tb) :=
  Kept.foldl (Kept.refl _ L) (fun u _ M h => h.step (M.reloadUnit_kept tb u))

/-- A reload of units leaves the timebases. -/
theorem LaneState.reloadUnit_tb (M : LaneState) (tb u : Nat) :
    (M.reloadUnit tb u).edge.tbRun = M.edge.tbRun ∧ (M.reloadUnit tb u).edge.tbPeriod = M.edge.tbPeriod := by
  unfold LaneState.reloadUnit
  split
  · dsimp only
    split <;> exact ⟨rfl, rfl⟩
  · exact ⟨rfl, rfl⟩

theorem LaneState.reloadUnits_tb (L : LaneState) (tb : Nat) :
    (L.reloadUnits tb).edge.tbRun = L.edge.tbRun ∧ (L.reloadUnits tb).edge.tbPeriod = L.edge.tbPeriod :=
  ⟨foldl_obs L (fun M => M.edge.tbRun) _ _ (fun u _ M => (M.reloadUnit_tb tb u).1),
    foldl_obs L (fun M => M.edge.tbPeriod) _ _ (fun u _ M => (M.reloadUnit_tb tb u).2)⟩

/-- The compares of a PWM unit are those of the last reload. -/
theorem LaneState.activeCmp_pwm (L : LaneState) {u : Nat} (h : L.euMode u = euPwm) (off : Bool) :
    L.activeCmp u off = Sparse.get cmpNone (if off then L.edge.actOff else L.edge.actOn) u :=
  if_neg (by simp [h, euPwm, euField])

/-- The compares of the shadows of `L` are active for a unit. -/
def LaneState.Reloaded (L : LaneState) (u : Nat) (M : LaneState) : Prop :=
  Sparse.get cmpNone M.edge.actOn u = L.get (R.edgeEuOn_cmp u) ∧
    Sparse.get cmpNone M.edge.actOff u = L.get (R.edgeEuOff_cmp u)

theorem LaneState.reloadUnit_same (M : LaneState) {tb u : Nat} (ht : M.euTb u = tb) (hm : M.euMode u = euPwm)
    (hh : M.bitOf R.edgeUpdHold_unit u = false) : M.Reloaded u (M.reloadUnit tb u) := by
  have e : (M.euTb u == tb && M.euMode u == euPwm) = true := by simp [ht, hm]
  unfold LaneState.Reloaded LaneState.reloadUnit
  simp only [e, hh, if_true, Bool.false_eq_true, if_false]
  exact ⟨(Sparse.get_set (fun _ => cmpNone) _ u _ u).trans (if_pos rfl),
    (Sparse.get_set (fun _ => cmpNone) _ u _ u).trans (if_pos rfl)⟩

theorem LaneState.reloadUnit_ne (M : LaneState) {tb u x : Nat} (h : x ≠ u) :
    Sparse.get cmpNone (M.reloadUnit tb x).edge.actOn u = Sparse.get cmpNone M.edge.actOn u ∧
      Sparse.get cmpNone (M.reloadUnit tb x).edge.actOff u = Sparse.get cmpNone M.edge.actOff u := by
  unfold LaneState.reloadUnit
  split
  · dsimp only
    split
    · exact ⟨rfl, rfl⟩
    · exact ⟨(Sparse.get_set (fun _ => cmpNone) _ x _ u).trans (if_neg h.symm),
        (Sparse.get_set (fun _ => cmpNone) _ x _ u).trans (if_neg h.symm)⟩
  · exact ⟨rfl, rfl⟩

/-- A reload takes the shadow compares of every PWM unit on the timebase that is not held. -/
theorem LaneState.reloadUnits_reloaded (L : LaneState) {tb u : Nat} (hu : u < 16) (ht : L.euTb u = tb)
    (hm : L.euMode u = euPwm) (hh : L.bitOf R.edgeUpdHold_unit u = false) : L.Reloaded u (L.reloadUnits tb) := by
  rw [LaneState.reloadUnits_def]
  refine foldl_at (u := u) (P := L.Reloaded u) (Q := Kept { parts := [.edge] } L) _ (List.mem_range.2 hu) (Kept.refl _ L)
    (fun x _ M h => h.step (M.reloadUnit_kept tb x)) (fun M h => ?_) (fun x _ hx M h => ?_)
  · obtain ⟨hon, hoff⟩ := M.reloadUnit_same ((h.euTb List.not_mem_nil).trans ht) ((h.euMode List.not_mem_nil).trans hm)
      ((h.bitOf u List.not_mem_nil).trans hh)
    exact ⟨hon.trans (h.get _ List.not_mem_nil), hoff.trans (h.get _ List.not_mem_nil)⟩
  · obtain ⟨hon, hoff⟩ := M.reloadUnit_ne (tb := tb) hx
    exact ⟨hon.trans h.1, hoff.trans h.2⟩

/-- What the reload of a timebase boundary does, with its late writes. -/
def LaneState.tbReload (L : LaneState) (tb mask : Nat) : LaneState := (L.reloadUnits tb).lateWrites mask

theorem LaneState.tbReload_kept (L : LaneState) (tb mask : Nat) :
    Kept { parts := [.edge], regs := [R.edgeStat, R.edgeLate] } L (L.tbReload tb mask) :=
  ((L.reloadUnits_kept tb).of_edge (by simp)).step (((L.reloadUnits tb).lateWrites_kept mask).of_regs (by simp))

theorem LaneState.edge_tbReload (L : LaneState) (tb mask : Nat) : (L.tbReload tb mask).edge = (L.reloadUnits tb).edge :=
  ((L.reloadUnits tb).lateWrites_kept mask).1 .edge (by simp)

/-- After the reload of a boundary the compares of the PWM units on the timebase are those of their shadows. -/
theorem LaneState.activeCmp_tbReload (L : LaneState) {tb mask u : Nat} (hu : u < 16) (ht : L.euTb u = tb)
    (hm : L.euMode u = euPwm) (hh : L.bitOf R.edgeUpdHold_unit u = false) :
    (L.tbReload tb mask).activeCmp u false = L.get (R.edgeEuOn_cmp u) ∧
      (L.tbReload tb mask).activeCmp u true = L.get (R.edgeEuOff_cmp u) := by
  have hm' : (L.tbReload tb mask).euMode u = euPwm :=
    ((L.tbReload_kept tb mask).euMode (by simp [R.edgeEuCfg, R.edgeStat, R.edgeLate]; omega)).trans hm
  rw [LaneState.activeCmp_pwm _ hm', LaneState.activeCmp_pwm _ hm', LaneState.edge_tbReload]
  exact L.reloadUnits_reloaded hu ht hm hh

theorem timebaseBoundary_field {late : BitVec 19} (hc : (s.lane l).is R.edgeStat_cal_done = true) :
    Does s (.timebaseBoundary l 3 late) { parts := [.edge], regs := [R.edgeStat, R.edgeLate] } fun L M =>
      (∀ u, u < 16 → L.euTb u = 3 → L.euMode u = euPwm → L.bitOf R.edgeUpdHold_unit u = false →
        M.activeCmp u false = L.get (R.edgeEuOn_cmp u) ∧ M.activeCmp u true = L.get (R.edgeEuOff_cmp u)) ∧
      M.reg R.edgeLate = wordN ((L.reg R.edgeLate).toNat ||| (late.toNat &&& L.tbMask 3)) ∧
      M.edge.tbPeriod = L.edge.tbPeriod := by
  have hx : exec (.timebaseBoundary l 3 late) s =
      .next (s.setLane l ((s.lane l).tbReload 3 (late.toNat &&& (s.lane l).tbMask 3))) :=
    next_setLane s l (LaneState.when_true _ _ (by simp [hc]))
  refine Does.of_next_setLane hx rfl ((s.lane l).tbReload_kept _ _) ⟨fun u hu ht hm hh => ?_, ?_, ?_⟩
  · exact (s.lane l).activeCmp_tbReload hu ht hm hh
  · rw [LaneState.tbReload, LaneState.reg_lateWrites, ((s.lane l).reloadUnits_kept 3).2.1 _ List.not_mem_nil]
  · rw [LaneState.edge_tbReload, ((s.lane l).reloadUnits_tb 3).2]

/-- What the edge generator keeps of a timebase at its boundary: that it runs, and its period where that is not held. -/
def LaneState.tbStarted (L : LaneState) (tb : Nat) : LaneState :=
  let L := { L with edge := { L.edge with tbRun := addTo tb L.edge.tbRun } }
  if L.bitOf R.edgeUpdHold_tb tb then L
  else { L with edge := { L.edge with tbPeriod := L.edge.tbPeriod.set tb (L.get (tbPeriodF tb)) } }

theorem LaneState.tbStarted_kept (L : LaneState) (tb : Nat) : Kept { parts := [.edge] } L (L.tbStarted tb) := by
  have h := (Kept.refl { parts := [.edge] } L).with_edge { L.edge with tbRun := addTo tb L.edge.tbRun } (by simp)
  exact Kept.ite (fun _ => h) (fun _ => h.with_edge _ (by simp))

theorem LaneState.tbStarted_spec (L : LaneState) (tb : Nat) : tb ∈ (L.tbStarted tb).edge.tbRun ∧
    (L.tbStarted tb).edge.tbPeriod.get tb =
      (if L.bitOf R.edgeUpdHold_tb tb then L.edge.tbPeriod.get tb else L.get (tbPeriodF tb)) := by
  have e : L.tbStarted tb = if L.bitOf R.edgeUpdHold_tb tb then
      { L with edge := { L.edge with tbRun := addTo tb L.edge.tbRun } }
    else { L with edge := { L.edge with
      tbRun := addTo tb L.edge.tbRun
      tbPeriod := L.edge.tbPeriod.set tb (L.get (tbPeriodF tb)) } } := rfl
  rw [e]
  split <;> simp

theorem timebaseBoundary_starts {tb : Fin 4} {late : BitVec 19} (htb : tb.val < 3)
    (hc : (s.lane l).is R.edgeStat_cal_done = true) (he : (s.lane l).is (tbEnF tb) = true)
    (hp : (s.lane l).coarse % (s.lane l).tServo = 0) :
    Does s (.timebaseBoundary l tb late) { parts := [.edge], regs := [R.edgeStat, R.edgeLate] } fun L M =>
      tb.val ∈ M.edge.tbRun ∧
      M.edge.tbPeriod.get tb = (if L.bitOf R.edgeUpdHold_tb tb then L.edge.tbPeriod.get tb else L.get (tbPeriodF tb)) ∧
      (∀ u, u < 16 → L.euTb u = tb.val → L.euMode u = euPwm → L.bitOf R.edgeUpdHold_unit u = false →
        M.activeCmp u false = L.get (R.edgeEuOn_cmp u) ∧ M.activeCmp u true = L.get (R.edgeEuOff_cmp u)) := by
  have hx : exec (.timebaseBoundary l tb late) s = .next (s.setLane l
      (((s.lane l).tbStarted tb).tbReload tb (late.toNat &&& ((s.lane l).tbStarted tb).tbMask tb))) := by
    refine next_setLane s l ((LaneState.when_true _ _ (by simp [hc, he, hp])).trans ?_)
    simp only [if_neg (Nat.ne_of_lt htb)]
    rfl
  have started := (s.lane l).tbStarted_kept tb
  obtain ⟨hrun, hper⟩ := (s.lane l).tbStarted_spec tb
  obtain ⟨erun, eper⟩ := ((s.lane l).tbStarted tb).reloadUnits_tb tb
  refine Does.of_next_setLane hx rfl ((started.of_edge (by simp)).step
    (LaneState.tbReload_kept _ _ _)) ⟨?_, ?_, fun u hu ht hm hh => ?_⟩
  · rwa [LaneState.edge_tbReload, erun]
  · rwa [LaneState.edge_tbReload, eper]
  · rw [← started.get (R.edgeEuOn_cmp u) List.not_mem_nil, ← started.get (R.edgeEuOff_cmp u) List.not_mem_nil]
    exact LaneState.activeCmp_tbReload _ hu ((started.euTb List.not_mem_nil).trans ht)
      ((started.euMode List.not_mem_nil).trans hm) ((started.bitOf u List.not_mem_nil).trans hh)

theorem edgeUpdHoldWrite_writes {q : Req} {w : Word} {r : Option (Fin 4)}
    (h : (s.lane l).judge q R.edgeUpdHold true w = none) :
    Does s (.edgeUpdHoldWrite l q w r) { regs := [R.edgeUpdHold, R.edgeStat, R.edgeLate] } fun L M =>
      M.reg R.edgeUpdHold = (L.busWrite q.secure R.edgeUpdHold w).reg R.edgeUpdHold ∧
      (r = none → M.reg R.edgeLate = L.reg R.edgeLate ∧ M.reg R.edgeStat = L.reg R.edgeStat) := by
  have written : ∀ F : Footprint, R.edgeUpdHold ∈ F.regs →
      Kept F (s.lane l) ((s.lane l).busWrite q.secure R.edgeUpdHold w) :=
    fun F hF => (Kept.refl F _).busWrite w hF
  cases r with
  | none =>
    refine Does.of_next_setLane (next_setLane s l (LaneState.guardW_ok _ _ h)) rfl (written _ (by simp))
      ⟨rfl, fun _ => ?_⟩
    have k := written { regs := [R.edgeUpdHold] } (by simp)
    exact ⟨k.2.1 _ (by decide), k.2.1 _ (by decide)⟩
  | some tb =>
    have k := ((s.lane l).busWrite q.secure R.edgeUpdHold w).lateWrites_kept
    refine Does.of_next_setLane (next_setLane s l (LaneState.guardW_ok _ _ h)) rfl
      ((written _ (by simp)).step ((k _).of_regs (by simp))) ⟨?_, fun e => nomatch e⟩
    exact (k _).2.1 _ (by decide)

/-! ## Modes and levels of units (R217, R232) -/

theorem edgeModeWrite_refused {q : Req} {u : Fin 16} {w : Word} (h : (s.lane l).judge q (R.edgeEuCfg u) true w = none)
    (hm : modeAllowed u (bits w.toNat 2 0) = false) :
    Does s (.edgeModeWrite l q u w) { regs := [R.edgeStat] } fun _ M => M.is R.edgeStat_mode_refused = true :=
  Does.of_next_setLane (next_setLane s l ((LaneState.guardW_ok _ _ h).trans (if_neg (by simp [hm])))) rfl
    ((Kept.refl _ _).flag (by simp [R.edgeStat_mode_refused])) ((s.lane l).is_flag _ (by decide) (by decide))

/-- A unit that enters a mode changes at most its output and those of the legs of its axis. -/
theorem Kept.enterMode (h : Kept F L M) {u : Nat} (he : .edge ∈ F.parts) (hu : R.edgeEuLvl u ∈ F.regs)
    (hl : ∀ x ∈ [3 * (u / 3), 3 * (u / 3) + 1, 3 * (u / 3) + 2], R.edgeEuLvl x ∈ F.regs) : Kept F L (M.enterMode u) := by
  unfold LaneState.enterMode
  refine Kept.ite (fun _ => h) (fun _ => ?_)
  refine Kept.ite (fun _ => h.legsFollow _ he hl) (fun _ => ?_)
  exact Kept.ite (fun _ => h) (fun _ => Kept.ite (fun _ => h.euOut _ hu) (fun _ => h.euOut _ hu))

theorem LaneState.enterMode_off (L : LaneState) {u : Nat} (hu : u ∉ L.edge.held) (h : L.euMode u = euOff) :
    L.enterMode u = L.euOut u 0 := by
  simp [LaneState.enterMode, hu, h, euOff, euField, euPwm, euStatic]

theorem LaneState.enterMode_static (L : LaneState) {u : Nat} (hu : u ∉ L.edge.held) (h : L.euMode u = euStatic) :
    L.enterMode u = L.euOut u (if L.is (R.edgeEuLvl_lvl u) then 2 else 0) := by
  simp [LaneState.enterMode, hu, h, euField, euPwm, euStatic]

/-- The lane after the write of a mode that its unit accepts. -/
def LaneState.modeWritten (L : LaneState) (q : Req) (u : Nat) (w : Word) : LaneState :=
  let M := L.busWrite q.secure (R.edgeEuCfg u) w
  if M.euMode u = L.euMode u then M else M.enterMode u

theorem edgeModeWrite_allowed {q : Req} {u : Fin 16} {w : Word} (h : (s.lane l).judge q (R.edgeEuCfg u) true w = none)
    (hm : modeAllowed u (bits w.toNat 2 0) = true) :
    Does s (.edgeModeWrite l q u w)
      { parts := [.edge]
        regs := R.edgeEuCfg u :: R.edgeEuLvl u :: [0, 1, 2].map fun g => R.edgeEuLvl (3 * (u.val / 3) + g) } fun L M =>
      M.reg (R.edgeEuCfg u) = (L.busWrite q.secure (R.edgeEuCfg u) w).reg (R.edgeEuCfg u) ∧
      (M.euMode u ≠ L.euMode u → M.euMode u = euOff → u.val ∉ L.edge.held → M.get (R.edgeEuLvl_out u) = 0) := by
  have hx : exec (.edgeModeWrite l q u w) s = .next (s.setLane l ((s.lane l).modeWritten q u w)) :=
    next_setLane s l ((LaneState.guardW_ok _ _ h).trans (if_pos hm))
  set W := (s.lane l).busWrite q.secure (R.edgeEuCfg u) w with hW
  have entered : Kept { parts := [.edge]
                        regs := R.edgeEuLvl u :: [0, 1, 2].map fun g => R.edgeEuLvl (3 * (u.val / 3) + g) }
      W (W.enterMode u) := (Kept.refl _ W).enterMode (by simp) (by simp) (by simp)
  have apart : R.edgeEuCfg u ∉ R.edgeEuLvl u :: [0, 1, 2].map fun g => R.edgeEuLvl (3 * (u.val / 3) + g) := by
    simp only [List.map_cons, List.map_nil, List.mem_cons, List.not_mem_nil, or_false, R.edgeEuCfg, R.edgeEuLvl]
    omega
  have kept : Kept { parts := [.edge]
                     regs := R.edgeEuLvl u :: [0, 1, 2].map fun g => R.edgeEuLvl (3 * (u.val / 3) + g) }
      W ((s.lane l).modeWritten q u w) := Kept.ite (fun _ => Kept.refl _ W) (fun _ => entered)
  refine Does.of_next_setLane hx rfl ?_ ⟨kept.2.1 _ apart, fun hne hoff hheld => ?_⟩
  · refine Kept.step (M := W) ((Kept.refl _ _).busWrite w (by simp)) (kept.mono ⟨by simp, ?_, by simp, by simp⟩)
    exact fun a ha => List.mem_cons_of_mem _ ha
  · rw [kept.euMode apart] at hne hoff
    have hedge : W.edge = (s.lane l).edge :=
      ((Kept.refl { regs := [R.edgeEuCfg u] } (s.lane l)).busWrite w (by simp)).1 .edge (by simp)
    have e : (s.lane l).modeWritten q u w = W.euOut u 0 :=
      (if_neg hne).trans (W.enterMode_off (hedge ▸ hheld) hoff)
    rw [e]
    exact W.get_euOut u (by decide)

theorem edgeLvlWrite_static {q : Req} {u : Fin 16} {w : Word} (h : (s.lane l).judge q (R.edgeEuLvl u) true w = none)
    (hm : (s.lane l).euMode u = euStatic) (hu : u.val ∉ (s.lane l).edge.held) :
    Does s (.edgeLvlWrite l q u w) { regs := [R.edgeEuLvl u] } fun L M =>
      M.is (R.edgeEuLvl_lvl u) = (L.busWrite q.secure (R.edgeEuLvl u) w).is (R.edgeEuLvl_lvl u) ∧
      M.get (R.edgeEuLvl_out u) = (if M.is (R.edgeEuLvl_lvl u) then 2 else 0) := by
  have written : Kept { regs := [R.edgeEuLvl u] } (s.lane l) ((s.lane l).busWrite q.secure (R.edgeEuLvl u) w) :=
    (Kept.refl _ _).busWrite w (by simp)
  have hm' := (written.euMode (u := u) (by simp [R.edgeEuCfg, R.edgeEuLvl])).trans hm
  have hu' : u.val ∉ ((s.lane l).busWrite q.secure (R.edgeEuLvl u) w).edge.held := by
    rwa [show ((s.lane l).busWrite q.secure (R.edgeEuLvl u) w).edge = _ from written.1 .edge (by simp)]
  have hx : exec (.edgeLvlWrite l q u w) s = .next (s.setLane l
      (((s.lane l).busWrite q.secure (R.edgeEuLvl u) w).euOut u
        (if ((s.lane l).busWrite q.secure (R.edgeEuLvl u) w).is (R.edgeEuLvl_lvl u) then 2 else 0))) :=
    next_setLane s l ((LaneState.guardW_ok _ _ h).trans ((if_pos hm').trans (LaneState.enterMode_static _ hu' hm')))
  generalize hW : (s.lane l).busWrite q.secure (R.edgeEuLvl u) w = W at hx written
  have hlvl : ∀ out, (W.euOut u out).is (R.edgeEuLvl_lvl u) = W.is (R.edgeEuLvl_lvl u) := fun out =>
    congrArg (· != 0) (W.get_put_apart (R.edgeEuLvl_out u) (R.edgeEuLvl_lvl u) out (by simp [R.edgeEuLvl_out])
      (by simp [R.edgeEuLvl_out, R.edgeEuLvl_lvl]))
  refine Does.of_next_setLane hx rfl (written.euOut _ (by simp)) ⟨(hlvl _).trans (by rw [hW]), ?_⟩
  rw [hlvl]
  exact W.get_euOut u (by split <;> decide)

theorem edgeLvlWrite_other {q : Req} {u : Fin 16} {w : Word} (h : (s.lane l).judge q (R.edgeEuLvl u) true w = none)
    (hm : (s.lane l).euMode u ≠ euStatic) :
    Does s (.edgeLvlWrite l q u w) { regs := [R.edgeEuLvl u] } fun L M =>
      M.reg (R.edgeEuLvl u) = (L.busWrite q.secure (R.edgeEuLvl u) w).reg (R.edgeEuLvl u) := by
  have written : Kept { regs := [R.edgeEuLvl u] } (s.lane l) ((s.lane l).busWrite q.secure (R.edgeEuLvl u) w) :=
    (Kept.refl _ _).busWrite w (by simp)
  have hm' := written.euMode (u := u) (by simp [R.edgeEuCfg, R.edgeEuLvl])
  exact Does.of_next_setLane (next_setLane s l ((LaneState.guardW_ok _ _ h).trans (if_neg (hm' ▸ hm)))) rfl written rfl

/-! ## Pulses (R231) -/

/-- The lane with a pulse request taken. -/
def LaneState.pulseTaken (L : LaneState) (p : Nat × Nat) : LaneState :=
  { L with edge := { L.edge with pulseReq := L.edge.pulseReq.erase p } }

/-- The lane with the end of the pulse of unit `u` that starts at `t`. -/
def LaneState.pulseUntil (L : LaneState) (u t : Nat) : LaneState :=
  { L with edge := { L.edge with pulseEnd := L.edge.pulseEnd.set u (t + 64 * atLeast1 (L.get (R.edgeEuCfg_width u))) } }

theorem LaneState.pulseTaken_kept (L : LaneState) (p : Nat × Nat) : Kept { parts := [.edge] } L (L.pulseTaken p) :=
  (Kept.refl _ L).with_edge _ (by simp)

theorem LaneState.pulseUntil_kept (L : LaneState) (u t : Nat) : Kept { parts := [.edge] } L (L.pulseUntil u t) :=
  (Kept.refl _ L).with_edge _ (by simp)

/-- The next request of a unit that can pulse: it starts, or it overlaps the previous one and is dropped. -/
theorem exec_pulseStart {u : Fin 16} {t : Nat} (hq : (s.lane l).edge.pulseReq = [(u.val, t)])
    (hm : (s.lane l).euMode u = euPulse) (hh : (s.lane l).is R.edgeStat_halt = false)
    (hu : u.val ∉ (s.lane l).edge.held) :
    exec (.pulseStart l u) s = .next (s.setLane l
      (if t < (s.lane l).edge.pulseEnd.get u then ((s.lane l).pulseTaken (u, t)).flag R.edgeStat_pulse_ovr
        else (((s.lane l).pulseTaken (u, t)).pulseUntil u t).euOut u 2)) := by
  have hf : (s.lane l).edge.pulseReq.find? (fun p => p.1 == u.val) = some (u.val, t) := by simp [hq]
  refine next_setLane s l ?_
  simp only [hf]
  refine if_neg ?_
  have hm' : ((s.lane l).pulseTaken (u, t)).euMode u = euPulse := hm
  have hh' : ((s.lane l).pulseTaken (u, t)).is R.edgeStat_halt = false := hh
  rintro (h | h | h)
  · exact h hm'
  · exact Bool.false_ne_true (hh'.symm.trans h)
  · exact hu h

theorem LaneState.pulseReq_pulseTaken (L : LaneState) {p : Nat × Nat} (h : L.edge.pulseReq = [p]) :
    (L.pulseTaken p).edge.pulseReq = [] := by
  simp [LaneState.pulseTaken, h]

theorem pulseStart_starts {u : Fin 16} {t : Nat} (hq : (s.lane l).edge.pulseReq = [(u.val, t)])
    (hm : (s.lane l).euMode u = euPulse) (hh : (s.lane l).is R.edgeStat_halt = false)
    (hu : u.val ∉ (s.lane l).edge.held) (ht : (s.lane l).edge.pulseEnd.get u ≤ t) :
    Does s (.pulseStart l u) { parts := [.edge], regs := [R.edgeEuLvl u] } fun L M =>
      M.edge.pulseReq = [] ∧ M.get (R.edgeEuLvl_out u) = 2 ∧
      M.edge.pulseEnd.get u = t + 64 * atLeast1 (L.get (R.edgeEuCfg_width u)) := by
  have hx := exec_pulseStart hq hm hh hu
  rw [if_neg (Nat.not_lt.2 ht)] at hx
  have k := (((s.lane l).pulseTaken_kept (u, t)).step (LaneState.pulseUntil_kept _ u t)).of_edge
    (F := { parts := [.edge], regs := [R.edgeEuLvl u] }) (by simp)
  refine Does.of_next_setLane hx rfl (k.euOut _ (by simp)) ⟨?_, LaneState.get_euOut _ u (by decide), ?_⟩
  · rw [LaneState.edge_euOut]
    exact (s.lane l).pulseReq_pulseTaken hq
  · rw [LaneState.edge_euOut]
    exact (NMap.get_set ..).trans (if_pos rfl)

theorem pulseStart_overlaps {u : Fin 16} {t : Nat} (hq : (s.lane l).edge.pulseReq = [(u.val, t)])
    (hm : (s.lane l).euMode u = euPulse) (hh : (s.lane l).is R.edgeStat_halt = false)
    (hu : u.val ∉ (s.lane l).edge.held) (ht : t < (s.lane l).edge.pulseEnd.get u) :
    Does s (.pulseStart l u) { parts := [.edge], regs := [R.edgeStat] } fun L M =>
      M.edge.pulseReq = [] ∧ M.is R.edgeStat_pulse_ovr = true ∧ M.edge.pulseEnd = L.edge.pulseEnd := by
  have hx := exec_pulseStart hq hm hh hu
  rw [if_pos ht] at hx
  have k := ((s.lane l).pulseTaken_kept (u, t)).of_edge (F := { parts := [.edge], regs := [R.edgeStat] }) (by simp)
  refine Does.of_next_setLane hx rfl (k.flag (by simp [R.edgeStat_pulse_ovr]))
    ⟨?_, LaneState.is_flag _ _ (by decide) (by decide), ?_⟩
  all_goals rw [LaneState.flag_def, LaneState.put_edge]
  · exact (s.lane l).pulseReq_pulseTaken hq
  · rfl

theorem pulseEnd_ends {u : Fin 16} (hm : (s.lane l).euMode u = euPulse) (ho : (s.lane l).get (R.edgeEuLvl_out u) = 2) :
    Does s (.pulseEnd l u) { regs := [R.edgeEuLvl u] } fun _ M => M.get (R.edgeEuLvl_out u) = 0 :=
  Does.of_next_setLane (next_setLane s l (LaneState.when_true _ _ (by simp [hm, ho]))) rfl
    ((Kept.refl _ _).euOut _ (by simp)) ((s.lane l).get_euOut u (by decide))

/-! ## The halt state (R238) -/

/-- The output of a unit in the halt state: the safe level for a leg of a driving or braking axis, else inactive. -/
def LaneState.haltOut (L : LaneState) (u : Nat) : Nat :=
  if u < 12 && (L.axDriving (u / 3) || L.axis (u / 3) == axAsc) then (if L.is (R.axpCfg_safe (u / 3)) then 1 else 0)
  else 0

/-- A unit that enters the halt state. -/
def LaneState.haltUnit (M : LaneState) (u : Nat) : LaneState :=
  if u < 12 && (M.axDriving (u / 3) || M.axis (u / 3) == axAsc) then
    M.euOut u (if M.is (R.axpCfg_safe (u / 3)) then 1 else 0)
  else M.euOut u 0

theorem LaneState.haltUnit_kept (M : LaneState) (u : Nat) : Kept { regs := [R.edgeEuLvl u] } M (M.haltUnit u) := by
  unfold LaneState.haltUnit
  exact Kept.ite (fun _ => (Kept.refl _ M).euOut _ (by simp)) (fun _ => (Kept.refl _ M).euOut _ (by simp))

theorem LaneState.haltUnit_within (M : LaneState) {u : Nat} (hu : u < 16) :
    Kept { regs := (List.range 16).map R.edgeEuLvl } M (M.haltUnit u) :=
  (M.haltUnit_kept u).of_regs (fun _ ha => List.mem_singleton.1 ha ▸ List.mem_map_of_mem (List.mem_range.2 hu))

theorem LaneState.get_haltUnit (M : LaneState) (u : Nat) : (M.haltUnit u).get (R.edgeEuLvl_out u) = M.haltOut u := by
  unfold LaneState.haltUnit LaneState.haltOut
  split
  · exact M.get_euOut u (by split <;> decide)
  · exact M.get_euOut u (by decide)

/-- The units of the lane in the halt state. -/
def LaneState.haltUnits (L : LaneState) : LaneState := (List.range 16).foldl (fun M u => M.haltUnit u) L

theorem LaneState.haltUnits_kept (L : LaneState) : Kept { regs := (List.range 16).map R.edgeEuLvl } L L.haltUnits :=
  Kept.foldl (Kept.refl _ L) (fun _ hu M h => h.step (M.haltUnit_within (List.mem_range.1 hu)))

theorem edgeEuLvl_units {a : Nat} (h : a ∈ (List.range 16).map R.edgeEuLvl) : 0x400D010C ≤ a ∧ a < 0x400D020C := by
  obtain ⟨u, hu, rfl⟩ := List.mem_map.1 h
  have := List.mem_range.1 hu
  simp only [R.edgeEuLvl]
  omega

theorem LaneState.get_haltUnits (L : LaneState) {u : Nat} (hu : u < 16) :
    L.haltUnits.get (R.edgeEuLvl_out u) = L.haltOut u := by
  refine foldl_at (u := u) (P := fun M => M.get (R.edgeEuLvl_out u) = L.haltOut u)
    (Q := Kept { regs := (List.range 16).map R.edgeEuLvl } L) _ (List.mem_range.2 hu) (Kept.refl _ L)
    (fun x hx M h => h.step (M.haltUnit_within (List.mem_range.1 hx)))
    (fun M h => ?_) (fun x _ hx M h => ?_)
  · have below : ∀ f : RF, f.addr < 0x400D0000 → M.get f = L.get f := fun f hf => h.get f (fun m => by
      have := edgeEuLvl_units m
      omega)
    have hst := below (R.axpState_state (u / 3)) (by simp only [R.axpState_state, R.axpState]; omega)
    have hsafe := below (R.axpCfg_safe (u / 3)) (by simp only [R.axpCfg_safe, R.axpCfg]; omega)
    rw [M.get_haltUnit u]
    unfold LaneState.haltOut LaneState.axDriving LaneState.axis LaneState.is
    rw [hst, hsafe]
  · refine ((M.haltUnit_kept x).get _ ?_).trans h
    simp only [List.mem_singleton, R.edgeEuLvl_out, R.edgeEuLvl]
    omega

/-- What the edge generator keeps in the halt state: every unit held, no load and no pulse pending. -/
def EdgeSt.halted (E : EdgeSt) : EdgeSt :=
  { E with
    held := List.range 16
    loaded := []
    pulseReq := []
    releasing := false }

theorem exec_edgeHaltEnter (hc : (s.lane l).haltCause = true) (hh : (s.lane l).is R.edgeStat_halt = false) :
    exec (.edgeHaltEnter l) s = .next (s.setLane l
      (LaneState.flag { (s.lane l).haltUnits with edge := (s.lane l).haltUnits.edge.halted } R.edgeStat_halt)) :=
  next_setLane s l (LaneState.when_true _ _ (by simp [hc, hh]))

theorem edgeHaltEnter_enters (hc : (s.lane l).haltCause = true) (hh : (s.lane l).is R.edgeStat_halt = false) :
    Does s (.edgeHaltEnter l)
      { parts := [.edge], regs := R.edgeStat :: (List.range 16).map R.edgeEuLvl } fun L M =>
      M.is R.edgeStat_halt = true ∧ M.edge.pulseReq = [] ∧ M.edge.loaded = [] ∧
      (∀ u, u < 12 → (L.axDriving (u / 3) = true ∨ L.axis (u / 3) = axAsc) →
        M.get (R.edgeEuLvl_out u) = (if L.is (R.axpCfg_safe (u / 3)) then 1 else 0)) ∧
      (∀ u, 12 ≤ u → u < 16 → M.get (R.edgeEuLvl_out u) = 0) := by
  have hx := exec_edgeHaltEnter hc hh
  have k := ((s.lane l).haltUnits_kept.of_regs
    (F := { parts := [.edge], regs := R.edgeStat :: (List.range 16).map R.edgeEuLvl })
    (fun a ha => List.mem_cons_of_mem _ ha)).with_edge (s.lane l).haltUnits.edge.halted (by simp)
  have outs : ∀ N : LaneState, ∀ u, (N.flag R.edgeStat_halt).get (R.edgeEuLvl_out u) = N.get (R.edgeEuLvl_out u) :=
    fun N u => N.get_put_ne _ _ _ (by simp only [R.edgeEuLvl_out, R.edgeEuLvl, R.edgeStat_halt, R.edgeStat]; omega)
  refine Does.of_next_setLane hx rfl (k.flag (by simp [R.edgeStat_halt]))
    ⟨LaneState.is_flag _ _ (by decide) (by decide), rfl, rfl, fun u hu ha => ?_, fun u hu hlt => ?_⟩
  · rw [outs, LaneState.get_edge, LaneState.get_haltUnits _ (by omega)]
    exact if_pos (by simp [hu, ha])
  · rw [outs, LaneState.get_edge, LaneState.get_haltUnits _ hlt]
    exact if_neg (by simp [Nat.not_lt.2 hu])

theorem edgeHaltRelease_releases (hc : (s.lane l).haltCause = false) (hh : (s.lane l).is R.edgeStat_halt = true) :
    Does s (.edgeHaltRelease l) { parts := [.edge], regs := [R.edgeStat] } fun _ M =>
      M.is R.edgeStat_halt = false ∧ M.edge.releasing = true :=
  Does.of_next_setLane (next_setLane s l (LaneState.when_true _ _ (by simp [hc, hh]))) rfl
    (((Kept.refl _ _).setF (f := R.edgeStat_halt) false (by simp [R.edgeStat_halt])).with_edge _ (by simp))
    ⟨((s.lane l).setF R.edgeStat_halt false).is_edge _ _ |>.trans ((s.lane l).is_setF _ _ (by decide) (by decide)), rfl⟩

/-! ## Calibration (R236, R237) -/

/-- The lane with the edge generator's registers locked and its calibration begun. -/
def LaneState.edgeLocked (L : LaneState) : LaneState :=
  { L with
    locks := addTo R.edgeLock L.locks
    edge := { L.edge with calRunning := true } }

theorem LaneState.edgeLocked_kept (L : LaneState) : Kept { parts := [.edge, .locks] } L L.edgeLocked :=
  ((Kept.refl _ L).with_locks (addTo R.edgeLock L.locks) (by simp)).with_edge { L.edge with calRunning := true }
    (by simp)

theorem edgeLock_starts {q : Req} {w : Word} (h : (s.lane l).judge q R.edgeLock true w = none)
    (hw : bits w.toNat 15 0 = 0xC1A5) (hl : (s.lane l).locked R.edgeLock = false) :
    Does s (.edgeLock l q w) { parts := [.edge, .locks] } fun _ M => R.edgeLock ∈ M.locks ∧ M.edge.calRunning = true :=
  Does.of_next_setLane (next_setLane s l ((LaneState.guardW_ok _ _ h).trans (if_pos ⟨hw, by simp [hl]⟩))) rfl
    (s.lane l).edgeLocked_kept ⟨by simp, rfl⟩

/-- The lane with a new tap table of group `g` of the lock-time calibration. -/
def LaneState.calTable (M : LaneState) (g n16 : Nat) : LaneState :=
  { M with edge := { M.edge with newTab := M.edge.newTab ++ [(g, n16)] } }

/-- The lock-time calibration of one group: a new tap table within the limits, else dl_fail. -/
def LaneState.calGroup (M : LaneState) (ns : List Nat) (g : Nat) : LaneState :=
  if M.n16Ok (ns.getD g 0) then M.calTable g (ns.getD g 0) else M.flag R.edgeStat_dl_fail

theorem LaneState.calGroup_kept (M : LaneState) (ns : List Nat) (g : Nat) :
    Kept { parts := [.edge], regs := [R.edgeStat] } M (M.calGroup ns g) :=
  Kept.ite (fun _ => (Kept.refl _ M).with_edge _ (by simp))
    (fun _ => (Kept.refl _ M).flag (by simp [R.edgeStat_dl_fail]))

/-- The lane with the lock-time calibration no longer running. -/
def LaneState.calEnded (L : LaneState) : LaneState := { L with edge := { L.edge with calRunning := false } }

/-- The lane after the lock-time calibration of its groups. -/
def LaneState.calGroups (L : LaneState) (ns : List Nat) : LaneState :=
  [0, 1, 2, 3].foldl (fun M g => M.calGroup ns g) L.calEnded

theorem LaneState.calGroups_kept (L : LaneState) (ns : List Nat) :
    Kept { parts := [.edge], regs := [R.edgeStat] } L (L.calGroups ns) :=
  Kept.foldl ((Kept.refl _ L).with_edge _ (by simp)) (fun g _ M h => h.step (M.calGroup_kept ns g))

/-- The limits are as before a change of the state of the edge generator. -/
theorem Kept.n16Ok (h : Kept { parts := [.edge], regs := [R.edgeStat] } L M) (n16 : Nat) :
    M.n16Ok n16 = L.n16Ok n16 := by
  unfold LaneState.n16Ok
  rw [h.get _ (by decide), h.get _ (by decide)]

/-- The calibration ends with its groups done, and with cal_done where all are within the limits. -/
theorem exec_edgeCalComplete {a b c d : BitVec 12} (hr : (s.lane l).edge.calRunning = true) :
    exec (.edgeCalComplete l a b c d) s = .next (s.setLane l
      (let N := (s.lane l).calGroups [a.toNat, b.toNat, c.toNat, d.toNat]
      if [a.toNat, b.toNat, c.toNat, d.toNat].all (fun n => N.n16Ok n) then N.setF R.edgeStat_cal_done true else N)) :=
  next_setLane s l (LaneState.when_true _ _ hr)

/-- A calibration of groups that are all within the limits takes their new tables. -/
theorem calGroup_tables (L : LaneState) (ns gs : List Nat) (h : ∀ g ∈ gs, L.n16Ok (ns.getD g 0) = true) :
    (gs.foldl (fun M g => M.calGroup ns g) L).edge.newTab = L.edge.newTab ++ gs.map (fun g => (g, ns.getD g 0)) ∧
      (gs.foldl (fun M g => M.calGroup ns g) L).edge.calRunning = L.edge.calRunning ∧
      (gs.foldl (fun M g => M.calGroup ns g) L).reg R.edgeStat = L.reg R.edgeStat := by
  induction gs generalizing L with
  | nil => simp
  | cons g gs ih =>
    have e : L.calGroup ns g = L.calTable g (ns.getD g 0) := if_pos (h g (List.mem_cons_self ..))
    rw [List.foldl_cons, e]
    obtain ⟨htab, hrun, hreg⟩ := ih (L.calTable g (ns.getD g 0)) (fun x hx => h x (List.mem_cons_of_mem g hx))
    exact ⟨by rw [htab, List.map_cons, LaneState.calTable, List.append_assoc, List.singleton_append], hrun, hreg⟩

theorem edgeCalComplete_passes {a b c d : BitVec 12} (hr : (s.lane l).edge.calRunning = true)
    (h : ∀ x ∈ [a, b, c, d], (s.lane l).n16Ok x.toNat = true) :
    Does s (.edgeCalComplete l a b c d) { parts := [.edge], regs := [R.edgeStat] } fun L M =>
      M.is R.edgeStat_cal_done = true ∧ M.edge.calRunning = false ∧ M.is R.edgeStat_dl_fail = L.is R.edgeStat_dl_fail ∧
      M.edge.newTab = L.edge.newTab ++ [(0, a.toNat), (1, b.toNat), (2, c.toNat), (3, d.toNat)] := by
  set ns := [a.toNat, b.toNat, c.toNat, d.toNat] with hns
  have k := (s.lane l).calGroups_kept ns
  have hx := exec_edgeCalComplete (s := s) (l := l) (a := a) (b := b) (c := c) (d := d) hr
  have hall : ns.all (fun n => ((s.lane l).calGroups ns).n16Ok n) = true := by
    refine List.all_eq_true.2 (fun n hn => (k.n16Ok n).trans ?_)
    obtain ⟨x, hx, rfl⟩ := (List.mem_map (f := BitVec.toNat) (l := [a, b, c, d])).1 hn
    exact h x hx
  simp only [← hns, hall, if_true] at hx
  obtain ⟨htab, hrun, hreg⟩ := calGroup_tables (s.lane l).calEnded ns [0, 1, 2, 3] (by
    have e : ∀ n, (s.lane l).calEnded.n16Ok n = (s.lane l).n16Ok n := fun _ => rfl
    simpa [hns, e] using h)
  refine Does.of_next_setLane hx rfl (k.setF _ (by simp [R.edgeStat_cal_done]))
    ⟨LaneState.is_setF _ _ _ (by decide) (by decide), hrun, ?_, htab⟩
  refine congrArg (· != 0) ((LaneState.get_put_apart _ _ _ _ (by decide) (by decide)).trans ?_)
  exact congrArg (fun w : Word => bits w.toNat 20 20) hreg

/-- A group that is not within the limits sets dl_fail, which stays set. -/
theorem LaneState.calGroups_fails (L : LaneState) {ns : List Nat} {g : Nat} (hg : g ∈ [0, 1, 2, 3])
    (h : L.n16Ok (ns.getD g 0) = false) : (L.calGroups ns).is R.edgeStat_dl_fail = true := by
  refine foldl_at (u := g) (P := fun M => M.is R.edgeStat_dl_fail = true)
    (Q := Kept { parts := [.edge], regs := [R.edgeStat] } L) _ hg ((Kept.refl _ L).with_edge _ (by simp))
    (fun x _ M h => h.step (M.calGroup_kept ns x)) (fun M k => ?_) (fun x _ _ M k => ?_)
  · rw [LaneState.calGroup, k.n16Ok, h]
    exact M.is_flag _ (by decide) (by decide)
  · unfold LaneState.calGroup
    split
    · exact k
    · exact M.is_flag _ (by decide) (by decide)

/-- The calibration of groups leaves cal_done. -/
theorem LaneState.calGroups_calDone (L : LaneState) (ns : List Nat) :
    (L.calGroups ns).is R.edgeStat_cal_done = L.is R.edgeStat_cal_done := by
  refine (foldl_obs _ (fun M => M.is R.edgeStat_cal_done) _ _ (fun g _ M => ?_)).trans rfl
  unfold LaneState.calGroup
  split
  · rfl
  · exact congrArg (· != 0) (M.get_put_apart R.edgeStat_dl_fail R.edgeStat_cal_done 1 (by decide) (by decide))

theorem edgeCalComplete_fails {a b c d : BitVec 12} (hr : (s.lane l).edge.calRunning = true)
    (h : ∃ x ∈ [a, b, c, d], (s.lane l).n16Ok x.toNat = false) :
    Does s (.edgeCalComplete l a b c d) { parts := [.edge], regs := [R.edgeStat] } fun L M =>
      M.is R.edgeStat_dl_fail = true ∧ M.is R.edgeStat_cal_done = L.is R.edgeStat_cal_done := by
  set ns := [a.toNat, b.toNat, c.toNat, d.toNat] with hns
  have k := (s.lane l).calGroups_kept ns
  have hx := exec_edgeCalComplete (s := s) (l := l) (a := a) (b := b) (c := c) (d := d) hr
  obtain ⟨x, hm, hbad⟩ := h
  obtain ⟨g, hg, e⟩ : ∃ g ∈ [0, 1, 2, 3], ns.getD g 0 = x.toNat := by
    simp only [List.mem_cons, List.not_mem_nil, or_false] at hm
    obtain rfl | rfl | rfl | rfl := hm
    exacts [⟨0, by simp, rfl⟩, ⟨1, by simp, rfl⟩, ⟨2, by simp, rfl⟩, ⟨3, by simp, rfl⟩]
  have hall : ns.all (fun n => ((s.lane l).calGroups ns).n16Ok n) = false := by
    refine List.all_eq_false.2 ⟨x.toNat, ?_, by simp [k.n16Ok, hbad]⟩
    exact List.mem_map_of_mem (f := BitVec.toNat) hm
  simp only [← hns, hall, Bool.false_eq_true, if_false] at hx
  exact Does.of_next_setLane hx rfl k ⟨(s.lane l).calGroups_fails hg (e ▸ hbad), (s.lane l).calGroups_calDone ns⟩

theorem dlStale_flags {g : Fin 4} (h : (s.lane l).get R.edgeDlAge_age < (s.lane l).get (R.edgeDlStat_age g.val)) :
    Does s (.dlStale l g) { regs := [R.edgeStat] } fun _ M => M.is R.edgeStat_dl_stale = true :=
  Does.of_next_setLane (next_setLane s l (LaneState.when_true _ _ (decide_eq_true h))) rfl
    ((Kept.refl _ _).flag (by simp [R.edgeStat_dl_stale])) ((s.lane l).is_flag _ (by decide) (by decide))

end Sys2Proof.Machine

open Sys2Proof Sys2Proof.Machine

/-- Settles O27, from what each command of the edge generator does. -/
theorem edgeUnits : Obligations.EdgeUnits := by
  unfold Obligations.EdgeUnits
  refine ⟨fun s l n done seq => edgeLoad_loads, ?field, ?pwm, fun s l late => timebaseBoundary_field,
    fun s l tb late => timebaseBoundary_starts, fun s l q w r => edgeUpdHoldWrite_writes,
    fun s l q u w => edgeModeWrite_refused, fun s l q u w => edgeModeWrite_allowed,
    fun s l q u w => edgeLvlWrite_static, fun s l q u w => edgeLvlWrite_other,
    fun s l u t hq hm hh hu => ⟨pulseStart_starts hq hm hh hu, pulseStart_overlaps hq hm hh hu⟩,
    fun s l u => pulseEnd_ends, fun s l => edgeHaltEnter_enters, fun s l => edgeHaltRelease_releases,
    fun s l q w => edgeLock_starts, fun s l a b c d => edgeCalComplete_passes,
    fun s l a b c d => edgeCalComplete_fails, fun s l g => dlStale_flags⟩
  case field =>
    intro s l u off hu hm hloaded hreg hwithin hfirst hhalt hfree hsole
    exact edgeCompareFire_field hu hm
      { live := by simp [LaneState.compareLive, hm, hloaded, hreg]
        within := hwithin
        first := hfirst
        unhalted := hhalt
        free := hfree
        sole := hsole }
  case pwm =>
    intro s l u off hm hruns hcal hwithin hfirst hhalt hfree hsole
    exact edgeCompareFire_pwm hm
      { live := by simp [LaneState.compareLive, hm, hruns, hcal, euPwm, euField]
        within := hwithin
        first := hfirst
        unhalted := hhalt
        free := hfree
        sole := hsole }

end
